-- ==== Sys2Proof/Word.lean ====
section
/-! DEFINITION. Word.lean: the word types of the machine and the type of its sparse tables.
A value that the spec adds, shifts or masks is a bit vector; a count, an index or an address used as a key is a Nat. -/
namespace Sys2Proof

/-- A byte (00_scope.md R4). -/
abbrev Byte := BitVec 8

/-- A 64-bit word: a scalar register, a control register, TIME (00_scope.md R4, 12 R341). -/
abbrev Word := BitVec 64

/-- A vector register (00_scope.md R1, 12 R341). -/
abbrev VWord := BitVec 2048

/-- A sparse table: pairs of a key and a value, keys strictly rising, no value equal to what an unlisted key reads as. -/
abbrev SMap (α : Type) := List (Nat × α)

end Sys2Proof
end

