-- ==== Sys2Proof/Machine/Maps.lean ====
section
/-! DEFINITION. Machine/Maps.lean: sparse tables, byte lists and the bit-field helpers that every other file of the machine uses. -/
namespace Sys2Proof.Machine

/-- What key `k` of a sparse table reads as; `d` where nothing is listed. -/
def SMap.get {α : Type} (m : SMap α) (k : Nat) (d : α) : α :=
  match m with
  | [] => d
  | (j, v) :: r => if k = j then v else SMap.get r k d

/-- Key `k` with nothing listed. -/
def SMap.drop {α : Type} (m : SMap α) (k : Nat) : SMap α :=
  match m with
  | [] => []
  | (j, v) :: r => if k = j then SMap.drop r k else (j, v) :: SMap.drop r k

/-- Key `k` listed with `v`, keys kept rising. -/
def SMap.put {α : Type} (m : SMap α) (k : Nat) (v : α) : SMap α :=
  match m with
  | [] => [(k, v)]
  | (j, w) :: r => if k < j then (k, v) :: (j, w) :: r else if k = j then (k, v) :: r else (j, w) :: SMap.put r k v

/-- Write `v` to key `k` of a table whose unlisted keys read `d`: writing `d` removes the entry. -/
def SMap.set {α : Type} [DecidableEq α] (m : SMap α) (k : Nat) (v d : α) : SMap α :=
  if v = d then SMap.drop m k else SMap.put m k v

/-- Apply `g` to the value at key `k`. -/
def SMap.upd {α : Type} [DecidableEq α] (m : SMap α) (k : Nat) (d : α) (g : α → α) : SMap α :=
  SMap.set m k (g (SMap.get m k d)) d

/-- The keys of a table rise strictly from above `lo`. -/
def SMap.risingFrom {α : Type} (m : SMap α) (lo : Option Nat) : Bool :=
  match m with
  | [] => true
  | (j, _) :: r => (match lo with | none => true | some l => decide (l < j)) && SMap.risingFrom r (some j)

/-- The canonical form: keys strictly rising, no entry equal to what an unlisted key reads as. -/
def SMap.wf {α : Type} [DecidableEq α] (m : SMap α) (d : α) : Bool :=
  SMap.risingFrom m none && m.all fun p => decide (p.2 ≠ d)

/-- The canonical form of a byte memory whose unlisted bytes read 0 (08 R210 R218: scrubbed memory). -/
def Memory.wf (m : List Host.Cell) : Bool := SMap.wf m 0

/-- One byte of memory. DESIGN CHOICE [log 14]. -/
def Memory.read (m : List Host.Cell) (a : Nat) : Byte := SMap.get m a 0

/-- Write one byte of memory, keeping the canonical form. -/
def Memory.write (m : List Host.Cell) (a : Nat) (v : Byte) : List Host.Cell := SMap.set m a v 0

/-- `n` bytes from address `a`, lowest first. -/
def Memory.readN (m : List Host.Cell) (a n : Nat) : List Byte :=
  (List.range n).map fun i => Memory.read m (a + i)

/-- Write bytes from address `a` up. -/
def Memory.writeN (m : List Host.Cell) (a : Nat) (bs : List Byte) : List Host.Cell :=
  match bs with
  | [] => m
  | b :: r => Memory.writeN (Memory.write m a b) (a + 1) r

/-- Write those bytes whose mask bit is set. -/
def Memory.writeMask (m : List Host.Cell) (a : Nat) (bs : List Byte) (mask : List Bool) : List Host.Cell :=
  match bs, mask with
  | b :: r, k :: ks => Memory.writeMask (if k then Memory.write m a b else m) (a + 1) r ks
  | _, _ => m

/-- Clear `n` bytes from `a` up: one pass over the list. -/
def Memory.zero (m : List Host.Cell) (a n : Nat) : List Host.Cell := m.filter fun p => p.1 < a || a + n ≤ p.1

/-- The number whose little-endian bytes are `bs` (00 R4). -/
def leNat (bs : List Byte) : Nat :=
  match bs with
  | [] => 0
  | b :: r => b.toNat + 256 * leNat r

/-- The `n` little-endian bytes of a number. -/
def natLe (n x : Nat) : List Byte :=
  match n with
  | 0 => []
  | n + 1 => BitVec.ofNat 8 x :: natLe n (x / 256)

/-- The number whose big-endian bytes are `bs`. -/
def beNat (bs : List Byte) : Nat := leNat bs.reverse

/-- The `n` big-endian bytes of a number. -/
def natBe (n x : Nat) : List Byte := (natLe n x).reverse

/-- Field [lo + w - 1 : lo] of a number. -/
def fld (x lo w : Nat) : Nat := x / 2 ^ lo % 2 ^ w

/-- Bit `n` of a number. -/
def bitOf (x n : Nat) : Bool := x / 2 ^ n % 2 == 1

/-- One bit as a number. -/
def b2n (b : Bool) : Nat := if b then 1 else 0

/-- The low `w` bits of `x` read as two's complement. -/
def sext (x w : Nat) : Int := if x % 2 ^ w < 2 ^ (w - 1) then (x % 2 ^ w : Nat) else (x % 2 ^ w : Nat) - (2 ^ w : Nat)

/-- An integer as a 64-bit word. -/
def word (x : Int) : Word := BitVec.ofInt 64 x

/-- Bytes `off` to `off + n - 1` of a list. -/
def slice {α : Type} (l : List α) (off n : Nat) : List α := (l.drop off).take n

/-- Little-endian number at bytes `off` to `off + n - 1`. -/
def leAt (l : List Byte) (off n : Nat) : Nat := leNat (slice l off n)

/-- Big-endian number at bytes `off` to `off + n - 1`. -/
def beAt (l : List Byte) (off n : Nat) : Nat := beNat (slice l off n)

/-- Replace bytes `off` up by `bs`. -/
def splice {α : Type} (l : List α) (off : Nat) (bs : List α) : List α := l.take off ++ bs ++ l.drop (off + bs.length)

/-- A list padded with zeros to `n` elements. -/
def padTo (l : List Byte) (n : Nat) : List Byte := l ++ List.replicate (n - l.length) 0

/-- The bytes of a vector register, byte 0 first (10 R276). -/
def vBytes (v : VWord) : List Byte := (List.range 256).map fun i => v.extractLsb' (8 * i) 8

/-- The bit vector whose little-endian bytes are `bs`. -/
def bytesBv (w : Nat) (bs : List Byte) : BitVec w := BitVec.ofNat w (leNat bs)

/-- Where mask byte `i` is true, the byte's eight bits are ones. -/
def maskBits (w : Nat) (mask : List Bool) : BitVec w :=
  BitVec.ofNat w (leNat (mask.map fun b => if b then 0xFF else 0))

/-- All ones in `w` bits. -/
def ones (w : Nat) : BitVec w := BitVec.allOnes w

/-- A list without element `x`. -/
def without (l : List Nat) (x : Nat) : List Nat := l.filter (· != x)

/-- A list with element `x` added once. -/
def withElem (l : List Nat) (x : Nat) : List Nat := if l.contains x then l else l ++ [x]

/-- Saturating increment to 48 bits (00 R6). -/
def sat48 (x n : Nat) : Nat := min (x + n) (2 ^ 48 - 1)

/-- Number of leading zero bits in `w` bits. -/
def clzN (w x : Nat) : Nat :=
  match w with
  | 0 => 0
  | w + 1 => if x / 2 ^ w % 2 == 1 then 0 else 1 + clzN w x

/-- Number of trailing zero bits in `w` bits. -/
def ctzN (w x : Nat) : Nat :=
  match w with
  | 0 => 0
  | w + 1 => if x % 2 == 1 then 0 else 1 + ctzN w (x / 2)

/-- Number of set bits in `w` bits. -/
def popN (w x : Nat) : Nat :=
  match w with
  | 0 => 0
  | w + 1 => x % 2 + popN w (x / 2)

/-- The lowest index below `n` that satisfies `p`, searching from `i`. -/
def firstFrom (n i : Nat) (p : Nat → Bool) : Option Nat :=
  match n with
  | 0 => none
  | n + 1 => if p i then some i else firstFrom n (i + 1) p

/-- The lowest index below `n` that satisfies `p`. -/
def firstBelow (n : Nat) (p : Nat → Bool) : Option Nat := firstFrom n 0 p

/-- Replace element `i` of a list by its image under `g`. -/
def modNth {α : Type} (l : List α) (i : Nat) (g : α → α) : List α :=
  match l, i with
  | [], _ => []
  | a :: r, 0 => g a :: r
  | a :: r, i + 1 => a :: modNth r i g

/-- Whether unit `u` is in the set. -/
def UnitSetMem (rest : Bool) (but : List Nat) (u : Nat) : Bool := if but.contains u then !rest else rest

end Sys2Proof.Machine
end

