-- ==== Sys2Proof/Machine/Crypto.lean ====
section
/-! DEFINITION. Machine/Crypto.lean: the standard algorithms the spec names and builds on: AES-256, XTS over one line, the integrity
value, SHA-256 with HMAC and HKDF, AES-256-GCM and CRC-32C (05 R125 R134, 17 R495 R496, 02 R44 R55). -/
namespace Sys2Proof.Machine

/-- Byte-wise exclusive or. -/
def xorBytes (a b : List Byte) : List Byte := (a.zip b).map fun p => p.1 ^^^ p.2

/-! AES-256 (FIPS 197). -/

/-- Multiplication by x in the field of AES. -/
def xtime (a : Byte) : Byte := (a <<< 1) ^^^ (if a.msb then 0x1B else 0)

/-- The product of two field elements, over the `n` low bits of `b`. -/
def gmul (n : Nat) (a b : Byte) : Byte :=
  match n with
  | 0 => 0
  | n + 1 => (if b.getLsbD 0 then a else 0) ^^^ gmul n (xtime a) (b >>> 1)

/-- The inverse of a field element, 0 for 0: its 254th power. -/
def ginv (a : Byte) : Byte :=
  let sq (x : Byte) : Byte := gmul 8 x x
  let a2 := sq a
  let a4 := sq a2
  let a8 := sq a4
  let a16 := sq a8
  let a32 := sq a16
  let a64 := sq a32
  gmul 8 (sq a64) (gmul 8 a64 (gmul 8 a32 (gmul 8 a16 (gmul 8 a8 (gmul 8 a4 a2)))))

/-- The S-box. -/
def subByte (a : Byte) : Byte :=
  let b := ginv a
  b ^^^ b.rotateLeft 1 ^^^ b.rotateLeft 2 ^^^ b.rotateLeft 3 ^^^ b.rotateLeft 4 ^^^ 0x63

/-- The inverse S-box. -/
def unsubByte (a : Byte) : Byte := ginv (a.rotateLeft 1 ^^^ a.rotateLeft 3 ^^^ a.rotateLeft 6 ^^^ 0x05)

/-- The first `8 + n` words of the key schedule. -/
def aesWords (key : List Byte) (n : Nat) : List (List Byte) :=
  match n with
  | 0 => (List.range 8).map fun i => slice key (4 * i) 4
  | n + 1 =>
    let w := aesWords key n
    let i := n + 8
    let t := w.getD (i - 1) []
    let t :=
      if i % 8 == 0 then xorBytes ((t.drop 1 ++ t.take 1).map subByte) [BitVec.ofNat 8 (2 ^ (i / 8 - 1)), 0, 0, 0]
      else if i % 8 == 4 then t.map subByte else t
    w ++ [xorBytes (w.getD (i - 8) []) t]

/-- The fifteen round keys. -/
def aesKeys (key : List Byte) : List (List Byte) :=
  let w := aesWords key 52
  (List.range 15).map fun r => ((w.drop (4 * r)).take 4).flatten

/-- ShiftRows, and with 3 for 1 its inverse: row r of column c comes from column c + k r. -/
def shiftRows (k : Nat) (b : List Byte) : List Byte :=
  (List.range 16).map fun i => b.getD (i % 4 + 4 * ((i / 4 + k * (i % 4)) % 4)) 0

/-- A column times a circulant of four coefficients. -/
def mixWith (m : List Byte) (b : List Byte) : List Byte :=
  (List.range 16).map fun i =>
    (List.range 4).foldl (fun x j => x ^^^ gmul 8 (b.getD (i / 4 * 4 + j) 0) (m.getD ((j + 4 - i % 4) % 4) 0)) 0

/-- AES-256 encryption of one block under round keys. -/
def aesEnc (ks : List (List Byte)) (b : List Byte) : List Byte :=
  let k (r : Nat) : List Byte := ks.getD r []
  let mid := (List.range 13).foldl (fun x r => xorBytes (mixWith [2, 3, 1, 1] (shiftRows 1 (x.map subByte))) (k (r + 1)))
    (xorBytes b (k 0))
  xorBytes (shiftRows 1 (mid.map subByte)) (k 14)

/-- AES-256 decryption of one block under round keys. -/
def aesDec (ks : List (List Byte)) (b : List Byte) : List Byte :=
  let k (r : Nat) : List Byte := ks.getD r []
  let mid := (List.range 13).foldl
    (fun x r => mixWith [14, 11, 13, 9] (xorBytes ((shiftRows 3 x).map unsubByte) (k (13 - r)))) (xorBytes b (k 14))
  xorBytes ((shiftRows 3 mid).map unsubByte) (k 0)

/-! Lines: AES-256-XTS and the integrity value (05 R134, 17 R493 R494 R495). -/

/-- The tweak times alpha: the low end is bit 0 of byte 0. -/
def xtsNext (t : Nat) : Nat := (2 * t % 2 ^ 128) ^^^ (if 2 ^ 127 ≤ t then 0x87 else 0)

/-- The tweaks of the `n` blocks from tweak `t`. -/
def xtsTweaks (n t : Nat) : List (List Byte) :=
  match n with
  | 0 => []
  | n + 1 => natLe 16 t :: xtsTweaks n (xtsNext t)

/-- One 128-byte data unit at tweak number `t`: `enc` says which way. The key is K1 then K2. DEDUCED [log 50]. -/
def xtsLine (enc : Bool) (key : List Byte) (t : Nat) (line : List Byte) : List Byte :=
  let k1 := aesKeys (key.take 32)
  let k2 := aesKeys (key.drop 32)
  ((xtsTweaks 8 (leNat (aesEnc k2 (natLe 16 t)))).zipIdx).flatMap fun p =>
    let x := xorBytes (slice line (16 * p.2) 16) p.1
    xorBytes (if enc then aesEnc k1 x else aesDec k1 x) p.1

/-- ICV of a ciphertext line at tweak `t` (17 R495). DEDUCED [log 50]. -/
def lineIcv (key : List Byte) (t : Nat) (line : List Byte) : BitVec 32 :=
  let k1 := aesKeys (key.take 32)
  let k2 := aesKeys (key.drop 32)
  let x := (List.range 8).foldl (fun x k => aesEnc k1 (xorBytes x (slice line (16 * k) 16)))
    (aesEnc k2 (natLe 16 (t ^^^ 2 ^ 127)))
  bytesBv 32 (x.take 4)

/-! SHA-256 (FIPS 180-4), HMAC and HKDF (17 R496, 05 R125). -/

/-- The round constants. -/
def shaK : List (BitVec 32) :=
  [0x428a2f98, 0x71374491, 0xb5c0fbcf, 0xe9b5dba5, 0x3956c25b, 0x59f111f1, 0x923f82a4, 0xab1c5ed5] ++
  [0xd807aa98, 0x12835b01, 0x243185be, 0x550c7dc3, 0x72be5d74, 0x80deb1fe, 0x9bdc06a7, 0xc19bf174] ++
  [0xe49b69c1, 0xefbe4786, 0x0fc19dc6, 0x240ca1cc, 0x2de92c6f, 0x4a7484aa, 0x5cb0a9dc, 0x76f988da] ++
  [0x983e5152, 0xa831c66d, 0xb00327c8, 0xbf597fc7, 0xc6e00bf3, 0xd5a79147, 0x06ca6351, 0x14292967] ++
  [0x27b70a85, 0x2e1b2138, 0x4d2c6dfc, 0x53380d13, 0x650a7354, 0x766a0abb, 0x81c2c92e, 0x92722c85] ++
  [0xa2bfe8a1, 0xa81a664b, 0xc24b8b70, 0xc76c51a3, 0xd192e819, 0xd6990624, 0xf40e3585, 0x106aa070] ++
  [0x19a4c116, 0x1e376c08, 0x2748774c, 0x34b0bcb5, 0x391c0cb3, 0x4ed8aa4a, 0x5b9cca4f, 0x682e6ff3] ++
  [0x748f82ee, 0x78a5636f, 0x84c87814, 0x8cc70208, 0x90befffa, 0xa4506ceb, 0xbef9a3f7, 0xc67178f2]

/-- The initial state. -/
def shaInit : List (BitVec 32) :=
  [0x6a09e667, 0xbb67ae85, 0x3c6ef372, 0xa54ff53a, 0x510e527f, 0x9b05688c, 0x1f83d9ab, 0x5be0cd19]

/-- The message schedule of 16 + n words. -/
def shaWords (w : List (BitVec 32)) (n : Nat) : List (BitVec 32) :=
  match n with
  | 0 => w
  | n + 1 =>
    let v := shaWords w n
    let i := n + 16
    let a := v.getD (i - 15) 0
    let b := v.getD (i - 2) 0
    let s0 := a.rotateRight 7 ^^^ a.rotateRight 18 ^^^ (a >>> 3)
    let s1 := b.rotateRight 17 ^^^ b.rotateRight 19 ^^^ (b >>> 10)
    v ++ [v.getD (i - 16) 0 + s0 + v.getD (i - 7) 0 + s1]

/-- One round on the eight working variables. -/
def shaRound (h : List (BitVec 32)) (kw : BitVec 32) : List (BitVec 32) :=
  match h with
  | [a, b, c, d, e, f, g, x] =>
    let t1 := x + (e.rotateRight 6 ^^^ e.rotateRight 11 ^^^ e.rotateRight 25) + ((e &&& f) ^^^ (~~~e &&& g)) + kw
    let t2 := (a.rotateRight 2 ^^^ a.rotateRight 13 ^^^ a.rotateRight 22) + ((a &&& b) ^^^ (a &&& c) ^^^ (b &&& c))
    [t1 + t2, a, b, c, d + t1, e, f, g]
  | _ => h

/-- Compression of one 64-byte block. -/
def shaBlock (h : List (BitVec 32)) (block : List Byte) : List (BitVec 32) :=
  let w := shaWords ((List.range 16).map fun i => BitVec.ofNat 32 (beAt block (4 * i) 4)) 48
  let out := ((shaK.zip w).map fun p => p.1 + p.2).foldl shaRound h
  (h.zip out).map fun p => p.1 + p.2

/-- Compression of `n` blocks. -/
def shaBlocks (n : Nat) (h : List (BitVec 32)) (bs : List Byte) : List (BitVec 32) :=
  match n with
  | 0 => h
  | n + 1 => shaBlocks n (shaBlock h (bs.take 64)) (bs.drop 64)

/-- H0 to H7 in digest byte order, and back. -/
def shaBytes (h : List (BitVec 32)) : List Byte := h.flatMap fun x => natBe 4 x.toNat
/-- See shaBytes. -/
def shaState (bs : List Byte) : List (BitVec 32) := (List.range 8).map fun i => BitVec.ofNat 32 (beAt bs (4 * i) 4)

/-- SHA-256 of a byte string. DEDUCED [log 50]. -/
def sha256 (m : List Byte) : List Byte :=
  let n := m.length
  let padded := m ++ [0x80] ++ List.replicate ((119 - n % 64) % 64) 0 ++ natBe 8 (8 * n)
  shaBytes (shaBlocks (padded.length / 64) shaInit padded)

/-- HMAC-SHA-256. -/
def hmac (key m : List Byte) : List Byte :=
  let k := padTo (if 64 < key.length then sha256 key else key) 64
  sha256 (k.map (· ^^^ 0x5C) ++ sha256 (k.map (· ^^^ 0x36) ++ m))

/-- HKDF-Extract. DEDUCED [log 50]. -/
def hkdfExtract (salt ikm : List Byte) : List Byte := hmac salt ikm

/-- The last of `n` blocks of HKDF-Expand, and all of them. -/
def hkdfBlocks (prk info : List Byte) (n : Nat) : List Byte × List Byte :=
  match n with
  | 0 => ([], [])
  | n + 1 =>
    let (t, all) := hkdfBlocks prk info n
    let t := hmac prk (t ++ info ++ [BitVec.ofNat 8 (n + 1)])
    (t, all ++ t)

/-- HKDF-Expand. -/
def hkdfExpand (prk info : List Byte) (n : Nat) : List Byte := (hkdfBlocks prk info ((n + 31) / 32)).2.take n

/-- An ASCII string as bytes. -/
def ascii (x : String) : List Byte := x.toList.map fun c => BitVec.ofNat 8 c.toNat

/-! AES-256-GCM (02 R44 R57 R58). -/

/-- The product in the field of GHASH, over `n` bits of `x` from the top; `v` is the running multiple. -/
def ghMul (n : Nat) (x v z : BitVec 128) : BitVec 128 :=
  match n with
  | 0 => z
  | n + 1 =>
    let z := if x.msb then z ^^^ v else z
    ghMul n (x <<< 1) ((v >>> 1) ^^^ (if v.getLsbD 0 then 0xE1000000000000000000000000000000 else 0)) z

/-- GHASH of `n` blocks. -/
def ghash (n : Nat) (h y : BitVec 128) (bs : List Byte) : BitVec 128 :=
  match n with
  | 0 => y
  | n + 1 => ghash n h (ghMul 128 (y ^^^ BitVec.ofNat 128 (beNat (padTo (bs.take 16) 16))) h 0) (bs.drop 16)

/-- Zeros that fill a byte string to whole blocks. -/
def gcmPad (bs : List Byte) : List Byte := padTo bs ((bs.length + 15) / 16 * 16)

/-- The counter-mode keystream applied to a text, counter block `c` first. -/
def gcmCtr (ks : List (List Byte)) (nonce : List Byte) (n c : Nat) (bs : List Byte) : List Byte :=
  match n with
  | 0 => []
  | n + 1 => xorBytes (bs.take 16) (aesEnc ks (nonce ++ natBe 4 c)) ++ gcmCtr ks nonce n (c + 1) (bs.drop 16)

/-- The tag of associated data and ciphertext. -/
def gcmTag (ks : List (List Byte)) (nonce aad ct : List Byte) : List Byte :=
  let h := BitVec.ofNat 128 (beNat (aesEnc ks (List.replicate 16 0)))
  let all := gcmPad aad ++ gcmPad ct ++ natBe 8 (8 * aad.length) ++ natBe 8 (8 * ct.length)
  xorBytes (natBe 16 (ghash (all.length / 16) h 0 all).toNat) (aesEnc ks (nonce ++ natBe 4 1))

/-- Seal: ciphertext and tag. DEDUCED [log 50]. -/
def gcmSeal (key nonce aad pt : List Byte) : List Byte × List Byte :=
  let ks := aesKeys key
  let ct := gcmCtr ks nonce ((pt.length + 15) / 16) 2 pt
  (ct, gcmTag ks nonce aad ct)

/-- Open: the plaintext, or none where the tag does not verify. -/
def gcmOpen (key nonce aad ct tag : List Byte) : Option (List Byte) :=
  let ks := aesKeys key
  if gcmTag ks nonce aad ct == tag then some (gcmCtr ks nonce ((ct.length + 15) / 16) 2 ct) else none

/-! CRC-32C (02 R55). -/

/-- `n` bits of the reflected CRC-32C register. -/
def crcBits (n : Nat) (r : BitVec 32) : BitVec 32 :=
  match n with
  | 0 => r
  | n + 1 => crcBits n ((r >>> 1) ^^^ (if r.getLsbD 0 then 0x82F63B78 else 0))

/-- CRC-32C with initial value and final exclusive or of all ones. DEDUCED [log 50]. -/
def crc32c (bs : List Byte) : BitVec 32 :=
  ~~~(bs.foldl (fun (r : BitVec 32) b => crcBits 8 (r ^^^ b.setWidth 32)) 0xFFFFFFFF)

end Sys2Proof.Machine
end

