-- ==== Sys2Proof/Machine/Draw.lean ====
section
/-! DEFINITION. Machine/Draw.lean: the draw function and its counters (10_number_formats.md R296 R298). -/
namespace Sys2Proof.Machine

/-- Rotate a 32-bit word left. -/
def rotl32 (x : BitVec 32) (n : Nat) : BitVec 32 := (x <<< n) ||| (x >>> (32 - n))

/-- Four 32-bit words, word 0 first. -/
abbrev Quad := BitVec 32 × BitVec 32 × BitVec 32 × BitVec 32

/-- The words of 128 bits. -/
def quadOf (x : BitVec 128) : Quad :=
  (x.extractLsb' 0 32, x.extractLsb' 32 32, x.extractLsb' 64 32, x.extractLsb' 96 32)

/-- Word `i mod 4`. -/
def Quad.word (q : Quad) (i : Nat) : BitVec 32 :=
  match i % 4 with
  | 0 => q.1
  | 1 => q.2.1
  | 2 => q.2.2.1
  | _ => q.2.2.2

/-- One round of DRAW (10 R296). -/
def drawRound (k x : Quad) (r : Nat) : Quad :=
  let rc : BitVec 32 := BitVec.ofNat 32 (0x9E3779B9 * (r + 1))
  let x0 := x.1 + k.word r
  let x1 := x.2.1 ^^^ k.word (r + 1)
  let x2 := x.2.2.1 + k.word (r + 2)
  let x3 := x.2.2.2 ^^^ (k.word (r + 3) + rc)
  let x0 := x0 + x1
  let x3 := rotl32 (x3 ^^^ x0) 16
  let x2 := x2 + x3
  let x1 := rotl32 (x1 ^^^ x2) 12
  let x0 := x0 + x1
  let x3 := rotl32 (x3 ^^^ x0) 8
  let x2 := x2 + x3
  let x1 := rotl32 (x1 ^^^ x2) 7
  (x0, x1, x2, x3)

/-- DRAW(key, ctr) (10 R296). -/
def drawBits (key ctr : BitVec 128) : BitVec 128 :=
  let k := quadOf key
  let x := (List.range 10).foldl (drawRound k) (quadOf ctr)
  (x.2.2.2 + k.word 3) ++ (x.2.2.1 + k.word 2) ++ (x.2.1 + k.word 1) ++ (x.1 + k.word 0)

/-- Counter bits from the four counter words (10 R298). -/
def counter (w0 w1 w2 w3 : Nat) : BitVec 128 :=
  BitVec.ofNat 128 (w0 % 2 ^ 32 + w1 % 2 ^ 32 * 2 ^ 32 + w2 % 2 ^ 32 * 2 ^ 64 + w3 % 2 ^ 32 * 2 ^ 96)

/-- Counter word 2: position, purpose, level (10 R298). -/
def counter2 (pos purpose lvl : Nat) : Nat := pos % 2 ^ 16 + purpose * 2 ^ 16 + lvl * 2 ^ 24

/-- A coin: bits [23:0] of a draw (10 R296). -/
def coin (key : BitVec 128) (w0 w1 w2 w3 : Nat) : Nat := (drawBits key (counter w0 w1 w2 w3)).toNat % 2 ^ 24

end Sys2Proof.Machine
end

