-- ==== Sys2Proof/Machine/Flags.lean ====
section
/-! DEFINITION. Machine/Flags.lean: the flags of FFL and how an operation's flags are formed (10_number_formats.md R283). -/
namespace Sys2Proof.Machine

/-- Inexact. -/
def flNX : BitVec 7 := 0x01
/-- Underflow. -/
def flUF : BitVec 7 := 0x02
/-- Overflow. -/
def flOF : BitVec 7 := 0x04
/-- Division by zero, or the logarithm of zero. -/
def flDZ : BitVec 7 := 0x08
/-- Invalid operation, or a signalling NaN operand. -/
def flNV : BitVec 7 := 0x10
/-- A value was clamped to a finite limit. -/
def flSA : BitVec 7 := 0x20
/-- A draw met a negative or NaN weight or mass. -/
def flDS : BitVec 7 := 0x40

/-- `f` when `b`. -/
def flagIf (b : Bool) (f : BitVec 7) : BitVec 7 := if b then f else 0

/-- The OR of the flags of the active lanes (10 R283). -/
def orFlags (l : List (BitVec 7)) : BitVec 7 := l.foldl (· ||| ·) 0

end Sys2Proof.Machine
end

