-- ==== Sys2Proof/Syntax.lean ====
section
/-! DEFINITION. Syntax.lean: the instructions and events of the machine, one constructor per row of spec/opcode_table.json.
An instruction carries the raw fields of its encoding format (12_bundles_encoding.md R347 to R362, 04 R109); whether a
field holds a legal value is WellFormed's matter. An event carries what the outside world or an arbiter decides about it. -/
namespace Sys2Proof

/-- Format SA (12 R347): fields from the lowest bit up. -/
structure SA where
  sd : Nat
  sa : Nat
  sb : Nat
  i : Nat
  x : Nat
  cw : Nat
  imm : Nat
deriving DecidableEq, Repr

/-- Format SB (12 R347); `hi` is [31:24], which must be zero. -/
structure SB where
  sa : Nat
  sb : Nat
  cc : Nat
  hi : Nat
  disp : Nat
deriving DecidableEq, Repr

/-- Format SC (12 R347). -/
structure SC where
  sd : Nat
  sa : Nat
  csr : Nat
  imm : Nat
deriving DecidableEq, Repr

/-- A vector syllable (12 R350). -/
structure VOp where
  fmt : Nat
  vd : Nat
  va : Nat
  vb : Nat
  vc : Nat
  qp : Nat
  g : Nat
  rm : Nat
deriving DecidableEq, Repr

/-- A matrix syllable (12 R353); `top` is [31:30], which must be zero. -/
structure MOp where
  fmt : Nat
  cellop : Nat
  f : Nat
  z : Nat
  row : Nat
  plane : Nat
  bank : Nat
  top : Nat
deriving DecidableEq, Repr

/-- A load or store syllable (12 R354); `ty` is op [7:5], `rsv` is bit 42, which must be zero. -/
structure LW where
  ty : Nat
  d : Nat
  base : Nat
  idx : Nat
  x : Nat
  ord : Nat
  scope : Nat
  fe : Nat
  qp : Nat
  rsv : Nat
  off : Nat
deriving DecidableEq, Repr

/-- A copy syllable (12 R358). -/
structure COp where
  f : Nat
  sa : Nat
  sb : Nat
  sc : Nat
  hi : Nat
deriving DecidableEq, Repr

/-- Layout YF (12 R359); `hi` is what the layout leaves unnamed and must be zero, here as in the layouts below. -/
structure YF where
  scope : Nat
  kind : Nat
  hi : Nat
deriving DecidableEq, Repr

/-- Layout YP (12 R359). -/
structure YP where
  scope : Nat
  before : Nat
  after : Nat
  hi : Nat
deriving DecidableEq, Repr

/-- Layout YH (12 R359). -/
structure YH where
  h : Nat
  sa : Nat
  mode : Nat
  hi : Nat
deriving DecidableEq, Repr

/-- Layout YB (12 R359). -/
structure YB where
  bank : Nat
  hi : Nat
deriving DecidableEq, Repr

/-- Layout YG (12 R359). -/
structure YG where
  group : Nat
  hi : Nat
deriving DecidableEq, Repr

/-- Layout YA (12 R359). -/
structure YA where
  sd : Nat
  sa : Nat
  choice : Nat
  hi : Nat
deriving DecidableEq, Repr

/-- Layout YE (12 R359). -/
structure YE where
  event : Nat
  sa : Nat
  hi : Nat
deriving DecidableEq, Repr

/-- Layout YR (12 R359). -/
structure YR where
  sd : Nat
  sa : Nat
  sb : Nat
  hi : Nat
deriving DecidableEq, Repr

/-- A cipher syllable (12 R361); `top` is [31:28], which must be zero. -/
structure KOp where
  f : Nat
  sa : Nat
  key : Nat
  top : Nat
deriving DecidableEq, Repr

/-- A scale syllable (12 R362). -/
structure ZOp where
  z : Nat
  sa : Nat
  off : Nat
deriving DecidableEq, Repr

/-- A Proem extension instruction in R-type format (04 R109). -/
structure RV where
  rd : Nat
  rs1 : Nat
  rs2 : Nat
  funct7 : Nat
deriving DecidableEq, Repr

/-- The entry that an error strikes (05_protection.md R138, 11 R328 R329). -/
inductive Struck where
  | line (addr : Nat)                 -- a Stacks or HBM line, by physical address
  | clean                             -- an off-core entry of which a valid copy exists elsewhere
  | coreClean (core : Nat)            -- a configuration plane or the scalar data cache of a core
  | coreOwned (core : Nat)            -- register files, scratchpad, accumulator memory, Grader or weight banks
  | coreResident (core : Nat)         -- a bank of a resident pre-empted context
  | segment (index : Nat)             -- a page of a shared weight segment
  | keySlot (slot : Nat)              -- the storage of a Vault key slot
  | house (block item : Nat)          -- an entry of house block 0x2000 + block; item names the struck entry
  | strand (launch index : Nat)       -- a strand-pool entry: the record of a strand of a launch slot
  | intake (lane index : Nat)         -- a launch record in flight: entry `index` of the Ethernet lane (0) or the host lane
  | fabricOp (core id : Nat)          -- a fabric operation of a core
  | flit (tag item : Nat)             -- a NoC or die-to-die flit with its domain tag; item names what a house block's flit carries
deriving DecidableEq, Repr

/-- What the outside world or an arbiter decides about an event; the event's docstring says which fields it reads. -/
structure EventArgs where
  a : Nat := 0
  b : Nat := 0
  c : Nat := 0
  flag : Bool := false
  value : Word := 0
  bytes : List Byte := []
  readings : List (BitVec 16) := []
  struck : Struck := .clean
deriving DecidableEq, Repr

/-- The instructions, in the order of the opcode table, and after them the events, in the same order. -/
inductive Instr where
  /-- PWAIT (R109): A Proem thread blocks until a wait packet from a source in its mask arrives. -/
  | pwait (f : RV)
  /-- PPOST (R109): A Proem thread hands a 64-byte record to a sink and blocks until it is accepted. -/
  | ppost (f : RV)
  /-- PTID (R109): A Proem thread reads its thread number. -/
  | ptid (f : RV)
  /-- ADD (R370): Scalar add at the width CW gives. -/
  | add (f : SA)
  /-- SUB (R370): Scalar subtract. -/
  | sub (f : SA)
  /-- MUL (R370): Scalar multiply. -/
  | mul (f : SA)
  /-- MULH_I (R370): High 64 bits of a signed 128-bit product. -/
  | mulhI (f : SA)
  /-- MULH_N (R370): High 64 bits of an unsigned 128-bit product. -/
  | mulhN (f : SA)
  /-- DIV_I (R371): Signed division truncated towards zero. -/
  | divI (f : SA)
  /-- DIV_N (R371): Unsigned division. -/
  | divN (f : SA)
  /-- REM_I (R371): Signed remainder. -/
  | remI (f : SA)
  /-- REM_N (R371): Unsigned remainder. -/
  | remN (f : SA)
  /-- AND (R370): Bitwise AND. -/
  | sAnd (f : SA)
  /-- OR (R370): Bitwise OR. -/
  | sOr (f : SA)
  /-- XOR (R370): Bitwise XOR. -/
  | sXor (f : SA)
  /-- ANDN (R370): AND with the complement of the second operand. -/
  | sAndn (f : SA)
  /-- SHL (R372): Shift left. -/
  | shl (f : SA)
  /-- SHR (R372): Logical shift right. -/
  | shr (f : SA)
  /-- SAR (R372): Arithmetic shift right. -/
  | sar (f : SA)
  /-- ROL (R372): Rotate left. -/
  | rol (f : SA)
  /-- MIN_I (R370): Signed minimum. -/
  | minI (f : SA)
  /-- MIN_N (R370): Unsigned minimum. -/
  | minN (f : SA)
  /-- MAX_I (R370): Signed maximum. -/
  | maxI (f : SA)
  /-- MAX_N (R370): Unsigned maximum. -/
  | maxN (f : SA)
  /-- CLZ (R373): Count leading zero bits. -/
  | clz (f : SA)
  /-- CTZ (R373): Count trailing zero bits. -/
  | ctz (f : SA)
  /-- POPC (R373): Count set bits. -/
  | popc (f : SA)
  /-- BFX_I (R374): Extract a bit field with sign extension. -/
  | bfxI (f : SA)
  /-- BFX_N (R374): Extract a bit field with zero extension. -/
  | bfxN (f : SA)
  /-- BFI (R374): Insert a bit field into sd. -/
  | bfi (f : SA)
  /-- LEA (R375): Compute sa + (sb << k) + imm. -/
  | lea (f : SA)
  /-- LI (R375): Load an immediate. -/
  | li (f : SA)
  /-- SEL (R376): Write b to sd when S[sa] is non-zero. -/
  | sel (f : SA)
  /-- CMP (R376): Write 1 or 0 by a comparison. -/
  | cmp (f : SA)
  /-- BR (R377): Conditional branch on a comparison of two registers. -/
  | br (f : SB)
  /-- BRZ (R377): Branch on a register being zero or non-zero. -/
  | brz (f : SB)
  /-- JMP (R377): Unconditional relative jump. -/
  | jmp (f : SB)
  /-- JMPR (R377): Jump to a register target plus immediate. -/
  | jmpr (f : SA)
  /-- CALL (R378): Relative call writing the return address to s63. -/
  | call (f : SB)
  /-- CALLR (R378): Register call writing the return address to s63. -/
  | callr (f : SA)
  /-- RET (R377): Return to S[s63]. -/
  | ret (f : SA)
  /-- LOOP (R379): Decrement a counter, rotate ROT.BASE and branch while non-zero. -/
  | loop (f : SB)
  /-- ROTSET (R380): Set ROT.SIZE and clear ROT.BASE. -/
  | rotset (f : SA)
  /-- SPAWN (R385): Start a new strand in an exited record. -/
  | spawn (f : SA)
  /-- SUSPEND (R383): Leave the core until an event or time wake condition is met. -/
  | suspend (f : SA)
  /-- YIELD (R384): Leave the core ready, or park the launch on a free list. -/
  | yield (f : SA)
  /-- EXIT (R188): End the strand. -/
  | exitStrand (f : SA)
  /-- SEQNEXT (R172): Hold the strand for the step sequencer. -/
  | seqnext (f : SA)
  /-- TRAP (R386): Raise cause TRAPI as a precise trap. -/
  | trap (f : SA)
  /-- RETT (R387): Return from a trap handler to TRS. -/
  | rett (f : SA)
  /-- STAMP (R389): Read TIME into a register. -/
  | stamp (f : SA)
  /-- CSRR (R388): Read a control register. -/
  | csrr (f : SC)
  /-- CSRW (R388): Write a control register. -/
  | csrw (f : SC)
  /-- CSRS (R388): Set bits of a control register. -/
  | csrs (f : SC)
  /-- CSRC (R388): Clear bits of a control register. -/
  | csrc (f : SC)
  /-- VADD (R401): Lane-wise add. -/
  | vadd (f : VOp)
  /-- VADD_IMM (R401): Lane-wise add of the XI immediate. -/
  | vaddImm (f : VOp)
  /-- VSUB (R401): Lane-wise subtract. -/
  | vsub (f : VOp)
  /-- VSUB_IMM (R401): Lane-wise subtract of the immediate. -/
  | vsubImm (f : VOp)
  /-- VMUL (R401): Lane-wise multiply. -/
  | vmul (f : VOp)
  /-- VMUL_IMM (R401): Lane-wise multiply by the immediate. -/
  | vmulImm (f : VOp)
  /-- VFMA (R402): Fused a*b+c. -/
  | vfma (f : VOp)
  /-- VFMS (R402): Fused a*b-c. -/
  | vfms (f : VOp)
  /-- VFNMA (R402): Fused -(a*b)+c. -/
  | vfnma (f : VOp)
  /-- VMIN (R403): Lane-wise minimum. -/
  | vmin (f : VOp)
  /-- VMIN_IMM (R403): Lane-wise minimum with the immediate. -/
  | vminImm (f : VOp)
  /-- VMAX (R403): Lane-wise maximum. -/
  | vmax (f : VOp)
  /-- VMAX_IMM (R403): Lane-wise maximum with the immediate. -/
  | vmaxImm (f : VOp)
  /-- VABS (R404): Absolute value. -/
  | vabs (f : VOp)
  /-- VNEG (R404): Negation. -/
  | vneg (f : VOp)
  /-- VCPYSGN (R404): Copy the sign of b onto a. -/
  | vcpysgn (f : VOp)
  /-- VCLASS (R405): Classify float lanes. -/
  | vclass (f : VOp)
  /-- VAND (R406): Lane-wise AND. -/
  | vand (f : VOp)
  /-- VAND_IMM (R406): Lane-wise AND with the immediate. -/
  | vandImm (f : VOp)
  /-- VOR (R406): Lane-wise OR. -/
  | vor (f : VOp)
  /-- VOR_IMM (R406): Lane-wise OR with the immediate. -/
  | vorImm (f : VOp)
  /-- VXOR (R406): Lane-wise XOR. -/
  | vxor (f : VOp)
  /-- VXOR_IMM (R406): Lane-wise XOR with the immediate. -/
  | vxorImm (f : VOp)
  /-- VNOT (R406): Lane-wise NOT. -/
  | vnot (f : VOp)
  /-- VSHL (R406): Lane-wise shift left. -/
  | vshl (f : VOp)
  /-- VSHL_IMM (R406): Lane-wise shift left by the immediate. -/
  | vshlImm (f : VOp)
  /-- VSHR (R406): Lane-wise logical shift right. -/
  | vshr (f : VOp)
  /-- VSHR_IMM (R406): Lane-wise logical shift right by the immediate. -/
  | vshrImm (f : VOp)
  /-- VSAR (R406): Lane-wise arithmetic shift right. -/
  | vsar (f : VOp)
  /-- VSAR_IMM (R406): Lane-wise arithmetic shift right by the immediate. -/
  | vsarImm (f : VOp)
  /-- VMULH (R406): High half of lane-wise integer products. -/
  | vmulh (f : VOp)
  /-- VCMP (R407): Lane-wise compare into a predicate. -/
  | vcmp (f : VOp)
  /-- VCMP_IMM (R407): Lane-wise compare with the immediate into a predicate. -/
  | vcmpImm (f : VOp)
  /-- VSEL (R408): Select lanes of va or vb by a predicate. -/
  | vsel (f : VOp)
  /-- VCVT (R409): Convert elements between formats. -/
  | vcvt (f : VOp)
  /-- VPACK (R410): Narrow two groups into one. -/
  | vpack (f : VOp)
  /-- VUNPACK (R410): Widen one group into two. -/
  | vunpack (f : VOp)
  /-- VQUANT (R411): Quantise to a block or narrow format and write scales. -/
  | vquant (f : VOp)
  /-- VDEQUANT (R413): Dequantise block elements with their scales. -/
  | vdequant (f : VOp)
  /-- VEXP2 (R292): Compute 2^x. -/
  | vexp2 (f : VOp)
  /-- VLOG2 (R294): Compute log2 x. -/
  | vlog2 (f : VOp)
  /-- VRCP (R295): Correctly rounded reciprocal. -/
  | vrcp (f : VOp)
  /-- VRSQ (R295): Correctly rounded reciprocal square root. -/
  | vrsq (f : VOp)
  /-- VSQRT (R295): Correctly rounded square root. -/
  | vsqrt (f : VOp)
  /-- VEXPD (R293): Compute 2^((a-m)k). -/
  | vexpd (f : VOp)
  /-- VSUM (R415): Tree sum reduction. -/
  | vsum (f : VOp)
  /-- VMAXR (R415): Tree maximum reduction. -/
  | vmaxr (f : VOp)
  /-- VMINR (R415): Tree minimum reduction. -/
  | vminr (f : VOp)
  /-- VSCAN (R416): Inclusive prefix sum. -/
  | vscan (f : VOp)
  /-- VDRAW (R418): Draw one pair from FP32 weights by the lane tree. -/
  | vdraw (f : VOp)
  /-- VDRAWL (R418): Draw one pair from logits by the lane tree. -/
  | vdrawl (f : VOp)
  /-- VDMERGE (R419): Merge draw pairs lane-wise. -/
  | vdmerge (f : VOp)
  /-- VDESCEND (R420): Draw one pair by descent of a prefix-sum table. -/
  | vdescend (f : VOp)
  /-- VTOP (R421): Write the largest elements as pairs. -/
  | vtop (f : VOp)
  /-- VRAND (R422): Fill lanes with random integers. -/
  | vrand (f : VOp)
  /-- VRANDF (R422): Fill lanes with random floats in [0,1). -/
  | vrandf (f : VOp)
  /-- VPERM (R423): Permute lanes by index. -/
  | vperm (f : VOp)
  /-- VSHUF (R423): Shuffle lanes of two groups by index. -/
  | vshuf (f : VOp)
  /-- VROT (R424): Rotate lanes by a scalar amount. -/
  | vrot (f : VOp)
  /-- VROT_IMM (R424): Rotate lanes by the immediate. -/
  | vrotImm (f : VOp)
  /-- VSLIDE (R424): Slide lanes across two groups. -/
  | vslide (f : VOp)
  /-- VBCAST (R425): Broadcast a scalar to every lane. -/
  | vbcast (f : VOp)
  /-- VBCAST_IMM (R425): Broadcast the immediate to every lane. -/
  | vbcastImm (f : VOp)
  /-- VINS (R426): Insert a scalar into one lane. -/
  | vins (f : VOp)
  /-- VEXT (R426): Extract one lane into a scalar. -/
  | vext (f : VOp)
  /-- VMOV (R425): Copy active lanes. -/
  | vmov (f : VOp)
  /-- VIOTA (R425): Write each lane's index. -/
  | viota (f : VOp)
  /-- VCOMPRESS (R427): Pack active lanes to the bottom. -/
  | vcompress (f : VOp)
  /-- VEXPAND (R427): Spread low lanes into active lanes. -/
  | vexpand (f : VOp)
  /-- VZIP (R428): Interleave two groups. -/
  | vzip (f : VOp)
  /-- VUNZIP (R428): De-interleave two groups. -/
  | vunzip (f : VOp)
  /-- QAND (R429): Predicate AND. -/
  | qand (f : VOp)
  /-- QOR (R429): Predicate OR. -/
  | qor (f : VOp)
  /-- QXOR (R429): Predicate XOR. -/
  | qxor (f : VOp)
  /-- QNOT (R429): Predicate NOT. -/
  | qnot (f : VOp)
  /-- QSET (R430): Set the first c lanes of a predicate. -/
  | qset (f : VOp)
  /-- QSET_IMM (R430): Set the first c lanes of a predicate, c immediate. -/
  | qsetImm (f : VOp)
  /-- QCOUNT (R430): Count active lanes of a predicate. -/
  | qcount (f : VOp)
  /-- QFIRST (R430): Find the lowest active lane of a predicate. -/
  | qfirst (f : VOp)
  /-- MPUSHW (R436): Start a weight run into a weight bank. -/
  | mpushw (f : MOp)
  /-- MPUSHA (R437): Start an activation feed into a plane's latch. -/
  | mpusha (f : MOp)
  /-- MSHIFT (R439): Shift both activation latches towards row 0. -/
  | mshift (f : MOp)
  /-- MACC (R434): Perform one beat on a plane's tile. -/
  | macc (f : MOp)
  /-- MDRAIN (R443): Convert a tile row and write it into a buffer slot. -/
  | mdrain (f : MOp)
  /-- MCLR (R442): Clear tile rows from row to 127. -/
  | mclr (f : MOp)
  /-- MPLANE (R441): Bind a plane to a held 32-bank tile. -/
  | mplane (f : MOp)
  /-- MWSWAP (R440): Exchange front and back weight banks. -/
  | mwswap (f : MOp)
  /-- MWSWAP_HOME (R440): Set FRONT to 0. -/
  | mwswapHome (f : MOp)
  /-- LDS (R455): Load a scalar. -/
  | lds (f : LW)
  /-- LDV (R456): Load a vector register. -/
  | ldv (f : LW)
  /-- LDVG (R456): Load a group of vector registers. -/
  | ldvg (f : LW)
  /-- LDX (R455): Load a scalar at an indexed address. -/
  | ldx (f : LW)
  /-- LDCB (R459): Read 256 bytes of a buffer slot at CP. -/
  | ldcb (f : LW)
  /-- LDACC (R461): Read 256 bytes of accumulator memory. -/
  | ldacc (f : LW)
  /-- LDQ (R457): Load a predicate register. -/
  | ldq (f : LW)
  /-- STS (R455): Store a scalar. -/
  | sts (f : LW)
  /-- STV (R456): Store a vector register, optionally stamping a reader count. -/
  | stv (f : LW)
  /-- STVG (R456): Store a group of vector registers. -/
  | stvg (f : LW)
  /-- STX (R455): Store a scalar at an indexed address. -/
  | stx (f : LW)
  /-- STCB (R460): Write 256 bytes into the buffer slot at PP. -/
  | stcb (f : LW)
  /-- STACC (R461): Write 256 bytes of accumulator memory. -/
  | stacc (f : LW)
  /-- STQ (R457): Store a predicate register. -/
  | stq (f : LW)
  /-- AADD (R462): Atomic add at the home slice. -/
  | aadd (f : LW)
  /-- AADDF (R463): Atomic lane-wise float add. -/
  | aaddf (f : LW)
  /-- AAND (R462): Atomic AND. -/
  | aand (f : LW)
  /-- AOR (R462): Atomic OR. -/
  | aor (f : LW)
  /-- AXOR (R462): Atomic XOR. -/
  | axor (f : LW)
  /-- AMIN (R462): Atomic minimum. -/
  | amin (f : LW)
  /-- AMAX (R462): Atomic maximum. -/
  | amax (f : LW)
  /-- ASWP (R462): Atomic swap. -/
  | aswp (f : LW)
  /-- ACAS (R462): Atomic compare and swap. -/
  | acas (f : LW)
  /-- ADEC (R462): Atomic saturating decrement. -/
  | adec (f : LW)
  /-- ALPUSH (R464): Push onto a free list, reporting non-empty when n becomes 1. -/
  | alpush (f : LW)
  /-- ALPOP (R464): Pop from a free list. -/
  | alpop (f : LW)
  /-- ADRAW (R465): Offer a draw pair to a leaf of a draw-merge cell, folding it when complete. -/
  | adraw (f : LW)
  /-- CPY (R471): Copy memory or buffer slots through microword stages. -/
  | cpy (f : COp)
  /-- CSTREAM (R475): Stream rows into a handle as matrix fetcher producer. -/
  | cstream (f : COp)
  /-- CPREFETCH (R476): Prefetch translations, cache lines or segments. -/
  | cprefetch (f : COp)
  /-- CGATHER (R477): Gather table entries into a buffer slot. -/
  | cgather (f : COp)
  /-- CSCATTER (R477): Scatter a buffer slot to table entries. -/
  | cscatter (f : COp)
  /-- CSEND (R479): Send a message to a fabric endpoint. -/
  | csend (f : COp)
  /-- CSEND_RMA (R479): Remote write into an endpoint's fabric window. -/
  | csendRma (f : COp)
  /-- CRECV (R479): Post a receive for a fabric message. -/
  | crecv (f : COp)
  /-- CRECV_RMA (R479): Remote read from an endpoint's fabric window. -/
  | crecvRma (f : COp)
  /-- CCOLL (R480): Run a fabric collective. -/
  | ccoll (f : COp)
  /-- CSKID (R482): Hand a streaming list to the Skidder. -/
  | cskid (f : COp)
  /-- FENCE (R257): Order the core's ls and bu accesses by kind and scope. -/
  | fence (f : YF)
  /-- PFENCE (R258): Order accesses of one path set before another. -/
  | pfence (f : YP)
  /-- CBINIT (R484): Configure a buffer handle and reset its state. -/
  | cbinit (f : YH)
  /-- CBWAIT_FREE (R485): Wait for and claim a free slot at PP. -/
  | cbwaitFree (f : YH)
  /-- CBWAIT_FULL (R485): Wait for a full slot at CP. -/
  | cbwaitFull (f : YH)
  /-- CBADV_PROD (R486): Producer advance of PP with a reader count. -/
  | cbadvProd (f : YH)
  /-- CBADV_CONS (R486): Consumer advance of CP, freeing the slot. -/
  | cbadvCons (f : YH)
  /-- CBREL (R487): Close a buffer handle. -/
  | cbrel (f : YH)
  /-- CBREL_LINE (R487): Release a reader-counted line. -/
  | cbrelLine (f : YH)
  /-- BKREL (R195): Release a scratchpad bank. -/
  | bkrel (f : YB)
  /-- BKACQ (R196): Acquire a scratchpad bank. -/
  | bkacq (f : YB)
  /-- JOIN (R191): Join a group. -/
  | join (f : YG)
  /-- LEAVE (R191): Leave a group. -/
  | leave (f : YG)
  /-- BAR (R193): Arrive at a group barrier. -/
  | bar (f : YG)
  /-- ABALLOC (R200): Allocate accumulator banks. -/
  | aballoc (f : YA)
  /-- ABFREE (R201): Free accumulator banks. -/
  | abfree (f : YA)
  /-- EVWAIT (R488): Stall until an event reaches a count, then acquire. -/
  | evwait (f : YE)
  /-- EVSIG (R488): Add to an event counter as a release, waking waiters. -/
  | evsig (f : YE)
  /-- SWAPTOK (R199): Jump with a drain, flipping configuration planes if needed. -/
  | swaptok (f : YR)
  /-- GRINIT (R491): Empty the Grader and set capacity and direction. -/
  | grinit (f : YR)
  /-- GRPUSH (R491): Insert or replace a Grader node. -/
  | grpush (f : YR)
  /-- GRPOP (R491): Remove and return the best Grader node. -/
  | grpop (f : YR)
  /-- GRBUD (R491): Keep only the best Grader nodes. -/
  | grbud (f : YR)
  /-- GRPRUNE (R491): Remove a node and its descendants. -/
  | grprune (f : YR)
  /-- ROWSAVE (R492): Read a stopped operation's row progress. -/
  | rowsave (f : YR)
  /-- ROWREST (R492): Set or end a stopped operation's progress. -/
  | rowrest (f : YR)
  /-- SEQWAIT (R489): Wait until the sequencer has applied the strand's OCC and DLEN writes. -/
  | seqwait (f : YR)
  /-- SEAL (R494): Encrypt lines under a key with AES-256-XTS. -/
  | cipherSeal (f : KOp)
  /-- OPEN (R494): Verify and decrypt ciphertext lines. -/
  | cipherOpen (f : KOp)
  /-- SHABLK (R496): Run SHA-256 compression over blocks. -/
  | shablk (f : KOp)
  /-- KBIND (R497): House import of a sealed handle into a key slot. -/
  | kbind (f : KOp)
  /-- KZERO (R497): House zeroisation of a key slot. -/
  | kzero (f : KOp)
  /-- ZLD (R447): Load a 66-byte scale image into a z register. -/
  | zld (f : ZOp)
  /-- ZLDG (R447): Load group exponents into a z register. -/
  | zldg (f : ZOp)
  /-- ZSET (R448): Fill a z register's scales from a scalar. -/
  | zset (f : ZOp)
  /-- ZMOV (R448): Copy one z register to another. -/
  | zmov (f : ZOp)
  /-- ZGEN_G (R449): Adjust both group exponents of a z register. -/
  | zgenG (f : ZOp)
  /-- ZGEN_B (R449): Adjust the E8M0 block scales of a z register. -/
  | zgenB (f : ZOp)
  /-- RESET_N_RELEASE (R30): Release of RESET_N begins a cold start that runs every start stage. -/
  | resetNRelease
  /-- POWER_LOSS (R33): Loss of power interrupts a start, which the boot ROM later counts as a failure. -/
  | powerLoss
  /-- STAGE_POWER (R32): The hub loops lock, TIME starts and stage 0x01 ends. -/
  | stagePower
  /-- STAGE_ROM (R33): The boot ROM reconstructs the PUF, reads the replay-protected block and enforces the fail count. Arguments: flag: pufOk, a: authOk (non-zero). -/
  | stageRom
  /-- STAGE_FW (R32): Firmware is read from boot flash and its signature and SVN are checked. -/
  | stageFw
  /-- STAGE_CFG (R28): The configuration blob is checked and applied, and PCIe link training starts. -/
  | stageCfg
  /-- STAGE_CLOCKS (R32): The compute-die loops lock and the SerDes calibrate. Arguments: flag: locked. -/
  | stageClocks
  /-- STAGE_HBM (R32): HBM stacks h0-h11 are trained. Arguments: flag: trained. -/
  | stageHbm
  /-- STAGE_SCRUB (R32): The Chipper completes the start scrub of every resource. Arguments: flag: ok. -/
  | stageScrub
  /-- STAGE_TIMEOUT (R32): A start stage exceeds its time bound and fails the start with its code. -/
  | stageTimeout
  /-- START_WATCHDOG (R32): A start that has not reached READY 2 s after it began fails with reason 0x08. -/
  | startWatchdog
  /-- WARM_RESET (R30): A warm reset marks every resource dirty and runs stages 0x02 to 0x08. -/
  | warmReset
  /-- PKG_RESET_WRITE (R37): A write of KEY 0x5752 to PKG.RESET starts a warm reset; other values are ignored. Arguments: value: key. -/
  | pkgResetWrite
  /-- POWER_ESTIMATE (R18): Every 1 us the package power is estimated, PKG.PWR updated and the power throttle level adjusted. Arguments: a: mean. -/
  | powerEstimate
  /-- SWEEP_END (R21): At the end of each 10 us sensor sweep the readings, TAR and thermal levels are updated. Arguments: readings: readings. -/
  | sweepEnd
  /-- HBM_REFRESH_BOUNDARY (R22): A change of HBM refresh rate takes effect at the next refresh-interval boundary. Arguments: a: stack. -/
  | hbmRefreshBoundary
  /-- CORRECTABLE_ERROR (R138): A correctable error is corrected, freezing the core for 24 cycles if on-core. Arguments: struck: struck. -/
  | correctableError
  /-- FREEZE_END (R328): A 24-cycle correctable-error freeze ends and the core resumes. Arguments: a: core. -/
  | freezeEnd
  /-- UNCORRECTABLE_ERROR (R138): An uncorrectable error is handled by the kind and domain tag of the struck entry. Arguments: struck: struck. -/
  | uncorrectableError
  /-- PCIE_CONFIG_REQUEST (R32): A configuration request before READY completes with Request Retry Status. Arguments: a: fn. -/
  | pcieConfigRequest
  /-- PCIE_HOT_RESET (R113): A hot reset, link-down or PF FLR clears queue state and resets SR-IOV and ring registers. Arguments: flag: down. -/
  | pcieHotReset
  /-- VF_FLR (R113): A VF Function Level Reset applies the hot-reset effects to that VF only. Arguments: a: vf. -/
  | vfFlr
  /-- PCIE_LINK_UP (R113): When the link comes back the PF's first event is HOSTLOST with HIF.LOSTCNT. -/
  | pcieLinkUp
  /-- DOE_DISCOVERY (R90): The DOE mailbox answers a DOE Discovery request. Arguments: bytes: msg. -/
  | doeDiscovery
  /-- GET_VERSION (R92): The SPDM responder answers GET_VERSION. Arguments: bytes: msg. -/
  | getVersion
  /-- GET_CAPABILITIES (R92): The SPDM responder answers GET_CAPABILITIES. Arguments: bytes: msg. -/
  | getCapabilities
  /-- NEGOTIATE_ALGORITHMS (R92): The SPDM responder negotiates SHA-256, SLH-DSA, ML-KEM-1024 and AES-256-GCM. Arguments: bytes: msg. -/
  | negotiateAlgorithms
  /-- GET_DIGESTS (R92): The SPDM responder returns certificate chain digests. Arguments: bytes: msg. -/
  | getDigests
  /-- GET_CERTIFICATE (R92): The SPDM responder returns the slot 0 certificate chain. Arguments: bytes: msg. -/
  | getCertificate
  /-- CHALLENGE (R92): The SPDM responder answers a CHALLENGE with a signature. Arguments: bytes: msg. -/
  | challenge
  /-- GET_MEASUREMENTS (R92): The SPDM responder returns measurement indices 1 to 4. Arguments: bytes: msg. -/
  | getMeasurements
  /-- KEY_EXCHANGE (R92): The SPDM responder begins a secured session, at most four at once. Arguments: bytes: msg. -/
  | keyExchange
  /-- FINISH (R92): The SPDM responder completes a secured session handshake. Arguments: bytes: msg. -/
  | finish
  /-- SPDM_HEARTBEAT (R92): The SPDM responder answers a session HEARTBEAT. Arguments: bytes: msg. -/
  | spdmHeartbeat
  /-- KEY_UPDATE (R92): The SPDM responder updates session keys. Arguments: bytes: msg. -/
  | keyUpdate
  /-- END_SESSION (R92): The SPDM responder ends a secured session. Arguments: bytes: msg. -/
  | endSession
  /-- CHUNK_SEND (R92): The SPDM responder receives one chunk of a large message. Arguments: bytes: msg. -/
  | chunkSend
  /-- CHUNK_GET (R92): The SPDM responder returns one chunk of a large response. Arguments: bytes: msg. -/
  | chunkGet
  /-- DOORBELL (R100): A 4-byte doorbell write is translated through stage 1 and stage 2 and updates a queue's TAIL. Arguments: a: fn, b: off, c: size, value: value. -/
  | doorbell
  /-- QUEUE_LOAD (R101): A pending VQN's QCB is loaded into a mapped queue and its digest checked. -/
  | queueLoad
  /-- LAUNCH (R94): Host command OP 0x01 submits a launch record to Circulation. Arguments: a: mq. -/
  | launch
  /-- CATALOG_SET (R94): Host command OP 0x02 replaces or inserts a Catalog entry. Arguments: a: mq. -/
  | catalogSet
  /-- CATALOG_DEL (R94): Host command OP 0x03 clears the matching Catalog entry. Arguments: a: mq. -/
  | catalogDel
  /-- MCB_WRITE (R122): Host command OP 0x04 writes an MCB and requests a change of micro-context state. Arguments: a: mq. -/
  | mcbWrite
  /-- COPY_IN (R135): Host command OP 0x05 copies host memory into a micro-context's address space. Arguments: a: mq. -/
  | copyIn
  /-- COPY_OUT (R135): Host command OP 0x06 copies device memory out to the host under the export rule. Arguments: a: mq. -/
  | copyOut
  /-- KEY_IMPORT (R126): Host command OP 0x07 mints or imports a sealed key handle into a Vault slot. Arguments: a: mq. -/
  | keyImport
  /-- NOP (R94): Host command OP 0x08 does nothing and completes. Arguments: a: mq. -/
  | nop
  /-- QUEUE_BIND (R102): Host command OP 0x20 writes a QCB's privileged bytes and validates its stage-2 entry. Arguments: a: mq. -/
  | queueBind
  /-- QUEUE_UNBIND (R102): Host command OP 0x21 stops a queue and clears its stage-2 entry. Arguments: a: mq. -/
  | queueUnbind
  /-- VF_SETUP (R107): Host command OP 0x22 sets a function's VQN range. Arguments: a: mq. -/
  | vfSetup
  /-- PARTITION_DEFINE (R116): PARTITION_SET action 0 defines a partition from a descriptor. Arguments: a: mq. -/
  | partitionDefine
  /-- PARTITION_WITHDRAW (R117): PARTITION_SET action 1 withdraws a partition and marks its resources dirty. Arguments: a: mq. -/
  | partitionWithdraw
  /-- FW_STAGE (R110): Host command OP 0x24 writes firmware into the non-running slot. Arguments: a: mq. -/
  | fwStage
  /-- FW_ACTIVATE_LIVE (R110): FW_ACTIVATE mode 0 checks the staged image and activates it live. Arguments: a: mq. -/
  | fwActivateLive
  /-- FW_ACTIVATE_NEXT_START (R110): FW_ACTIVATE mode 1 checks the staged image and marks it for the next start. Arguments: a: mq. -/
  | fwActivateNextStart
  /-- FW_NEW_IMAGE_START (R110): The new image starts, posts RESUME and completes FW_ACTIVATE with OK. -/
  | fwNewImageStart
  /-- FW_ACTIVATE_WATCHDOG (R110): Without RESUME within 50 ms of PAUSE the old image restarts and FW_ACTIVATE completes with AUTH. -/
  | fwActivateWatchdog
  /-- RECOVER (R111): Host command OP 0x26 verifies a recovery token and clears FAILS. Arguments: a: mq. -/
  | recover
  /-- OPKEY_ENROL (R111): Host command OP 0x27 verifies an enrolment token and writes OPKEY. Arguments: a: mq. -/
  | opkeyEnrol
  /-- INTERRUPT_WINDOW_EXPIRY (R98): WINDOW us after the first pending completion the queue's MSI-X vector is sent. Arguments: a: vqn. -/
  | interruptWindowExpiry
  /-- BUCKET_TICK (R103): At each 1 us tick every bucket refills and is charged for bound cores. -/
  | bucketTick
  /-- FN_EVHEAD_WRITE (R106): A write to FN.EVHEAD frees event-ring entries and posts OVERFLOW and kept events. Arguments: a: fn, value: value. -/
  | fnEvheadWrite
  /-- COUNTER_READ (R6): A read of an RC counter returns its value and clears it. Arguments: a: space, b: off. -/
  | counterRead
  /-- ETH_PCTL_WRITE (R62): A write to ETH.PCTL sets MTU, speed and AN, and clearing EN drops the link. Arguments: a: port, value: value. -/
  | ethPctlWrite
  /-- SL_PCTL_WRITE (R87): A write to SL.PCTL sets HALF, and clearing and setting EN drops or retrains the port. Arguments: a: port, value: value. -/
  | slPctlWrite
  /-- CHP_TMARK_WRITE (R504): A house write to CHP.TMARK starts a scan that marks a micro-context's pages dirty. Arguments: value: value. -/
  | chpTmarkWrite
  /-- REGISTER_WRITE (R6): A write to a register without its own row updates its fields under their access rules. Arguments: a: space, b: off, c: size, value: value. -/
  | registerWrite
  /-- ETH_LINK_CHANGE (R63): An Ethernet port's link comes up or goes down. Arguments: a: port, flag: up. -/
  | ethLinkChange
  /-- FRAME_RECEIVE (R39): A received frame passes the receive checks in order and enters a receive queue or the slow path. Arguments: a: port, bytes: bytes. -/
  | frameReceive
  /-- SLOW_PATH_FRAME (R40): A Proem thread answers or drops a slow-path frame. Arguments: a: port. -/
  | slowPathFrame
  /-- HELLO (R48): A HELLO datagram is checked and claims a session slot in HALF. Arguments: a: port. -/
  | hello
  /-- CONFIRM (R49): A CONFIRM datagram with the right client tag opens the session. Arguments: a: port. -/
  | confirm
  /-- REQUEST (R53): A verified REQUEST datagram starts or continues a request's reassembly and lookup. Arguments: a: port. -/
  | request
  /-- HEARTBEAT (R52): A verified HEARTBEAT is answered with an HBACK carrying TIME. Arguments: a: port. -/
  | heartbeat
  /-- CLOSE (R51): A verified CLOSE lapses the session. Arguments: a: port. -/
  | close
  /-- CERTREQ (R50): A CERTREQ is answered with one part of the device certificate. Arguments: a: port. -/
  | certreq
  /-- SESSION_LAPSE_TIMEOUT (R51): No datagram of an OPEN session verifies for 3 x P and the session lapses. Arguments: a: slot. -/
  | sessionLapseTimeout
  /-- HALF_TIMEOUT (R47): A session in HALF for 100 ms returns to FREE. Arguments: a: slot. -/
  | halfTimeout
  /-- REASSEMBLY_TIMEOUT (R54): Fragments incomplete 10 ms after the first verified give ERROR REASSEMBLY. Arguments: a: req. -/
  | reassemblyTimeout
  /-- LANE_FAILURE (R68): A failed Smivy lane makes the port retrain at half width. Arguments: a: port, b: lane. -/
  | laneFailure
  /-- LINK_REPLAY (R69): A flit that fails CRC is not delivered and go-back-N replay is requested. Arguments: a: port. -/
  | linkReplay
  /-- LIVENESS_TIMEOUT (R69): No valid flit for 100 us takes the link down. Arguments: a: port. -/
  | livenessTimeout
  /-- CREDIT_FLIT (R69): A port with nothing to send sends a credit flit at least every 1 us. Arguments: a: port. -/
  | creditFlit
  /-- STALLDROP_TIMEOUT (R72): A head-of-queue packet waiting 1 ms for credit is dropped and its request ends TIMEOUT. Arguments: a: port. -/
  | stalldropTimeout
  /-- FABRIC_RESPONSE_TIMEOUT (R75): A fabric request with no response within 10 ms ends with status TIMEOUT. Arguments: a: core, b: op. -/
  | fabricResponseTimeout
  /-- CSEND_CREDIT_TIMEOUT (R77): A csend that gets no receive credit within 10 ms ends with TIMEOUT. Arguments: a: core, b: op. -/
  | csendCreditTimeout
  /-- WRITE (R76): An arriving WRITE packet is accepted and written into the target's fabric window. Arguments: a: port, bytes: bytes. -/
  | fabWrite
  /-- READ (R76): An arriving READ packet is performed at the target and answered with READRESP. Arguments: a: port, bytes: bytes. -/
  | fabRead
  /-- READRESP (R263): A READRESP delivers read data to the requester. Arguments: a: port, bytes: bytes. -/
  | fabReadResp
  /-- WRITEACK (R263): A WRITEACK completes a remote write. Arguments: a: port, bytes: bytes. -/
  | fabWriteAck
  /-- SEND (R77): An arriving SEND is delivered against a posted receive. Arguments: a: port, bytes: bytes. -/
  | fabSend
  /-- RECVCRED (R77): A RECVCRED reports posted receives to a source. Arguments: a: port, bytes: bytes. -/
  | fabRecvCred
  /-- COLL (R79): An arriving COLL packet contributes a chunk to a collective's fixed tree. Arguments: a: port, bytes: bytes. -/
  | fabColl
  /-- ABANDON (R81): An ABANDON zero-fills unfinished chunks and completes the collective with ABANDONED. Arguments: a: port, bytes: bytes. -/
  | fabAbandon
  /-- TIMESYNC (R82): An arriving TIMESYNC packet updates the link delay and corrects TIME. Arguments: a: port, bytes: bytes. -/
  | fabTimesync
  /-- TIMESYNC_EXCHANGE (R82): Every 10 us each port sends TIMESYNC to its link peer. Arguments: a: port. -/
  | timesyncExchange
  /-- FAULT (R83): An arriving FAULT notification is flooded, ends pending operations and is posted to the host. Arguments: a: port, bytes: bytes. -/
  | fabFault
  /-- BINDING (R154): Circulation takes a launch at intake and commits it bound, bound with pre-emption, waiting or refused. Arguments: flag: ethernet. -/
  | binding
  /-- CORE_PREEMPT_REQUEST (R322): A Collector request reaches a victim core, which stops issue and begins its save. Arguments: a: core. -/
  | corePreemptRequest
  /-- COLLECTOR_ACK (R163): An engine class acknowledges a pre-emption, and the core is released when all have. Arguments: a: core, b: cls. -/
  | collectorAck
  /-- CORE_FREE (R166): A core that becomes free is given to the wait-list head, a short carrel, or stays free. Arguments: a: core. -/
  | coreFree
  /-- WAIT_LIST_AGING (R165): Each full millisecond on a wait list raises a launch's aged priority by 1. Arguments: a: launch. -/
  | waitListAging
  /-- STRAND_PICKUP (R184): An idle core takes a ready record or unstarted strand and sets it up. Arguments: a: core. -/
  | strandPickup
  /-- TIME_WAKE (R185): A TIME tick meets a strand's time wake condition and its record becomes ready. Arguments: a: launch, b: strand. -/
  | timeWake
  /-- PARK_WAKE (R174): An alpush non-empty report wakes launches parked on that free list. -/
  | parkWake
  /-- PARK_TIMEOUT (R174): A launch parked on a free list for 1 ms returns to the wait list. Arguments: a: launch. -/
  | parkTimeout
  /-- DEADLINE_EXPIRY (R175): A launch's deadline passes and it is terminated or completed with class 7. Arguments: a: launch. -/
  | deadlineExpiry
  /-- LAUNCH_RETIRE (R131): A launch whose strands have all exited retires, writing dump, reply and completion. Arguments: a: launch. -/
  | launchRetire
  /-- PLANE_FILL_DONE (R198): The loader finishes filling a configuration plane, allowing a flip. Arguments: a: core. -/
  | planeFillDone
  /-- UNIT_SCRUB_DONE (R143): The Chipper finishes scrubbing a dirty unit, or marks it failed after two failures. Arguments: a: cls, b: unit, flag: ok. -/
  | unitScrubDone
  /-- ZERO_FILL_DONE (R143): A zero-marked HBM page finishes its zero fill and the waiting first write proceeds. Arguments: a: page. -/
  | zeroFillDone
  /-- KEY_ZEROISE_DONE (R129): A key slot's 8-cycle zeroisation completes and the slot becomes EMPTY. Arguments: a: slot. -/
  | keyZeroiseDone
  /-- SEGMENT_LOAD_DONE (R241): The Skidder finishes loading a segment and checks its hash. Arguments: a: seg, bytes: data, flag: error. -/
  | segmentLoadDone
  /-- HOME_SLICE_ACCEPT (R219): A bank arbiter accepts a request and performs it at the home slice. Arguments: a: req, b: part. -/
  | homeSliceAccept
  /-- LOAD_FILL (R453): A pending load or bank-operation result fills its pending register. Arguments: a: req. -/
  | loadFill
  /-- LATE_TRAP (R316): A late fault reported to the core is taken before the next bundle issues. Arguments: a: core. -/
  | lateTrap
  /-- COPY_ROW (R470): The copy engine or fetcher completes one row of an operation. Arguments: a: core, flag: stream, b: op. -/
  | copyRow
  /-- STREAM_SLOT_ADVANCE (R475): A stream finishes a slot's rows and advances it as a producer cbadv. Arguments: a: core, b: op. -/
  | streamSlotAdvance
  /-- CIPHER_BLOCK (R494): The cipher unit seals, opens or hashes one block. Arguments: a: core. -/
  | cipherBlock
  /-- FABRIC_OP_COMPLETE (R478): A fabric operation ends, writing its status word and signalling its event. Arguments: a: core, b: op. -/
  | fabricOpComplete
  /-- SLOT_FULL (R486): A slot becomes FULL once every write issued before its producer cbadv is performed. Arguments: a: core, b: handle. -/
  | slotFull
  /-- BANK_OWN_CLEAR (R195): A released scratchpad bank's OWN and RP clear when its operations complete. Arguments: a: core, b: bank. -/
  | bankOwnClear
  /-- ACC_BANKS_FREE (R201): Freed accumulator banks become free once their matrix operations complete. Arguments: a: core. -/
  | accBanksFree
  /-- PROEM_TIMER (R109): A Proem thread's timer delivers a wait packet. Arguments: a: thread. -/
  | proemTimer
  /-- SL_LINK_UP (R87): A Smivy port finishes training, its LINK bit sets and it learns its peer's package number. Arguments: a: port, b: peer. -/
  | slLinkUp
  /-- WHEEL_SLOT (R73): At each slot of a port's 64-slot wheel, the owner or best-effort traffic sends one flit. Arguments: a: port. -/
  | wheelSlot
  /-- CREDIT_RETURN (R74): A received credit-only flit returns credit for a share of the peer's receive buffer and counts as a valid flit. Arguments: a: port, b: share, c: flits. -/
  | creditReturn
  /-- EXPOSED_RESULT_LANDING (R335): A result of exposed latency lands in its register, weight row or slot at the end of issued cycle t + n - 1. Arguments: a: core. -/
  | exposedResultLanding
  /-- TMARK_SCAN_DONE (R504): The Chipper's page-tag-table scan for a CHP.TMARK request reaches its end and BUSY clears. -/
  | tmarkScanDone
  /-- IDE_KM (R90): An IDE_KM message in a secured SPDM session programs or starts an IDE stream's keys. Arguments: bytes: msg. -/
  | ideKm
  /-- EMPTY_BUNDLE (R330): A bundle with PRESENCE 0 issues in one cycle and does nothing. -/
  | emptyBundle
  /-- ILLBUNDLE (R332): A fetched header that fails R330, or a straddling bundle, traps with ILLBUNDLE before any slot issues. Arguments: a: kind. -/
  | illbundle
deriving DecidableEq, Repr

end Sys2Proof
end

