-- ==== Sys2Proof/Machine/Opcodes.lean ====
section
/-! DEFINITION. Machine/Opcodes.lean: the opcode maps of every slot (12_bundles_encoding.md R349, R352, R353, R357 to R362):
from an op value and the fields of its format to the instruction, and from an instruction back to its slot, op value and fields. -/
namespace Sys2Proof.Machine

/-- Scalar ops of format SA (12 R349). -/
def opSA (op : Nat) (f : SA) : Option Instr :=
  match op with
  | 1 => some (.add f)
  | 2 => some (.sub f)
  | 3 => some (.mul f)
  | 4 => some (.mulhI f)
  | 5 => some (.mulhN f)
  | 6 => some (.divI f)
  | 7 => some (.divN f)
  | 8 => some (.remI f)
  | 9 => some (.remN f)
  | 10 => some (.sAnd f)
  | 11 => some (.sOr f)
  | 12 => some (.sXor f)
  | 13 => some (.sAndn f)
  | 14 => some (.shl f)
  | 15 => some (.shr f)
  | 16 => some (.sar f)
  | 17 => some (.rol f)
  | 18 => some (.minI f)
  | 19 => some (.minN f)
  | 20 => some (.maxI f)
  | 21 => some (.maxN f)
  | 22 => some (.clz f)
  | 23 => some (.ctz f)
  | 24 => some (.popc f)
  | 25 => some (.bfxI f)
  | 26 => some (.bfxN f)
  | 27 => some (.bfi f)
  | 28 => some (.lea f)
  | 29 => some (.li f)
  | 30 => some (.sel f)
  | 31 => some (.cmp f)
  | 35 => some (.jmpr f)
  | 37 => some (.callr f)
  | 38 => some (.ret f)
  | 40 => some (.rotset f)
  | 48 => some (.spawn f)
  | 49 => some (.suspend f)
  | 50 => some (.yield f)
  | 51 => some (.exitStrand f)
  | 52 => some (.seqnext f)
  | 53 => some (.trap f)
  | 54 => some (.rett f)
  | 55 => some (.stamp f)
  | _ => none

/-- Scalar ops of format SB (12 R349). -/
def opSB (op : Nat) (f : SB) : Option Instr :=
  match op with
  | 32 => some (.br f)
  | 33 => some (.brz f)
  | 34 => some (.jmp f)
  | 36 => some (.call f)
  | 39 => some (.loop f)
  | _ => none

/-- Scalar ops of format SC (12 R349). -/
def opSC (op : Nat) (f : SC) : Option Instr :=
  match op with
  | 56 => some (.csrr f)
  | 57 => some (.csrw f)
  | 58 => some (.csrs f)
  | 59 => some (.csrc f)
  | _ => none

/-- Vector ops, the immediate forms at base op + 0x80 (12 R351 R352). -/
def opV (op : Nat) (f : VOp) : Option Instr :=
  match op with
  | 1 => some (.vadd f)
  | 2 => some (.vsub f)
  | 3 => some (.vmul f)
  | 4 => some (.vfma f)
  | 5 => some (.vfms f)
  | 6 => some (.vfnma f)
  | 7 => some (.vmin f)
  | 8 => some (.vmax f)
  | 9 => some (.vabs f)
  | 10 => some (.vneg f)
  | 11 => some (.vcpysgn f)
  | 12 => some (.vclass f)
  | 13 => some (.vand f)
  | 14 => some (.vor f)
  | 15 => some (.vxor f)
  | 16 => some (.vnot f)
  | 17 => some (.vshl f)
  | 18 => some (.vshr f)
  | 19 => some (.vsar f)
  | 20 => some (.vmulh f)
  | 21 => some (.vcmp f)
  | 22 => some (.vsel f)
  | 23 => some (.vcvt f)
  | 24 => some (.vpack f)
  | 25 => some (.vunpack f)
  | 26 => some (.vquant f)
  | 27 => some (.vdequant f)
  | 28 => some (.vexp2 f)
  | 29 => some (.vlog2 f)
  | 30 => some (.vrcp f)
  | 31 => some (.vrsq f)
  | 32 => some (.vsqrt f)
  | 33 => some (.vexpd f)
  | 34 => some (.vsum f)
  | 35 => some (.vmaxr f)
  | 36 => some (.vminr f)
  | 37 => some (.vscan f)
  | 38 => some (.vdraw f)
  | 39 => some (.vdrawl f)
  | 40 => some (.vdmerge f)
  | 41 => some (.vdescend f)
  | 42 => some (.vtop f)
  | 43 => some (.vrand f)
  | 44 => some (.vrandf f)
  | 45 => some (.vperm f)
  | 46 => some (.vshuf f)
  | 47 => some (.vrot f)
  | 48 => some (.vslide f)
  | 49 => some (.vbcast f)
  | 50 => some (.vins f)
  | 51 => some (.vext f)
  | 52 => some (.vmov f)
  | 53 => some (.viota f)
  | 54 => some (.vcompress f)
  | 55 => some (.vexpand f)
  | 56 => some (.vzip f)
  | 57 => some (.vunzip f)
  | 58 => some (.qand f)
  | 59 => some (.qor f)
  | 60 => some (.qxor f)
  | 61 => some (.qnot f)
  | 62 => some (.qset f)
  | 63 => some (.qcount f)
  | 64 => some (.qfirst f)
  | 129 => some (.vaddImm f)
  | 130 => some (.vsubImm f)
  | 131 => some (.vmulImm f)
  | 135 => some (.vminImm f)
  | 136 => some (.vmaxImm f)
  | 141 => some (.vandImm f)
  | 142 => some (.vorImm f)
  | 143 => some (.vxorImm f)
  | 145 => some (.vshlImm f)
  | 146 => some (.vshrImm f)
  | 147 => some (.vsarImm f)
  | 149 => some (.vcmpImm f)
  | 175 => some (.vrotImm f)
  | 177 => some (.vbcastImm f)
  | 190 => some (.qsetImm f)
  | _ => none

/-- Matrix ops (12 R353); the weight bank field tells mwswap from mwswap.home (15 R433). -/
def opM (op : Nat) (f : MOp) : Option Instr :=
  match op with
  | 1 => some (.mpushw f)
  | 2 => some (.mpusha f)
  | 3 => some (.mshift f)
  | 4 => some (.macc f)
  | 5 => some (.mdrain f)
  | 6 => some (.mclr f)
  | 7 => some (.mplane f)
  | 8 => if f.bank = 0 then some (.mwswapHome f) else some (.mwswap f)
  | _ => none

/-- Load ops, by op [4:0] (12 R357). -/
def opL (op : Nat) (f : LW) : Option Instr :=
  match op with
  | 1 => some (.lds f)
  | 2 => some (.ldv f)
  | 3 => some (.ldvg f)
  | 4 => some (.ldx f)
  | 5 => some (.ldcb f)
  | 6 => some (.ldacc f)
  | 7 => some (.ldq f)
  | _ => none

/-- Store-slot ops, by op [4:0] (12 R357). -/
def opW (op : Nat) (f : LW) : Option Instr :=
  match op with
  | 1 => some (.sts f)
  | 2 => some (.stv f)
  | 3 => some (.stvg f)
  | 4 => some (.stx f)
  | 5 => some (.stcb f)
  | 6 => some (.stacc f)
  | 7 => some (.stq f)
  | 8 => some (.aadd f)
  | 9 => some (.aaddf f)
  | 10 => some (.aand f)
  | 11 => some (.aor f)
  | 12 => some (.axor f)
  | 13 => some (.amin f)
  | 14 => some (.amax f)
  | 15 => some (.aswp f)
  | 16 => some (.acas f)
  | 17 => some (.adec f)
  | 18 => some (.alpush f)
  | 19 => some (.alpop f)
  | 20 => some (.adraw f)
  | _ => none

/-- Copy ops (12 R358); bit 63 tells the remote-access forms of csend and crecv (17 R479). -/
def opC (op : Nat) (f : COp) : Option Instr :=
  match op with
  | 1 => some (.cpy f)
  | 2 => some (.cstream f)
  | 3 => some (.cprefetch f)
  | 4 => some (.cgather f)
  | 5 => some (.cscatter f)
  | 8 => some (.ccoll f)
  | 9 => some (.cskid f)
  | 6 => if f.hi < 2147483648 then some (.csend f) else some (.csendRma f)
  | 7 => if f.hi < 2147483648 then some (.crecv f) else some (.crecvRma f)
  | _ => none

/-- Y ops of layout YF (12 R360). -/
def opYF (op : Nat) (f : YF) : Option Instr :=
  match op with
  | 1 => some (.fence f)
  | _ => none

/-- Y ops of layout YP. -/
def opYP (op : Nat) (f : YP) : Option Instr :=
  match op with
  | 2 => some (.pfence f)
  | _ => none

/-- Y ops of layout YH; mode 1 names the second form of a pair, and a mode of 2 or 3 stays with the first, which it makes illegal. -/
def opYH (op : Nat) (f : YH) : Option Instr :=
  match op with
  | 3 => some (.cbinit f)
  | 4 => if f.mode = 1 then some (.cbwaitFull f) else some (.cbwaitFree f)
  | 5 => if f.mode = 1 then some (.cbadvCons f) else some (.cbadvProd f)
  | 6 => if f.mode = 1 then some (.cbrelLine f) else some (.cbrel f)
  | _ => none

/-- Y ops of layout YB. -/
def opYB (op : Nat) (f : YB) : Option Instr :=
  match op with
  | 7 => some (.bkrel f)
  | 8 => some (.bkacq f)
  | _ => none

/-- Y ops of layout YG. -/
def opYG (op : Nat) (f : YG) : Option Instr :=
  match op with
  | 9 => some (.join f)
  | 10 => some (.leave f)
  | 11 => some (.bar f)
  | _ => none

/-- Y ops of layout YA. -/
def opYA (op : Nat) (f : YA) : Option Instr :=
  match op with
  | 12 => some (.aballoc f)
  | 13 => some (.abfree f)
  | _ => none

/-- Y ops of layout YE. -/
def opYE (op : Nat) (f : YE) : Option Instr :=
  match op with
  | 14 => some (.evwait f)
  | 15 => some (.evsig f)
  | _ => none

/-- Y ops of layout YR. -/
def opYR (op : Nat) (f : YR) : Option Instr :=
  match op with
  | 16 => some (.swaptok f)
  | 17 => some (.grinit f)
  | 18 => some (.grpush f)
  | 19 => some (.grpop f)
  | 20 => some (.grbud f)
  | 21 => some (.grprune f)
  | 22 => some (.rowsave f)
  | 23 => some (.rowrest f)
  | 24 => some (.seqwait f)
  | _ => none

/-- Cipher ops (12 R361). -/
def opK (op : Nat) (f : KOp) : Option Instr :=
  match op with
  | 1 => some (.cipherSeal f)
  | 2 => some (.cipherOpen f)
  | 3 => some (.shablk f)
  | 4 => some (.kbind f)
  | 5 => some (.kzero f)
  | _ => none

/-- Scale ops (12 R362); off17[16] is the mode of zgen (15 R449). -/
def opZ (op : Nat) (f : ZOp) : Option Instr :=
  match op with
  | 1 => some (.zld f)
  | 2 => some (.zldg f)
  | 3 => some (.zset f)
  | 4 => some (.zmov f)
  | 5 => if f.off < 65536 then some (.zgenG f) else some (.zgenB f)
  | _ => none

/-- A syllable: its slot family, op value and fields. -/
inductive Syll where
  | sa (op : Nat) (f : SA)
  | sb (op : Nat) (f : SB)
  | sc (op : Nat) (f : SC)
  | v (op : Nat) (f : VOp)
  | m (op : Nat) (f : MOp)
  | l (op : Nat) (f : LW)
  | w (op : Nat) (f : LW)
  | c (op : Nat) (f : COp)
  | yf (op : Nat) (f : YF)
  | yp (op : Nat) (f : YP)
  | yh (op : Nat) (f : YH)
  | yb (op : Nat) (f : YB)
  | yg (op : Nat) (f : YG)
  | ya (op : Nat) (f : YA)
  | ye (op : Nat) (f : YE)
  | yr (op : Nat) (f : YR)
  | k (op : Nat) (f : KOp)
  | z (op : Nat) (f : ZOp)
  | rv (funct3 : Nat) (f : RV)
deriving DecidableEq, Repr

/-- The syllable an instruction is written as; none for an event, which has no encoding. -/
def syllOf (i : Instr) : Option Syll :=
  match i with
  | .add f => some (.sa 1 f)
  | .sub f => some (.sa 2 f)
  | .mul f => some (.sa 3 f)
  | .mulhI f => some (.sa 4 f)
  | .mulhN f => some (.sa 5 f)
  | .divI f => some (.sa 6 f)
  | .divN f => some (.sa 7 f)
  | .remI f => some (.sa 8 f)
  | .remN f => some (.sa 9 f)
  | .sAnd f => some (.sa 10 f)
  | .sOr f => some (.sa 11 f)
  | .sXor f => some (.sa 12 f)
  | .sAndn f => some (.sa 13 f)
  | .shl f => some (.sa 14 f)
  | .shr f => some (.sa 15 f)
  | .sar f => some (.sa 16 f)
  | .rol f => some (.sa 17 f)
  | .minI f => some (.sa 18 f)
  | .minN f => some (.sa 19 f)
  | .maxI f => some (.sa 20 f)
  | .maxN f => some (.sa 21 f)
  | .clz f => some (.sa 22 f)
  | .ctz f => some (.sa 23 f)
  | .popc f => some (.sa 24 f)
  | .bfxI f => some (.sa 25 f)
  | .bfxN f => some (.sa 26 f)
  | .bfi f => some (.sa 27 f)
  | .lea f => some (.sa 28 f)
  | .li f => some (.sa 29 f)
  | .sel f => some (.sa 30 f)
  | .cmp f => some (.sa 31 f)
  | .jmpr f => some (.sa 35 f)
  | .callr f => some (.sa 37 f)
  | .ret f => some (.sa 38 f)
  | .rotset f => some (.sa 40 f)
  | .spawn f => some (.sa 48 f)
  | .suspend f => some (.sa 49 f)
  | .yield f => some (.sa 50 f)
  | .exitStrand f => some (.sa 51 f)
  | .seqnext f => some (.sa 52 f)
  | .trap f => some (.sa 53 f)
  | .rett f => some (.sa 54 f)
  | .stamp f => some (.sa 55 f)
  | .br f => some (.sb 32 f)
  | .brz f => some (.sb 33 f)
  | .jmp f => some (.sb 34 f)
  | .call f => some (.sb 36 f)
  | .loop f => some (.sb 39 f)
  | .csrr f => some (.sc 56 f)
  | .csrw f => some (.sc 57 f)
  | .csrs f => some (.sc 58 f)
  | .csrc f => some (.sc 59 f)
  | .vadd f => some (.v 1 f)
  | .vsub f => some (.v 2 f)
  | .vmul f => some (.v 3 f)
  | .vfma f => some (.v 4 f)
  | .vfms f => some (.v 5 f)
  | .vfnma f => some (.v 6 f)
  | .vmin f => some (.v 7 f)
  | .vmax f => some (.v 8 f)
  | .vabs f => some (.v 9 f)
  | .vneg f => some (.v 10 f)
  | .vcpysgn f => some (.v 11 f)
  | .vclass f => some (.v 12 f)
  | .vand f => some (.v 13 f)
  | .vor f => some (.v 14 f)
  | .vxor f => some (.v 15 f)
  | .vnot f => some (.v 16 f)
  | .vshl f => some (.v 17 f)
  | .vshr f => some (.v 18 f)
  | .vsar f => some (.v 19 f)
  | .vmulh f => some (.v 20 f)
  | .vcmp f => some (.v 21 f)
  | .vsel f => some (.v 22 f)
  | .vcvt f => some (.v 23 f)
  | .vpack f => some (.v 24 f)
  | .vunpack f => some (.v 25 f)
  | .vquant f => some (.v 26 f)
  | .vdequant f => some (.v 27 f)
  | .vexp2 f => some (.v 28 f)
  | .vlog2 f => some (.v 29 f)
  | .vrcp f => some (.v 30 f)
  | .vrsq f => some (.v 31 f)
  | .vsqrt f => some (.v 32 f)
  | .vexpd f => some (.v 33 f)
  | .vsum f => some (.v 34 f)
  | .vmaxr f => some (.v 35 f)
  | .vminr f => some (.v 36 f)
  | .vscan f => some (.v 37 f)
  | .vdraw f => some (.v 38 f)
  | .vdrawl f => some (.v 39 f)
  | .vdmerge f => some (.v 40 f)
  | .vdescend f => some (.v 41 f)
  | .vtop f => some (.v 42 f)
  | .vrand f => some (.v 43 f)
  | .vrandf f => some (.v 44 f)
  | .vperm f => some (.v 45 f)
  | .vshuf f => some (.v 46 f)
  | .vrot f => some (.v 47 f)
  | .vslide f => some (.v 48 f)
  | .vbcast f => some (.v 49 f)
  | .vins f => some (.v 50 f)
  | .vext f => some (.v 51 f)
  | .vmov f => some (.v 52 f)
  | .viota f => some (.v 53 f)
  | .vcompress f => some (.v 54 f)
  | .vexpand f => some (.v 55 f)
  | .vzip f => some (.v 56 f)
  | .vunzip f => some (.v 57 f)
  | .qand f => some (.v 58 f)
  | .qor f => some (.v 59 f)
  | .qxor f => some (.v 60 f)
  | .qnot f => some (.v 61 f)
  | .qset f => some (.v 62 f)
  | .qcount f => some (.v 63 f)
  | .qfirst f => some (.v 64 f)
  | .vaddImm f => some (.v 129 f)
  | .vsubImm f => some (.v 130 f)
  | .vmulImm f => some (.v 131 f)
  | .vminImm f => some (.v 135 f)
  | .vmaxImm f => some (.v 136 f)
  | .vandImm f => some (.v 141 f)
  | .vorImm f => some (.v 142 f)
  | .vxorImm f => some (.v 143 f)
  | .vshlImm f => some (.v 145 f)
  | .vshrImm f => some (.v 146 f)
  | .vsarImm f => some (.v 147 f)
  | .vcmpImm f => some (.v 149 f)
  | .vrotImm f => some (.v 175 f)
  | .vbcastImm f => some (.v 177 f)
  | .qsetImm f => some (.v 190 f)
  | .mpushw f => some (.m 1 f)
  | .mpusha f => some (.m 2 f)
  | .mshift f => some (.m 3 f)
  | .macc f => some (.m 4 f)
  | .mdrain f => some (.m 5 f)
  | .mclr f => some (.m 6 f)
  | .mplane f => some (.m 7 f)
  | .mwswap f => some (.m 8 f)
  | .mwswapHome f => some (.m 8 f)
  | .lds f => some (.l 1 f)
  | .ldv f => some (.l 2 f)
  | .ldvg f => some (.l 3 f)
  | .ldx f => some (.l 4 f)
  | .ldcb f => some (.l 5 f)
  | .ldacc f => some (.l 6 f)
  | .ldq f => some (.l 7 f)
  | .sts f => some (.w 1 f)
  | .stv f => some (.w 2 f)
  | .stvg f => some (.w 3 f)
  | .stx f => some (.w 4 f)
  | .stcb f => some (.w 5 f)
  | .stacc f => some (.w 6 f)
  | .stq f => some (.w 7 f)
  | .aadd f => some (.w 8 f)
  | .aaddf f => some (.w 9 f)
  | .aand f => some (.w 10 f)
  | .aor f => some (.w 11 f)
  | .axor f => some (.w 12 f)
  | .amin f => some (.w 13 f)
  | .amax f => some (.w 14 f)
  | .aswp f => some (.w 15 f)
  | .acas f => some (.w 16 f)
  | .adec f => some (.w 17 f)
  | .alpush f => some (.w 18 f)
  | .alpop f => some (.w 19 f)
  | .adraw f => some (.w 20 f)
  | .cpy f => some (.c 1 f)
  | .cstream f => some (.c 2 f)
  | .cprefetch f => some (.c 3 f)
  | .cgather f => some (.c 4 f)
  | .cscatter f => some (.c 5 f)
  | .ccoll f => some (.c 8 f)
  | .cskid f => some (.c 9 f)
  | .csend f => some (.c 6 f)
  | .csendRma f => some (.c 6 f)
  | .crecv f => some (.c 7 f)
  | .crecvRma f => some (.c 7 f)
  | .fence f => some (.yf 1 f)
  | .pfence f => some (.yp 2 f)
  | .cbinit f => some (.yh 3 f)
  | .cbwaitFree f => some (.yh 4 f)
  | .cbwaitFull f => some (.yh 4 f)
  | .cbadvProd f => some (.yh 5 f)
  | .cbadvCons f => some (.yh 5 f)
  | .cbrel f => some (.yh 6 f)
  | .cbrelLine f => some (.yh 6 f)
  | .bkrel f => some (.yb 7 f)
  | .bkacq f => some (.yb 8 f)
  | .join f => some (.yg 9 f)
  | .leave f => some (.yg 10 f)
  | .bar f => some (.yg 11 f)
  | .aballoc f => some (.ya 12 f)
  | .abfree f => some (.ya 13 f)
  | .evwait f => some (.ye 14 f)
  | .evsig f => some (.ye 15 f)
  | .swaptok f => some (.yr 16 f)
  | .grinit f => some (.yr 17 f)
  | .grpush f => some (.yr 18 f)
  | .grpop f => some (.yr 19 f)
  | .grbud f => some (.yr 20 f)
  | .grprune f => some (.yr 21 f)
  | .rowsave f => some (.yr 22 f)
  | .rowrest f => some (.yr 23 f)
  | .seqwait f => some (.yr 24 f)
  | .cipherSeal f => some (.k 1 f)
  | .cipherOpen f => some (.k 2 f)
  | .shablk f => some (.k 3 f)
  | .kbind f => some (.k 4 f)
  | .kzero f => some (.k 5 f)
  | .zld f => some (.z 1 f)
  | .zldg f => some (.z 2 f)
  | .zset f => some (.z 3 f)
  | .zmov f => some (.z 4 f)
  | .zgenG f => some (.z 5 f)
  | .zgenB f => some (.z 5 f)
  | .pwait f => some (.rv 0 f)
  | .ppost f => some (.rv 1 f)
  | .ptid f => some (.rv 2 f)
  | _ => none

end Sys2Proof.Machine
end

