-- ==== Sys2Proof/Machine/Legal.lean ====
section
/-! DEFINITION. Machine/Legal.lean: which field values an instruction's encoding admits (12_bundles_encoding.md R341 to R362 and
the instruction chapters' own rules). `fits` says that every field lies in its width; `legal` says that the encoding raises no
ILLOP by itself. What depends on a register, a handle or ROT is checked by the meanings. -/
namespace Sys2Proof.Machine

/-- The element width in bits of format code `f` (10 R275); block formats count their element. -/
def fmtBits (f : Nat) : Nat :=
  match f with
  | 0 => 32 | 1 => 16 | 2 => 16 | 3 => 8 | 4 => 8 | 5 => 4 | 6 => 4 | 7 => 4 | 8 => 8
  | 9 => 8 | 10 => 8 | 11 => 32 | 12 => 32 | 13 => 16 | 14 => 16 | _ => 8

/-- Format set F, the float element formats (12 R351). -/
def fmtF (f : Nat) : Bool := f ≤ 5
/-- Format set H (12 R351). -/
def fmtH (f : Nat) : Bool := f ≤ 2
/-- Format set I, the integer formats (12 R351). -/
def fmtI (f : Nat) : Bool := 9 ≤ f && f ≤ 14
/-- Format set B, the block formats (12 R351). -/
def fmtB (f : Nat) : Bool := 6 ≤ f && f ≤ 8
/-- Format set E, every element format (12 R351). -/
def fmtE (f : Nat) : Bool := fmtF f || fmtI f

/-- The group size of a V syllable (12 R343). -/
def VOp.grp (f : VOp) : Nat := 2 ^ f.g

/-- The condition codes (12 R348). -/
def condOk (c : Nat) : Bool := c ≤ 9

/-- Assigned control-register numbers (12 R346). -/
def csrOk (n : Nat) : Bool :=
  n == 0x001 || n == 0x002 || n == 0x003 || n == 0x004 || n == 0x010 || n == 0x011 || n == 0x012 || n == 0x020 ||
  n == 0x030 || n == 0x031 || n == 0x040 || n == 0x041 || n == 0x050 || n == 0x051 || n == 0x052 || n == 0x053 ||
  n == 0x060 || n == 0x061

/-- A position and a length of bfx and bfi (13 R374): they fit 64 bits and the other bits are zero. -/
def bfOk (imm : Nat) : Bool :=
  imm / 2 ^ 14 == 0 && imm / 64 % 4 == 0 &&
  (if imm / 256 % 64 == 0 then 64 else imm / 256 % 64) + imm % 64 ≤ 64

/-- SA forms with "sb/imm" (12 R347, 13 R368): with I = 1 sb is zero; with I = 0 X and imm32 are zero. -/
def saImm (f : SA) : Bool := if f.i == 1 then f.sb == 0 else f.x == 0 && f.imm == 0

/-- SA forms without an immediate: I, X, imm32 and CW are zero (13 R368). -/
def saPlain (f : SA) : Bool := f.i == 0 && f.x == 0 && f.imm == 0 && f.cw == 0

/-- The static rules of the SA ops (12 R349, 13 R368 to R387). -/
def legalSA (op : Nat) (f : SA) : Bool :=
  if op ≤ 0x03 then saImm f && f.cw ≤ 7
  else if op ≤ 0x05 then saImm f && f.cw == 0
  else if op == 0x06 || op == 0x08 then saImm f && (f.cw == 0 || f.cw == 2 || f.cw == 4 || f.cw == 6)
  else if op == 0x07 || op == 0x09 then saImm f && (f.cw == 0 || f.cw == 3 || f.cw == 5 || f.cw == 7)
  else if op ≤ 0x0D then saImm f && f.cw ≤ 1
  else if op ≤ 0x11 then saImm f && (f.cw == 0 || f.cw == 2 || f.cw == 3)
  else if op ≤ 0x15 then saImm f && f.cw == 0
  else if op ≤ 0x18 then saPlain f && f.sb == 0
  else if op ≤ 0x1B then f.i == 1 && f.x == 0 && f.cw == 0 && f.sb == 0 && bfOk f.imm
  else if op == 0x1C then f.i == 0 && f.cw ≤ 3
  else if op == 0x1D then f.i == 1 && f.cw == 0 && f.sa == 0 && f.sb == 0
  else if op == 0x1E then saImm f && f.cw == 0
  else if op == 0x1F then saImm f && condOk f.cw
  else if op == 0x23 || op == 0x25 then f.i == 0 && f.cw == 0 && f.sb == 0 && f.sd == 0
  else if op == 0x28 then
    f.i == 1 && f.x == 0 && f.cw == 0 && f.sd == 0 && f.sa == 0 && f.sb == 0 && f.imm ≤ 1024 && f.imm % 8 == 0
  else if op == 0x30 then saPlain f
  else if op == 0x31 then saPlain f && f.sd == 0
  else if op == 0x32 then saPlain f && f.sd == 0 && f.sb == 0
  else if op == 0x35 then f.i == 1 && f.x == 0 && f.cw == 0 && f.sd == 0 && f.sa == 0 && f.sb == 0 && f.imm < 65536
  else if op == 0x37 then saPlain f && f.sa == 0 && f.sb == 0
  else saPlain f && f.sd == 0 && f.sa == 0 && f.sb == 0

/-- The static rules of the SB ops (12 R347 R349, 13 R377 R379). -/
def legalSB (op : Nat) (f : SB) : Bool :=
  f.hi == 0 && f.disp % 4 == 0 &&
  (if op == 0x20 then condOk f.cc
   else if op == 0x21 then f.sb == 0 && f.cc ≤ 1
   else if op == 0x27 then f.sb == 0 && f.sa != 0
   else f.sa == 0 && f.sb == 0 && f.cc == 0)

/-- The static rules of the SC ops (12 R346 R349). -/
def legalSC (op : Nat) (f : SC) : Bool :=
  csrOk f.csr && (if op == 0x38 then f.sa == 0 && f.imm == 0 else true)

/-- The kinds of a V register field (12 R350). -/
inductive VKind where
  | vg | v1 | q | s | z | c | f | none
deriving DecidableEq, Repr

/-- A row of the vector opcode map (12 R352): field kinds, format set, whether G may exceed 1, whether rm applies, VA only. -/
structure VRow where
  vd : VKind := .vg
  va : VKind := .vg
  vb : VKind := .none
  vc : VKind := .none
  fmts : Nat → Bool := fmtE
  any : Bool := true
  rm : Bool := false
  onlyVA : Bool := false

/-- The vector opcode map, by base op (12 R352). -/
def vRow (op : Nat) : VRow :=
  if op ≤ 0x03 then { vb := .vg, rm := true }
  else if op ≤ 0x06 then { vb := .vg, vc := .vg, fmts := fmtF, rm := true }
  else if op ≤ 0x08 then { vb := .vg }
  else if op ≤ 0x0A then { fmts := fun f => fmtF f || f == 9 || f == 11 || f == 13 }
  else if op == 0x0B then { vb := .vg, fmts := fmtF }
  else if op == 0x0C then { fmts := fmtF }
  else if op ≤ 0x0F then { vb := .vg, fmts := fmtI }
  else if op == 0x10 then { fmts := fmtI }
  else if op ≤ 0x14 then { vb := .vg, fmts := fmtI }
  else if op == 0x15 then { vd := .q, va := .v1, vb := .v1, vc := .c, any := false }
  else if op == 0x16 then { vb := .vg, vc := .q }
  else if op == 0x17 then { vc := .f, fmts := fun f => fmtE f || fmtB f, rm := true }
  else if op == 0x18 then { vb := .vg, vc := .f, rm := true }
  else if op == 0x19 then { vc := .f }
  else if op == 0x1A then { vb := .f, vc := .z, fmts := fun f => f == 3 || f == 4 || f == 5 || fmtB f, rm := true }
  else if op == 0x1B then { vb := .f, vc := .z, fmts := fmtB, rm := true }
  else if op ≤ 0x20 then { fmts := fmtH, rm := true }
  else if op == 0x21 then { vb := .s, vc := .s, fmts := fmtH, rm := true }
  else if op ≤ 0x24 then { vd := .v1, rm := true }
  else if op == 0x25 then { rm := true }
  else if op == 0x26 then { vd := .v1, vc := .v1, fmts := fun f => f == 0, onlyVA := true }
  else if op == 0x27 then { vd := .v1, vc := .v1, fmts := fmtH, onlyVA := true }
  else if op == 0x28 then { vb := .vg, vc := .v1, fmts := fun f => f == 0, onlyVA := true }
  else if op == 0x29 then { vd := .v1, vc := .v1, fmts := fun f => f == 0, onlyVA := true }
  else if op == 0x2A then { vb := .s, fmts := fmtH, onlyVA := true }
  else if op == 0x2B then { va := .none, vc := .v1, fmts := fun f => f == 11 || f == 12, onlyVA := true }
  else if op == 0x2C then { va := .none, vc := .v1, fmts := fmtH, onlyVA := true }
  else if op == 0x2D then { vb := .vg }
  else if op == 0x2E then { vb := .vg, vc := .vg }
  else if op == 0x2F then { vb := .s }
  else if op == 0x30 then { vb := .vg, vc := .s }
  else if op == 0x31 then { va := .s }
  else if op == 0x32 then { vd := .v1, va := .s, vb := .s, any := false }
  else if op == 0x33 then { vd := .s, va := .v1, vb := .s, any := false }
  else if op == 0x34 then {}
  else if op == 0x35 then { va := .none, fmts := fmtI }
  else if op ≤ 0x37 then { vc := .q }
  else if op ≤ 0x39 then { vb := .vg }
  else if op ≤ 0x3C then { vd := .q, va := .q, vb := .q, fmts := fun f => f == 0, any := false }
  else if op == 0x3D then { vd := .q, va := .q, fmts := fun f => f == 0, any := false }
  else if op == 0x3E then { vd := .q, va := .s, any := false }
  else { vd := .s, va := .q, any := false }

/-- The base op of a vector op: the immediate forms stand at base + 0x80 (12 R351). -/
def vBase (op : Nat) : Nat := if 0x80 ≤ op then op - 0x80 else op

/-- The ratio of the wide to the narrow element width (14 R398). -/
def spanRatio (a b : Nat) : Nat := max (fmtBits a) (fmtBits b) / min (fmtBits a) (fmtBits b)

/-- The registers a conversion's operand spans: G on the narrow side, G times the ratio on the wide side (14 R398). -/
def spanOf (g own other : Nat) : Nat := if fmtBits other < fmtBits own then g * spanRatio own other else g

/-- The registers each operand of a vector op spans: destination, va, vb, vc (12 R343, 14 R398 R400). -/
def vSpans (op : Nat) (f : VOp) : Nat × Nat × Nat × Nat :=
  let b := vBase op
  let g := VOp.grp f
  if b == 0x17 then (spanOf g f.vc f.fmt, spanOf g f.fmt f.vc, 0, 0)
  else if b == 0x18 then (g, g, g, 0)
  else if b == 0x19 then (2 * g, g, 0, 0)
  else if b == 0x1A then (spanOf g f.fmt f.vb, spanOf g f.vb f.fmt, 0, if fmtB f.fmt then g else 0)
  else if b == 0x1B then (spanOf g f.vb f.fmt, spanOf g f.fmt f.vb, 0, g)
  else if b == 0x38 || b == 0x39 then (2 * g, g, g, 0)
  else
    let r := vRow b
    let n (k : VKind) : Nat := match k with | .vg => g | .none => 0 | _ => 1
    (n r.vd, n r.va, n r.vb, n r.vc)

/-- One field against its kind (12 R350); `g` is the span a grouped name must be aligned to. -/
def vFieldOk (k : VKind) (span x : Nat) : Bool :=
  match k with
  | .vg => x % span == 0
  | .v1 => true
  | .q => x < 16
  | .s => x < 64
  | .z => x < 32
  | .c => condOk x
  | .f => x < 15
  | .none => x == 0

/-- The format pairs of vpack: source, destination (14 R410). -/
def packOk (src dst : Nat) : Bool :=
  (src == 0 && (dst == 1 || dst == 2)) || ((src == 1 || src == 2) && (dst == 3 || dst == 4)) ||
  ((src == 3 || src == 4) && dst == 5) || ((src == 11 || src == 12) && (dst == 13 || dst == 14)) ||
  ((src == 13 || src == 14) && (dst == 9 || dst == 10))

/-- The format pairs of vunpack: source, destination (14 R410). -/
def unpackOk (src dst : Nat) : Bool :=
  ((src == 1 || src == 2) && dst == 0) || ((src == 3 || src == 4) && (dst == 1 || dst == 2)) ||
  (src == 5 && (dst == 3 || dst == 4)) || ((src == 13 || src == 14) && (dst == 11 || dst == 12)) ||
  ((src == 9 || src == 10) && (dst == 13 || dst == 14))

/-- Vector forms that take no predicate (14 R396). -/
def noPred (b : Nat) : Bool :=
  b == 0x33 || b == 0x36 || b == 0x37 || b == 0x38 || b == 0x39 || b == 0x1A || b == 0x29 || 0x3A ≤ b

/-- The further static causes of ILLOP (14 R398 R399 R397). -/
def vExtra (b : Nat) (f : VOp) : Bool :=
  if b ≤ 0x03 then !(fmtI f.fmt && 2 ≤ f.rm)
  else if b == 0x17 then !(fmtB f.vc)
  else if b == 0x18 then packOk f.fmt f.vc
  else if b == 0x19 then unpackOk f.fmt f.vc && f.g ≤ 2
  else if b == 0x1A then f.vb ≤ 2 && (if fmtB f.fmt then f.vc % VOp.grp f == 0 && f.vc + VOp.grp f ≤ 32 else f.vc == 0)
  else if b == 0x1B then f.vb ≤ 2 && f.vc % VOp.grp f == 0 && f.vc + VOp.grp f ≤ 32
  else if b == 0x25 then !(f.fmt == 3 || f.fmt == 4 || f.fmt == 5 || f.fmt == 9 || f.fmt == 10)
  else if b == 0x2D || b == 0x2E then f.fmt != 5
  else if b == 0x38 || b == 0x39 then f.g ≤ 2
  else true

/-- The operand an immediate form replaces must hold zero (12 R351): va for vbcast and qset, vb otherwise. -/
def vImmOk (op : Nat) (f : VOp) : Bool :=
  if op < 0x80 then true
  else if vBase op == 0x31 || vBase op == 0x3E then f.va == 0
  else f.vb == 0

/-- The static rules of a vector syllable (12 R350 R351 R343, 14 R396 R398 R399). -/
def legalV (op : Nat) (f : VOp) : Bool :=
  let b := vBase op
  let r := vRow b
  let sp := vSpans op f
  r.fmts f.fmt && f.fmt != 15 && (r.any || f.g == 0) && (r.rm || f.rm == 0) && vExtra b f && vImmOk op f &&
  sp.1 ≤ 8 && sp.2.1 ≤ 8 &&
  vFieldOk r.vd sp.1 f.vd && vFieldOk r.va (max 1 sp.2.1) f.va && vFieldOk r.vb (max 1 sp.2.2.1) f.vb &&
  vFieldOk r.vc (max 1 sp.2.2.2) f.vc && (!(noPred b) || f.qp == 0)

/-- A matrix operand format (12 R353). -/
def mFmtOk (f : Nat) : Bool := 1 ≤ f && f ≤ 10

/-- The static rules of a matrix syllable (12 R353, 15 R433 R436 R439). -/
def legalM (op : Nat) (f : MOp) : Bool :=
  f.top == 0 && (if op == 4 then f.cellop ≤ 2 else f.cellop == 0) &&
  (f.z == 0 || ((op == 1 || op == 2) && fmtB f.fmt)) &&
  (if op == 1 then mFmtOk f.fmt && f.plane == 0
   else if op == 2 then mFmtOk f.fmt && f.row == 0 && f.bank == 0
   else if op == 3 then f.row != 0 && f.fmt == 0 && f.f == 0 && f.plane == 0 && f.bank == 0
   else if op == 4 then mFmtOk f.fmt && f.f == 0
   else if op == 5 then
     (f.fmt == 1 || f.fmt == 2 || f.fmt == 3 || f.fmt == 4 || f.fmt == 9 || f.fmt == 11) && f.bank == 0
   else if op == 6 then f.fmt == 0 && f.f == 0 && f.bank == 0
   else if op == 7 then f.fmt == 0 && f.f == 0 && f.row == 0 && f.bank == 0
   else f.fmt == 0 && f.f == 0 && f.row == 0 && f.plane == 0)

/-- Ordering and scope fields against what the form accepts (09 R251). -/
def ordOk (acq rel both : Bool) (f : LW) : Bool :=
  f.scope != 3 &&
  (if f.ord == 0 then f.scope == 0 else if f.ord == 1 then acq else if f.ord == 2 then rel else both)

/-- The static rules of a load syllable (12 R354 to R357, 16 R451 step 1). -/
def legalL (op : Nat) (f : LW) : Bool :=
  f.rsv == 0 && ordOk true false false f && f.fe ≤ 2 &&
  (if op == 1 then f.d < 64 && f.idx == 0 && f.qp == 0
   else if op == 2 then f.ty == 0 && f.idx == 0
   else if op == 3 then f.ty ≤ 3 && f.idx == 0 && f.d % 2 ^ f.ty == 0
   else if op == 4 then f.d < 64 && f.qp == 0
   else if op == 5 then f.ty == 0 && f.base == 0 && f.fe == 0
   else if op == 6 then f.ty == 0 && f.idx == 0 && f.fe == 0
   else f.ty == 0 && f.idx == 0 && f.d < 16 && f.qp == 0)

/-- The type codes a store-slot form accepts (12 R355). -/
def wTypeOk (op ty : Nat) : Bool :=
  if op == 1 || op == 4 then true
  else if op == 3 then ty ≤ 3
  else if op == 8 || op == 10 || op == 11 || op == 12 || op == 15 || op == 16 then 4 ≤ ty
  else if op == 13 || op == 14 then ty == 0 || 4 ≤ ty
  else if op == 17 then ty == 5 || ty == 7
  else if op == 9 then ty ≤ 1
  else ty == 0

/-- The static rules of a store-slot syllable (12 R354 to R357, 16 R450 R451 step 1). -/
def legalW (op : Nat) (f : LW) : Bool :=
  f.rsv == 0 && wTypeOk op f.ty &&
  (if op ≤ 7 || op == 9 then ordOk false true false f else ordOk true true true f) &&
  (if op == 1 || op == 4 then f.fe ≤ 2 && f.qp == 0 && f.d < 64 && (op == 4 || f.idx == 0)
   else if op == 2 then f.fe ≤ 2 && f.idx < 16
   else if op == 3 then f.fe ≤ 2 && f.idx < 16 && f.d % 2 ^ f.ty == 0
   else if op == 5 then f.fe == 0 && f.base == 0 && f.x == 0
   else if op == 6 then f.fe == 0 && f.idx == 0
   else if op == 7 then f.fe ≤ 2 && f.idx == 0 && f.d < 16 && f.qp == 0
   else if op == 9 then f.fe == 0 && 2 ≤ f.idx && f.idx ≤ 7
   else if op == 17 || op == 19 then f.fe == 0 && f.qp == 0 && f.d < 64 && f.idx == 0
   else if op == 20 then f.fe == 0 && f.qp == 0 && f.d < 1024
   else f.fe == 0 && f.qp == 0 && f.d < 64)

/-- Bit `n` of the microword (17 R472). -/
def mwBit (mw n : Nat) : Bool := mw / 2 ^ n % 2 == 1

/-- The microword's stage rules common to cpy, cgather and cscatter (17 R472 R473). -/
def mwStages (mw : Nat) : Bool :=
  let sfmt := mw / 2 ^ 14 % 16
  let dfmt := mw / 2 ^ 10 % 16
  let cv := mwBit mw 9; let unp := mwBit mw 20; let sca := mwBit mw 19; let tr := mwBit mw 8; let dec := mwBit mw 18
  sfmt != 15 && dfmt != 15 &&
  (sfmt == 0 || unp || cv || tr) && (dfmt == 0 || cv) &&
  !(dec && (unp || cv || sca || tr)) &&
  (!unp || (!(fmtB sfmt) && 8 * (mw / 2 ^ 28 % 16) + fmtBits sfmt ≤ mw / 2 ^ 21 % 128 + 1)) &&
  (!cv || (if fmtB sfmt then sca && fmtH dfmt else if fmtB dfmt then sca && fmtH sfmt else true)) &&
  (!sca || (cv && (fmtB sfmt || fmtB dfmt))) &&
  (!tr || 8 ≤ fmtBits (if cv then dfmt else sfmt))

/-- The static rules of a copy syllable (12 R358, 17 R469 to R482). -/
def legalC (op : Nat) (f : COp) : Bool :=
  let mw := f.hi
  if op == 1 then
    mwStages mw && !(mwBit mw 0 && mwBit mw 1) && (mwBit mw 0 || mwBit mw 1 || f.f == 0) &&
    (!(mwBit mw 2) || mwBit mw 1) && !(mwBit mw 3 && mwBit mw 0)
  else if op == 2 then f.hi / 2 ^ 17 == 0
  else if op == 3 then f.f == 0 && f.sc == 0 && f.hi ≤ 2
  else if op == 4 then mwStages mw && mw % 16 == 0 && mw / 16 % 32 == 0 && !(mwBit mw 18)
  else if op == 5 then
    mwStages mw && !(mwBit mw 0) && !(mwBit mw 1) && !(mwBit mw 8) && !(mwBit mw 18) && !(mwBit mw 19)
  else if op == 6 || op == 7 then f.f == 0 && (f.hi < 2 ^ 31 || f.hi == 2 ^ 31)
  else if op == 8 then
    f.f == 0 && f.hi / 2 ^ 28 == 0 && f.hi / 2 ^ 16 % 8 ≤ 5 &&
    (f.hi / 2 ^ 16 % 8 != 3 || f.hi / 2 ^ 19 % 2 == 1) && (f.hi / 2 ^ 16 % 8 != 4 || f.hi / 2 ^ 19 % 2 == 0)
  else f.f == 0 && f.sc == 0 && f.hi == 0

/-- The static rules of the Y layouts (12 R359 R360, 09 R257 R258). -/
def legalYF (f : YF) : Bool := f.hi == 0 && f.kind ≤ 2 && f.scope ≤ 2
/-- pfence: no empty set, no scope 11 (09 R258). -/
def legalYP (f : YP) : Bool := f.hi == 0 && f.before != 0 && f.after != 0 && f.scope ≤ 2
/-- cbinit, cbwait, cbadv, cbrel (12 R360). -/
def legalYH (op : Nat) (f : YH) : Bool :=
  f.hi == 0 &&
  (if op == 3 then f.mode == 0
   else if op == 4 then f.mode ≤ 1 && f.sa == 0
   else if op == 5 then f.mode == 0 || (f.mode == 1 && f.sa == 0)
   else (f.mode == 0 && f.sa == 0) || (f.mode == 1 && f.h == 0))
/-- aballoc and abfree (12 R360, 15 R445). -/
def legalYA (op : Nat) (f : YA) : Bool := f.hi == 0 && (if op == 12 then f.choice ≤ 2 else f.choice == 0)
/-- The forms of layout YR: fields a row does not use are zero (12 R360). -/
def legalYR (op : Nat) (f : YR) : Bool :=
  f.hi == 0 &&
  (if op == 0x10 || op == 0x15 || op == 0x18 then f.sd == 0 && f.sb == 0
   else if op == 0x11 || op == 0x12 || op == 0x17 then f.sd == 0
   else if op == 0x13 then f.sa == 0 && f.sb == 0
   else f.sb == 0)

/-- The static rules of a cipher syllable (12 R361, 17 R493 R497). -/
def legalK (op : Nat) (f : KOp) : Bool :=
  f.top == 0 &&
  (if op == 1 || op == 2 then f.sa % 4 == 0 && 4 ≤ f.sa && f.sa ≤ 60
   else if op == 3 then f.key == 0 && f.sa % 4 == 0 && 4 ≤ f.sa && f.sa ≤ 60
   else if op == 4 then f.f == 0 && f.key != 0
   else f.f == 0 && f.sa == 0 && f.key != 0)

/-- The static rules of a scale syllable (12 R362, 15 R448). -/
def legalZ (op : Nat) (f : ZOp) : Bool :=
  if op == 3 then f.off == 0 else if op == 4 then f.off == 0 && f.sa < 32 else true

/-- The Proem extensions: fields that must be zero (04 R109). -/
def legalRV (funct3 : Nat) (f : RV) : Bool :=
  f.funct7 == 0 &&
  (if funct3 == 0 then f.rs2 == 0 else if funct3 == 1 then f.rd == 0 else f.rs1 == 0 && f.rs2 == 0)

/-- The encoding of a syllable raises no ILLOP by itself. -/
def Syll.legal (y : Syll) : Bool :=
  match y with
  | .sa op f => legalSA op f
  | .sb op f => legalSB op f
  | .sc op f => legalSC op f
  | .v op f => legalV op f
  | .m op f => legalM op f
  | .l op f => legalL op f
  | .w op f => legalW op f
  | .c op f => legalC op f
  | .yf _ f => legalYF f
  | .yp _ f => legalYP f
  | .yh op f => legalYH op f
  | .yb _ f => f.hi == 0
  | .yg _ f => f.hi == 0
  | .ya op f => legalYA op f
  | .ye _ f => f.hi == 0
  | .yr op f => legalYR op f
  | .k op f => legalK op f
  | .z op f => legalZ op f
  | .rv op f => legalRV op f

/-- Every field of a syllable lies in the width of its format (12 R347 to R362, 04 R109). -/
def Syll.fits (y : Syll) : Bool :=
  match y with
  | .sa op f => op < 256 && f.sd < 64 && f.sa < 64 && f.sb < 64 && f.i < 2 && f.x < 2 && f.cw < 16 && f.imm < 2 ^ 32
  | .sb op f => op < 256 && f.sa < 64 && f.sb < 64 && f.cc < 16 && f.hi < 256 && f.disp < 2 ^ 32
  | .sc op f => op < 256 && f.sd < 64 && f.sa < 64 && f.csr < 4096 && f.imm < 2 ^ 32
  | .v op f => op < 256 && f.fmt < 16 && f.vd < 2048 && f.va < 2048 && f.vb < 2048 && f.vc < 2048 && f.qp < 16 && f.g < 4 && f.rm < 4
  | .m op f => op < 16 && f.fmt < 16 && f.cellop < 4 && f.f < 64 && f.z < 32 && f.row < 128 && f.plane < 2 && f.bank < 2 && f.top < 4
  | .l op f | .w op f =>
    op < 32 && f.ty < 8 && f.d < 2048 && f.base < 64 && f.idx < 64 && f.x < 2 && f.ord < 4 && f.scope < 4 && f.fe < 4 &&
    f.qp < 16 && f.rsv < 2 && f.off < 2 ^ 21
  | .c op f => op < 256 && f.f < 64 && f.sa < 64 && f.sb < 64 && f.sc < 64 && f.hi < 2 ^ 32
  | .yf op f => op < 64 && f.scope < 4 && f.kind < 4 && f.hi < 2 ^ 22
  | .yp op f => op < 64 && f.scope < 4 && f.before < 64 && f.after < 64 && f.hi < 2 ^ 12
  | .yh op f => op < 64 && f.h < 64 && f.sa < 64 && f.mode < 4 && f.hi < 2 ^ 12
  | .yb op f => op < 64 && f.bank < 128 && f.hi < 2 ^ 19
  | .yg op f => op < 64 && f.group < 16 && f.hi < 2 ^ 22
  | .ya op f => op < 64 && f.sd < 64 && f.sa < 64 && f.choice < 4 && f.hi < 2 ^ 12
  | .ye op f => op < 64 && f.event < 256 && f.sa < 64 && f.hi < 2 ^ 12
  | .yr op f => op < 64 && f.sd < 64 && f.sa < 64 && f.sb < 64 && f.hi < 2 ^ 8
  | .k op f => op < 16 && f.f < 64 && f.sa < 64 && f.key < 4096 && f.top < 16
  | .z op f => op < 16 && f.z < 32 && f.sa < 64 && f.off < 2 ^ 17
  | .rv op f => op < 8 && f.rd < 32 && f.rs1 < 32 && f.rs2 < 32 && f.funct7 < 128

end Sys2Proof.Machine
end

