-- ==== Sys2Proof/Machine/NumFmt.lean ====
section
/-! DEFINITION. Machine/NumFmt.lean: number formats, exact values, rounding, conversion, maximum and minimum, and the special
functions (10_number_formats.md R271 to R295). A finite value is (-1)^neg x m x 2^e, exactly. -/
namespace Sys2Proof.Machine

/-- An exact value, or a special one. -/
inductive Num where
  | nan (signalling : Bool)
  | inf (neg : Bool)
  | fin (neg : Bool) (m : Nat) (e : Int)
deriving DecidableEq, Repr

/-- A floating-point format (10 R271): mantissa bits, exponent bits, bias, whether it has infinities, its NaN: 0 none,
1 as in IEEE formats, 2 the code with all ones (E4M3); and whether it has a sign. -/
structure FFmt where
  mb : Nat
  eb : Nat
  bias : Nat
  hasInf : Bool
  nan : Nat
  signed : Bool := true
deriving DecidableEq, Repr

/-- The format of a floating-point fmt code; block codes give their element's (10 R275). -/
def ffmt (f : Nat) : FFmt :=
  match f with
  | 0 => { mb := 23, eb := 8, bias := 127, hasInf := true, nan := 1 }
  | 1 => { mb := 7, eb := 8, bias := 127, hasInf := true, nan := 1 }
  | 2 => { mb := 10, eb := 5, bias := 15, hasInf := true, nan := 1 }
  | 3 => { mb := 3, eb := 4, bias := 7, hasInf := false, nan := 2 }
  | 4 => { mb := 2, eb := 5, bias := 15, hasInf := true, nan := 1 }
  | 8 => { mb := 3, eb := 4, bias := 7, hasInf := false, nan := 2 }
  | _ => { mb := 1, eb := 2, bias := 1, hasInf := false, nan := 0 }

/-- The scale format UE3M5 (10 R274). -/
def ue3m5 : FFmt := { mb := 5, eb := 3, bias := 7, hasInf := false, nan := 0, signed := false }

/-- The bit of the sign. -/
def FFmt.signBit (p : FFmt) : Nat := p.mb + p.eb

/-- The largest finite code without its sign. -/
def FFmt.maxCode (p : FFmt) : Nat :=
  if p.nan == 1 then (2 ^ p.eb - 1) * 2 ^ p.mb - 1 else if p.nan == 2 then 2 ^ (p.eb + p.mb) - 2 else 2 ^ (p.eb + p.mb) - 1

/-- The canonical NaN; +0 where the format has no NaN (10 R271 R285). -/
def FFmt.nanCode (p : FFmt) : Nat :=
  if p.nan == 1 then (2 ^ p.eb - 1) * 2 ^ p.mb + 2 ^ (p.mb - 1) else if p.nan == 2 then 2 ^ (p.eb + p.mb) - 1 else 0

/-- The code of an infinity, without its sign. -/
def FFmt.infCode (p : FFmt) : Nat := (2 ^ p.eb - 1) * 2 ^ p.mb

/-- The sign's bit pattern. -/
def FFmt.signCode (p : FFmt) (neg : Bool) : Nat := if neg && p.signed then 2 ^ p.signBit else 0

/-- The value of a code (10 R271). -/
def FFmt.decode (p : FFmt) (x : Nat) : Num :=
  let neg := p.signed && bitOf x p.signBit
  let e := fld x p.mb p.eb
  let m := fld x 0 p.mb
  if p.nan == 1 && e == 2 ^ p.eb - 1 then
    if m == 0 then .inf neg else .nan (m / 2 ^ (p.mb - 1) == 0)
  else if p.nan == 2 && e == 2 ^ p.eb - 1 && m == 2 ^ p.mb - 1 then .nan false
  else if e == 0 then .fin neg m (1 - (p.bias : Int) - p.mb)
  else .fin neg (2 ^ p.mb + m) ((e : Int) - p.bias - p.mb)

/-- An integer format is signed (10 R273 R275). -/
def intSigned (f : Nat) : Bool := f == 9 || f == 11 || f == 13

/-- An integer as an exact value. -/
def Num.ofInt (x : Int) : Num := .fin (decide (x < 0)) x.natAbs 0

/-- An integer element's value. -/
def intVal (f x : Nat) : Int := if intSigned f then sext x (fmtBits f) else (x % 2 ^ fmtBits f : Nat)

/-- The value of an element in a format code 0 to 14; block codes give the bare element (10 R275). -/
def decodeElem (f x : Nat) : Num := if fmtI f then Num.ofInt (intVal f x) else (ffmt f).decode x

/-! Rounding (10 R280 R281). -/

/-- A rounding mode with the counter words of its coins: 0 RNE, 1 RTZ, 2 RDN, 3 RUP, 4 stochastic (10 R279 R281). -/
structure Rnd where
  mode : Nat := 0
  key : BitVec 128 := 0
  w0 : Nat := 0
  w1 : Nat := 0
  w2 : Nat := 0
deriving DecidableEq, Repr

/-- Round to nearest even. -/
def rne : Rnd := {}

/-- Whether the neighbour farther from zero is picked: the lower one is `lo`, the rest is rem of den, `more` a further positive
fraction below one part of it (10 R280 R281). -/
def pickFar (r : Rnd) (neg : Bool) (lo rem den : Nat) (more : Bool) (idx : Nat) : Bool :=
  match r.mode with
  | 0 => den < 2 * rem || (2 * rem == den && (more || lo % 2 == 1))
  | 1 => false
  | 2 => neg
  | 3 => !neg
  | _ => coin r.key r.w0 r.w1 r.w2 idx < rem * 2 ^ 24 / den

/-- Position of the leading bit of a positive number. -/
def topBit (m : Nat) : Int := (Nat.log2 m : Int)

/-- Split m x 2^e at the grid 2^q: quotient, remainder, divisor. -/
def onGrid (m : Nat) (e q : Int) : Nat × Nat × Nat :=
  if q ≤ e then (m * 2 ^ (e - q).toNat, 0, 1)
  else
    let d := 2 ^ (q - e).toNat
    (m / d, m % d, d)

/-- The code of r x 2^q, where q is the grid of the value (10 R271). -/
def FFmt.encodeMag (p : FFmt) (r : Nat) (q : Int) : Nat :=
  if r == 0 then 0
  else
    let (r, q) := if 2 ^ (p.mb + 1) ≤ r then (r / 2, q + 1) else (r, q)
    if r < 2 ^ p.mb then r else (q + p.mb + p.bias).toNat * 2 ^ p.mb + (r - 2 ^ p.mb)

/-- ROUND of (m + fraction) x 2^e with sign `neg`; `more` says that a fraction in (0, 1) is left (10 R280). -/
def FFmt.roundMag (p : FFmt) (r : Rnd) (neg : Bool) (m : Nat) (e : Int) (more : Bool) (idx : Nat) : Nat × BitVec 7 :=
  if m == 0 then (p.signCode neg, 0)
  else
    let emin : Int := 1 - p.bias
    let ex := e + topBit m
    let q := max ex emin - p.mb
    let (lo, rem, den) := onGrid m e q
    let inexact := rem != 0 || more
    let far := inexact && pickFar r neg lo rem den more idx
    let mag := if far then lo + 1 else lo
    let code := p.encodeMag mag q
    let fl := flagIf inexact flNX ||| flagIf (inexact && ex < emin) flUF
    if p.maxCode < code then
      let fl := fl ||| flOF ||| flNX
      if p.hasInf then
        let toInf := r.mode == 0 || r.mode == 4 || (r.mode == 2 && neg) || (r.mode == 3 && !neg)
        (p.signCode neg + (if toInf then p.infCode else p.maxCode), fl)
      else (p.signCode neg + p.maxCode, fl ||| flSA)
    else (p.signCode neg + code, fl)

/-- ROUND(x, fmt, mode) for a floating-point format (10 R280 R285); `idx` is the index of the element rounded. -/
def FFmt.round (p : FFmt) (r : Rnd) (x : Num) (idx : Nat) : Nat × BitVec 7 :=
  match x with
  | .nan sig => (p.nanCode, flagIf (sig || p.nan == 0) flNV)
  | .inf neg => if p.hasInf then (p.signCode neg + p.infCode, 0) else (p.signCode neg + p.maxCode, flSA)
  | .fin neg m e => p.roundMag r neg m e false idx

/-- The range of an integer format. -/
def intRange (f : Nat) : Int × Int :=
  if intSigned f then (-(2 ^ (fmtBits f - 1) : Nat), (2 ^ (fmtBits f - 1) : Nat) - 1) else (0, (2 ^ fmtBits f : Nat) - 1)

/-- The bits of an integer in a format, modulo its width (10 R273). -/
def intCode (f : Nat) (x : Int) : Nat := (x % (2 ^ fmtBits f : Nat)).toNat

/-- SAT to an integer format (10 R280). -/
def satInt (f : Nat) (x : Int) : Nat × BitVec 7 :=
  let (lo, hi) := intRange f
  if x < lo then (intCode f lo, flSA) else if hi < x then (intCode f hi, flSA) else (intCode f x, 0)

/-- The integer neighbour of m x 2^e under a mode, as a magnitude, and whether it is inexact (10 R285). -/
def roundIntMag (r : Rnd) (neg : Bool) (m : Nat) (e : Int) (idx : Nat) : Nat × Bool :=
  let (lo, rem, den) := onGrid m e 0
  if rem == 0 then (lo, false) else (if pickFar r neg lo rem den false idx then lo + 1 else lo, true)

/-- A value to an integer format (10 R285): an out-of-range value reports NV and SA alone. DEDUCED [log 29]. -/
def roundToInt (f : Nat) (r : Rnd) (x : Num) (idx : Nat) : Nat × BitVec 7 :=
  match x with
  | .nan _ => (0, flNV)
  | .inf neg => (intCode f (if neg then (intRange f).1 else (intRange f).2), flNV ||| flSA)
  | .fin neg m e =>
    let (v, inexact) := roundIntMag r neg m e idx
    let (c, fl) := satInt f (if neg then -(v : Int) else v)
    (c, if fl == 0 then flagIf inexact flNX else flNV ||| flSA)

/-- A value to a format code 0 to 14 (10 R280 R285). -/
def roundElem (f : Nat) (r : Rnd) (x : Num) (idx : Nat) : Nat × BitVec 7 :=
  if fmtI f then roundToInt f r x idx else (ffmt f).round r x idx

/-- CVT (10 R285). DEDUCED [log 29]. -/
def cvtElem (src dst : Nat) (r : Rnd) (x idx : Nat) : Nat × BitVec 7 :=
  if fmtI src && fmtI dst then satInt dst (intVal src x) else roundElem dst r (decodeElem src x) idx

/-- Float to E8M0 (10 R285). -/
def cvtE8M0 (r : Rnd) (x : Num) (idx : Nat) : Nat × BitVec 7 :=
  match x with
  | .nan _ => (0xFF, flNV)
  | .inf neg => if neg then (0xFF, flNV) else (0xFE, flSA)
  | .fin neg m e =>
    if m == 0 then (0, 0)
    else if neg then (0xFF, flNV)
    else
      let ex := e + topBit m
      let (lo, rem, den) := onGrid m e ex
      let even := (ex + 127) % 2 == 0
      let up := rem != 0 && pickFar r false (if even then 2 * lo else 1) rem den false idx
      let c := ex + 127 + (if up then 1 else 0)
      if c < 0 then (0, flSA) else if 254 < c then (0xFE, flSA) else (c.toNat, 0)

/-- Float to UE3M5: the row names NV and SA only (10 R285). -/
def cvtUE3M5 (r : Rnd) (x : Num) (idx : Nat) : Nat × BitVec 7 :=
  match x with
  | .nan _ => (0, flNV)
  | .inf neg => if neg then (0, flNV) else (0xFF, flSA)
  | .fin neg m e =>
    if m == 0 then (0, 0)
    else if neg then (0, flNV)
    else
      let (c, fl) := ue3m5.roundMag r false m e false idx
      (c, fl &&& flSA)

/-- The value of an E8M0 code (10 R274). -/
def valE8M0 (x : Nat) : Num := if x % 256 == 255 then .nan false else .fin false 1 ((x % 256 : Nat) - 127)

/-- The value of a UE3M5 code (10 R274). -/
def valUE3M5 (x : Nat) : Num := ue3m5.decode x

/-! Exact arithmetic on values (10 R284). -/

/-- Negation. -/
def Num.neg (x : Num) : Num :=
  match x with
  | .nan s => .nan s
  | .inf n => .inf (!n)
  | .fin n m e => .fin (!n) m e

/-- Whether a value is a NaN. -/
def Num.isNan (x : Num) : Bool := match x with | .nan _ => true | _ => false
/-- Whether a value is a signalling NaN. -/
def Num.isSnan (x : Num) : Bool := match x with | .nan s => s | _ => false
/-- Whether a value is zero. -/
def Num.isZero (x : Num) : Bool := match x with | .fin _ m _ => m == 0 | _ => false
/-- The sign of a value that is no NaN. -/
def Num.sign (x : Num) : Bool := match x with | .nan _ => false | .inf n => n | .fin n _ _ => n

/-- A finite value as an integer multiple of 2^q, for q at or below its exponent. -/
def scaled (neg : Bool) (m : Nat) (e q : Int) : Int :=
  let v : Int := (m * 2 ^ (e - q).toNat : Nat)
  if neg then -v else v

/-- Exact sum; `rdn` says that an exact zero of opposite signs is -0 (10 R280 R284). -/
def Num.add (rdn : Bool) (a b : Num) : Num × BitVec 7 :=
  match a, b with
  | .nan s, y => (.nan false, flagIf (s || y.isSnan) flNV)
  | x, .nan s => (.nan false, flagIf (s || x.isSnan) flNV)
  | .inf n, .inf k => if n == k then (.inf n, 0) else (.nan false, flNV)
  | .inf n, _ => (.inf n, 0)
  | _, .inf n => (.inf n, 0)
  | .fin n m e, .fin k j f =>
    let q := min e f
    let v := scaled n m e q + scaled k j f q
    if v == 0 then (.fin (if m == 0 && j == 0 && n == k then n else rdn) 0 q, 0)
    else (.fin (decide (v < 0)) v.natAbs q, 0)

/-- Exact product (10 R284). -/
def Num.mul (a b : Num) : Num × BitVec 7 :=
  match a, b with
  | .nan s, y => (.nan false, flagIf (s || y.isSnan) flNV)
  | x, .nan s => (.nan false, flagIf (s || x.isSnan) flNV)
  | .inf n, y => if y.isZero then (.nan false, flNV) else (.inf (n != y.sign), 0)
  | x, .inf n => if x.isZero then (.nan false, flNV) else (.inf (n != x.sign), 0)
  | .fin n m e, .fin k j f => (.fin (n != k) (m * j) (e + f), 0)

/-- Comparison: none when either side is a NaN (zeros of both signs are equal). -/
def Num.cmp (a b : Num) : Option Ordering :=
  match a, b with
  | .nan _, _ => none
  | _, .nan _ => none
  | .inf n, .inf k => some (if n == k then .eq else if n then .lt else .gt)
  | .inf n, _ => some (if n then .lt else .gt)
  | _, .inf n => some (if n then .gt else .lt)
  | .fin n m e, .fin k j f =>
    let q := min e f
    some (compare (scaled n m e q) (scaled k j f q))

/-- a < b in exact arithmetic; false with a NaN. -/
def Num.lt (a b : Num) : Bool := Num.cmp a b == some .lt

/-- Maximum (`big`) or minimum of two values: NaN if either is, -0 below +0 (10 R291). -/
def Num.pickMax (big : Bool) (a b : Num) : Num × BitVec 7 :=
  if a.isNan || b.isNan then (.nan false, flagIf (a.isSnan || b.isSnan) flNV)
  else match Num.cmp a b with
    | some .lt => (if big then b else a, 0)
    | some .gt => (if big then a else b, 0)
    | _ => (if big then (if a.sign then b else a) else (if a.sign then a else b), 0)

/-- RNE_FP32 of an exact value, as a code (10 R280). -/
def rneFP32 (x : Num) : Nat := ((ffmt 0).round rne x 0).1

/-- RNE_FP32(a + b) on FP32 codes (10 R286 R289). -/
def addFP32 (a b : Nat) : Nat := rneFP32 (Num.add false ((ffmt 0).decode a) ((ffmt 0).decode b)).1

/-- The value of an element with its scales: sx4, mxfp4 and mxfp8 take them from the scale image (10 R277 R278). -/
def scaledElem (f x : Nat) (image : BitVec 528) (i : Nat) : Num :=
  if f == 6 then
    let g := (image.extractLsb' (512 + 8 * (i / 256)) 8).toNat
    if g == 255 then .nan false
    else (Num.mul (Num.mul ((ffmt 5).decode x) (valUE3M5 (image.extractLsb' (8 * (i / 8)) 8).toNat)).1 (.fin false 1 ((g : Int) - 127))).1
  else if f == 7 || f == 8 then
    let c := (image.extractLsb' (8 * (i / 32)) 8).toNat
    if c == 255 then .nan false else (Num.mul ((ffmt f).decode x) (.fin false 1 ((c : Int) - 127))).1
  else decodeElem f x

/-! Special functions (10 R292 to R295). -/

/-- TE[i] = RNE_INT(2^(i/64) x 2^30) (10, before R292). -/
def expTab : List Nat :=
  [1073741824, 1085434106, 1097253708, 1109202018, 1121280436, 1133490379, 1145833280, 1158310587,
   1170923762, 1183674286, 1196563654, 1209593378, 1222764986, 1236080024, 1249540052, 1263146652,
   1276901417, 1290805962, 1304861917, 1319070932, 1333434672, 1347954824, 1362633090, 1377471191,
   1392470869, 1407633882, 1422962010, 1438457051, 1454120821, 1469955159, 1485961921, 1502142985,
   1518500250, 1535035634, 1551751076, 1568648537, 1585730000, 1602997467, 1620452965, 1638098541,
   1655936265, 1673968228, 1692196547, 1710623359, 1729250827, 1748081133, 1767116489, 1786359126,
   1805811301, 1825475297, 1845353420, 1865448001, 1885761398, 1906295993, 1927054196, 1948038440,
   1969251188, 1990694927, 2012372174, 2034285470, 2056437387, 2078830522, 2101467502, 2124350982]

/-- TL[i] = RNE_INT(log2(2^30 / TD[i]) x 2^30) (10, before R292). -/
def logTab : List Nat :=
  [0, 24017256, 47667823, 70962728, 93912511, 116527249, 138816582, 160789745,
   182455581, 203822568, 224898838, 245692198, 266210141, 286459867, 306448298, 326182095,
   345667660, 364911161, 383918542, 402695523, 421247625, 439580171, 457698295, 475606957,
   493310944, 510814882, 528123240, 545240343, 562170370, 578917365, 595485245, 611877800,
   628098702, 644151509, 660039670, 675766524, 691335320, 706749198, 722011214, 737124328,
   752091421, 766915285, 781598637, 796144115, 810554284, 824831638, 838978603, 852997541,
   866890746, 880660456, 894308842, 907838030, 921250079, 934547002, 947730758, 960803258,
   973766363, 986621888, 999371608, 1012017244, 1024560485, 1037002979, 1049346326, 1061592099]

/-- TD[i] = RNE_INT(2^30 / (1 + i/64)); no tie arises (10, before R292). -/
def rcpTab (i : Nat) : Nat := (2 ^ 37 / (64 + i) + 1) / 2

/-- The nearest integer to x x 2^s, ties to even. -/
def nearestInt (neg : Bool) (m : Nat) (e : Int) : Int :=
  let v := (roundIntMag rne neg m e 0).1
  if neg then -(v : Int) else v

/-- 2^x for a finite x: a positive multiple m of 2^(n - 30) (10 R292). -/
def exp2Core (neg : Bool) (m : Nat) (e : Int) : Nat × Int :=
  let x : Num := .fin neg m e
  let clampLo : Num := .fin true 160 0
  let clampHi : Num := .fin false 128 0
  let X : Int :=
    if Num.lt x clampLo then -(160 * 2 ^ 24 : Nat) else if Num.lt clampHi x then (128 * 2 ^ 24 : Nat)
    else nearestInt neg m (e + 24)
  let n := X / (2 ^ 24 : Nat)
  let f := (X % (2 ^ 24 : Nat)).toNat
  let i := f / 2 ^ 18
  let t := f % 2 ^ 18
  let p := 59597083
  let p := 257941248 + p * t / 2 ^ 24
  let p := 744261118 + p * t / 2 ^ 24
  let p := 2 ^ 30 + p * t / 2 ^ 24
  (expTab.getD i 0 * p / 2 ^ 30, n - 30)

/-- vexp2 (10 R292). -/
def exp2 (f : Nat) (r : Rnd) (x : Num) (idx : Nat) : Nat × BitVec 7 :=
  match x with
  | .nan s => ((ffmt f).nanCode, flagIf s flNV)
  | .inf true => let (m, e) := exp2Core true 160 0; (ffmt f).roundMag r false m e false idx
  | .inf false => let (m, e) := exp2Core false 128 0; (ffmt f).roundMag r false m e false idx
  | .fin n m e => let (m, e) := exp2Core n m e; (ffmt f).roundMag r false m e false idx

/-- vexpd: 2^((a - m) x k) (10 R293). -/
def expd (f : Nat) (r : Rnd) (a m k : Num) (idx : Nat) : Nat × BitVec 7 :=
  let p := ffmt f
  let kneg := match k with | .inf n => n | .fin n j _ => n && j != 0 | .nan _ => false
  if a.isNan || m.isNan || k.isNan || kneg then (p.nanCode, flNV)
  else match a, m, k with
    | .inf true, _, _ => (0, 0)
    | _, .inf _, _ => (p.nanCode, flNV)
    | .inf false, _, _ => (p.nanCode, flNV)
    | _, _, .inf _ =>
      match Num.cmp a m with
      | some .lt => (0, 0)
      | some .gt => p.round r (.inf false) idx
      | _ => p.round r (.fin false 1 0) idx
    | _, _, _ => exp2 f r (Num.mul (Num.add false a m.neg).1 k).1 idx

/-- vlog2 (10 R294). -/
def log2F (f : Nat) (r : Rnd) (x : Num) (idx : Nat) : Nat × BitVec 7 :=
  let p := ffmt f
  match x with
  | .nan _ => (p.nanCode, flNV)
  | .inf true => (p.nanCode, flNV)
  | .inf false => (p.infCode, 0)
  | .fin n m e =>
    if m == 0 then (p.signCode true + p.infCode, flDZ)
    else if n then (p.nanCode, flNV)
    else
      let top := topBit m
      let M := if top ≤ 23 then m * 2 ^ (23 - top).toNat else m / 2 ^ (top - 23).toNat
      let ex := e + top
      let i := (M - 2 ^ 23) / 2 ^ 17
      let Y : Int := (M * rcpTab i / 2 ^ 23 : Nat) - (2 ^ 30 : Nat)
      let B : Int := (2 ^ 30 : Nat)
      let q : Int := 516360668
      let q := -774541002 + q * Y / B
      let q := 1549082005 + q * Y / B
      let q := q * Y / B
      let v := ex * B + (logTab.getD i 0 : Nat) + q
      p.roundMag r (decide (v < 0)) v.natAbs (-30) false idx

/-- Bit by bit integer square root: the greatest root whose square is at most x, `n` bits of root left. -/
def isqrtGo (x : Nat) (n root : Nat) : Nat :=
  match n with
  | 0 => root
  | n + 1 => isqrtGo x n (if (root + 2 ^ n) * (root + 2 ^ n) ≤ x then root + 2 ^ n else root)

/-- Integer square root of a number below 2^(2 x n). -/
def isqrt (n x : Nat) : Nat := isqrtGo x n 0

/-- vrcp: 1/x correctly rounded (10 R295). -/
def rcp (f : Nat) (r : Rnd) (x : Num) (idx : Nat) : Nat × BitVec 7 :=
  let p := ffmt f
  match x with
  | .nan s => (p.nanCode, flagIf s flNV)
  | .inf n => (p.signCode n, 0)
  | .fin n m e =>
    if m == 0 then (p.signCode n + p.infCode, flDZ)
    else
      let k := Nat.log2 m + 100
      p.roundMag r n (2 ^ k / m) (-(k : Int) - e) (2 ^ k % m != 0) idx

/-- A positive value with an even exponent and at least 200 bits: same value, (m, e). -/
def evenWide (m : Nat) (e : Int) : Nat × Int :=
  let s : Nat := 200 + (if (e - 200) % 2 == 0 then 0 else 1)
  (m * 2 ^ s, e - s)

/-- vsqrt: the square root correctly rounded (10 R295). -/
def sqrtF (f : Nat) (r : Rnd) (x : Num) (idx : Nat) : Nat × BitVec 7 :=
  let p := ffmt f
  match x with
  | .nan s => (p.nanCode, flagIf s flNV)
  | .inf n => if n then (p.nanCode, flNV) else (p.infCode, 0)
  | .fin n m e =>
    if m == 0 then (p.signCode n, 0)
    else if n then (p.nanCode, flNV)
    else
      let (m, e) := evenWide m e
      let root := isqrt 160 m
      p.roundMag r false root (e / 2) (root * root != m) idx

/-- vrsq: 1 over the square root, correctly rounded (10 R295). -/
def rsqF (f : Nat) (r : Rnd) (x : Num) (idx : Nat) : Nat × BitVec 7 :=
  let p := ffmt f
  match x with
  | .nan s => (p.nanCode, flagIf s flNV)
  | .inf n => if n then (p.nanCode, flNV) else (0, 0)
  | .fin n m e =>
    if m == 0 then (p.signCode n + p.infCode, flDZ)
    else if n then (p.nanCode, flNV)
    else
      let (m, e) := if e % 2 == 0 then (m, e) else (2 * m, e - 1)
      let root := isqrt 160 (2 ^ 300 / m)
      p.roundMag r false root (-150 - e / 2) (root * root * m != 2 ^ 300) idx

end Sys2Proof.Machine
end

