-- ==== Sys2Proof/Machine/Merge.lean ====
section
/-! DEFINITION. Machine/Merge.lean: draw pairs, MERGE and the draw and reduction trees (10_number_formats.md R289 to R304). -/
namespace Sys2Proof.Machine

/-- A draw pair: index and FP32 weight code (10 R299). -/
abbrev Pair := Nat × Nat

/-- NIL (10 R299). -/
def nilPair : Pair := (0xFFFFFFFF, 0)

/-- A pair as 64 bits: index low, weight high (10 R299). -/
def pairBits (p : Pair) : Nat := p.1 % 2 ^ 32 + p.2 % 2 ^ 32 * 2 ^ 32

/-- 64 bits as a pair. -/
def bitsPair (x : Nat) : Pair := (fld x 0 32, fld x 32 32)

/-- u x a < b x 2^24 in exact arithmetic, with infinities as reals are compared; false with a NaN (10 R300 R304 R305). -/
def coinLess (u : Nat) (a b : Num) : Bool :=
  Num.lt (Num.mul (.fin false u 0) a).1 (Num.mul b (.fin false 1 24)).1

/-- MERGE(L, R, u) and whether it met a bad weight (10 R300). -/
def mergePair (l r : Pair) (u : Nat) : Pair × Bool :=
  let p := ffmt 0
  let a := p.decode l.2
  let b := p.decode r.2
  let bad (x : Num) : Bool := x.isNan || (x.sign && !x.isZero)
  if bad a || bad b then (nilPair, true)
  else if a.isZero && b.isZero then (nilPair, false)
  else if a == .inf false && b == .inf false then (if u < 2 ^ 23 then (r.1, p.infCode) else (l.1, p.infCode), false)
  else if a == .inf false then ((l.1, p.infCode), false)
  else if b == .inf false then ((r.1, p.infCode), false)
  else
    let sum := (Num.add false a b).1
    ((if coinLess u sum b then r.1 else l.1, rneFP32 sum), false)

/-- One level of the fixed tree: nodes 2k and 2k + 1 combined; an absent child passes the other up (10 R289 R301). -/
def treeLevel {α : Type} (g : Nat → α → α → α) (k : Nat) (l : List (Option α)) : List (Option α) :=
  match l with
  | [] => []
  | [a] => [a]
  | a :: b :: r =>
    (match a, b with
      | some x, some y => some (g k x y)
      | some x, none => some x
      | none, y => y) :: treeLevel g (k + 1) r

/-- The fixed tree over a list: `g j k` combines into node k of depth j; the root (10 R289). -/
def treeRoot {α : Type} (fuel j : Nat) (g : Nat → Nat → α → α → α) (l : List (Option α)) : Option α :=
  match fuel, l with
  | _, [] => none
  | _, [a] => a
  | 0, a :: _ => a
  | fuel + 1, l => treeRoot fuel (j + 1) g (treeLevel (g j) 0 l)

/-- The draw tree over leaves: coins from `coinAt j k`; the root pair, NIL when absent, and the sticky flag (10 R301). -/
def drawTree (coinAt : Nat → Nat → Nat) (leaves : List (Option Pair)) : Pair × Bool :=
  let g (j k : Nat) (a b : Pair × Bool) : Pair × Bool :=
    let (p, bad) := mergePair a.1 b.1 (coinAt j k)
    (p, a.2 || b.2 || bad)
  match treeRoot 20 1 g (leaves.map fun o => o.map fun p => (p, false)) with
  | some r => r
  | none => (nilPair, false)

end Sys2Proof.Machine
end

