-- ==== Sys2Proof/Config.lean ====
section
/-! DEFINITION. Config.lean: what the spec leaves open, as constants without a body: nothing can evaluate them or prove a value of
them. A value that may differ each time is a function applied to the counter State.free. -/
namespace Sys2Proof

/-- Nanoseconds by which TIME advances in a step (01 R26: the manual gives no relation between steps and TIME). DESIGN CHOICE [log 6]. -/
opaque Config.elapsed : Nat → Nat
/-- Bytes of the Vault's on-die entropy source, by the number of bytes drawn before (05 R125). DEDUCED [log 71]. -/
opaque Config.entropy : Nat → Byte
/-- Bytes of the PUF secret, as the helper data of the boot flash reconstruct it (05 R125, 01 R27). DEDUCED [log 71]. -/
opaque Config.puf : List Byte → Nat → Byte
/-- Hops to the master of a link peer, as its port learns them (03 R82 R86: the manual does not say how). DESIGN CHOICE [log 20]. -/
opaque Config.peerHops : Nat → Nat
/-- Whether a load that may be served by the scalar data cache is (16 R453: may be served). DESIGN CHOICE [log 36]. -/
opaque Config.cacheHit : Nat → Bool
/-- Which line leaves a full scalar data cache (08 R224 names no replacement rule). DESIGN CHOICE [log 36]. -/
opaque Config.cacheVictim : Nat → Nat
/-- Whether a translation cache serves a translation it holds (08 R215: after a change outside its rules it is undefined whether the old or
the new translation is used; R214 names no replacement rule). DESIGN CHOICE [log 37]. -/
opaque Config.tlbServes : Nat → Bool
/-- Which entry leaves a full translation cache (08 R214 names no replacement rule). DESIGN CHOICE [log 37]. -/
opaque Config.tlbVictim : Nat → Nat
/-- The logical block size of the namespace on a flash root port: 512 bytes, or 4 KiB where true (08 R242). DESIGN CHOICE [log 103]. -/
opaque Config.nvmeLarge : Nat → Bool
/-- Where a peer's package holds a segment's content: destination micro-context, source micro-context and window offset of the Skidder's READ
(08 R240 gives the READ and not its fields). DESIGN CHOICE [log 103]. -/
opaque Config.segmentRead : Nat → Nat × Nat × Nat
/-- TVA of an over-read of a buffer slot (11 R310: the manual does not say which address, if any, a slot's over-read has).
DESIGN CHOICE [log 35]. -/
opaque Config.overReadTva : Nat → Nat
/-- What a bank-unit operation on a device window returns (08 R220 gives its effect at home slices only). DEDUCED [log 39]. -/
opaque Config.windowAtomic : Nat → Nat
/-- A byte that a house access of the host window reads where the read of host memory fails (08 R210 gives no result).
DESIGN CHOICE [log 81]. -/
opaque Config.hostFail : Nat → Byte
/-- The argument of a Proem wait packet (04 R109: "the source's argument"). DESIGN CHOICE [log 60]. -/
opaque Config.waitArg : Nat → Nat
/-- What mcycle of a Proem thread reads (04 R108: a count of Proem cycles, which the model does not keep). PRESUMED [log 17]. -/
opaque Config.proemCycles : Nat → Nat
/-- The Proem thread to which the firmware gives a wait-packet source (04 R108: as the firmware assigns). DESIGN CHOICE [log 60]. -/
opaque Config.houseThread : Nat → Nat
/-- The event that a 64-byte record handed to sink 0 of ppost stands for: function, type, detail, VQN and argument (04 R109 gives no
layout). DESIGN CHOICE [log 60]. -/
opaque Config.postedEvent : List Byte → Nat × Nat × Nat × Nat × Nat
/-- The completion that a 64-byte record handed to sink 3 of ppost stands for: the command's queue and TAG, its status and detail (04 R109
gives no layout). DESIGN CHOICE [log 60]. -/
opaque Config.postedCompletion : List Byte → Nat × Nat × Nat × Nat
/-- The argument of a QERR event with detail 4 that was kept: the entry keeps its type and detail alone (04 R104 R105).
DESIGN CHOICE [log 104]. -/
opaque Config.keptArgument : Nat → Nat
/-- The bytes that a firmware image puts into Proem's private SRAMs (false, key 2^18 c + offset) and shared SRAM (true) when it loads
(04 R110: the image's layout is the firmware's own). DESIGN CHOICE [log 61]. -/
opaque Config.firmwareMemory : List Byte → Bool → List (Nat × Byte)
/-- The launch record that a 64-byte record handed to sink 1 of ppost stands for (04 R109 gives no layout). DESIGN CHOICE [log 60]. -/
opaque Config.postedLaunch : List Byte → List Byte
/-- An SLH-DSA-SHA2-256s signature verifies: key hash, message, signature (01 R28, 04 R110 R111; the scheme is an outside standard, and the
key itself is not among the signed structure's named fields). DEDUCED [log 50]. -/
opaque Config.signed : List Byte → List Byte → List Byte → Bool
/-- An SLH-DSA-SHA2-256s signature over a message by the key pair of the given seeds. DEDUCED [log 50]. -/
opaque Config.sign : List Byte → List Byte → List Byte
/-- The SLH-DSA-SHA2-256s public key of the key pair of the given seeds (01 R27; the scheme is an outside standard). DEDUCED [log 50]. -/
opaque Config.identityKey : List Byte → List Byte
/-- Where the firmware keeps its own data: 0 the MCB copies, 1 the root of the house tables, 2 the save pool, 3 its number of areas, 4 the
segment table (08 R208 R238, 11 R324, 19 R505: the manual leaves the places to the firmware). DESIGN CHOICE [log 19]. -/
opaque Config.house : Nat → Nat
/-- ML-KEM-1024: the encapsulation key of the key pair of 64 bytes of seeds d and z. DEDUCED [log 50]. -/
opaque Config.kemPublic : List Byte → List Byte
/-- ML-KEM-1024.Decaps under the key pair of the given seeds. DEDUCED [log 50]. -/
opaque Config.kemDecaps : List Byte → List Byte → List Byte
/-- ML-KEM-1024.Encaps to a key with 32 bytes of randomness: shared secret and ciphertext. DEDUCED [log 50]. -/
opaque Config.kemEncaps : List Byte → List Byte → List Byte × List Byte
/-- SHA-256 of Fjaroon's firmware key and of its configuration key, as the boot ROM holds them (01 R27 R28). DEDUCED [log 71]. -/
opaque Config.romKeys : Nat → List Byte
/-- A register that a strand's continuation record does not carry, as a fault dump shows it (05 R148, 07 R183). DEDUCED [log 31]. -/
opaque Config.dumpReg : Nat → Nat
/-- A firmware image's signature verifies under Fjaroon's firmware key (01 R27, 04 R110; the image's layout is the firmware's own).
DESIGN CHOICE [log 61]. -/
opaque Config.firmwareSigned : List Byte → Bool
/-- A firmware image's SVN. DESIGN CHOICE [log 61]. -/
opaque Config.firmwareSvn : List Byte → Nat
/-- The encoding of an SPDM 1.3 response of a code from its fields (04 R92; DSP0274 is an outside standard). PRESUMED [log 75]. -/
opaque Config.spdmResponse : Nat → List (List Byte) → List Byte
/-- Field `n` of an SPDM 1.3 or IDE_KM request (04 R90 R92; outside standards): 0 a NEGOTIATE_ALGORITHMS' offer of the extended algorithms
(non-empty when it is made), 1 a KEY_EXCHANGE's encapsulation key, 2 a chunk's bytes, 3 an IDE key with its IV. PRESUMED [log 75]. -/
opaque Config.spdmField : Nat → List Byte → List Byte
/-- A FINISH's verification data is right, by session secret and message. PRESUMED [log 75]. -/
opaque Config.spdmFinish : List Byte → List Byte → Bool
/-- The session secret of SPDM 1.3's key schedule, from the shared secret and the transcript; by its number of updates.
PRESUMED [log 75]. -/
opaque Config.spdmSecret : List Byte → List Byte → Nat → List Byte
/-- The certificate chain to a device identity key. DEDUCED [log 71]. -/
opaque Config.certChain : List Byte → List Byte

end Sys2Proof
end

