-- ==== Sys2Proof/Machine/State.lean ====
section
/-! DEFINITION. Machine/State.lean: the state of the SV4 as plain data: every piece of state the spec names, each field's
docstring giving its name, width, the rule that names it (two digits: the spec file) and its reset value, which is the
field's default. A sparse table reads its element's default where no entry is listed. -/
namespace Sys2Proof.Machine

/-- Why step stops with a fault. -/
inductive Fault where
  /-- Raised by step when State.agent names neither a core nor a Proem thread; no run from reset reaches it. Safe. -/
  | noAgent
deriving DecidableEq, Repr

/-- Why the model gives an instruction no meaning. -/
inductive Refusal where
  /-- Raised by exec for an instruction of the opcode table that has no meaning yet. Safe. -/
  | notModelled (mnemonic : String)
deriving DecidableEq, Repr

/-- One temperature sensor's entry PKG.TEMP[n] (01_package_power.md R20). -/
structure TempEntry where
  /-- PKG.TEMP[n].V, 1 bit; 01 R20; reset 0 -/
  v : Bool := false
  /-- PKG.TEMP[n].T, 16 bits, signed, 1/16 degree; 01 R20; reset 0 -/
  t : BitVec 16 := 0
deriving DecidableEq, Repr

/-- The package window, throttling and start sequencer (01_package_power.md). -/
structure Pkg where
  /-- PKG.BOOTST.STAGE, 8 bits; 01 R35; reset 0 -/
  stage : Nat := 0
  /-- PKG.BOOTST.MODE, 4 bits: 0 starting, 1 normal, 2 minimal; 01 R35; reset 0 -/
  mode : Nat := 0
  /-- PKG.BOOTST.REASON, 8 bits; 01 R35; reset 0 -/
  reason : Nat := 0
  /-- PKG.BOOTST.SVN, 16 bits; 01 R35; reset 0 -/
  svn : Nat := 0
  /-- PKG.BOOTST.FAILS, 4 bits; 01 R35; reset 0 -/
  failsRead : Nat := 0
  /-- PKG.BOOTST.EARLY, 2 bits, kept by a warm reset; 01 R32 R35; reset 0 -/
  early : Nat := 0
  /-- TIME at which the start in progress began (the 2 s watchdog); 01 R32; DESIGN CHOICE 0 [log 10] -/
  startAt : Nat := 0
  /-- TIME at which the stage in progress was entered (its time bound); 01 R32; DESIGN CHOICE 0 [log 10] -/
  stageAt : Nat := 0
  /-- the boot ROM has written FAILS in this start, 1 bit; 01 R33; reset false -/
  romWrote : Bool := false
  /-- the SVN floors to raise at stage 0x08 (firmware, configuration), 16 bits each; 01 R29; reset 0 -/
  newFwSvn : Nat := 0
  /-- see newFwSvn; 01 R29; reset 0 -/
  newCfgSvn : Nat := 0
  /-- stage 0x01 timed out: every loop stopped, only PKG.BOOTST answers; 01 R32; reset false -/
  stuckPower : Bool := false
  /-- RESET_N is low or the rails are down: nothing runs; 01 R17 R30; DEDUCED true: the board has not yet released RESET_N [log 11] -/
  held : Bool := true
  /-- PKG.PCAP[11:0], 12 bits; 01 R37; reset cfg, DESIGN CHOICE 2600 until stage 0x04 applies the blob [log 12] -/
  pcap : Nat := 2600
  /-- base Ethernet MAC address of the configuration blob, 48 bits; 01 R28; DESIGN CHOICE 0 until stage 0x04 [log 12] -/
  macBase : Nat := 0
  /-- number of virtual functions of the configuration blob, 0 to 64; 01 R28; DESIGN CHOICE 0 until stage 0x04 [log 12] -/
  nVf : Nat := 0
  /-- PKG.PWR[11:0], mean power in watts, 12 bits; 01 R18 R37; DESIGN CHOICE 0 until the first estimate [log 10] -/
  pwr : Nat := 0
  /-- PKG.DEVID, 32 bytes; 01 R27; DESIGN CHOICE zeros until stage 0x02 derives the identity [log 10] -/
  devid : List Byte := List.replicate 32 0
  /-- PKG.TEMP[0..616]; 01 R20; reset V 0, T 0 -/
  temp : SMap TempEntry := []
  /-- package power throttle level, 0 to 3; 01 R18; DESIGN CHOICE 0 [log 10] -/
  powerLevel : Nat := 0
  /-- TIME of the last change of the package power level; 01 R18; DESIGN CHOICE 0 [log 10] -/
  powerLevelAt : Nat := 0
  /-- thermal level 0 to 3 of compute dies 0 to 3 and (key 4) of the hub; 01 R21 R23; reset 0 -/
  thermal : SMap Nat := []
  /-- thermal trip: every clock but TIME's stopped, THERMTRIP_N asserted; 01 R21; reset false -/
  tripped : Bool := false
  /-- ALERT_N asserted; 01 R32 R36; reset false -/
  alert : Bool := false
  /-- TAR.SEQ sweep count, 16 bits; 01 R23; reset 0 -/
  sweep : BitVec 16 := 0
  /-- HBM stacks whose controller wants doubled refresh from the next boundary, 12 bits; 01 R22; reset 0 -/
  refreshWant : BitVec 12 := 0
  /-- HBM stacks running doubled refresh, 12 bits; 01 R22; reset 0 -/
  refreshNow : BitVec 12 := 0
  /-- TAR.RFX: refreshNow as the last sweep's end found it, 12 bits; 01 R23 R24; reset 0 -/
  tarRfx : BitVec 12 := 0
  /-- TAR.LVL of compute dies 0 to 3: the throttle level in force as the last sweep's end found it, 2 bits; 01 R23 R24; reset 0 -/
  tarLevel : SMap Nat := []
  /-- HBM stacks that accept requests on every second cycle only, 12 bits; 01 R22; reset 0 -/
  halfRate : BitVec 12 := 0
deriving DecidableEq, Repr

/-- A firmware slot of the boot flash (04_host_interface.md R110). -/
structure FwSlot where
  /-- a complete staged image stands in the slot; 04 R110; kept across resets; DESIGN CHOICE false [log 13] -/
  valid : Bool := false
  /-- the image bytes; 04 R110; kept across resets; DESIGN CHOICE empty [log 13] -/
  image : List Byte := []
deriving DecidableEq, Repr

/-- The boot flash (01 R27 R28 R29, 04 R110 R111): kept across every reset. -/
structure Flash where
  /-- replay-protected FAILS, 1 byte, 0 to 3; 01 R29; DESIGN CHOICE 0 [log 13] -/
  fails : Nat := 0
  /-- replay-protected LASTREASON, 1 byte; 01 R29; DESIGN CHOICE 0 [log 13] -/
  lastReason : Nat := 0
  /-- replay-protected FWSVN, 2 bytes; 01 R29; DESIGN CHOICE 0 [log 13] -/
  fwSvn : Nat := 0
  /-- replay-protected CFGSVN, 2 bytes; 01 R29; DESIGN CHOICE 0 [log 13] -/
  cfgSvn : Nat := 0
  /-- replay-protected OPKEY, 32 bytes; 01 R29; DESIGN CHOICE zeros [log 13] -/
  opKey : List Byte := List.replicate 32 0
  /-- the replay-protected block's write counter, 32 bits; 01 R29, 04 R111; DESIGN CHOICE 0 [log 13] -/
  writes : Nat := 0
  /-- HMAC-SHA-256 that the block's last write carried over the data and the write counter, 32 bytes; none: the block as the factory left
  it, authentic; 01 R29; DESIGN CHOICE none [log 13] -/
  mac : Option (List Byte) := none
  /-- helper data of the PUF's reconstruction; 01 R27; DESIGN CHOICE empty [log 13] -/
  helper : List Byte := []
  /-- firmware slots A (key 0) and B (key 1); 04 R110; DESIGN CHOICE empty [log 13] -/
  slots : SMap FwSlot := []
  /-- active firmware slot, 0 or 1: the one that a start reads; 04 R110; DESIGN CHOICE 0 [log 13] -/
  active : Nat := 0
  /-- the slot that FW_ACTIVATE mode 1 marked for the next start; 04 R110; DESIGN CHOICE none [log 13] -/
  next : Option Nat := none
  /-- the configuration blob's bytes 0 to 63 and its signature; 01 R28; DESIGN CHOICE empty [log 13] -/
  blob : List Byte := []
deriving DecidableEq, Repr

/-- An Ethernet port's registers (02_ethernet_sessions.md R62 R63). -/
structure EthPort where
  /-- ETH.PCTL[n].MTU, 14 bits; 02 R62; reset 0x5DC -/
  mtu : Nat := 0x5DC
  /-- ETH.PCTL[n].SPEED, 2 bits; 02 R62; reset 0 -/
  speed : Nat := 0
  /-- ETH.PCTL[n].AN, 1 bit; 02 R62; reset 1 -/
  an : Bool := true
  /-- ETH.PCTL[n].EN, 1 bit; 02 R62; reset 0 -/
  en : Bool := false
  /-- ETH.PSTAT[n].SPEED, speed in force, 2 bits; 02 R63; reset 0 -/
  speedNow : Nat := 0
  /-- ETH.PSTAT[n].AL, 1 bit; 02 R63; reset 0 -/
  al : Bool := false
  /-- ETH.PSTAT[n].LINK, 1 bit; 02 R63; reset 0 -/
  link : Bool := false
  /-- rotating pointer of the receive-queue service, 0 to 63; 02 R41; DESIGN CHOICE 0 [log 10] -/
  pointer : Nat := 0
  /-- the slow-path queue, at most 256 frames, oldest first; 02 R40; DESIGN CHOICE empty [log 10] -/
  slow : List (List Byte) := []
  /-- CERTREQs answered in the current second, and the second they count for; 02 R50; DESIGN CHOICE 0 [log 10] -/
  certCount : Nat := 0
  /-- see certCount; 02 R50; DESIGN CHOICE 0 [log 10] -/
  certSecond : Nat := 0
deriving DecidableEq, Repr

/-- An address-table entry ETH.ADDR[n][k] (02 R65). -/
structure EthAddr where
  /-- ETH.ADDR.IP, 16 bytes as one number, byte 0 most significant; 02 R65; reset 0 -/
  ip : BitVec 128 := 0
  /-- ETH.ADDR.VID, 12 bits; 02 R65; reset 0 -/
  vid : BitVec 12 := 0
  /-- ETH.ADDR.FLAGS: V bit 0, TAG bit 1, IP6 bit 2; 02 R65; reset 0 -/
  flags : BitVec 3 := 0
  /-- ETH.ADDR.PART, 5 bits; 02 R65; reset 0 -/
  part : Nat := 0
  /-- ETH.ADDR.QUEUE, 6 bits; 02 R65; reset 0 -/
  queue : Nat := 0
deriving DecidableEq, Repr

/-- The pool register ETH.PART[p] (02 R66). -/
structure EthPool where
  /-- ETH.PART[p].SESSMAX, 16 bits; 02 R66; reset 0 -/
  sessMax : Nat := 0
  /-- ETH.PART[p].SLOT, 2 bits; 02 R66; reset 0 -/
  slot : Nat := 0
  /-- ETH.PART[p].COUNT, 12 bits; 02 R66; reset 0 -/
  count : Nat := 0
  /-- ETH.PART[p].BASE, 15 bits, in units of 64 KiB; 02 R66; reset 0 -/
  base : Nat := 0
  /-- the pairs of the pool that are held; 02 R56; reset none -/
  held : List Nat := []
  /-- a withdrawal has cleared the register, which reads 0; the geometry stands until the slots are scrubbed; 05 R117; reset false -/
  gone : Bool := false
deriving DecidableEq, Repr

/-- Where a datagram came from, for the answer (02 R60). -/
structure Peer where
  /-- arrival port, 0 to 3; 02 R60 -/
  port : Nat := 0
  /-- source MAC address, 48 bits; 02 R60 -/
  mac : Nat := 0
  /-- the packet was IPv6; 02 R60 -/
  ip6 : Bool := false
  /-- source IP address; 02 R60 -/
  srcIp : Nat := 0
  /-- destination IP address of the request; 02 R60 -/
  dstIp : Nat := 0
  /-- source UDP port; 02 R60 -/
  udp : Nat := 0
  /-- DSCP, 6 bits; 02 R60 -/
  dscp : Nat := 0
  /-- 802.1Q tag, none or its VID; 02 R38 R65 -/
  vid : Option Nat := none
  /-- partition of the matching address-table entry; 02 R46 R65 -/
  part : Nat := 0
deriving DecidableEq, Repr

/-- An MRP datagram waiting in a receive queue (02 R41). -/
structure Datagram where
  peer : Peer := {}
  payload : List Byte := []
deriving DecidableEq, Repr

/-- The states of a session slot (02 R47). -/
inductive SessState where
  | free | half | openS | lapsed
deriving DecidableEq, Repr

/-- A session slot (02 R46 R47 R49 R51). -/
structure Session where
  /-- session state; 02 R47; reset FREE -/
  st : SessState := .free
  /-- SID, 64 bits; 02 R46; DESIGN CHOICE 0 [log 10] -/
  sid : Nat := 0
  /-- partition; 02 R46; DESIGN CHOICE 0 [log 10] -/
  part : Nat := 0
  /-- binding, 12 bits; 02 R48; DESIGN CHOICE 0 [log 10] -/
  binding : Nat := 0
  /-- heartbeat period P in ms, 16 bits; 02 R48; DESIGN CHOICE 0 [log 10] -/
  period : Nat := 0
  /-- k_cd, 32 bytes; 02 R49; zeroised at reset (R31) -/
  kCd : List Byte := []
  /-- k_dc, 32 bytes; 02 R49; zeroised at reset (R31) -/
  kDc : List Byte := []
  /-- salt_cd, 4 bytes; 02 R49; zeroised at reset (R31) -/
  saltCd : List Byte := []
  /-- salt_dc, 4 bytes; 02 R49; zeroised at reset (R31) -/
  saltDc : List Byte := []
  /-- the client tag expected in CONFIRM, 32 bytes; 02 R49; zeroised at reset (R31) -/
  clientTag : List Byte := []
  /-- H, the highest client SEQ authenticated; 02 R44; DESIGN CHOICE 0 [log 10] -/
  high : Nat := 0
  /-- the client SEQs above H - 1,024 authenticated so far; 02 R44; reset none -/
  seen : List Nat := []
  /-- last SEQ sent by the SV4; 02 R44; DESIGN CHOICE 0 [log 10] -/
  sent : Nat := 0
  /-- TIME of the last verified datagram (lapse timer), and of ACCEPT in HALF; 02 R47 R51; DESIGN CHOICE 0 [log 10] -/
  lastAt : Nat := 0
deriving DecidableEq, Repr

/-- A Catalog entry (02 R55), 128 bits. -/
structure CatalogEntry where
  /-- Catalog V, 1 bit; 02 R55; reset 0 -/
  v : Bool := false
  /-- Catalog PART, 5 bits; 02 R55; reset 0 -/
  part : Nat := 0
  /-- Catalog MCX, 13 bits; 02 R55; reset 0 -/
  mcx : Nat := 0
  /-- Catalog BIND, 12 bits; 02 R55; reset 0 -/
  bind : Nat := 0
  /-- Catalog FUNC, 32 bits; 02 R55; reset 0 -/
  func : Nat := 0
deriving DecidableEq, Repr

/-- A request in flight (02 R53), from its first datagram until its reply has gone or been dropped. -/
structure Request where
  /-- session slot index; 02 R53 -/
  slot : Nat := 0
  /-- FUNC, 32 bits; 02 R53 -/
  func : Nat := 0
  /-- REQID, 32 bits; 02 R53 -/
  reqid : Nat := 0
  /-- TLEN; 02 R42 R53 -/
  tlen : Nat := 0
  /-- fragment count; 02 R42 R53 -/
  frags : Nat := 1
  /-- fragments verified: index to decrypted body; 02 R53 R57 -/
  bodies : SMap (Option (List Byte)) := []
  /-- partition; 02 R46 -/
  part : Nat := 0
  /-- the micro-context the Catalog lookup gave; 02 R55 -/
  mcx : Nat := 0
  /-- slot pair of the partition's pool; 02 R53 R56 -/
  pair : Nat := 0
  /-- TIME at which the first datagram verified; 02 R54 -/
  firstAt : Nat := 0
  /-- reassembly is complete; 02 R53 -/
  complete : Bool := false
  /-- address of the last datagram; 02 R60 -/
  peer : Peer := {}
deriving DecidableEq, Repr

/-- A HELLO of which some datagrams have come (02 R42 R48). -/
structure HelloPart where
  /-- where its last datagram came from; 02 R42 -/
  peer : Peer := {}
  /-- TLEN; 02 R42 -/
  tlen : Nat := 0
  /-- fragment count; 02 R42 -/
  frags : Nat := 1
  /-- bodies by fragment index; 02 R42 -/
  bodies : SMap (Option (List Byte)) := []
deriving DecidableEq, Repr

/-- The Ethernet engine and the Catalog (02_ethernet_sessions.md). -/
structure Eth where
  /-- ports e0 to e3 -/
  ports : SMap EthPort := []
  /-- ETH.MRPPORT.PORT, 16 bits; 02 R64; reset 0xB8C5 -/
  mrpPort : Nat := 0xB8C5
  /-- ETH.ADDR[n][k], key 32n + k; 02 R65; reset 0 -/
  addr : SMap EthAddr := []
  /-- ETH.PART[p]; 02 R66; reset 0 -/
  pools : SMap EthPool := []
  /-- receive queues, key 64 n + q, oldest first, 32 KiB each; 02 R41; reset empty -/
  queues : SMap (List Datagram) := []
  /-- port counters, key 32 n + k, 48 bits each, saturating; 02 R67; reset 0 -/
  portCtr : SMap Nat := []
  /-- partition counters, key 16 p + k, 48 bits each, saturating; 02 R67; reset 0 -/
  partCtr : SMap Nat := []
  /-- the 16,384 session slots; 02 R46 R47; reset FREE -/
  sessions : SMap Session := []
  /-- the Catalog: 65,536 entries, key 4 set + way; 02 R55; reset 0 -/
  catalog : SMap CatalogEntry := []
  /-- HELLOs of more than one datagram that are not yet whole; 02 R42 R48; DESIGN CHOICE none [log 10] -/
  hellos : List HelloPart := []
  /-- requests in flight by identifier; 02 R53; reset none -/
  requests : SMap (Option Request) := []
  /-- next request identifier of the model (names a request while it is in flight); model's own, DESIGN CHOICE 0 [log 3] -/
  nextReq : Nat := 0
deriving DecidableEq, Repr

/-- A Smivy packet (03_smivy_link.md R70). -/
structure Pk where
  /-- KIND; 03 R70 -/
  kind : Nat := 0
  /-- PART, sender's partition, 5 bits; 03 R70 -/
  part : Nat := 0
  /-- STATUS; 03 R70 R75 -/
  status : Nat := 0
  /-- DPKG, 11 bits; 03 R70 -/
  dpkg : Nat := 0
  /-- SPKG, 11 bits; 03 R70 -/
  spkg : Nat := 0
  /-- DMCX, 13 bits; 03 R70 -/
  dmcx : Nat := 0
  /-- SMCX, 13 bits; 03 R70 -/
  smcx : Nat := 0
  /-- OPID, 32 bits; 03 R70 -/
  opid : Nat := 0
  /-- KARG, 16 bytes; 03 R70 -/
  karg : List Byte := List.replicate 16 0
  /-- payload; 03 R70 -/
  data : List Byte := []
  /-- not on the wire: the port in whose receive buffer it still stands, and the share that each of its flits takes there; 03 R74 -/
  inPort : Nat := 0
  /-- see inPort; none for a packet that this package made -/
  shares : List Nat := []
deriving DecidableEq, Repr

/-- A packet in a port's send queue (03 R71 to R73). -/
structure SendPkt where
  pk : Pk := {}
  /-- it travels in the house's slot whatever its VC, as a segment load's READ does; 08 R240 -/
  house : Bool := false
  /-- flits of it that have been sent; 03 R73 -/
  sent : Nat := 0
  /-- TIME since which it has waited for credit at the head; 03 R72; none while it does not -/
  waitAt : Option Nat := none
deriving DecidableEq, Repr

/-- A Smivy port (03_smivy_link.md R68 R69 R73 R74 R87). -/
structure SlPort where
  /-- SL.PCTL[n].HALF, 1 bit; 03 R87; reset 0 -/
  half : Bool := false
  /-- SL.PCTL[n].EN, 1 bit; 03 R87; reset 0 -/
  en : Bool := false
  /-- SL.PSTAT[n].PEER, 11 bits; 03 R87; reset 0 -/
  peer : Nat := 0
  /-- SL.PSTAT[n].WIDTH, 1 bit; 03 R87; reset 0 -/
  width : Bool := false
  /-- SL.PSTAT[n].LINK, 1 bit; 03 R87; reset 0 -/
  link : Bool := false
  /-- the link went down and EN has not been cleared and set since; 03 R69; reset false -/
  latchedDown : Bool := false
  /-- lanes that have failed, 8 bits; 03 R68; reset 0 -/
  lanesBad : BitVec 8 := 0
  /-- SL.WHEEL[n] bytes 1 to 63, V in bit 7 and the partition in [4:0]; 03 R73 R87; reset 0 -/
  wheel : SMap Nat := []
  /-- SL.WHEEL[n] as written, in force from the next turn of the wheel; 03 R87; reset 0 -/
  wheelNext : SMap Nat := []
  /-- the wheel's current slot, 0 to 63; 03 R73; DESIGN CHOICE 0 [log 10] -/
  slot : Nat := 0
  /-- best-effort rotating partition pointer, 0 to 31; 03 R73; DESIGN CHOICE 0 [log 10] -/
  bePtr : Nat := 0
  /-- credit used of each share: key 4 p + vc for partition p, 128 for the house, 129 for the pool, in flits; 03 R74; reset 0 -/
  used : SMap Nat := []
  /-- flits of each share of this port's own receive buffer, 1,024 flits, that the peer counts as used: received and their credit not yet
  returned; 03 R74; reset 0 -/
  got : SMap Nat := []
  /-- link sequence number of the next new flit sent, 12 bits; 03 R68; DESIGN CHOICE 0 [log 101] -/
  txSeq : Nat := 0
  /-- link sequence number of the flit received next, 12 bits; 03 R68 R69; DESIGN CHOICE 0 [log 101] -/
  rxSeq : Nat := 0
  /-- retry buffer: the flits sent last, at most 512, with sequence number and trailer, oldest first; 03 R69; reset empty -/
  retry : List (Nat × List Byte) := []
  /-- flits still to be sent again for the peer's replay request, oldest first; 03 R69; reset empty -/
  resend : List (Nat × List Byte) := []
  /-- send queue, oldest first; 03 R71 R72; reset empty -/
  sendq : List SendPkt := []
  /-- consecutive failures of the flit expected next: the first and its replays'; 03 R69; reset 0 -/
  replays : Nat := 0
  /-- TIME of the last valid flit received; 03 R69; DESIGN CHOICE 0 [log 10] -/
  lastFlit : Nat := 0
  /-- link delay in ns, half the round trip; 03 R82; DESIGN CHOICE 0 [log 10] -/
  delay : Nat := 0
  /-- the link peer's hops to the master, 8 bits; 03 R82 R86; DESIGN CHOICE 0xFF, none known [log 20] -/
  hops : Nat := 0xFF
deriving DecidableEq, Repr

/-- A package, or a micro-context of one, that was reported dead (03 R81 R83). -/
structure Dead where
  pkg : Nat := 0
  /-- its micro-context, or none for the whole package -/
  mcx : Option Nat := none
  /-- TIME at which the report came -/
  at_ : Nat := 0
deriving DecidableEq, Repr

/-- Smivy's registers and state that are not a port's (03 R71 R82 R83 R85 R86 R88 R89). -/
structure Sl where
  /-- SL.ID.PKG, 11 bits; 03 R85; reset 0 -/
  pkg : Nat := 0
  /-- SL.ID.MASTER, 1 bit; 03 R85; reset 0 -/
  master : Bool := false
  /-- SL.TSTAT.HOPS, 8 bits; 03 R86; reset 0xFF -/
  hops : Nat := 0xFF
  /-- SL.TSTAT.PARENT, 4 bits; 03 R86; reset 0 -/
  parent : Nat := 0
  /-- SL.TSTAT.SYNC, 1 bit; 03 R86; reset 0 -/
  sync : Bool := false
  /-- SL.TSTAT.OFS, 32 bits, signed; 03 R86; reset 0 -/
  ofs : Int := 0
  /-- consecutive exchanges with the offset within 20 ns; 03 R86; reset 0 -/
  syncRun : Nat := 0
  /-- offset e of TIME still to be taken back in ns, signed; 03 R82; DESIGN CHOICE 0 [log 10] -/
  slew : Int := 0
  /-- TIME counts every second tick; 03 R82; DESIGN CHOICE false [log 10] -/
  slow : Bool := false
  /-- ticks since the last extra, omitted or counted one; 03 R82; DESIGN CHOICE 0 [log 10] -/
  slewPhase : Nat := 0
  /-- SL.ROUTE[d].MASK, 16 bits each; 03 R88; reset 0 -/
  route : SMap (BitVec 16) := []
  /-- ports sl0 to sl15 -/
  ports : SMap SlPort := []
  /-- port counters, key 32 n + k, 48 bits, saturating; 03 R89; reset 0 -/
  ctr : SMap Nat := []
  /-- fault notifications seen, (origin package, sequence number); 03 R83; reset none -/
  faultsSeen : List (Nat × Nat) := []
  /-- this package's next fault sequence number, 16 bits; 03 R83; DESIGN CHOICE 0 [log 10] -/
  faultSeq : Nat := 0
  /-- packages and micro-contexts whose members count as having abandoned their collectives; 03 R81 R83; reset none -/
  dead : List Dead := []
  /-- receives posted to our micro-contexts and not yet used: key 2^24 mcx + 2^13 package + peer micro-context; 03 R77; reset none -/
  credits : SMap Nat := []
  /-- packets that have arrived for fabric operations and are not yet consumed, oldest first; 03 R77 to R81; reset none -/
  rx : List Pk := []
  /-- OPID of the next fabric operation to start, 32 bits; 03 R70; DESIGN CHOICE 0 [log 3] -/
  nextOpid : Nat := 0
  /-- messages and remote accesses begun so far, which orders posted receives; model's own; 03 R77; DESIGN CHOICE 0 [log 3] -/
  begun : Nat := 0
deriving DecidableEq, Repr

/-- A set of units by number, held as a default with exceptions, so that "every unit" and "no unit" are both small. -/
structure UnitSet where
  /-- whether a unit that is not listed is in the set -/
  rest : Bool := false
  /-- the units whose membership is the other one -/
  but : List Nat := []
deriving DecidableEq, Repr

/-- A PCIe function's queue-window registers (04_host_interface.md R106 R107). -/
structure FnRegs where
  /-- FN.EVBASE.BASE, bits [63:6]; 04 R106; reset 0 -/
  evBase : BitVec 58 := 0
  /-- FN.EVCTL.EN, 1 bit; 04 R106; reset 0 -/
  evEn : Bool := false
  /-- FN.EVCTL.LOG2SZ, 5 bits; 04 R106; reset 4 -/
  evLog : Nat := 4
  /-- FN.EVHEAD, 16 bits; 04 R106; reset 0 -/
  evHead : Nat := 0
  /-- FN.EVTAIL, 16 bits; 04 R106; reset 0 -/
  evTail : Nat := 0
  /-- the phase bit of the next entry; 04 R104; reset 1 (the first pass round the ring) -/
  evPhase : Bool := true
  /-- FN.EVOVF.COUNT, 32 bits, saturating; 04 R106; reset 0 -/
  evOvf : Nat := 0
  /-- FN.S1CNT.COUNT, 48 bits, saturating; 04 R106; reset 0 -/
  s1Cnt : Nat := 0
  /-- FN.S1[g]: V bit 31, IDX bits [15:0]; 04 R106; reset 0 -/
  s1 : SMap (BitVec 32) := []
  /-- HIF.VFQ[v].BASE, 16 bits; 04 R107; reset 0 -/
  vqBase : Nat := 0
  /-- HIF.VFQ[v].COUNT, 17 bits; 04 R107; reset 0 -/
  vqCount : Nat := 0
  /-- HIF.BKCFG[v].DEPTH, 32 bits: written value, none before any write (reset 0xFFFF_FFFF for v = 0, 0 otherwise); 04 R107 -/
  bkDepth : Option Nat := none
  /-- HIF.BKCFG[v].RATE, 18 bits: written value, none before any write (reset 0x2_5800 for v = 0, 0 otherwise); 04 R107 -/
  bkRate : Option Nat := none
  /-- HIF.BKLVL[v].LEVEL, 48 bits signed: none before any change (reset 0xFF_FFFF_FF00 for v = 0, 0 otherwise); 04 R107 -/
  bkLevel : Option Int := none
  /-- a written LEVEL that takes effect at the next tick; 04 R107; reset none -/
  bkWrite : Option Int := none
  /-- the function is enabled (Bus Master Enable), 1 bit; 04 R113; PRESUMED false (PCIe) [log 16] -/
  enabled : Bool := false
  /-- MSI-X vectors whose mask bit is clear; 04 R98; PRESUMED none: every mask bit set (PCIe) [log 16] -/
  unmasked : List Nat := []
  /-- PBA bits; 04 R98; reset 0 -/
  pba : List Nat := []
deriving DecidableEq, Repr

/-- A stage-2 entry of a VQN (04 R107). -/
structure Stage2 where
  /-- stage-2 V; 04 R107; reset 0 -/
  v : Bool := false
  /-- stage-2 MQ: none when not mapped (M = 0); 04 R107; reset none -/
  mq : Option Nat := none
  /-- stage-2 owning function, 7 bits; 04 R107; reset 0 -/
  fn : Nat := 0
  /-- stage-2 P, doorbell pending; 04 R107; reset 0 -/
  p : Bool := false
  /-- stage-2 E with the kept event type and detail; 04 R105 R107; reset none -/
  kept : Option (Nat × Nat) := none
  /-- stage-2 TAIL, 32 bits; 04 R107; reset 0 -/
  tail : Nat := 0
  /-- stage-2 QCB address, 64 bits; 04 R107; reset 0 -/
  qcb : Nat := 0
  /-- stage-2 digest, 64 bits; 04 R102 R107; reset 0 -/
  digest : Nat := 0
  /-- QUEUE_UNBIND has stopped the taking of packets; 04 R102; reset false -/
  stopping : Bool := false
  /-- pending interrupts, and TIME of the first one still pending; 04 R98; reset 0 -/
  irqs : Nat := 0
  /-- see irqs; 04 R98; reset 0 -/
  irqAt : Nat := 0
  /-- COALESCE, WINDOW and MSI-X vector of the QCB as last loaded: completions outlive the eviction of the queue; 04 R98 R99 R101; DESIGN CHOICE 0 [log 10] -/
  coalesce : Nat := 0
  /-- see coalesce -/
  window : Nat := 0
  /-- see coalesce -/
  vector : Nat := 0
deriving DecidableEq, Repr

/-- A mapped queue MQ0 to MQ127: its cached QCB (04 R99 R101). -/
structure Mq where
  /-- the VQN mapped here, none when the MQ is free; 04 R101; reset none -/
  vqn : Option Nat := none
  /-- ring base; 04 R99 -/
  base : Nat := 0
  /-- LOG2SIZE, 4 to 16; 04 R99 -/
  log : Nat := 4
  /-- MSI-X vector; 04 R99 -/
  vector : Nat := 0
  /-- COALESCE, 16 bits; 04 R99 -/
  coalesce : Nat := 0
  /-- WINDOW in us, 32 bits; 04 R99 -/
  window : Nat := 0
  /-- HEAD, index of the next packet to take; 04 R99 -/
  head : Nat := 0
  /-- owning function; 04 R99 -/
  fn : Nat := 0
  /-- partition; 04 R99 -/
  part : Nat := 0
  /-- bucket, 0 to 64; 04 R99 -/
  bucket : Nat := 0
  /-- priority ceiling, 0 to 15; 04 R99 -/
  ceiling : Nat := 0
  /-- class mask; 04 R99 -/
  mask : BitVec 8 := 0
  /-- MCXBASE; 04 R99 -/
  mcxBase : Nat := 0
  /-- MCXCOUNT; 04 R99 -/
  mcxCount : Nat := 0
  /-- a reload has been requested: the tail up to which packets are still taken before the eviction; 04 R100; none -/
  reload : Option Nat := none
  /-- when the MQ was last used (a count of steps), for least-recently-used; 04 R101; DESIGN CHOICE 0 [log 10] -/
  used : Nat := 0
deriving DecidableEq, Repr

/-- A host command that has been taken and not yet completed (04 R96 R97). -/
structure Cmd where
  /-- identifier in the model -/
  id : Nat := 0
  /-- the packet's 64 bytes; 04 R93 -/
  packet : List Byte := []
  /-- VQN of its queue -/
  vqn : Nat := 0
  /-- function of its queue -/
  fn : Nat := 0
  /-- TIME at start; 04 R97 -/
  startAt : Nat := 0
  /-- completion record and signal addresses and signal value (a LAUNCH takes them from its launch record); 04 R93 R94 -/
  crec : Nat := 0
  /-- see crec -/
  sigAddr : Nat := 0
  /-- see crec -/
  sigVal : Nat := 0
  /-- HOST_LOST already decided by a hot reset; 04 R113 -/
  lost : Bool := false
deriving DecidableEq, Repr

/-- An SPDM session with its IDE state (04 R92). -/
structure SpdmSession where
  /-- session identifier; 04 R92 -/
  sid : Nat := 0
  /-- FINISH done -/
  established : Bool := false
  /-- session secret as the key schedule of SPDM 1.3 gives it -/
  secret : List Byte := []
  /-- number of key updates -/
  updates : Nat := 0
deriving DecidableEq, Repr

/-- A Proem hardware thread's RV64 state (04 R108 R109). -/
structure PThread where
  /-- x1 to x31, 64 bits each (x0 reads 0); 04 R108; PRESUMED 0 (RISC-V gives none) [log 17] -/
  x : SMap (BitVec 64) := []
  /-- program counter, 64 bits; 04 R108; PRESUMED 0 [log 17] -/
  pc : BitVec 64 := 0
  /-- mepc, 64 bits; 04 R108 R109; PRESUMED 0 [log 17] -/
  mepc : BitVec 64 := 0
  /-- mcause, 64 bits; 04 R108 R109; PRESUMED 0 (RISC-V: 0 when no distinction of reset causes) [log 17] -/
  mcause : BitVec 64 := 0
  /-- mtval, 64 bits; 04 R108 R109; PRESUMED 0 [log 17] -/
  mtval : BitVec 64 := 0
  /-- mtvec, 64 bits; 04 R108 R109; PRESUMED 0 [log 17] -/
  mtvec : BitVec 64 := 0
  /-- mstatus, 64 bits; 04 R108 R109; PRESUMED 0 with MPP read as machine mode [log 17] -/
  mstatus : BitVec 64 := 0
  /-- mie, 64 bits; 04 R108; PRESUMED 0 [log 17] -/
  mie : BitVec 64 := 0
  /-- mscratch, 64 bits; 04 R108; PRESUMED 0 [log 17] -/
  mscratch : BitVec 64 := 0
  /-- minstret, 64 bits; 04 R108; PRESUMED 0 [log 17] -/
  minstret : BitVec 64 := 0
  /-- the reservation of lr: an 8-byte granule of the SRAMs (private ones first), or none; 04 R108; PRESUMED none [log 17] -/
  resv : Option Nat := none
  /-- wait packets queued, oldest first, 64 bits each; 04 R109; reset none -/
  packets : List (BitVec 64) := []
  /-- blocked in pwait: destination register and mask; 04 R109; reset none -/
  waiting : Option (Nat × BitVec 5) := none
  /-- blocked in ppost: the sink and the 64-byte record handed to it and not yet accepted; 04 R109; reset none -/
  posting : Option (Nat × List Byte) := none
  /-- the thread's timer: TIME at which it fires, none when it is not set; 04 R109; PRESUMED none [log 18] -/
  timer : Option Nat := none
  /-- halted (minimal mode, or a firmware activation); 04 R110, 01 R36; reset false -/
  halted : Bool := false
deriving DecidableEq, Repr

/-- The steps of a live firmware activation (04 R110). -/
inductive FwPhase where
  | idle | quiesced | paused
deriving DecidableEq, Repr

/-- The host interface: PCIe, queues, buckets, SPDM, firmware update and Proem (04_host_interface.md). -/
structure Hif where
  /-- PCIe link up; 04 R90 R113; reset down -/
  link : Bool := false
  /-- SR-IOV NumVFs in force: how many virtual functions are offered; 04 R90 R113; PRESUMED 0 (PCIe) [log 16] -/
  numVfs : Nat := 0
  /-- queue-window registers and buckets of functions 0 to 64 -/
  fns : SMap FnRegs := []
  /-- stage-2 entries of the 65,536 VQNs -/
  stage2 : SMap Stage2 := []
  /-- MQ0 to MQ127 -/
  mqs : SMap Mq := []
  /-- rotating pointer of pending VQNs; 04 R101; DESIGN CHOICE 0 [log 10] -/
  pendPtr : Nat := 0
  /-- commands in progress, in the order taken; 04 R96; reset none -/
  cmds : List Cmd := []
  /-- next command identifier of the model; model's own, DESIGN CHOICE 0 [log 3] -/
  nextCmd : Nat := 0
  /-- HIF.LOSTCNT.COUNT, 48 bits, saturating; 04 R107; reset 0 -/
  lostCnt : Nat := 0
  /-- HIF.DBDROP.COUNT, 48 bits, saturating; 04 R107; reset 0 -/
  dbDrop : Nat := 0
  /-- the link was up and went down: its return is reported; 04 R113; reset false -/
  linkLost : Bool := false
  /-- the link came back and the PF's first event is still to be HOSTLOST, with this argument; 04 R113; reset none -/
  lostOwed : Option Nat := none
  /-- SPDM connection state: version agreed, capabilities exchanged, algorithms agreed (0 to 3); 04 R92; reset 0 -/
  spdmState : Nat := 0
  /-- the requester offered the extended algorithms; 04 R92; reset false -/
  spdmExt : Bool := false
  /-- SPDM transcript of the connection so far; 04 R92; reset empty -/
  spdmLog : List Byte := []
  /-- chunks of a large request collected so far; 04 R92; reset none -/
  spdmIn : Option (List Byte) := none
  /-- what is left of a large response that CHUNK_GET fetches; 04 R92; reset none -/
  spdmOut : Option (List Byte) := none
  /-- secured sessions, at most four; 04 R92; reset none -/
  spdm : List SpdmSession := []
  /-- IDE keys, key 16 stream + key set and direction, streams 0 (link) to 4; 04 R90; reset none -/
  ideKeys : SMap (List Byte) := []
  /-- IDE streams whose keys have been started; 04 R90; reset none -/
  ideOn : List Nat := []
  /-- phase of a live activation, TIME of PAUSE, the command that asked; 04 R110; reset idle -/
  fwPhase : FwPhase := .idle
  /-- see fwPhase; 04 R110; reset 0 -/
  fwPauseAt : Nat := 0
  /-- see fwPhase; 04 R110; reset none -/
  fwCmd : Option Nat := none
  /-- the running image's slot, 0 or 1 (a live activation may differ from the start's); 04 R110; reset 0 -/
  fwRunning : Nat := 0
  /-- Proem threads 0 to 127 -/
  threads : SMap PThread := []
  /-- private SRAM of pc0 to pc3, 256 KiB each, key 2^18 c + offset; 04 R108; DESIGN CHOICE zeros [log 14] -/
  sram : List Host.Cell := []
  /-- shared SRAM, 8 MiB; 04 R108; DESIGN CHOICE zeros [log 14] -/
  shared : List Host.Cell := []
deriving DecidableEq, Repr

/-- A hard partition (05_protection.md R114 R115 R146). -/
structure Partition where
  /-- PKG.PART[p].STATE, 2 bits: 0 UNDEFINED, 1 SCRUBBING, 2 ACTIVE, 3 WITHDRAWING; 05 R146; reset 0 -/
  st : Nat := 0
  /-- core mask, 600 bits; 05 R115; reset 0 -/
  cores : BitVec 640 := 0
  /-- Stacks bank mask, 1,024 bits; 05 R115; reset 0 -/
  banks : BitVec 1024 := 0
  /-- HBM pseudo-channel mask, 768 bits; 05 R115; reset 0 -/
  hbm : BitVec 768 := 0
  /-- Ethernet queue mask, 256 bits; 05 R115; reset 0 -/
  queues : BitVec 256 := 0
  /-- NOCSLOTS, 0 to 56; 05 R115; reset 0 -/
  noc : Nat := 0
  /-- D2DSLOTS, 0 to 56; 05 R115; reset 0 -/
  d2d : Nat := 0
  /-- MCXBASE; 05 R115; reset 0 -/
  mcxBase : Nat := 0
  /-- MCXCOUNT; 05 R115; reset 0 -/
  mcxCount : Nat := 0
  /-- KEYBASE; 05 R115; reset 0 -/
  keyBase : Nat := 0
  /-- KEYCOUNT; 05 R115; reset 0 -/
  keyCount : Nat := 0
  /-- the command that waits for the scrub; 05 R116 R117; reset none -/
  cmd : Option Nat := none
deriving DecidableEq, Repr

/-- A micro-context: its MCB (05 R119 R120), host area and device area. -/
structure Mcb where
  /-- PART, 5 bits; 05 R119; reset 0 -/
  part : Nat := 0
  /-- PRIO, 4 bits; 05 R119; reset 0 -/
  prio : Nat := 0
  /-- BUCKET, 0 to 64; 05 R119; reset 0 -/
  bucket : Nat := 0
  /-- KEYSLOT, 12 bits; 05 R119; reset 0 -/
  keySlot : Nat := 0
  /-- PTROOT, 64 bits; 05 R119; reset 0 -/
  ptRoot : Nat := 0
  /-- VQN for request-launch completions; 05 R119; reset 0 -/
  vqn : Nat := 0
  /-- sealed key handle, 32 bytes; 05 R119 R126; reset zeros -/
  handle : List Byte := List.replicate 32 0
  /-- BIND, 12 bits; 05 R119; reset 0 -/
  bind : Nat := 0
  /-- EPTAB, 64 bits; 05 R119; reset 0 -/
  epTab : Nat := 0
  /-- FWBASE, 64 bits; 05 R119; reset 0 -/
  fwBase : Nat := 0
  /-- FWLEN, 64 bits; 05 R119; reset 0 -/
  fwLen : Nat := 0
  /-- REQLR, 64 bits; 05 R119; reset 0 -/
  reqLr : Nat := 0
  /-- DUMPBASE, 64 bits; 05 R119; reset 0 -/
  dumpBase : Nat := 0
  /-- DUMPMAX, 32 bits; 05 R119; reset 0 -/
  dumpMax : Nat := 0
  /-- running launches, 16 bits; 05 R120; reset 0 -/
  running : Nat := 0
  /-- current state: 0 FREE, 1 READY, 2 CLOSING, 3 DEAD; 05 R120 R122; reset 0 -/
  st : Nat := 0
  /-- reason class of the last termination; 05 R120; reset 0 -/
  reason : Nat := 0
  /-- Catalog back-link: none or 4 set + way; 05 R120; reset none -/
  backLink : Option Nat := none
  /-- terminations since READY, 64 bits; 05 R120; reset 0 -/
  terminations : Nat := 0
  /-- the teardown has reached the scrub of the micro-context's pages; 05 R123; reset false -/
  scrubbing : Bool := false
deriving DecidableEq, Repr

/-- A Vault key slot (05 R126 R127). -/
structure KeySlot where
  /-- VAULT.SLOT.STATE: 0 EMPTY, 1 LOADED, 2 ZEROISING; 05 R127; reset 0 (slot 0 reads LOADED) -/
  st : Nat := 0
  /-- VAULT.SLOT.PURP; 05 R127; reset 0 -/
  purp : Nat := 0
  /-- VAULT.SLOT.P; 05 R127; reset 0 -/
  p : Bool := false
  /-- VAULT.SLOT.PART; 05 R127; reset 0 -/
  part : Nat := 0
  /-- VAULT.SLOT.MCX; 05 R127; reset 0 -/
  mcx : Nat := 0
  /-- VAULT.SLOT.BINDS, 16 bits; 05 R127; reset 0 -/
  binds : Nat := 0
  /-- nonce of the loaded handle, 8 bytes; 05 R126; reset 0 -/
  nonce : List Byte := []
  /-- the slot key, 64 or 32 bytes; 05 R125; zeroised at reset -/
  key : List Byte := []
  /-- the slot's scrub failed twice; 05 R145; reset false -/
  failed : Bool := false
deriving DecidableEq, Repr

/-- The Vault (05 R125). -/
structure Vault where
  /-- the PUF secret reconstructed at stage 0x02, 32 bytes; 05 R125, 01 R27; DESIGN CHOICE empty until stage 0x02 [log 10] -/
  puf : List Byte := []
  /-- key slots 1 to 4,095 (slot 0 is houseKey) -/
  slots : SMap KeySlot := []
  /-- slot 0, the house line key, 64 bytes; 05 R125; drawn at each start, empty before stage 0x02 [log 10] -/
  houseKey : List Byte := []
  /-- Key of CTR_DRBG, 32 bytes; 05 R125; DESIGN CHOICE zeros until stage 0x02 seeds it [log 10] -/
  drbgKey : List Byte := List.replicate 32 0
  /-- V of CTR_DRBG, 128 bits; 05 R125; DESIGN CHOICE 0 until stage 0x02 seeds it [log 10] -/
  drbgV : Nat := 0
  /-- requests since the generator was last seeded, up to 2^20; 05 R125; reset 0 -/
  drbgCount : Nat := 0
  /-- bytes drawn from the entropy source so far, kept over a start; model's own (the place in Config.entropy), DESIGN CHOICE 0 [log 3] -/
  entropy : Nat := 0
  /-- measurement: SHA-256 of the running firmware image and the blob, 32 bytes; 02 R50; DESIGN CHOICE empty until stage 0x04 [log 10] -/
  measurement : List Byte := []
  /-- the request in progress was struck and fails; 05 R141; reset false -/
  struck : Bool := false
deriving DecidableEq, Repr

/-- The Chipper (05 R142 to R146) and its registers, with TMARK (19 R504). -/
structure Chipper where
  /-- dirty units of classes 0 to 7, by class; 05 R142 R146; reset: every unit of classes 0 to 5 and 7 dirty, class 6 none -/
  dirty : SMap UnitSet := [(0, { rest := true }), (1, { rest := true }), (2, { rest := true }), (3, { rest := true }), (4, { rest := true }), (5, { rest := true }), (7, { rest := true })]
  /-- units whose scrub has failed once; 05 R145; reset none -/
  once : SMap (List Nat) := []
  /-- units marked failed; 05 R145; reset none -/
  failed : SMap (List Nat) := []
  /-- CHP.STAT.RST, 1 bit; 05 R146; reset 1 -/
  rst : Bool := true
  /-- CHP.DONE.COUNT, 48 bits; 05 R146; reset 0 -/
  done : Nat := 0
  /-- CHP.FAIL.COUNT, 48 bits; 05 R146; reset 0 -/
  fail : Nat := 0
  /-- CHP.TMARK.BUSY; 19 R504; reset 0 -/
  tmBusy : Bool := false
  /-- pages marked by the latest CHP.TMARK request that are not yet scrubbed (LEFT is their number); 19 R504; reset none -/
  tmLeft : List Nat := []
  /-- CHP.TMARK.TAG, 14 bits; 19 R504; reset 0 -/
  tmTag : Nat := 0
  /-- PKG.ERR[k], 48 bits each, saturating; 05 R146; reset 0 -/
  err : SMap Nat := []
deriving DecidableEq, Repr

/-- Partitions, micro-contexts, the Vault and the Chipper (05_protection.md). -/
structure Prot where
  /-- partitions 0 to 31 -/
  parts : SMap Partition := []
  /-- micro-contexts 0 to 8,191 -/
  mcbs : SMap Mcb := []
  vault : Vault := {}
  chip : Chipper := {}
deriving DecidableEq, Repr

/-- A launch record's fields (06_scheduler.md R150). -/
structure LaunchRec where
  /-- HPART, 5 bits; 06 R150 -/
  hpart : Nat := 0
  /-- NOPART; 06 R150 -/
  nopart : Bool := false
  /-- BKT; 06 R150 -/
  bkt : Bool := false
  /-- PROT; 06 R150 -/
  prot : Bool := false
  /-- GANG; 06 R150 -/
  gang : Bool := false
  /-- KIND: 0 host, 1 request, 2 house; 06 R150 -/
  kind : Nat := 0
  /-- ENTRY, 48 bits; 06 R150 -/
  entry : Nat := 0
  /-- CMIN; 06 R150 -/
  cmin : Nat := 1
  /-- CORES; 06 R150 -/
  cores : Nat := 1
  /-- STRANDS; 06 R150 -/
  strands : Nat := 1
  /-- HANDLE, 32 bytes; 06 R150 -/
  handle : List Byte := []
  /-- SEED, 128 bits; 06 R150 -/
  seed : BitVec 128 := 0
  /-- ARGS, 48 bits; 06 R150 -/
  args : Nat := 0
  /-- CREC; 06 R150 -/
  crec : Nat := 0
  /-- SIGVAL, 16 bits; 06 R150 -/
  sigVal : Nat := 0
  /-- SIGADDR, 48 bits; 06 R150 -/
  sigAddr : Nat := 0
  /-- TRAPV, 48 bits; 06 R150 -/
  trapv : Nat := 0
  /-- BTAB, 48 bits; 06 R150 -/
  btab : Nat := 0
  /-- HND, 0 to 64; 06 R150 -/
  hnd : Nat := 0
  /-- ACC, 0 to 256; 06 R150 -/
  acc : Nat := 0
  /-- SPB, 0 to 128; 06 R150 -/
  spb : Nat := 0
  /-- DEADLINE in us; 06 R150 -/
  deadline : Nat := 0
  /-- PRIO, 4 bits; 06 R150 -/
  prio : Nat := 0
deriving DecidableEq, Repr

/-- A launch waiting at an intake lane of Circulation (06, introduction and R153). -/
structure Intake where
  /-- the launch record; 06 R150 R153 -/
  record : LaunchRec := {}
  /-- the record breaks R150 (cause MALFORMED); 06 R155 -/
  malformed : Bool := false
  /-- micro-context, 0 for a house launch -/
  mcx : Nat := 0
  /-- the Ethernet request that asks for it -/
  request : Option Nat := none
  /-- the host command that asks for it -/
  cmd : Option Nat := none
  /-- submitted by the house (sink 1) -/
  house : Bool := false
deriving DecidableEq, Repr

/-- A malformed-free bucket table (06 R171). -/
structure BucketTab where
  /-- FINISH PC; 06 R171 -/
  finish : Nat := 0
  /-- OCC thresholds T1 to T7; 06 R171 -/
  t : List Nat := []
  /-- DLEN thresholds D1 to D3; 06 R171 -/
  d : List Nat := []
  /-- MAP, 32 schedule numbers; 06 R171 -/
  map : List Nat := []
  /-- schedule entry PCs; 06 R171 -/
  entries : List Nat := []
deriving DecidableEq, Repr

/-- A group of a launch (07 R191 R193). -/
structure Group where
  /-- members by strand index; 07 R191; empty at binding -/
  members : List Nat := []
  /-- phase number; 07 R193; zero at binding -/
  phase : Nat := 0
  /-- members of the phase in progress, none before its first arrival; 07 R193 -/
  phaseMembers : Option (List Nat) := none
  /-- strands arrived at the phase in progress; 07 R193 -/
  arrived : List Nat := []
  /-- strands that arrived for the next phase; 07 R193 -/
  next : List Nat := []
deriving DecidableEq, Repr

/-- The states of a strand (07 R182). -/
inductive StrandState where
  | unstarted | ready | running | waiting | held | exited
deriving DecidableEq, Repr

/-- A trap's description (11 R309 R310 R312). -/
structure TrapInfo where
  /-- CAUSE; 11 R307 -/
  cause : Nat := 0
  /-- SLOT, 15 for an engine fault; 11 R309 -/
  slot : Nat := 0
  /-- LATE; 11 R309 -/
  late : Bool := false
  /-- PATH, 15 for none; 11 R309 -/
  path : Nat := 15
  /-- DETAIL; 11 R309 -/
  detail : Nat := 0
  /-- TVA; 11 R310 -/
  tva : Nat := 0
  /-- origin bundle header; 11 R312 -/
  origin : Nat := 0
  /-- engine field: handle or stream, row progress; 11 R312 -/
  handle : Nat := 0
  /-- see handle -/
  row : Nat := 0
  /-- strand whose engine operation faulted; none for a syllable's own fault; 11 R309 R320 -/
  owner : Option Nat := none
  /-- TIME at which a late fault was reported to its core; 11 R316; 0 while the engine holds it -/
  at_ : Nat := 0
  /-- taken by another strand than the one that issued it: SWD.SLOT is 15; 11 R309 -/
  foreign : Bool := false
deriving DecidableEq, Repr

/-- A strand's continuation record (07 R178 to R181) with its place in the launch. -/
structure Strand where
  /-- strand state: flags W, X, H of word 0; 07 R179 R182; unstarted -/
  st : StrandState := .unstarted
  /-- word 0 PC, 48 bits; 07 R179 -/
  pc : Nat := 0
  /-- word 0 SLOTRES, 4 bits; 07 R179 -/
  slotRes : Nat := 0
  /-- word 0 TH; 07 R179 -/
  th : Bool := false
  /-- word 1 WKIND, 8 bits; 07 R180 -/
  wkind : Nat := 0
  /-- word 1 EVT, 8 bits; 07 R180 -/
  evt : Nat := 0
  /-- word 1 ARG, 48 bits; 07 R180 -/
  arg : Nat := 0
  /-- word 2 GSUM, 16 bits; 07 R181 -/
  gsum : BitVec 16 := 0
  /-- word 3 save-area pointer: none exactly when P = 0; 07 R178 R179 -/
  save : Option Nat := none
  /-- words 4 to 7, carry values of s1 to s4; 07 R178 -/
  c1 : BitVec 64 := 0
  /-- see c1 -/
  c2 : BitVec 64 := 0
  /-- see c1 -/
  c3 : BitVec 64 := 0
  /-- see c1 -/
  c4 : BitVec 64 := 0
  /-- the strand has started (by pick-up or spawn); 05 R148 -/
  started : Bool := false
  /-- the core a record is tied to, or a gang strand holds; 06 R164 R168 -/
  tie : Option Nat := none
  /-- 1 when an event has ended its suspension, which acts as an acquire at its next pick-up; 09 R262; 0 -/
  wake : Nat := 0
  /-- late faults reported during its suspension, taken at its next pick-up; 11 R320; none -/
  late : List TrapInfo := []
deriving DecidableEq, Repr

/-- Where a launch stands (06 R154 R164 R174, 05 R131). -/
inductive LaunchState where
  | waiting    -- in the wait list, never run
  | bound      -- cores claimed or running
  | preempted  -- parked without cores by pre-emption
  | parked     -- parked on a free list (R174)
  | retiring   -- terminated or finished, retirement still to run
deriving DecidableEq, Repr

/-- A launch in the launch table (06 R151). -/
structure Launch where
  /-- generation count of the slot, 20 bits; 06 R151 -/
  gen : Nat := 0
  /-- the launch record; 06 R150 -/
  record : LaunchRec := {}
  /-- state -/
  st : LaunchState := .waiting
  /-- micro-context; 06 R150 -/
  mcx : Nat := 0
  /-- house launch -/
  house : Bool := false
  /-- partition whose cores it uses, none for a house launch with NOPART -/
  part : Option Nat := none
  /-- domain tag, 14 bits; 05 R136 -/
  tag : Nat := 0
  /-- base priority; 06 R152 -/
  prio : Nat := 0
  /-- engine-time bucket charged, none for the house; 06 R167 -/
  bucket : Option Nat := none
  /-- launch key slot, 0 for the house; 05 R128 -/
  keySlot : Nat := 0
  /-- launch draw key, 128 bits; 10 R297 -/
  drawKey : BitVec 128 := 0
  /-- the Ethernet request it serves -/
  request : Option Nat := none
  /-- the host command it serves -/
  cmd : Option Nat := none
  /-- order of binding (counts bindings) -/
  bindNo : Nat := 0
  /-- TIME of entry into the wait list; 06 R165 -/
  waitAt : Nat := 0
  /-- aged priority while it waits; 06 R165 -/
  aged : Nat := 0
  /-- TIME at commit, moved on by free-list parking; 06 R175 -/
  deadlineFrom : Nat := 0
  /-- TIME at the first bundle, none before; 04 R97, 06 R175 -/
  firstAt : Option Nat := none
  /-- cores of the carrel -/
  cores : List Nat := []
  /-- cores it has at some time run on (their register values are its own; 07 R184) -/
  visited : List Nat := []
  /-- strand records by index; 06 R169 -/
  strands : SMap Strand := []
  /-- ready records, oldest first; 06 R170 -/
  ready : List Nat := []
  /-- records allocated from the partition's share and from the shared pool; 06 R169 -/
  recOwn : Nat := 0
  /-- see recOwn -/
  recShared : Nat := 0
  /-- event counters e0 to e255, 32 bits each; 07 R185; zero at binding -/
  events : SMap (BitVec 32) := []
  /-- groups g0 to g15; 07 R191 -/
  groups : SMap Group := []
  /-- sequencer step counter, 32 bits; 06 R172; zero at binding -/
  step : BitVec 32 := 0
  /-- launch-wide OCC, 16 bits; 06 R173; zero at binding -/
  occ : BitVec 16 := 0
  /-- launch-wide DLEN, 8 bits; 06 R173; zero at binding -/
  dlen : BitVec 8 := 0
  /-- bucket table; 06 R171; none for a launch without BKT -/
  table : Option BucketTab := none
  /-- park: physical address of the free-list header (none if the translation failed) and TIME of the park; 06 R174 -/
  parkAddr : Option Nat := none
  /-- see parkAddr -/
  parkAt : Nat := 0
  /-- order of parking -/
  parkNo : Nat := 0
  /-- faults reported without ending the launch; 04 R97 -/
  faults : Nat := 0
  /-- how it ended: none, or (reason class, cause, TIME of the fault, faulting strand); 05 R139 R147 -/
  ended : Option (Nat × Nat × Nat × Option Nat) := none
  /-- rotation marked: hot core to cool core; 06 R161 -/
  rotate : Option (Nat × Nat) := none
  /-- saved per-core launch state of idle victims and spilled contexts, by core; 06 R157; key into saves -/
  coreSaves : SMap (Option Nat) := []
deriving DecidableEq, Repr

/-- A pre-emption in progress on a core (06 R163). -/
structure Preempt where
  /-- incoming launch slot, none for a park (R174) -/
  incoming : Option Nat := none
  /-- victim launch slot -/
  victim : Nat := 0
  /-- the Collector's request has reached the core; 11 R322 -/
  asked : Bool := false
  /-- engine classes that have acknowledged: scalar and vector 0, matrix 1, copy 2, cipher 3, bank unit 4, Grader 5, fabric 6 -/
  acks : List Nat := []
deriving DecidableEq, Repr

/-- Circulation and the Collector (06_scheduler.md). -/
structure Circ where
  /-- Ethernet intake lane, oldest first -/
  ethLane : List Intake := []
  /-- host intake lane, oldest first -/
  hostLane : List Intake := []
  /-- launch table, 4,096 slots; 06 R151; reset empty -/
  launches : SMap (Option Launch) := []
  /-- generation count of each slot, 20 bits; 06 R151; DESIGN CHOICE 0 [log 10] -/
  gens : SMap Nat := []
  /-- core claims: the launch slot each core is bound to; 06 R176; reset none -/
  owner : SMap (Option Nat) := []
  /-- pre-emptions in progress by core; 06 R163; reset none -/
  preempts : SMap (Option Preempt) := []
  /-- wait lists of the partitions (key 32: house without partition), in order of entry; 06 R165; reset empty -/
  waits : SMap (List Nat) := []
  /-- rotating pointer of the carrel choice; 06 R160; DESIGN CHOICE 0 [log 10] -/
  pointer : Nat := 0
  /-- bindings so far, and parks so far (orders of R162 and R174); DESIGN CHOICE 0 [log 3] -/
  bindings : Nat := 0
  /-- see bindings -/
  parks : Nat := 0
  /-- records in use of the shared 65,536, and of each partition's 2,048; 06 R169; reset 0 -/
  recShared : Nat := 0
  /-- see recShared -/
  recPart : SMap Nat := []
  /-- request-launch templates kept with the MCBs, by micro-context; 06 R153; reset none -/
  templates : SMap (Option LaunchRec) := []
  /-- physical addresses of free lists reported non-empty, oldest first; 08 R221, 06 R174; none -/
  reports : List Nat := []
  /-- CIRC.CNT[k], 48 bits each, saturating; 06 R177; reset 0 -/
  cnt : SMap Nat := []
deriving DecidableEq, Repr

/-- State of a 128-byte line beside its data (08_memory_hierarchy.md R218, 05 R133 R137 R140). -/
structure LineState where
  /-- form: ciphertext; 08 R218; scrubbed to plaintext -/
  cipher : Bool := false
  /-- integrity value, 32 bits; 08 R218; scrubbed to 0 -/
  icv : BitVec 32 := 0
  /-- reader count, 4 bits; 08 R218; scrubbed to 0 -/
  count : Nat := 0
  /-- tombstone; 08 R218; scrubbed to clear -/
  tomb : Bool := false
  /-- poison; 08 R218, 05 R140; scrubbed to clear -/
  poison : Bool := false
  /-- domain tag of the line, 14 bits; 05 R137; 0x3FFE while not written since its last scrub -/
  tag : Nat := 0x3FFE
deriving DecidableEq, Repr

/-- A weight segment's table entry (08 R238). -/
structure Segment where
  /-- SHA-256 of the content, 32 bytes; 08 R238; DESIGN CHOICE empty [log 10] -/
  hash : List Byte := []
  /-- physical page address, 0 while unplaced; 08 R238; 0 -/
  page : Nat := 0
  /-- STATE: 0 EMPTY, 1 LOADING, 2 PRESENT, 3 BAD; 08 R238; 0 -/
  st : Nat := 0
  /-- sources: bit 0 flash, bit 1 peer; 08 R238; 0 -/
  sources : Nat := 0
  /-- mappings: the micro-contexts whose tables name the segment; 08 R238; 0 -/
  mappings : Nat := 0
  /-- flash first LBA [62:0] and port [63]; 08 R238; 0 -/
  flash : Nat := 0
  /-- peer package, 11 bits; 08 R238; 0 -/
  peer : Nat := 0
  /-- the load in progress is the retry after a mismatch; 08 R241; false -/
  retried : Bool := false
  /-- the load in progress reads from the peer, not from flash; 08 R240; false -/
  fromPeer : Bool := false
  /-- a load from the peer: OPID of its READ; 03 R70; DESIGN CHOICE 0 [log 3] -/
  opid : Nat := 0
  /-- see opid: window offset of its first byte at the peer; DESIGN CHOICE 0 [log 103] -/
  offset : Nat := 0
  /-- see opid: bytes of the answer that have come -/
  got : Nat := 0
  /-- see opid: the READ was dropped or answered with an error -/
  failed : Bool := false
deriving DecidableEq, Repr

/-- An NVMe Read of the Skidder in flight on a flash root port (08 R242). -/
structure NvmeRead where
  /-- the segment it loads -/
  seg : Nat := 0
  /-- flash root port, 0 or 1; 08 R238 -/
  port : Nat := 0
  /-- I/O queue pair, 1 to 8; 08 R242 -/
  queue : Nat := 1
  /-- starting LBA; 08 R238 -/
  slba : Nat := 0
  /-- number of logical blocks; 08 R242 -/
  blocks : Nat := 0
  /-- the PRP list: physical addresses of the 4 KiB pages that take the data, in order; 08 R242 -/
  prps : List Nat := []
deriving DecidableEq, Repr

/-- An entry of a translation cache (08 R214). -/
structure TlbEntry where
  /-- the cache: micro-TLB of core 0 to 599, shared TLB of die 600 to 603, page-walk cache of die 604 to 607; 08 R214 -/
  unit : Nat := 0
  /-- domain tag of the requester that filled it; 05 R137 -/
  tag : Nat := 0
  /-- level of the descriptor; 08 R211 -/
  lvl : Nat := 0
  /-- virtual address bits above what one descriptor of the level maps; 08 R211 -/
  page : Nat := 0
  /-- the descriptor, 64 bits; 08 R212 -/
  desc : Nat := 0
deriving DecidableEq, Repr

/-- The kinds of a memory request on its way to a home slice. -/
inductive ReqKind where
  | load                 -- lds ldx ldv ldvg ldq
  | store                -- sts stx stv stvg stq
  | bank (op : Nat) (ty : Nat)  -- a bank-unit operation: W op number and type code
  | release              -- cbrel.line
  | fence (kind : Nat)   -- a fence whose later accesses wait: 0 full, 1 acquire, 2 release (09 R257)
  | pfence (before after : Nat) -- a pfence that holds later operations of its AFTER paths (09 R258)
  | signal (event amount : Nat) -- an evsig on its way to Circulation (09 R262)
  | arriving (p : Pk) (op : Option Nat) -- lines of a WRITE that has arrived, or of a SEND taken by the receive with this OPID (09 R263)
deriving DecidableEq, Repr

/-- One line's part of a request. -/
structure Part where
  /-- physical address of the part's first byte -/
  addr : Nat := 0
  /-- its length, inside one line -/
  len : Nat := 0
  /-- offset of the part in the whole access -/
  off : Nat := 0
  /-- virtual address of the part's first byte -/
  va : Nat := 0
  /-- page order kind: 0 strongly ordered, 1 release-consistent, 2 unordered; 08 R212 -/
  ok : Nat := 0
  /-- page is consumable; 08 R212 -/
  cn : Bool := false
  /-- owner tag of the page -/
  tag : Nat := 0
  /-- performed at the home slice; 09 R245 -/
  done : Bool := false
deriving DecidableEq, Repr

/-- A request issued by a core and not yet complete (09 R245 to R261). -/
structure Req where
  /-- identifier, in issue order over the whole machine -/
  id : Nat := 0
  /-- issuing core -/
  core : Nat := 0
  /-- launch slot and strand that issued it -/
  launch : Nat := 0
  /-- see launch -/
  strand : Nat := 0
  /-- access path, bit number of R247 -/
  path : Nat := 0
  /-- kind -/
  kind : ReqKind := .load
  /-- acquire and release qualifiers, and scope; 09 R251 -/
  acq : Bool := false
  /-- see acq -/
  rel : Bool := false
  /-- see acq -/
  scope : Nat := 0
  /-- parts, one per line, in ascending address -/
  parts : List Part := []
  /-- data to store, or the bytes read so far (whole access) -/
  data : List Byte := []
  /-- active byte lanes -/
  mask : List Bool := []
  /-- operands of a bank operation: value, expected value or leaf -/
  opA : BitVec 64 := 0
  /-- see opA -/
  opB : BitVec 64 := 0
  /-- reader count to stamp (whole lines of a consumable page); 08 R233 -/
  stamp : Nat := 0
  /-- pending result it fills; none for a store -/
  pend : Option Nat := none
  /-- a load of a type that sign-extends: the type code, or 8 for vector, 9 for predicate -/
  ty : Nat := 0
  /-- it may be served by and fills the scalar data cache; 09 R250, 16 R453 -/
  cacheable : Bool := false
  /-- bundle header and slot, for a late trap's origin; 11 R312 -/
  pc : Nat := 0
  /-- see pc -/
  slot : Nat := 0
  /-- first late fault met: cause and virtual address of the lowest faulting line; 16 R453 -/
  fault : Option (Nat × Nat) := none
  /-- draw key of the launch (for adraw); 08 R222 -/
  key : BitVec 128 := 0
  /-- the result is filled and waits for LOAD_FILL -/
  ready : Bool := false
deriving DecidableEq, Repr

/-- Memory of the whole package (08_memory_hierarchy.md). -/
structure Mem where
  /-- bytes of the Stacks and HBM by physical address; 08 R210; scrubbed to zero, so unlisted bytes read 0 -/
  bytes : List Host.Cell := []
  /-- line states by physical line number (address / 128); 08 R218; scrubbed -/
  lines : SMap LineState := []
  /-- set page tags by physical 2 MiB page number; 05 R137; none set; 0x3FFE reads as not set -/
  pageTag : SMap Nat := []
  /-- HBM pages that carry a zero mark (by 2 MiB page number); 05 R143; a scrub sets it: every page after the start scrub; at reset no page is yet marked -/
  zeroMark : UnitSet := {}
  /-- HBM pages whose zero fill is under way (a write waits); 05 R143; none -/
  zeroFill : List Nat := []
  /-- segment table, 65,536 entries; 08 R238; EMPTY -/
  segs : SMap Segment := []
  /-- streaming lists of the Skidder: segment indices still to start, in order; 08 R240; empty -/
  skid : List Nat := []
  /-- where the house keeps its segment table (none before firmware runs); 08 R238; fixed by firmware [log 19] -/
  segBase : Option Nat := none
  /-- NVMe Reads in flight; 08 R242; empty -/
  nvme : List NvmeRead := []
  /-- micro-TLBs, shared TLBs and page-walk caches, oldest entry first; 08 R214; DESIGN CHOICE empty [log 10] -/
  tlb : List TlbEntry := []
  /-- requests on their way to home slices, in issue order; 09 R247 -/
  net : List Req := []
  /-- next request identifier; model's own, DESIGN CHOICE 0 [log 3] -/
  nextReq : Nat := 0
  /-- host memory by function and bus address: key 2^64 fn + address; 04 R93, 08 R210; DESIGN CHOICE unlisted bytes read 0 [log 15] -/
  host : List Host.Cell := []
  /-- ranges of host memory whose read fails (first, length), by the same key; 04 R95; DESIGN CHOICE none [log 15] -/
  hostBad : List (Nat × Nat) := []
  /-- where the house keeps its MCB copies (none before firmware runs); 19 R505; fixed by firmware [log 19] -/
  mcbBase : Option Nat := none
  /-- root of the house tables (none before firmware runs); 08 R208; fixed by firmware [log 19] -/
  houseRoot : Option Nat := none
  /-- house save pool: first 4 MiB area and number of areas; 11 R324; fixed by firmware [log 19] -/
  saveBase : Nat := 0
  /-- see saveBase -/
  saveCount : Nat := 0
deriving DecidableEq, Repr

/-- A register of a core by file and number (vector registers by physical number). -/
inductive Reg where
  | s (n : Nat)
  | v (n : Nat)
  | q (n : Nat)
  | z (n : Nat)
deriving DecidableEq, Repr

/-- An exposed result in flight (12 R335): it lands at the end of issued cycle `due`. -/
structure Landing where
  /-- issued cycle at whose end it lands; 12 R335 -/
  due : Nat := 0
  /-- number of the bundle that issued it, for settle; 12 R340 -/
  bundle : Nat := 0
  /-- destination register, none when only flags land -/
  dst : Option Reg := none
  /-- value, in the low bits -/
  val : BitVec 2048 := 0
  /-- bits written; the others keep their value (inactive lanes) -/
  mask : BitVec 2048 := 0
  /-- FFL flags ORed in when it lands; 10 R283 -/
  flags : BitVec 7 := 0
  /-- bytes of a buffer slot written at the landing: a drain's scratchpad address range; 15 R443 -/
  spad : Option (Nat × List Byte) := none
  /-- handle and slot of that drain -/
  slotOf : Option (Nat × Nat) := none
deriving DecidableEq, Repr

/-- A pending result (12 R335): registers marked pending until it is filled or cleared. -/
structure Pending where
  /-- identifier -/
  id : Nat := 0
  /-- registers, in order -/
  regs : List Reg := []
  /-- number of the bundle that set it, for settle -/
  bundle : Nat := 0
deriving DecidableEq, Repr

/-- What the S slot has decided for the end of the bundle (13 R381). -/
inductive Xfer where
  | jump (pc : Nat)            -- a taken transfer
  | flip (pc : Nat)            -- a swaptok
  | rett                       -- return from a handler
  | suspend (wkind evt arg : Nat)
  | yieldTo (addr : Nat)       -- yield; 0 makes the record ready at once
  | seqnext
  | exitS
deriving DecidableEq, Repr

/-- Why a core lets exposed results land without issuing (12 R336). -/
inductive Drain where
  | none
  | settle (bundle : Nat)      -- 12 R340
  | leave (x : Xfer)           -- a voluntary suspension, 07 R183
  | handler                    -- before a handler's first bundle, 11 R314
  | preempt                    -- before the save, 11 R322
  | flip                       -- before a plane flip, 07 R199
deriving DecidableEq, Repr

/-- The per-strand state a core holds while a strand runs (07 R184, 12 R341 to R346, 13 R394). -/
structure Thread where
  /-- s1 to s63, 64 bits each (s0 reads 0); 12 R341 R344; scrubbed to 0 -/
  s : SMap (BitVec 64) := []
  /-- v0 to v2047 by physical number, 2,048 bits each; 12 R341 R342; scrubbed to 0 -/
  v : SMap (BitVec 2048) := []
  /-- q1 to q15, 256 bits each (q0 reads all ones); 12 R341; scrubbed to 0 -/
  q : SMap (BitVec 256) := []
  /-- z0 to z31, 528 bits each; 12 R341, 10 R277; scrubbed to 0 -/
  z : SMap (BitVec 528) := []
  /-- PC of the bundle to issue next, 48 bits; 07 R179 -/
  pc : Nat := 0
  /-- SLOTRES: first slot to issue; 11 R315 -/
  slotRes : Nat := 0
  /-- FCR.RM, 3 bits; 10 R279; reset 0 -/
  fcr : BitVec 64 := 0
  /-- FFL, 7 bits used; 10 R283; reset 0 -/
  ffl : BitVec 64 := 0
  /-- DSC, 64 bits; 10 R282; reset 0 -/
  dsc : BitVec 64 := 0
  /-- DSK, 64 bits; 10 R282; reset 0 -/
  dsk : BitVec 64 := 0
  /-- SWD, 64 bits; 11 R309; reset 0 -/
  swd : BitVec 64 := 0
  /-- TVA, 64 bits; 11 R310; reset 0 -/
  tva : BitVec 64 := 0
  /-- TRS, 64 bits; 11 R311; reset 0 -/
  trs : BitVec 64 := 0
  /-- ROT, 64 bits; 12 R342; reset 0 -/
  rot : BitVec 64 := 0
  /-- the strand's view of OCC, 64 bits; 13 R390; reset 0 -/
  occ : BitVec 64 := 0
  /-- the strand's view of DLEN, 64 bits; 13 R390; reset 0 -/
  dlen : BitVec 64 := 0
  /-- GMK, 64 bits; 13 R392; reset 0 -/
  gmk : BitVec 64 := 0
  /-- MAB, 128 bits; 13 R393; reset 0 -/
  mab : BitVec 128 := 0
  /-- TH: in the trap handler; 11 R317; reset 0 -/
  th : Bool := false
  /-- trap record: TIME, origin and engine field beside SWD, TVA, TRS; 11 R312; reset 0 -/
  recTime : Nat := 0
  /-- trap record origin word; 11 R312; reset 0 -/
  recOrigin : BitVec 64 := 0
  /-- trap record engine word; 11 R312; reset 0 -/
  recEngine : BitVec 64 := 0
  /-- bundle-end latch, control-register write: number and new value; 13 R381; empty -/
  latchCsr : Option (Nat × BitVec 64) := none
  /-- bundle-end latch, new ROT; 13 R381; empty -/
  latchRot : Option (BitVec 64) := none
  /-- bundle-end latch, transfer, suspension or rett; 13 R381; empty -/
  latchX : Option Xfer := none
  /-- latch of a bundle split by a trap, held while its handler runs: control-register write; 13 R381; empty -/
  heldCsr : Option (Nat × BitVec 64) := none
  /-- see heldCsr: new ROT; 13 R381; empty -/
  heldRot : Option (BitVec 64) := none
  /-- see heldCsr: transfer or suspension; 13 R381; empty -/
  heldX : Option Xfer := none
  /-- the handler has written TRS, so the held changes take effect at its rett; 13 R381; false -/
  trsWritten : Bool := false
  /-- a syllable of the issuing bundle waits: the bundle does not issue; 12 R336; false -/
  stalled : Bool := false
  /-- the bundle that waits does so at a fence of the operand fetcher's path, whose passes go on; 09 R258; false -/
  fetchOn : Bool := false
  /-- exposed results in flight, oldest issue first; 12 R335; none -/
  inflight : List Landing := []
  /-- pending results; 12 R335; none -/
  pend : List Pending := []
  /-- late traps reported and not yet taken, in order of report; 11 R316; none -/
  late : List TrapInfo := []
  /-- issued cycles of the core so far; 12 R334; DESIGN CHOICE 0 [log 10] -/
  cycle : Nat := 0
  /-- bundles issued by the core so far; model's own, DESIGN CHOICE 0 [log 3] -/
  bundles : Nat := 0
  /-- slots that earlier syllables still occupy: slot number and cycles left; 12 R338, 16 R453; none -/
  busy : SMap Nat := []
  /-- drain in progress; 12 R336; none -/
  drain : Drain := .none
  /-- arrived at pc by a transfer, swaptok, pick-up or rett, not by fall-through (padding traps); 12 R331; false -/
  arrived : Bool := false
  /-- header of the issuing bundle; 11 R313; 0 -/
  bpc : Nat := 0
  /-- first request identifier of the issuing bundle (model's own); 16 R467; DESIGN CHOICE 0 [log 3] -/
  reqStart : Nat := 0
  /-- XI of the issuing bundle; 12 R345; 0 -/
  xi : BitVec 16 := 0
  /-- fall-through PC of the issuing bundle; 13 R378; 0 -/
  fall : Nat := 0
  /-- slot whose syllable is being issued, 0 to 9 in the order of R179; 0 -/
  slot : Nat := 0
  /-- a syllable of the issuing bundle has trapped: no later slot issues; 11 R313; false -/
  trapped : Bool := false
  /-- syllables of the issuing bundle that have used stochastic rounding so far; 10 R281; 0 -/
  posTaken : Nat := 0
  /-- bar arrivals kept while their bundles wait: group and phase awaited; 07 R193; none -/
  barWait : List (Nat × Nat) := []
deriving DecidableEq, Repr

/-- A configuration plane (07 R197 R198). -/
structure Plane where
  /-- the 64 KiB window it holds (address / 65,536), none when empty; 07 R197; scrubbed to none -/
  window : Option Nat := none
  /-- code bytes by offset in the window; 07 R197; scrubbed to 0 -/
  text : List Host.Cell := []
  /-- lines of the window that are in place; 07 R198; none -/
  lines : List Nat := []
  /-- lines whose fill failed: line, cause, walk level; 07 R198; none -/
  bad : List (Nat × Nat × Nat) := []
  /-- the whole window has been filled; 07 R198; false -/
  full : Bool := false
deriving DecidableEq, Repr

/-- A buffer handle's dynamic state (08 R229 R230, 17 R486). -/
structure Handle where
  /-- PP; 08 R229; 0 -/
  pp : Nat := 0
  /-- CP; 08 R229; 0 -/
  cp : Nat := 0
  /-- slot states: 0 FREE, 1 FILLING, 2 FULL, 3 DRAINING; 08 R230; FREE -/
  st : SMap Nat := []
  /-- slot counts, 4 bits; 08 R229; 0 -/
  cnt : SMap Nat := []
  /-- CLOSED; 08 R229; 0 -/
  closed : Bool := false
  /-- a close that waits for claimed slots to pass their cbadv; 08 R231; false -/
  closing : Bool := false
  /-- slots past their producer cbadv whose writes are not all made: slot, count, request ids, engine operation ids; 17 R486; none -/
  filling : List (Nat × Nat × List Nat × List Nat) := []
deriving DecidableEq, Repr

/-- An activation latch (15 R431). -/
structure MLatch where
  /-- 2,048 bits; 15 R431; zero -/
  data : BitVec 2048 := 0
  /-- scale image the cell rows' effective scales come from; 15 R431 R437; zero -/
  image : BitVec 528 := 0
  /-- cell rows by which mshift has moved the latch since the entry came in; 15 R439; 0 -/
  shift : Nat := 0
  /-- format tag, 0 for none; 15 R431; none -/
  tag : Nat := 0
deriving DecidableEq, Repr

/-- A feed or a weight run of the matrix fetcher (15 R436 to R438). -/
structure MPass where
  /-- handle of the slot read; 15 R431 -/
  h : Nat := 0
  /-- slot read; 15 R431 -/
  slot : Nat := 0
  /-- next entry or row of the slot; 15 R431 -/
  next : Nat := 0
  /-- entries or rows left; 15 R431 -/
  left : Nat := 0
  /-- weight row that row 0 of the slot goes to; 15 R436 -/
  row : Nat := 0
  /-- scale image of a feed; 15 R437 -/
  image : BitVec 528 := 0
  /-- issued cycle of the push: rows are written from the end of the next one on; 15 R436 -/
  since : Nat := 0
  /-- the entry in the latch has been used by a macc; 15 R437 -/
  used : Bool := false
  /-- entries of a feed read ahead while a fence waited for them, next first; 09 R258; none -/
  ahead : List (BitVec 2048) := []
deriving DecidableEq, Repr

/-- An update of accumulator memory that later reads may not see yet (15 R435, 16 R461). -/
inductive AccOp where
  | beat (tile : Nat) (cellop fmt : Nat) (act : MLatch) (row : BitVec 2048) (image : BitVec 528)
  | clear (tile row : Nat)
  | store (addr : Nat) (val mask : BitVec 2048)
deriving DecidableEq, Repr

/-- The matrix state of a launch on a core (15 R431). -/
structure Matrix where
  /-- weight banks WB0, WB1: key 128 bank + row; 15 R431; zero at dispatch -/
  wb : SMap (BitVec 2048) := []
  /-- format tags of the weight banks, 0 for none; 15 R431; none -/
  tag : SMap Nat := []
  /-- scale images of the weight banks; 15 R431; zero -/
  image : SMap (BitVec 528) := []
  /-- FRONT; 15 R431; 0 -/
  front : Nat := 0
  /-- LP (key 0) and LQ (key 1); 15 R431; zero, tag none -/
  latch : SMap MLatch := []
  /-- feeds of planes P and Q; 15 R431; none -/
  feed : SMap (Option MPass) := []
  /-- weight runs of the physical banks; 15 R431; none -/
  run : SMap (Option MPass) := []
  /-- TP and TQ: first bank of the bound tile; 15 R431; invalid -/
  tile : SMap (Option Nat) := []
  /-- the strand that made the binding; 15 R431 -/
  tileBy : SMap Nat := []
  /-- bindings not yet in force: plane, first bank, first issued cycle in force; 15 R441; none -/
  binding : List (Nat × Nat × Nat) := []
  /-- tile kinds KP, KQ: integer; 15 R431; float -/
  kind : SMap Bool := []
  /-- accumulator updates in issue order with their issued cycle, not yet folded into acc; 15 R435; none -/
  ops : List (Nat × AccOp) := []
deriving DecidableEq, Repr

/-- A copy-queue operation (17 R469 to R477 R482). -/
structure CopyOp where
  /-- identifier in the core -/
  id : Nat := 0
  /-- C op number: 1 cpy, 3 cprefetch, 4 cgather, 5 cscatter, 9 cskid -/
  op : Nat := 0
  /-- handle -/
  f : Nat := 0
  /-- S[sa] -/
  a : Nat := 0
  /-- S[sb] -/
  b : Nat := 0
  /-- S[sc] -/
  n : Nat := 0
  /-- microword -/
  mw : BitVec 32 := 0
  /-- it runs (at most 4 at once) -/
  running : Bool := false
  /-- rows completed; 11 R321 -/
  row : Nat := 0
  /-- slot claimed or read: none before -/
  slot : Option Nat := none
  /-- bytes held: the table of a gather or scatter, or a transposed block with its images; 17 R473 R474 R477 -/
  kept : List Byte := []
  /-- what `kept` or `pos` stands for: 0 nothing, else one more than a block or row number; 17 R473 -/
  mark : Nat := 0
  /-- source offset of the row named by `mark`, with DEC; 17 R473 -/
  pos : Nat := 0
  /-- held fault: it is stopped; with false once the fault has been taken; 11 R320, 17 R492 -/
  fault : Option (TrapInfo × Bool) := none
  /-- bundle header and slot of issue, and strand -/
  pc : Nat := 0
  /-- see pc -/
  strand : Nat := 0
  /-- request identifier at issue: pfences before it hold it -/
  seq : Nat := 0
deriving DecidableEq, Repr

/-- A stream (17 R475). -/
structure StreamOp where
  id : Nat := 0
  /-- handle -/
  f : Nat := 0
  /-- base address, stride, rows -/
  base : Nat := 0
  stride : Nat := 0
  rows : Nat := 0
  /-- row length L in bytes -/
  len : Nat := 0
  /-- count C -/
  cnt : Nat := 0
  /-- CLOSE -/
  close : Bool := false
  running : Bool := false
  /-- rows completed -/
  row : Nat := 0
  /-- slot being filled -/
  slot : Option Nat := none
  /-- a full slot that still waits for STREAM_SLOT_ADVANCE -/
  advance : Bool := false
  fault : Option (TrapInfo × Bool) := none
  pc : Nat := 0
  strand : Nat := 0
  seq : Nat := 0
deriving DecidableEq, Repr

/-- A collective's descriptor as read at its start (17 R480 R481). -/
structure Coll where
  /-- source address; 17 R480 -/
  src : Nat := 0
  /-- destination address; 17 R480 -/
  dst : Nat := 0
  /-- element count; 17 R480 -/
  count : Nat := 0
  /-- root rank; 17 R480 -/
  root : Nat := 0
  /-- element format; 17 R480 -/
  fmt : Nat := 0
  /-- members by rank: package and micro-context; 17 R481 -/
  members : List (Nat × Nat) := []
  /-- the issuer's rank; 17 R481 -/
  rank : Nat := 0
  /-- agreement digest, 4 bytes; 17 R481 -/
  digest : List Byte := []
deriving DecidableEq, Repr

/-- A fabric operation (17 R478 to R481, 03 R75 to R81). -/
structure FabricOp where
  /-- identifier in the core -/
  id : Nat := 0
  /-- C op number: 6 csend, 7 crecv, 8 ccoll -/
  op : Nat := 0
  /-- RMA -/
  rma : Bool := false
  /-- endpoint index -/
  ep : Nat := 0
  /-- event -/
  event : Nat := 0
  /-- status address, 0 for none -/
  status : Nat := 0
  /-- local buffer or descriptor address -/
  addr : Nat := 0
  /-- length -/
  len : Nat := 0
  /-- window offset of a remote access -/
  off : Nat := 0
  /-- tag, or collective identifier and operation word -/
  tag : Nat := 0
  /-- step of a collective -/
  step : Nat := 0
  /-- the fabric engine has begun it: endpoint or descriptor read, receive posted -/
  running : Bool := false
  /-- its packets have been handed to the ports -/
  sent : Bool := false
  /-- none of its packets is in a send queue any more; 09 R258 -/
  left_ : Bool := false
  /-- TIME of start, or of the last packet handed over, for the 10 ms limits; 03 R75 R77 -/
  at_ : Nat := 0
  /-- OPID of its packets -/
  opid : Nat := 0
  /-- package and micro-context of the peer; 03 R76 -/
  peer : Nat × Nat := (0, 0)
  /-- pairing tag of the endpoint entry; 03 R76 -/
  ptag : Nat := 0
  /-- responses still awaited; 03 R76 -/
  waits : Nat := 0
  /-- a collective's descriptor -/
  coll : Coll := {}
  /-- chunks of a collective finished; 03 R81 -/
  chunks : Nat := 0
  /-- DS: a merge met a negative or NaN weight; 17 R478 -/
  ds : Bool := false
  /-- place among the messages and remote accesses begun: receives match in this order; 03 R77 -/
  begun : Nat := 0
  /-- a receive's message: its OPID and its length, once its first packet has come; 03 R77 -/
  msg : Option (Nat × Nat) := none
  /-- bytes of the message that have come -/
  got : Nat := 0
  /-- a local write of the message met a fault; 17 R478 -/
  bad : Bool := false
  /-- finished with status, LEN and MAL; 17 R478 -/
  result : Option (Nat × Nat × Bool) := none
  /-- bundle header, strand and request identifier at issue -/
  pc : Nat := 0
  /-- see pc -/
  strand : Nat := 0
  /-- see pc -/
  seq : Nat := 0
deriving DecidableEq, Repr

/-- A cipher operation (17 R493 to R497). -/
structure CipherOp where
  id : Nat := 0
  /-- K op number: 1 seal, 2 open, 3 shablk, 4 kbind, 5 kzero -/
  op : Nat := 0
  f : Nat := 0
  dst : Nat := 0
  src : Nat := 0
  len : Nat := 0
  buf : Bool := false
  init : Bool := false
  tile : BitVec 64 := 0
  /-- key slot -/
  key : Nat := 0
  /-- blocks completed -/
  row : Nat := 0
  /-- running SHA-256 state -/
  sha : List Byte := []
  slot : Option Nat := none
  fault : Option (TrapInfo × Bool) := none
  pc : Nat := 0
  strand : Nat := 0
  seq : Nat := 0
deriving DecidableEq, Repr

/-- A Grader node (17 R490). -/
structure GNode where
  id : BitVec 16 := 0
  parent : BitVec 16 := 0xFFFF
  prio : BitVec 32 := 0
deriving DecidableEq, Repr

/-- The state of a launch on a core that outlives its strands (07 R194 to R202, 08 R228, 15 R431, 17 R490). -/
structure CoreCtx where
  /-- physical scratchpad banks of launch banks b0 on; 07 R194; set at dispatch -/
  banks : List Nat := []
  /-- OWN bits by launch bank; 07 R194; 0 at dispatch -/
  own : List Nat := []
  /-- RP bits by launch bank, with the operations a release waits for (request ids, engine ids); 07 R195; 0 at dispatch -/
  rp : List (Nat × List Nat × List Nat) := []
  /-- handle set-up words f0 to f63; 08 R228; 0 -/
  setup : SMap (BitVec 64) := []
  /-- handle dynamic state; 08 R229 -/
  handles : SMap Handle := []
  /-- accumulator banks held: bank to strand + 1, 0 when free; 07 R200; 0 -/
  held : SMap Nat := []
  /-- accumulator banks freed that wait for matrix operations: bank, issued cycle; 07 R201; none -/
  freeing : List (Nat × Nat) := []
  matrix : Matrix := {}
  /-- Grader nodes; 17 R490; empty -/
  gnodes : List GNode := []
  /-- Grader capacity C; 17 R490; 1,024 -/
  gcap : Nat := 1024
  /-- Grader direction D; 17 R490; 0 -/
  gdir : Bool := false
  /-- copy queue; 17 R469; empty -/
  copyq : List CopyOp := []
  /-- stream queue; 17 R469; empty -/
  streamq : List StreamOp := []
  /-- fabric queue; 17 R469; empty -/
  fabricq : List FabricOp := []
  /-- cipher unit's operations; 17 R493; empty -/
  cipherq : List CipherOp := []
  /-- next engine operation identifier; model's own, DESIGN CHOICE 0 [log 3] -/
  nextOp : Nat := 0
  /-- late faults of engines held while no strand runs; 11 R320; none -/
  heldLate : List TrapInfo := []
deriving DecidableEq, Repr

/-- A core (R1, 07, 11, 12). -/
structure CoreSt where
  /-- launch slot bound and loaded here, none when idle without launch -/
  launch : Option Nat := none
  /-- strand running here, none when idle -/
  strand : Option Nat := none
  th : Thread := {}
  ctx : CoreCtx := {}
  /-- the launch on this core has been dispatched (loader done); 06 R158; false -/
  loaded : Bool := false
  /-- active plane and shadow plane; 07 R197; empty -/
  active : Plane := {}
  /-- see active -/
  shadow : Plane := {}
  /-- bucket table copies of both planes (always equal); 07 R197; none -/
  table : Option BucketTab := none
  /-- scratchpad bytes by physical offset (bank 16 KiB); R1, 08 R225; scrubbed to 0 -/
  spad : List Host.Cell := []
  /-- granules (physical offset / 16) whose full-empty bit is full; 08 R226; scrubbed to empty -/
  full : List Nat := []
  /-- accumulator memory bytes, 512 KiB; R1, 16 R461; scrubbed to 0 -/
  acc : List Host.Cell := []
  /-- scalar data cache: lines held (physical line number, 1,024 bits); 08 R224; empty -/
  dcache : SMap (Option (BitVec 1024)) := []
  /-- resident pre-empted context: launch slot and its state; 11 R326; none -/
  resident : Option (Nat × CoreCtx) := none
  /-- freeze cycles left; 11 R328; 0 -/
  freeze : Nat := 0
  /-- marked failed by the Chipper; 05 R145; false -/
  failed : Bool := false
  /-- OCC and DLEN writes on their way to the sequencer; 06 R173; none -/
  seqWrites : List (Bool × BitVec 64) := []
deriving DecidableEq, Repr

/-- A saved strand or idle-core context (11 R323 R324, 06 R157): the save area in memory holds what R324 gives a place, and is what a restore
reads; the rest, whose layout is internal to the house, stands here. -/
structure Save where
  /-- physical address of the 4 MiB save area; 11 R324 -/
  area : Nat := 0
  /-- launch slot, core it was saved from -/
  launch : Nat := 0
  /-- see launch -/
  core : Nat := 0
  /-- the strand's state; none for an idle victim core -/
  th : Option Thread := none
  /-- the launch's state on the core, if spilled or saved with the strand; none while resident -/
  ctx : Option CoreCtx := none
  /-- the fabric class has still to acknowledge, which holds the victim's resumption back; 06 R163 -/
  fabWait : Bool := false
  /-- full granules of a spilled context's scratchpad, by launch offset / 16; 08 R226, 11 R326; none -/
  full : List Nat := []
deriving DecidableEq, Repr

/-- What the package sends to the outside, in order. -/
inductive Output where
  | frame (port : Nat) (bytes : List Byte)          -- an Ethernet frame without FCS (02)
  | msix (fn vector : Nat)                          -- an MSI-X vector (04 R98)
  | flit (port : Nat) (bytes : List Byte)           -- a Smivy flit with its trailer (03 R68)
  | replay (port seq : Nat)                         -- a request to the link peer for go-back-N replay (03 R69)
  | nvme (read : NvmeRead)                          -- an NVMe Read of the Skidder (08 R242)
  | spdm (bytes : List Byte)                        -- an SPDM response (04 R92)
  | cfg (retry : Bool)                              -- a configuration request's completion (01 R32)
  | read (value : BitVec 64)                        -- the value a host register read returned (01 R37)
  | doe (bytes : List Byte)                         -- a DOE Discovery answer (04 R90)
deriving DecidableEq, Repr

/-- Who moves at a step. -/
inductive Turn where
  | event (i : Instr) (args : EventArgs)   -- an event of the opcode table happens
  | agent (n : Nat)                        -- core n below 600 or Proem thread n - 600 moves, and goes on moving
deriving DecidableEq, Repr

/-- The whole machine. -/
structure State where
  pkg : Pkg := {}
  flash : Flash := {}
  /-- TIME, 64 bits; 01 R26; a cold start sets it to 0 -/
  time : BitVec 64 := 0
  eth : Eth := {}
  sl : Sl := {}
  hif : Hif := {}
  prot : Prot := {}
  circ : Circ := {}
  mem : Mem := {}
  /-- cores c0 to c599 -/
  cores : SMap CoreSt := []
  /-- save areas in use, by number; 11 R324; none -/
  saves : SMap (Option Save) := []
  /-- model's own: inputs, internal events and turns chosen to come next, in order [log 1]; DESIGN CHOICE empty -/
  agenda : List Turn := []
  /-- model's own: the arguments of the event being performed [log 1]; DESIGN CHOICE empty -/
  ev : EventArgs := {}
  /-- model's own: the agent that steps next when the agenda is empty: a core c below 600, or a Proem thread 600 + t [log 1]; DESIGN CHOICE 0 -/
  agent : Nat := 0
  /-- model's own: the core whose syllable exec runs [log 1]; DESIGN CHOICE 0 -/
  cur : Nat := 0
  /-- model's own: the counter the free values are applied to [log 4]; DESIGN CHOICE 0 -/
  free : Nat := 0
  /-- model's own: what has been sent out, newest first [log 5]; DESIGN CHOICE empty -/
  out : List Output := []
deriving DecidableEq, Repr

/-- The machine before RESET_N is released: every field at the value its docstring gives.
DESIGN CHOICE [log 10]. DEDUCED [log 11]. DESIGN CHOICE [log 12]. DESIGN CHOICE [log 13]. -/
def State.reset : State := {}

end Sys2Proof.Machine
end

