-- ==== Sys2Proof/Machine/Ops.lean ====
section
/-! DEFINITION. Machine/Ops.lean: the named operations over cores and registers, exposed and pending results (12 R334 to R343),
taking a trap and returning from one (11 R309 to R318). -/
namespace Sys2Proof.Machine

/-- What a meaning answers. -/
abbrev Res := Host.Outcome State Fault Refusal

/-- Core `c`. -/
def State.core (s : State) (c : Nat) : CoreSt := SMap.get s.cores c {}

/-- Core `c` replaced. -/
def State.setCore (s : State) (c : Nat) (k : CoreSt) : State := { s with cores := SMap.set s.cores c k {} }

/-- Core `c` changed by `g`. -/
def State.modCore (s : State) (c : Nat) (g : CoreSt → CoreSt) : State := s.setCore c (g (s.core c))

/-- The thread of the core whose syllable runs. -/
def State.th (s : State) : Thread := (s.core s.cur).th

/-- That thread changed by `g`. -/
def State.modTh (s : State) (g : Thread → Thread) : State := s.modCore s.cur fun k => { k with th := g k.th }

/-- The launch's state on the core whose syllable runs. -/
def State.ctx (s : State) : CoreCtx := (s.core s.cur).ctx

/-- That state changed by `g`. -/
def State.modCtx (s : State) (g : CoreCtx → CoreCtx) : State := s.modCore s.cur fun k => { k with ctx := g k.ctx }

/-- The launch in slot `n` of the launch table (06 R151). -/
def State.launchAt (s : State) (n : Nat) : Option Launch := SMap.get s.circ.launches n none

/-- Slot `n` of the launch table replaced. -/
def State.setLaunch (s : State) (n : Nat) (l : Option Launch) : State :=
  { s with circ := { s.circ with launches := SMap.set s.circ.launches n l none } }

/-- The launch in slot `n` changed by `g`; nothing where the slot is empty. -/
def State.modLaunch (s : State) (n : Nat) (g : Launch → Launch) : State :=
  match s.launchAt n with
  | some l => s.setLaunch n (some (g l))
  | none => s

/-- The launch slot of the core whose syllable runs; 0 when it has none. -/
def State.slotNo (s : State) : Nat := (s.core s.cur).launch.getD 0

/-- The launch that runs on the core whose syllable runs. -/
def State.launch (s : State) : Launch :=
  match (s.core s.cur).launch with
  | some n => (s.launchAt n).getD {}
  | none => {}

/-- The strand index that runs there. -/
def State.strandNo (s : State) : Nat := (s.core s.cur).strand.getD 0

/-- A strand record of a launch. -/
def Launch.strand (l : Launch) (i : Nat) : Strand := SMap.get l.strands i {}

/-- A strand record changed. -/
def Launch.modStrand (l : Launch) (i : Nat) (g : Strand → Strand) : Launch :=
  { l with strands := SMap.upd l.strands i {} g }

/-- One more free value has been taken. DESIGN CHOICE [log 4]. -/
def State.draw (s : State) : State := { s with free := s.free + 1 }

/-! Registers (12 R341 to R343). -/

/-- S[n]; s0 reads 0. -/
def Thread.rS (th : Thread) (n : Nat) : Word := if n = 0 then 0 else SMap.get th.s n 0
/-- Q[n]; q0 reads all ones. -/
def Thread.rQ (th : Thread) (n : Nat) : BitVec 256 := if n = 0 then ones 256 else SMap.get th.q n 0
/-- Z[n]. -/
def Thread.rZ (th : Thread) (n : Nat) : BitVec 528 := SMap.get th.z n 0
/-- The physical vector register `p`. -/
def Thread.rV (th : Thread) (p : Nat) : VWord := SMap.get th.v p 0

/-- S[n] on the core whose syllable runs. -/
def State.rS (s : State) (n : Nat) : Word := s.th.rS n

/-- ROT.SIZE (12 R342). -/
def rotSize (rot : Word) : Nat := fld rot.toNat 16 11
/-- ROT.BASE (12 R342). -/
def rotBase (rot : Word) : Nat := fld rot.toNat 0 10
/-- A ROT value from its fields. -/
def rotWord (size base : Nat) : Word := BitVec.ofNat 64 (size * 2 ^ 16 + base)

/-- The physical vector register of a name; none for a name at or above v1024 + SIZE (12 R342). DEDUCED [log 30]. -/
def vphys (rot : Word) (n : Nat) : Option Nat :=
  if n < 1024 then some n
  else if n < 1024 + rotSize rot then some (1024 + (n - 1024 + rotBase rot) % rotSize rot)
  else none

/-- The names of a group of `span` registers from name `n` (12 R343). -/
def vnames (n span : Nat) : List Nat := (List.range span).map (n + ·)

/-- Every name of a group maps (12 R342 R343). -/
def vnamesOk (rot : Word) (n span : Nat) : Bool := (vnames n span).all fun x => (vphys rot x).isSome

/-- The physical registers of a group, in order. -/
def vgroup (rot : Word) (n span : Nat) : List Nat := (vnames n span).map fun x => (vphys rot x).getD 0

/-- The values of a group, in order. -/
def Thread.rVg (th : Thread) (n span : Nat) : List VWord := (vgroup th.rot n span).map th.rV

/-! Exposed results (12 R335). -/

/-- Write `val` to a register under a bit mask: the other bits keep their value. -/
def Thread.putReg (th : Thread) (r : Reg) (val mask : BitVec 2048) : Thread :=
  let mix (old : BitVec 2048) : BitVec 2048 := (old &&& ~~~mask) ||| (val &&& mask)
  match r with
  | .s n => if n = 0 then th else { th with s := SMap.upd th.s n 0 fun o => (mix (o.setWidth 2048)).setWidth 64 }
  | .v p => { th with v := SMap.upd th.v p 0 mix, mab := th.mab ||| BitVec.ofNat 128 (2 ^ (p / 16)) }
  | .q n => if n = 0 then th else { th with q := SMap.upd th.q n 0 fun o => (mix (o.setWidth 2048)).setWidth 256 }
  | .z n => { th with z := SMap.upd th.z n 0 fun o => (mix (o.setWidth 2048)).setWidth 528 }

/-- The low `w` bits set. -/
def lowMask (w : Nat) : BitVec 2048 := (ones w).setWidth 2048

/-- A result issued now with exposed latency `n`: it lands at the end of issued cycle t + n - 1. -/
def Thread.land (th : Thread) (n : Nat) (dst : Option Reg) (val mask : BitVec 2048) (flags : BitVec 7) : Thread :=
  { th with inflight := th.inflight ++
      [{ due := th.cycle + n - 1, bundle := th.bundles, dst := dst, val := val, mask := mask, flags := flags }] }

/-- A scalar result with latency `n`; a write to s0 is discarded (12 R341). -/
def State.landS (s : State) (n rd : Nat) (v : Word) : State :=
  if rd = 0 then s else s.modTh fun th => th.land n (some (.s rd)) (v.setWidth 2048) (lowMask 64) 0

/-- A predicate result with latency `n`; a write to q0 is discarded. -/
def State.landQ (s : State) (n qd : Nat) (v : BitVec 256) (flags : BitVec 7) : State :=
  s.modTh fun th => th.land n (if qd = 0 then none else some (.q qd)) (v.setWidth 2048) (lowMask 256) flags

/-- A scale result with latency `n`. -/
def State.landZ (s : State) (n zd : Nat) (v : BitVec 528) : State :=
  s.modTh fun th => th.land n (some (.z zd)) (v.setWidth 2048) (lowMask 528) 0

/-- Results of a group: register j of the list lands at latency n + j (12 R338); the flags land with the last of them. -/
def Thread.landVg (th : Thread) (n : Nat) (rs : List Nat) (vals masks : List VWord) (flags : BitVec 7) : Thread :=
  match rs, vals, masks with
  | r :: rs, v :: vals, m :: masks =>
    Thread.landVg (th.land n (some (.v r)) v m (if rs.isEmpty then flags else 0)) (n + 1) rs vals masks flags
  | _, _, _ => th

/-- What landing does to a thread: register, MAB bit, flags (12 R335, 13 R393, 10 R283). -/
def Thread.applyLanding (th : Thread) (l : Landing) : Thread :=
  let th := match l.dst with
    | some r => th.putReg r l.val l.mask
    | none => th
  { th with ffl := th.ffl ||| l.flags.setWidth 64 }

/-- Full bits set or cleared on granules (08 R226). -/
def CoreSt.setFull (k : CoreSt) (gs : List Nat) (full : Bool) : CoreSt :=
  { k with full := if full then gs.foldl withElem k.full else k.full.filter fun g => !(gs.contains g) }

/-- An engine's write into scratchpad: the bytes, then the full bits of the granules it completes: those whose last byte
it writes (08 R227). DEDUCED [log 41]. -/
def CoreSt.engineWrite (k : CoreSt) (p : Nat) (bs : List Byte) : CoreSt :=
  let first := p / 16
  let last := (p + bs.length) / 16
  ({ k with spad := Memory.writeN k.spad p bs }).setFull ((List.range (last - first)).map (first + ·)) true

/-- What landing does to the core: the bytes a drain writes into scratchpad, with their full bits (15 R443). -/
def CoreSt.applyLanding (k : CoreSt) (l : Landing) : CoreSt :=
  let k := { k with th := k.th.applyLanding l }
  match l.spad with
  | some (a, bs) => k.engineWrite a bs
  | none => k

/-- A syllable that has issued occupies its slot for `n` cycles, its own with them (12 R338). -/
def Thread.occupy (th : Thread) (slot n : Nat) : Thread := if n ≤ 1 then th else { th with busy := SMap.set th.busy slot n 0 }

/-- A cycle passes for the slots that are occupied; a stalled one counts for them too, as the stall is their own (12 R336 R338).
DEDUCED [log 105]. -/
def Thread.slotCycle (th : Thread) : Thread :=
  { th with busy := th.busy.filterMap fun p => if p.2 ≤ 1 then none else some (p.1, p.2 - 1) }

/-- End one issued cycle: what is due lands in issue order, and the cycle count rises (12 R335). -/
def CoreSt.advance (k : CoreSt) : CoreSt :=
  let now := k.th.inflight.filter fun l => l.due ≤ k.th.cycle
  let later := k.th.inflight.filter fun l => k.th.cycle < l.due
  let k := now.foldl CoreSt.applyLanding { k with th := { k.th with inflight := later } }
  { k with th := { k.th.slotCycle with cycle := k.th.cycle + 1 } }

/-! Pending results (12 R335). -/

/-- Mark registers pending under identifier `id`. s0 and q0 are never pending: a write to them is discarded. -/
def Thread.setPending (th : Thread) (id : Nat) (rs : List Reg) : Thread :=
  { th with pend := th.pend ++ [{ id := id, regs := rs.filter fun r => r != .s 0 && r != .q 0, bundle := th.bundles }] }

/-- Clear pending result `id` (11 R308). -/
def Thread.clearPending (th : Thread) (id : Nat) : Thread := { th with pend := th.pend.filter fun p => p.id != id }

/-- Whether a register is pending. -/
def Thread.isPending (th : Thread) (r : Reg) : Bool := th.pend.any fun p => p.regs.contains r

/-- Results outstanding, each register counted (16 R453). -/
def Thread.outstanding (th : Thread) : Nat := (th.pend.map fun p => max 1 p.regs.length).sum

/-! Traps (11). -/

/-- The reason class of a cause: bits [10:8] (11 R307). -/
def causeClass (cause : Nat) : Nat := cause / 256 % 8

/-- SWD as a trap leaves it (11 R309). -/
def swdWord (t : TrapInfo) : Word :=
  BitVec.ofNat 64 (t.cause % 2 ^ 16 * 2 ^ 32 + (if t.foreign then 15 else t.slot % 16) * 2 ^ 24 + causeClass t.cause * 2 ^ 21 + b2n t.late * 2 ^ 20 +
    t.path % 16 * 2 ^ 16 + t.detail % 2 ^ 16)

/-- TRS, or an origin word: slot [51:48] and PC [47:0] (11 R311 R312). -/
def trsWord (pc slot : Nat) : Word := BitVec.ofNat 64 (slot % 16 * 2 ^ 48 + pc % 2 ^ 48)

/-- The engine word of the trap record (11 R312). -/
def engineWord (t : TrapInfo) : Word := BitVec.ofNat 64 (t.row % 2 ^ 16 * 2 ^ 16 + t.handle % 64)

/-- Step 1 of a launch's termination: its engines stop, their state discarded, its running strands are EXITED, and it is left to retire
(11 R318, 05 R139, 07 R182). The first end of a launch is the one reported. DEDUCED [log 62]. -/
def endLaunch (n cause : Nat) (strand : Option Nat) (s : State) : State :=
  match s.launchAt n with
  | none => s
  | some l =>
    let l' := { l with
      ended := match l.ended with | some e => some e | none => some (causeClass cause, cause, s.time.toNat, strand)
      st := .retiring
      rotate := none
      strands := l.strands.map fun r => (r.1, if r.2.st == .running then { r.2 with st := .exited } else r.2) }
    let stop (k : CoreSt) : CoreSt :=
      { k with ctx := { k.ctx with copyq := [], streamq := [], fabricq := [], cipherq := [], heldLate := [], freeing := [] } }
    l.cores.foldl (fun s c => if (s.core c).launch == some n then s.modCore c stop else s) (s.setLaunch n (some l'))

/-- The trap registers and the trap record, as a trap sets them; the bundle-end latch is kept aside (11 R317, 13 R381). -/
def Thread.record (th : Thread) (t : TrapInfo) (pc slotRes time : Nat) : Thread :=
  { th with
    swd := swdWord t
    tva := BitVec.ofNat 64 (t.tva % 2 ^ 48)
    trs := trsWord pc slotRes
    recTime := time
    recOrigin := if t.late then trsWord t.origin t.slot else trsWord pc slotRes
    recEngine := engineWord t }

/-- Enter the handler at TRAPV, slot 0, with TH set; committed results land first (11 R314 R317). -/
def Thread.enterHandler (th : Thread) (trapv : Nat) : Thread :=
  { th with
    th := true, pc := trapv, slotRes := 0, arrived := true, drain := .handler, trapped := true
    heldCsr := th.latchCsr, heldRot := th.latchRot, heldX := th.latchX, trsWritten := false
    latchCsr := none, latchRot := none, latchX := none }

/-- TAKE A TRAP, resuming at (pc, slotRes): with a tenant handler and TH = 0 the handler is entered; otherwise the launch is
terminated with the class of the cause, its record carrying this trap (11 R317 R318). -/
def takeTrap (t : TrapInfo) (pc slotRes : Nat) (s : State) : State :=
  let trapv := s.launch.record.trapv
  if trapv != 0 && !s.th.th && causeClass t.cause ≤ 4 then
    s.modTh fun th => (th.record t pc slotRes s.time.toNat).enterHandler trapv
  else
    endLaunch s.slotNo t.cause (some s.strandNo)
      (s.modTh fun th => { (th.record t pc slotRes s.time.toNat) with trapped := true })

/-- A precise trap of the syllable being issued (11 R308 R313): TRS names the bundle with SLOTRES the slot. -/
def trapAt (cause detail tva path : Nat) (s : State) : State :=
  takeTrap { cause := cause, slot := s.th.slot, path := path, detail := detail, tva := tva, origin := s.th.bpc }
    s.th.bpc s.th.slot s

/-- A precise trap as an answer. -/
def trap (cause detail tva path : Nat) (s : State) : Res := .next (trapAt cause detail tva path s)

/-! Control registers (12 R346, 13 R388). -/

/-- The domain partition that owns core `c`: the lowest defined partition whose core mask holds it (05 R114 R115). -/
def State.partOfCore (s : State) (c : Nat) : Option Nat :=
  firstBelow 32 fun p =>
    let d := SMap.get s.prot.parts p {}
    d.st != 0 && d.cores.getLsbD c

/-- Throttle level in force on compute die `d` (01 R18). DESIGN CHOICE [log 66]. -/
def State.dieLevel (s : State) (d : Nat) : Nat := max (SMap.get s.pkg.thermal d 0) s.pkg.powerLevel

/-- A sensor's allowance against a limit in degrees: 0xFF before its first sweep (01 R23 R24). -/
def State.allowance (s : State) (sensor limit : Nat) : Nat :=
  let e := SMap.get s.pkg.temp sensor {}
  if e.v then (min 255 (max 0 (((16 * limit : Nat) - e.t.toInt) / 8))).toNat else 0xFF

/-- The stacks in which partition `p` owns pseudo-channels (05 R115). -/
def State.stacksOf (s : State) (p : Nat) : List Nat :=
  (List.range 12).filter fun k => ((SMap.get s.prot.parts p {}).hbm.extractLsb' (64 * k) 64) != 0

/-- TAR as core `c` reads it: the values of the last sweep, by the partition that owns the core (01 R23 R24). -/
def State.tar (s : State) (c : Nat) : Word :=
  let hbma := match s.partOfCore c with
    | some p => ((s.stacksOf p).map fun k => s.allowance (604 + k) 95).foldl min 0xFF
    | none => 0xFF
  BitVec.ofNat 64 (s.pkg.tarRfx.toNat * 2 ^ 48 + hbma * 2 ^ 40 + s.allowance (600 + c / 150) 105 * 2 ^ 32 +
    s.allowance c 105 * 2 ^ 24 + SMap.get s.pkg.tarLevel (c / 150) 0 * 2 ^ 16 + s.pkg.sweep.toNat)

/-- CORE as core `c` reads it (13 R391). -/
def coreWord (c : Nat) : Word := BitVec.ofNat 64 (c % 150 * 2 ^ 16 + c / 150 * 2 ^ 10 + c)

/-- Launch identifier of slot `n` (06 R151). -/
def lid (n gen : Nat) : Nat := gen % 2 ^ 20 * 2 ^ 12 + n

/-- A control register as it stands (12 R346, 13 R388 to R394). -/
def State.csrRead (s : State) (n : Nat) : Word :=
  let th := s.th
  match n with
  | 0x001 => th.fcr
  | 0x002 => th.ffl
  | 0x003 => th.dsc
  | 0x004 => th.dsk
  | 0x010 => th.swd
  | 0x011 => th.tva
  | 0x012 => th.trs
  | 0x020 => th.rot
  | 0x030 => th.occ
  | 0x031 => th.dlen
  | 0x040 => s.tar s.cur
  | 0x041 => s.time
  | 0x050 => coreWord s.cur
  | 0x051 => BitVec.ofNat 64 (if s.launch.house then 2 ^ 16 else s.launch.mcx)
  | 0x052 => BitVec.ofNat 64 (lid s.slotNo s.launch.gen)
  | 0x053 => th.gmk
  | 0x060 => th.mab.setWidth 64
  | 0x061 => (th.mab >>> 64).setWidth 64
  | _ => 0

/-- DSK as a write leaves it (10 R282). -/
def dskWrite (old new : Word) : Word :=
  let lvl := if fld new.toNat 16 8 ≤ 0x2F then fld new.toNat 16 8 else fld old.toNat 16 8
  BitVec.ofNat 64 (lvl * 2 ^ 16 + fld new.toNat 0 16)

/-- ROT as a write leaves it (12 R342). -/
def rotWrite (old new : Word) : Word :=
  let size := rotSize new
  let base := rotBase new
  if size ≤ 1024 && size % 8 == 0 && (base < size || (size == 0 && base == 0)) then rotWord size base else old

/-- TRS accepts a written value (11 R311). DEDUCED [log 51]. -/
def trsOk (new : Word) : Bool := fld new.toNat 48 4 ≤ 9 && fld new.toNat 0 2 == 0

/-- A control register takes a written value under its field rules, at the end of the bundle (13 R388 R390 R393); for MAB the
value is the set of bits to clear. A write to TRS in a handler discards a held transfer (13 R381). DEDUCED [log 51]. -/
def CoreSt.csrWrite (k : CoreSt) (n : Nat) (new : Word) : CoreSt :=
  let th := k.th
  match n with
  | 0x001 => if fld new.toNat 0 3 ≤ 4 then { k with th := { th with fcr := BitVec.ofNat 64 (fld new.toNat 0 3) } } else k
  | 0x002 => { k with th := { th with ffl := new &&& 0x7F } }
  | 0x003 => { k with th := { th with dsc := new } }
  | 0x004 => { k with th := { th with dsk := dskWrite th.dsk new } }
  | 0x012 =>
    if trsOk new then { k with th := { th with trs := trsWord (fld new.toNat 0 48) (fld new.toNat 48 4), trsWritten := th.th } }
    else k
  | 0x020 => { k with th := { th with rot := rotWrite th.rot new } }
  | 0x030 =>
    { k with th := { th with occ := new &&& 0xFFFF }, seqWrites := k.seqWrites ++ [(false, new &&& 0xFFFF)] }
  | 0x031 => { k with th := { th with dlen := new &&& 0xFF }, seqWrites := k.seqWrites ++ [(true, new &&& 0xFF)] }
  | 0x060 => { k with th := { th with mab := th.mab &&& ~~~(new.setWidth 128) } }
  | 0x061 => { k with th := { th with mab := th.mab &&& ~~~(new.setWidth 128 <<< 64) } }
  | _ => k

/-- Stopped engine operations whose fault has been taken go on (11 R321, 17 R492). -/
def CoreCtx.resume (x : CoreCtx) : CoreCtx :=
  let go (f : Option (TrapInfo × Bool)) : Option (TrapInfo × Bool) := match f with | some (_, false) => none | g => g
  { x with
    copyq := x.copyq.map fun o => { o with fault := go o.fault }
    streamq := x.streamq.map fun o => { o with fault := go o.fault }
    cipherq := x.cipherq.map fun o => { o with fault := go o.fault } }

/-- RETURN FROM A TRAP: what `rett` does when its bundle completes. TH clears and issue resumes at TRS; the latch of the split
bundle comes back, or, when the handler wrote TRS, its control-register and ROT changes take effect now and its transfer is
discarded (13 R381 R387, 11 R315 R317). -/
def CoreSt.returnTrap (k : CoreSt) : CoreSt :=
  let th := k.th
  let th := { th with th := false, pc := fld th.trs.toNat 0 48, slotRes := fld th.trs.toNat 48 4, arrived := true }
  let back := if th.trsWritten then th else { th with latchCsr := th.heldCsr, latchRot := th.heldRot, latchX := th.heldX }
  let k' := { k with th := { back with heldCsr := none, heldRot := none, heldX := none, trsWritten := false }, ctx := k.ctx.resume }
  if th.trsWritten then
    let k' := match th.heldCsr with | some (n, v) => k'.csrWrite n v | none => k'
    match th.heldRot with | some r => { k' with th := { k'.th with rot := r } } | none => k'
  else k'

/-- The opcode field SWD.DETAIL reports: op [7:0] in the 64-bit slots, the op in the 32-bit ones (11 R309). -/
def Syll.detail (y : Syll) : Nat :=
  match y with
  | .sa op _ | .sb op _ | .sc op _ | .v op _ | .c op _ | .m op _ | .k op _ | .z op _ => op
  | .l op f | .w op f => op + 32 * f.ty
  | .yf op _ | .yp op _ | .yh op _ | .yb op _ | .yg op _ | .ya op _ | .ye op _ | .yr op _ => op
  | .rv op _ => op

/-- The syllable is an illegal operation: cause ILLOP (11 R307). DEDUCED [log 26]. -/
def illop (y : Syll) (s : State) : Res := trap 0x0001 y.detail 0 15 s

/-- Run `k` if the syllable's encoding is legal; ILLOP otherwise (12 R341 to R362). -/
def checked (y : Syll) (s : State) (k : State → Res) : Res := if y.fits && y.legal then k s else illop y s

/-- The syllable waits: its bundle does not issue (12 R336). -/
def stall (s : State) : Res := .next (s.modTh fun th => { th with stalled := true })

/-- The launch is a house launch: it may use house-privileged operations (00 R14). -/
def State.isHouse (s : State) : Bool := s.launch.house

/-- Operations already issued by this thread's core to the load, store and bank paths: store-like ones still outstanding (16 R453). -/
def State.storesOut (s : State) (c : Nat) : Nat :=
  (s.mem.net.filter fun r => r.core == c && (match r.kind with | .store => true | .bank _ _ => true | _ => false)).length

/-- An evsig of core `c` waits for what it releases: what the core passes to Circulation after it waits behind it (18 R501). -/
def State.signalOpen (s : State) (c : Nat) : Bool :=
  s.mem.net.any fun r => r.core == c && (match r.kind with | .signal _ _ => true | _ => false)

/-- An operation that Circulation orders is passed to it, in issue order (18 R501). -/
def circPass (s : State) (k : State → Res) : Res := if s.signalOpen s.cur then stall s else k s

/-- Count one more of package error counter `k` (05 R138 R146). -/
def State.countErr (s : State) (k : Nat) : State :=
  { s with prot := { s.prot with chip := { s.prot.chip with err := SMap.upd s.prot.chip.err k 0 fun n => sat48 n 1 } } }

/-- Send something to the outside. DESIGN CHOICE [log 5]. -/
def State.emit (s : State) (o : Output) : State := { s with out := o :: s.out }

end Sys2Proof.Machine
end

