-- ==== Sys2Proof/Machine/Operands.lean ====
section
/-! DEFINITION. Machine/Operands.lean: every operand form: immediates, scalar operands and widths, conditions, branch targets,
effective addresses, vector operands and rounding modes (12 R345 to R356, 13 R369 R376 R377, 10 R279 R281). -/
namespace Sys2Proof.Machine

/-- Width of CW codes 0 to 7 (12 R348, 13 R369). -/
def cwWidth (cw : Nat) : Nat := match cw with | 0 => 64 | 1 => 64 | 2 => 32 | 3 => 32 | 4 => 16 | 5 => 16 | _ => 8

/-- Width codes that sign-extend (13 R369). -/
def cwSigned (cw : Nat) : Bool := cw % 2 == 0

/-- IMM of an SA syllable: 32 or 48 bits, sign-extended, or zero-extended in a logical operation with CW 1 (12 R345). -/
def saImmediate (f : SA) (xi : BitVec 16) (zero : Bool) : Word :=
  let n := if f.x == 1 then 48 else 32
  let x := if f.x == 1 then f.imm + xi.toNat * 2 ^ 32 else f.imm
  if zero then BitVec.ofNat 64 x else word (sext x n)

/-- The second operand of an "sb/imm" form (12 R347, 13 R369). -/
def saSecond (f : SA) (zero : Bool) (s : State) : Word :=
  if f.i == 1 then saImmediate f s.th.xi zero else s.rS f.sb

/-- A result reduced to the width of CW and extended (13 R369). -/
def saResult (cw : Nat) (r : Int) : Word :=
  let w := cwWidth cw
  let m := (r % (2 ^ w : Nat)).toNat
  if cwSigned cw then word (sext m w) else BitVec.ofNat 64 m

/-- Conditions 0 to 9 on two 64-bit values (12 R348, 13 R376). -/
def cond (cc : Nat) (a b : Word) : Bool :=
  match cc with
  | 0 => a == b
  | 1 => a != b
  | 2 => decide (a.toInt < b.toInt)
  | 3 => decide (b.toInt ≤ a.toInt)
  | 4 => decide (a.toNat < b.toNat)
  | 5 => decide (b.toNat ≤ a.toNat)
  | 6 => decide (a.toInt ≤ b.toInt)
  | 7 => decide (b.toInt < a.toInt)
  | 8 => decide (a.toNat ≤ b.toNat)
  | _ => decide (b.toNat < a.toNat)

/-- Target of an SB form: header + SEXT(disp32, 32), modulo 2^64 (13 R377). -/
def sbTarget (f : SB) (s : State) : Nat := (word ((s.th.bpc : Int) + sext f.disp 32)).toNat

/-- Target of jmpr and callr: S[sa] + IMM (13 R377). -/
def saTarget (f : SA) (s : State) : Nat := (s.rS f.sa + saImmediate f s.th.xi false).toNat

/-- A register target whose bits [1:0] and [63:48] are zero (13 R377). -/
def targetOk (t : Nat) : Bool := t % 4 == 0 && t < 2 ^ 48

/-- Offset of an L or W syllable: 21 bits, or 37 with X and XI (12 R345). -/
def lwOffset (f : LW) (xi : BitVec 16) : Int :=
  if f.x == 1 then sext (f.off + xi.toNat * 2 ^ 21) 37 else sext f.off 21

/-- S[base] + offset, modulo 2^64 (12 R356, 16 R450). -/
def lwAddress (f : LW) (s : State) : Nat := (s.rS f.base + word (lwOffset f s.th.xi)).toNat

/-- Bytes of a scalar type code (12 R355). -/
def tyBytes (ty : Nat) : Nat := 2 ^ (ty / 2)

/-- S[base] + S[index] x size + offset (12 R356). -/
def lwIndexed (f : LW) (s : State) : Nat :=
  (s.rS f.base + s.rS f.idx * BitVec.ofNat 64 (tyBytes f.ty) + word (lwOffset f s.th.xi)).toNat

/-- A loaded value extended by its type code: .i sign-extends, .n zero-extends (16 R455 R462). -/
def tyExtend (ty x : Nat) : Word := if ty % 2 == 0 then word (sext x (8 * tyBytes ty)) else BitVec.ofNat 64 x

/-! Vector operands (10 R276, 12 R350 R343, 14). -/

/-- Elements of a register in a format (10 R275). -/
def perReg (f : Nat) : Nat := 2048 / fmtBits f

/-- Element `i` of a group of registers (10 R276). -/
def elemAt (f : Nat) (vs : List VWord) (i : Nat) : Nat :=
  ((vs.getD (i / perReg f) 0).extractLsb' (fmtBits f * (i % perReg f)) (fmtBits f)).toNat

/-- Every element of a group. -/
def elems (f : Nat) (vs : List VWord) : List Nat :=
  vs.flatMap fun v => (List.range (perReg f)).map fun i => (v.extractLsb' (fmtBits f * i) (fmtBits f)).toNat

/-- One register from its elements, element 0 in the low bits. -/
def packElems (f : Nat) (l : List Nat) : VWord :=
  BitVec.ofNat 2048 (l.foldr (fun x acc => x % 2 ^ fmtBits f + acc * 2 ^ fmtBits f) 0)

/-- A list cut into pieces of `n`, `k` pieces. -/
def pieces {α : Type} (n k : Nat) (l : List α) : List (List α) :=
  match k with
  | 0 => []
  | k + 1 => l.take n :: pieces n k (l.drop n)

/-- A group of `span` registers from its elements. -/
def packGroup (f span : Nat) (l : List Nat) : List VWord := (pieces (perReg f) span l).map (packElems f)

/-- The rounding a V syllable latches: its rm field, or FCR, with the counter of DSC and DSK (10 R279 R281); `taken` is how many
syllables of the bundle have taken a position before. -/
def State.rounding (s : State) (rm taken : Nat) : Rnd :=
  let th := s.th
  let mode := match rm with | 0 => fld th.fcr.toNat 0 3 | 1 => 0 | 2 => 1 | _ => 4
  { mode := mode, key := s.launch.drawKey, w0 := fld th.dsc.toNat 0 32, w1 := fld th.dsc.toNat 32 32
    w2 := counter2 ((fld th.dsk.toNat 0 16 + taken) % 2 ^ 16) 3 (fld th.dsk.toNat 16 8) }

end Sys2Proof.Machine
end

