-- ==== Sys2Proof/Machine/Memory.lean ====
section
/-! DEFINITION. Machine/Memory.lean: the physical map, translation, lines, requests to home slices and their order, and bank-unit
operations (08_memory_hierarchy.md, 09_memory_model.md, 05 R133 R137). -/
namespace Sys2Proof.Machine

/-! The physical map (08 R210). -/

/-- What a physical address names. -/
inductive Place where
  | stacks (bank : Nat)
  | hbm (stack channel : Nat)
  | house (off : Nat)
  | host (addr : Nat)
  | nothing
deriving DecidableEq, Repr

/-- The physical map (08 R210). -/
def placeOf (pa : Nat) : Place :=
  if pa < 0x80000000 then .stacks (pa / 0x200000)
  else if 0x1000000000 ≤ pa ∧ pa < 0xA000000000 then
    .hbm ((pa - 0x1000000000) / 0xC00000000) ((pa - 0x1000000000) % 0xC00000000 / 0x30000000)
  else if 0xF000000000 ≤ pa ∧ pa < 0xF000800000 then .house (pa - 0xF000000000)
  else if 0x10000000000 ≤ pa ∧ pa < 0x20000000000 then .host (pa - 0x10000000000)
  else .nothing

/-- The Chipper's class and number of the Stacks bank or HBM page at a physical address (05 R142). -/
def memUnit (pa : Nat) : Nat × Nat := if pa < 0x80000000 then (4, pa / 0x200000) else (5, (pa - 0x1000000000) / 0x200000)

/-- A Stacks bank or HBM page marked failed: it is never assigned, so it is no partition's memory (05 R145). DEDUCED [log 82]. -/
def State.memFailed (s : State) (pa : Nat) : Bool := (SMap.get s.prot.chip.failed (memUnit pa).1 []).contains (memUnit pa).2

/-- The defined partition that owns the memory at a physical address (05 R114 R115 R145). -/
def State.partOfMem (s : State) (pa : Nat) : Option Nat :=
  firstBelow 32 fun p =>
    let d := SMap.get s.prot.parts p {}
    d.st != 0 && !(s.memFailed pa) && (match placeOf pa with
      | .stacks b => d.banks.getLsbD b
      | .hbm k c => d.hbm.getLsbD (64 * k + c)
      | _ => false)

/-- The state of the line that holds a physical address (08 R218). -/
def State.line (s : State) (pa : Nat) : LineState := SMap.get s.mem.lines (pa / 128) {}

/-- Line state replaced. -/
def State.setLine (s : State) (pa : Nat) (l : LineState) : State :=
  { s with mem := { s.mem with lines := SMap.set s.mem.lines (pa / 128) l {} } }

/-- Bytes of the Stacks and HBM. -/
def State.phys (s : State) (pa n : Nat) : List Byte := Memory.readN s.mem.bytes pa n

/-- A little-endian number in the Stacks or HBM. -/
def State.physLe (s : State) (pa n : Nat) : Nat := leNat (s.phys pa n)

/-- Write bytes to the Stacks or HBM, nothing else. -/
def State.setPhys (s : State) (pa : Nat) (bs : List Byte) : State :=
  { s with mem := { s.mem with bytes := Memory.writeN s.mem.bytes pa bs } }

/-- The valid segment-table entry that holds a physical page (08 R213 R238). -/
def State.segOf (s : State) (pa : Nat) : Option Nat :=
  let page := pa / 0x200000 * 0x200000
  (s.mem.segs.find? fun e => e.2.page == page && page != 0).map (·.1)

/-- The Stacks banks of a partition, or of no partition, in ascending order (05 R114, 08 R217). -/
def State.banksOf (s : State) (p : Option Nat) : List Nat :=
  let mask (p : Nat) : BitVec 1024 := let d := SMap.get s.prot.parts p {}; if d.st != 0 then d.banks else 0
  let own : BitVec 1024 := match p with
    | some p => mask p
    | none => ~~~((List.range 32).foldl (fun m p => m ||| mask p) 0)
  (List.range 1024).filter fun b => own.getLsbD b && !(s.memFailed (b * 0x200000))

/-- Where an HBM line is homed: its candidates, and among them the one that its address's CRC names; none where there is no candidate
at all (08 R217). -/
def State.hbmHome (s : State) (pa : Nat) : Option Nat :=
  let all := if (s.segOf pa).isSome then [] else match s.partOfMem pa with | some p => s.banksOf (some p) | none => []
  let near := match placeOf pa with | .hbm k _ => all.filter fun b => b / 256 == k / 3 | _ => []
  let cs := if !near.isEmpty then near else if !all.isEmpty then all else s.banksOf none
  cs[(crc32c (natLe 8 (pa / 128 * 128))).toNat % cs.length]?

/-- THE HOME BANK of a line: a Stacks line's own bank, an HBM line's as R217 chooses it (08 R216 R217). -/
def State.homeBank (s : State) (pa : Nat) : Option Nat :=
  match placeOf pa with
  | .stacks b => some b
  | .hbm _ _ => s.hbmHome pa
  | _ => none

/-! Translation (08 R208 to R215). -/

/-- Who translates: the launch's tables, and whether the device windows can be reached (08 R208 R209). -/
structure Who where
  house : Bool := false
  mcx : Nat := 0
  part : Option Nat := none
  root : Option Nat := none
  /-- the Ethernet request whose slots the launch sees -/
  request : Option Nat := none
  /-- an access path of a core: it reaches the windows -/
  windows : Bool := true
  /-- the core whose micro-TLB and die serve it; none for an agent that walks each time (08 R214) -/
  core : Option Nat := none
deriving DecidableEq, Repr

/-- Where a translated address leads. -/
inductive Target where
  | spad (off : Nat)    -- offset in the scratchpad window
  | mem (pa : Nat)      -- Stacks or HBM
  | house (off : Nat)   -- house window
  | host (addr : Nat)   -- host window
deriving DecidableEq, Repr

/-- A translation (08 R212): where it leads, bytes left in the page, and the leaf's fields; the window rules are level 4. -/
structure Xlat where
  dest : Target
  len : Nat
  ro : Bool := false
  cn : Bool := false
  ok : Nat := 0
  key : Nat := 0
  tag : Nat := 0
  lvl : Nat := 4
deriving DecidableEq, Repr

/-- Causes of address faults (11 R307). -/
def XLATE : Nat := 0x0101
/-- Access fault. -/
def ACCESS : Nat := 0x0102

/-- Bytes that a descriptor at level `lvl` maps (08 R211). -/
def levelSize (lvl : Nat) : Nat := 2 ^ (39 - 9 * lvl)

/-- The slot size of a pool in bytes (02 R66). -/
def EthPool.slotBytes (p : EthPool) : Nat := match p.slot with | 0 => 0x2000 | 1 => 0x8000 | _ => 0x20000

/-- Physical address of a pair's receive (which = 0) or reply (which = 1) slot (02 R56 R66): pair k is slots 2k and 2k + 1. -/
def EthPool.slotAddr (p : EthPool) (pair which : Nat) : Nat := p.base * 0x10000 + (2 * pair + which) * p.slotBytes

/-- The device windows (08 R209, 02 R56). -/
def xlatWindow (s : State) (w : Who) (va : Nat) (write : Bool) : Except (Nat × Nat) Xlat :=
  if !w.windows then .error (XLATE, 4)
  else if va < 0x7FFE00200000 then
    .ok { dest := .spad (va - 0x7FFE00000000), len := 0x7FFE00200000 - va }
  else match w.request with
    | none => .error (XLATE, 4)
    | some id =>
      match SMap.get s.eth.requests id none with
      | none => .error (XLATE, 4)
      | some r =>
        let p := SMap.get s.eth.pools r.part {}
        let n := p.slotBytes
        if 0x7FFF00000000 ≤ va ∧ va < 0x7FFF00000000 + n then
          if write then .error (ACCESS, 4)
          else .ok { dest := .mem (p.slotAddr r.pair 0 + (va - 0x7FFF00000000)), len := 0x7FFF00000000 + n - va, ro := true, ok := 1, tag := 0x4000 + w.mcx }
        else if 0x7FFF00020000 ≤ va ∧ va < 0x7FFF00020000 + n then
          .ok { dest := .mem (p.slotAddr r.pair 1 + (va - 0x7FFF00020000)), len := 0x7FFF00020000 + n - va, ok := 1, tag := 0x4000 + w.mcx }
        else .error (XLATE, 4)

/-- A leaf at level `lvl` (08 R212 R213). -/
def xlatLeaf (s : State) (w : Who) (d lvl va : Nat) (write : Bool) : Except (Nat × Nat) Xlat :=
  let size := levelSize lvl
  let base := fld d 7 31 * 0x1000
  let tag := fld d 50 14
  let key := fld d 38 12
  let cn := bitOf d 6
  let ro := bitOf d 5
  let pa := base + va % size
  let place := placeOf pa
  let device := decide (base < 0xF000800000 ∧ 0xF000000000 < base + size) || decide (base < 0x20000000000 ∧ 0x10000000000 < base + size)
  let isHost := match place with | .host _ => true | _ => false
  if lvl != 0 && base % size != 0 then .error (XLATE, lvl)
  else if !w.house && device then .error (ACCESS, lvl)
  else if lvl == 0 || isHost != (lvl == 3) || place == .nothing then .error (XLATE, lvl)
  else if tag == 0x3FFF && (!ro || cn || (s.segOf pa).isNone) then .error (XLATE, lvl)
  else if !w.house && tag != 0x3FFF &&
      (tag != w.mcx || s.partOfMem pa != w.part || w.part.isNone ||
        (SMap.get s.mem.pageTag (pa / 0x200000) 0x3FFE != 0x3FFE && SMap.get s.mem.pageTag (pa / 0x200000) 0x3FFE != w.mcx)) then
    .error (XLATE, lvl)
  else if !w.house && key != 0 && !(match w.part with
      | some p => let q := SMap.get s.prot.parts p {}; decide (q.keyBase ≤ key ∧ key < q.keyBase + q.keyCount)
      | none => false) then .error (XLATE, lvl)
  else if write && ro then .error (ACCESS, lvl)
  else
    let dest := match place with | .house o => .house o | .host a => .host a | _ => .mem pa
    .ok { dest := dest, len := size - va % size, ro := ro, cn := cn, ok := fld d 3 2, key := key, tag := tag, lvl := lvl }

/-! Translation caches (08 R214 R215). -/

/-- The entry of one of the caches `us` for a requester's tag that maps `va` at a level `ok` allows. -/
def State.tlbEntry (s : State) (us : List Nat) (tag va : Nat) (ok : Nat → Bool) : Option TlbEntry :=
  s.mem.tlb.find? fun e => us.contains e.unit && e.tag == tag && ok e.lvl && e.page == va / levelSize e.lvl

/-- The leaf that the micro-TLB of a requester's core or its die's shared TLB serves. While the tables keep R215 it is the one a walk
finds; after another change the manual leaves open which is used. DESIGN CHOICE [log 37]. -/
def State.tlbLeaf (s : State) (w : Who) (va : Nat) : Option (Nat × Nat) :=
  match w.core with
  | some c =>
    match s.tlbEntry [c, 600 + c / 150] w.mcx va fun _ => true with
    | some e => if Config.tlbServes s.free then some (e.desc, e.lvl) else none
    | none => none
  | none => none

/-- The table descriptor of level `lvl` that the page-walk cache of a requester's die serves. DESIGN CHOICE [log 37]. -/
def State.walkEntry (s : State) (w : Who) (lvl va : Nat) : Option Nat :=
  match w.core with
  | some c =>
    match s.tlbEntry [604 + c / 150] w.mcx va fun l => l == lvl with
    | some e => if Config.tlbServes s.free then some e.desc else none
    | none => none
  | none => none

/-- The descriptor at level `lvl` of a table, as the walker reads it: a poisoned line and a tombstone fail the read
(08 R211 R235, 05 R140). -/
def State.readDesc (s : State) (w : Who) (lvl table va : Nat) : Except (Nat × Nat) Nat :=
  let at_ := table + 8 * fld va (39 - 9 * lvl) 9
  if !w.house && (s.partOfMem at_ != w.part || w.part.isNone || (s.line at_).cipher) then .error (XLATE, lvl)
  else if (s.line at_).poison then .error (0x0105, lvl)
  else if (s.line at_).tomb then .error (0x0201, lvl)
  else .ok (s.physLe at_ 8)

/-- Walk the tables from level `lvl` (08 R211 R213); `n` levels are left. DESIGN CHOICE [log 37]. -/
def xlatWalk (s : State) (w : Who) (va : Nat) (write : Bool) (n lvl table : Nat) : Except (Nat × Nat) Xlat :=
  match n with
  | 0 => .error (XLATE, 3)
  | n + 1 =>
    match (match s.walkEntry w lvl va with | some d => Except.ok d | none => s.readDesc w lvl table va) with
    | .error e => .error e
    | .ok d =>
      let ty := d % 4
      if ty == 0 || ty == 3 || bitOf d 2 || fld d 3 2 == 3 then .error (XLATE, lvl)
      else if ty == 2 then xlatLeaf s w d lvl va write
      else if lvl == 3 || fld d 38 26 != 0 || fld d 3 4 != 0 then .error (XLATE, lvl)
      else xlatWalk s w va write n (lvl + 1) (fld d 7 31 * 0x1000)

/-- Translate one address (08 R208 R209): cause and walk level on a fault. DESIGN CHOICE [log 37]. -/
def translate (s : State) (w : Who) (va : Nat) (write : Bool) : Except (Nat × Nat) Xlat :=
  if 2 ^ 48 ≤ va then .error (XLATE, 4)
  else if 0x7FFE00000000 ≤ va ∧ va < 0x800000000000 then xlatWindow s w va write
  else match w.root with
    | some r =>
      (match s.tlbLeaf w va with
        | some (d, lvl) => xlatLeaf s w d lvl va write
        | none => xlatWalk s w va write 4 0 r)
    | none => .error (XLATE, 0)

/-- The descriptors that a walk for `va` reads, with their levels, the leaf last. -/
def walkPath (s : State) (w : Who) (va n lvl table : Nat) : List (Nat × Nat) :=
  match n with
  | 0 => []
  | n + 1 =>
    match s.readDesc w lvl table va with
    | .error _ => []
    | .ok d => (lvl, d) :: (if d % 4 == 1 then walkPath s w va n (lvl + 1) (fld d 7 31 * 0x1000) else [])

/-- Entries of a cache: micro-TLB, shared TLB, page-walk cache (08 R214). -/
def tlbSize (unit : Nat) : Nat := if unit < 600 then 128 else if unit < 604 then 16384 else 2048

/-- An entry goes into its cache; a full one loses one of its own, which one is not said (08 R214). DESIGN CHOICE [log 37]. -/
def tlbPut (free : Nat) (l : List TlbEntry) (e : TlbEntry) : List TlbEntry :=
  if l.contains e then l
  else
    let l := l.filter fun x => !(x.unit == e.unit && x.tag == e.tag && x.lvl == e.lvl && x.page == e.page)
    let mine := l.filter fun x => x.unit == e.unit
    if tlbSize e.unit ≤ mine.length then
      (match mine[Config.tlbVictim free % mine.length]? with | some v => l.filter fun x => x != v | none => l) ++ [e]
    else l ++ [e]

/-- A translation of a core's request is kept: its leaf in the micro-TLB and the die's shared TLB, its tables in the page-walk cache.
Only what translates is kept (08 R213 R214). -/
def State.tlbFill (s : State) (w : Who) (va : Nat) : State :=
  match w.core, w.root with
  | some c, some r =>
    if (s.tlbLeaf w va).isSome || 0x7FFE00000000 ≤ va then s
    else
      match xlatWalk s { w with core := none } va false 4 0 r with
      | .error _ => s
      | .ok _ =>
        let es := (walkPath s w va 4 0 r).flatMap fun p =>
          let e (u : Nat) : TlbEntry := { unit := u, tag := w.mcx, lvl := p.1, page := va / levelSize p.1, desc := p.2 }
          if p.2 % 4 == 2 then [e c, e (600 + c / 150)] else [e (604 + c / 150)]
        { s with mem := { s.mem with tlb := es.foldl (tlbPut s.free) s.mem.tlb } }
  | _, _ => s

/-- Every translation kept under a domain tag goes (08 R215). -/
def State.tlbFlush (s : State) (tag : Nat) : State :=
  { s with mem := { s.mem with tlb := s.mem.tlb.filter fun e => e.tag != tag } }

/-- Who a launch is, for translation (08 R208). -/
def State.who (s : State) (l : Launch) : Who :=
  if l.house then { house := true, mcx := 0x200A, part := l.part, root := s.mem.houseRoot, request := l.request, core := some s.cur }
  else { mcx := l.mcx, part := l.part, root := some (SMap.get s.prot.mcbs l.mcx {}).ptRoot, request := l.request, core := some s.cur }

/-- The same without the windows: an agent that meets them as addresses that do not translate (08 R209). -/
def Who.outside (w : Who) : Who := { w with windows := false, core := none }

/-- A micro-context outside a launch (08 R209). -/
def State.mcxWho (s : State) (m : Nat) : Who :=
  let b := SMap.get s.prot.mcbs m {}
  { mcx := m, part := some b.part, root := some b.ptRoot, windows := false }

/-- A piece of an access inside one line, or a whole scratchpad access. -/
structure Piece where
  x : Xlat
  va : Nat
  len : Nat
  off : Nat
deriving DecidableEq, Repr

/-- An access cut at pages and lines, every piece checked in ascending address order: a fault gives cause, level and the first
byte of the piece (08 R208 R249, 16 R451). -/
def cut (s : State) (w : Who) (write : Bool) (fuel va n off : Nat) : Except (Nat × Nat × Nat) (List Piece) :=
  match fuel with
  | 0 => .ok []
  | fuel + 1 =>
    if n == 0 then .ok []
    else match translate s w (va % 2 ^ 64) write with
      | .error (c, l) => .error (c, l, va % 2 ^ 64)
      | .ok x =>
        let room := match x.dest with
          | .spad _ => x.len
          | _ => min x.len (128 - va % 128)
        let k := min n room
        match cut s w write fuel (va + k) (n - k) (off + k) with
        | .error e => .error e
        | .ok r => .ok ({ x := x, va := va % 2 ^ 64, len := k, off := off } :: r)

/-- The pieces of an access of `n` bytes at `va`. -/
def cutAccess (s : State) (w : Who) (write : Bool) (va n : Nat) : Except (Nat × Nat × Nat) (List Piece) :=
  cut s w write (n / 128 + 3) va n 0

/-! Lines at their home slices (08 R218 R233 R234, 05 R133 R137 R140). -/

/-- Late fault causes. -/
def POISON : Nat := 0x0105
/-- Over-read. -/
def RCOVER : Nat := 0x0201
/-- Form fault. -/
def FORM : Nat := 0x0301

/-- The fault a read of a line meets: poison, tombstone, and ciphertext unless `anyForm` (05 R133 R140, 08 R235). -/
def LineState.readFault (l : LineState) (anyForm : Bool) : Option Nat :=
  if l.poison then some POISON else if l.tomb then some RCOVER else if l.cipher && !anyForm then some FORM else none

/-- What a performed read does to a counted line of a consumable page: the count falls, and at zero the line is dropped as a
tombstone (08 R234). -/
def State.consume (s : State) (pa : Nat) (cn : Bool) : State :=
  let l := s.line pa
  if cn && l.count != 0 then
    if l.count == 1 then
      { (s.setLine pa { l with count := 0, tomb := true }) with
        mem := { (s.setLine pa { l with count := 0, tomb := true }).mem with
          bytes := Memory.zero s.mem.bytes (pa / 128 * 128) 128 } }
    else s.setLine pa { l with count := l.count - 1 }
  else s

/-- The page tag set by the first write through a private descriptor (05 R137); tags from 0x4000 on mark writes through no descriptor. -/
def State.tagPage (s : State) (pa tag : Nat) : State :=
  if 0x3FFE ≤ tag || SMap.get s.mem.pageTag (pa / 0x200000) 0x3FFE != 0x3FFE then s
  else { s with mem := { s.mem with pageTag := SMap.set s.mem.pageTag (pa / 0x200000) tag 0x3FFE } }

/-- A write of some bytes of one line (08 R233, 05 R133): a whole-line write makes it plaintext with count `stamp`, clearing
tombstone and poison; a partial write leaves them and needs neither ciphertext nor tombstone. -/
def State.putLine (s : State) (pa : Nat) (bs : List Byte) (mask : List Bool) (stamp tag : Nat) : State :=
  let whole := bs.length == 128 && mask.all id
  let l := s.line pa
  let l' := if whole then { l with cipher := false, icv := 0, count := stamp, tomb := false, poison := false, tag := tag % 0x4000 }
    else { l with tag := tag % 0x4000 }
  let s := { s with mem := { s.mem with bytes := Memory.writeMask s.mem.bytes pa bs mask } }
  (s.setLine pa l').tagPage pa tag

/-- The fault a store of some bytes of a line meets: a partial write of ciphertext or of a tombstone (05 R133, 08 R235). -/
def LineState.writeFault (l : LineState) (whole : Bool) : Option Nat :=
  if whole then none else if l.tomb then some RCOVER else if l.cipher then some FORM else none

/-- The domain tag of a line: a page that the Skidder loads, or has loaded, holds its lines (05 R137, 08 R240). DEDUCED [log 83]. -/
def State.lineTag (s : State) (pa : Nat) : Nat :=
  match s.segOf pa with
  | some i => if (SMap.get s.mem.segs i {}).st == 1 || (SMap.get s.mem.segs i {}).st == 2 then 0x2005 else (s.line pa).tag
  | none => (s.line pa).tag

/-- A house block writes whole lines: plaintext, with the block's tag (05 R133 R137). -/
def State.houseLines (s : State) (pa block : Nat) (bs : List Byte) : State :=
  (List.range (bs.length / 128)).foldl (fun (s : State) i =>
    s.putLine (pa + 128 * i) (slice bs (128 * i) 128) (List.replicate 128 true) 0 (0x6000 + block)) s

/-- A first write through a private descriptor waits while the page it would be given is dirty (05 R137 R143). DEDUCED [log 82]. -/
def State.pageDirty (s : State) (pa tag : Nat) : Bool :=
  decide (tag < 0x3FFE) && SMap.get s.mem.pageTag (pa / 0x200000) 0x3FFE == 0x3FFE &&
  (let u := SMap.get s.prot.chip.dirty (memUnit pa).1 {}; UnitSetMem u.rest u.but (memUnit pa).2)

/-- A page waits for its zero fill before its first write (05 R143): it carries a zero mark. -/
def State.zeroMarked (s : State) (pa : Nat) : Bool :=
  match placeOf pa with
  | .hbm _ _ => UnitSetMem s.mem.zeroMark.rest s.mem.zeroMark.but (pa / 0x200000)
  | _ => false

/-- A segment's page is not present: accesses wait, or take SEGBAD when it is BAD (08 R239 R241). -/
def State.segState (s : State) (pa : Nat) : Option Nat :=
  (s.segOf pa).map fun i => (SMap.get s.mem.segs i {}).st

/-! Free lists (08 R221). -/

/-- A free-list header is malformed (08 R221): n, c, array offset, last word. -/
def listMalformed (n c off last : Nat) : Bool :=
  decide (c < n) || decide (0x200000 < off + 8 * c) || off % 8 != 0 || last != 0

/-- The header fields of the free list at a physical address (08 R221). -/
def State.listHeader (s : State) (h : Nat) : Nat × Nat × Nat × Nat :=
  (s.physLe h 4, s.physLe (h + 4) 4, s.physLe (h + 8) 4, s.physLe (h + 12) 4)

/-- The physical address of the entry that alpush (op 18) or alpop (op 19) at header `h` touches; none where it touches none (08 R221). -/
def State.listEntry (s : State) (op h : Nat) : Option Nat :=
  let (n, c, off, last) := s.listHeader h
  let base := h / 0x200000 * 0x200000 + off
  if listMalformed n c off last then none
  else if op == 18 then (if n == c then none else some (base + 8 * n))
  else if n == 0 then none else some (base + 8 * (n - 1))

/-- The array of the free list at a header, as its header stands (08 R221). -/
def State.listArray (s : State) (h : Nat) : Nat × Nat :=
  let (_, c, off, _) := s.listHeader h
  (h / 0x200000 * 0x200000 + off, 8 * c)

/-! Requests (09 R245 to R261). -/

/-- A request reads, as a load or a read-modify-write does (09 R257). -/
def Req.reads (r : Req) : Bool := match r.kind with | .load => true | .bank _ _ => true | _ => false
/-- A request writes. -/
def Req.writes (r : Req) : Bool := match r.kind with | .store => true | .bank _ _ => true | .release => true | _ => false
/-- A request on the `ls` or `bu` path. -/
def Req.lsbu (r : Req) : Bool :=
  r.path ≤ 1 && (match r.kind with | .fence _ => false | .pfence _ _ => false | .signal _ _ => false | _ => true)
/-- Parts not yet performed. -/
def Req.open_ (r : Req) : List Part := r.parts.filter fun p => !p.done
/-- The request is performed. -/
def Req.performed (r : Req) : Bool := r.open_.isEmpty

/-- Unperformed `ls` and `bu` accesses of a core before request `id` (09 R252 R257). -/
def State.lsbuBefore (s : State) (c id : Nat) : Bool :=
  s.mem.net.any fun r => r.core == c && r.id < id && r.lsbu && !r.performed

/-- Accesses of path `p` (bit number of R247) of core `c`, issued before request `id`, operand passes and drains before issued cycle
`cyc`, that are not all performed; for `fb` below scope .sys, whose packets have not left (09 R258). -/
def State.pathBusy (s : State) (c p id cyc scope : Nat) : Bool :=
  let x := (s.core c).ctx
  match p with
  | 0 | 1 => s.mem.net.any fun r => r.core == c && r.path == p && r.id < id && r.lsbu && !r.performed
  | 2 => x.copyq.any fun o => o.seq < id
  | 3 => (x.streamq.any fun o => o.seq < id) || x.matrix.run.any (fun r => r.2.any fun q => q.since < cyc) ||
    x.matrix.feed.any (fun r => r.2.any fun q => q.since < cyc && q.ahead.length < q.left) ||
    (s.core c).th.inflight.any fun l => l.slotOf.isSome && decide (l.due < cyc + 8)
  | 4 => x.cipherq.any fun o => o.seq < id
  | _ => x.fabricq.any fun o => o.seq < id && (scope == 2 || !o.left_)

/-- A path set has an access before request `id` that is not performed. -/
def State.pathsBusy (s : State) (c set id cyc scope : Nat) : Bool :=
  (List.range 6).any fun p => bitOf set p && s.pathBusy c p id cyc scope

/-- An earlier access that a fence of a kind before request `id` orders is not performed (09 R257). -/
def State.fenceOpen (s : State) (c kind id : Nat) : Bool :=
  s.mem.net.any fun r => r.core == c && r.id < id && r.lsbu && !r.performed && (kind != 1 || r.reads)

/-- A waiting fence or pfence before request `id` holds an access of path `p` of core `c` back (09 R257 R258). -/
def State.heldBack (s : State) (c p id : Nat) (writes : Bool) : Bool :=
  s.mem.net.any fun f => f.core == c && f.id < id &&
    (match f.kind with
      | .fence k => (k != 2 || writes) && p ≤ 1 && s.fenceOpen c k f.id
      | .pfence b a => bitOf a p && s.pathsBusy c b f.id (f.stamp + 1) f.scope
      | _ => false)

/-- Byte ranges overlap. -/
def overlap (a n b m : Nat) : Bool := decide (a < b + m ∧ b < a + n)

/-- An earlier request `e` of the same core holds part `p` of request `r` back (09 R248 R252 R253). -/
def orderedBefore (e r : Req) (p : Part) : Bool :=
  let samePath := e.path == r.path
  let lsbu := e.lsbu && r.lsbu
  (samePath && p.ok == 0 && e.open_.any fun q => q.ok == 0) ||
  ((samePath || lsbu) && e.open_.any fun q => overlap q.addr q.len p.addr p.len) ||
  (lsbu && e.acq && e.open_.any fun q => q.ok != 2) ||
  (lsbu && r.acq && p.ok != 2 && e.pend.isSome && (match e.kind with | .bank _ _ => true | _ => false) && !e.open_.isEmpty) ||
  (lsbu && r.rel && p.ok != 2 && e.open_.any fun q => q.ok != 2)

/-- A list operation of one core and another access of its `ls` and `bu` paths meet in the list's array, where the entry is: the later
waits for the earlier (09 R248 R261). -/
def State.listMeets (s : State) (e r : Req) (p : Part) : Bool :=
  let array (x : Req) : Option (Nat × Nat) := match x.kind with
    | .bank 18 _ => x.parts.head?.map fun q => s.listArray q.addr
    | .bank 19 _ => x.parts.head?.map fun q => s.listArray q.addr
    | _ => none
  let hits (a : Option (Nat × Nat)) (b n : Nat) : Bool := match a with | some (x, k) => overlap x k b n | none => false
  e.lsbu && r.lsbu && !e.performed &&
    (hits (array e) p.addr p.len || (e.open_.any fun q => hits (array r) q.addr q.len) ||
      (match array e, array r with | some (x, k), some (y, m) => overlap x k y m | _, _ => false))

/-- A line has a home slice, at which it can be performed: a device window's access goes elsewhere (08 R217). DESIGN CHOICE [log 37]. -/
def State.homed (s : State) (pa : Nat) : Bool :=
  match placeOf pa with
  | .hbm _ _ => (s.homeBank pa).isSome
  | _ => true

/-- Part `i` of request `r` may be performed now, as far as order goes (09 R248 to R258). -/
def State.mayPerform (s : State) (r : Req) (i : Nat) : Bool :=
  match r.parts[i]? with
  | none => false
  | some p =>
    !p.done && s.homed p.addr && !(s.heldBack r.core r.path r.id r.writes) &&
    !(s.mem.net.any fun e => e.core == r.core && e.id < r.id && (orderedBefore e r p || s.listMeets e r p)) &&
    !(p.ok == 0 && (r.parts.take i).any fun q => !q.done && q.ok == 0)

/-- A request by identifier. -/
def State.req (s : State) (id : Nat) : Option Req := s.mem.net.find? fun r => r.id == id

/-- A request replaced. -/
def State.setReq (s : State) (r : Req) : State :=
  { s with mem := { s.mem with net := s.mem.net.map fun e => if e.id == r.id then r else e } }

/-- A request gone. -/
def State.dropReq (s : State) (id : Nat) : State :=
  { s with mem := { s.mem with net := s.mem.net.filter fun e => e.id != id } }

/-- Send a request: it takes the next identifier. DESIGN CHOICE [log 3]. -/
def State.send (s : State) (r : Req) : State :=
  { s with mem := { s.mem with net := s.mem.net ++ [{ r with id := s.mem.nextReq }], nextReq := s.mem.nextReq + 1 } }

/-- The scalar data cache of a core is emptied (09 R250). -/
def State.invalidate (s : State) (c : Nat) : State := s.modCore c fun k => { k with dcache := [] }

/-- A fence or pfence that waits no longer. -/
def State.fenceOver (s : State) (f : Req) : Bool :=
  decide (f.core < 600) && (match f.kind with
  | .fence k => !(s.fenceOpen f.core k f.id)
  | .pfence b _ => !(s.pathsBusy f.core b f.id (f.stamp + 1) f.scope)
  | _ => false)

/-- Fences issued by a launch on core `a` hold its accesses on core `b`: they go with a context that is saved (`b` is 600 and up) and
come with it where it is restored (09 R260 R265). -/
def State.moveFences (s : State) (n a b : Nat) : State :=
  { s with mem := { s.mem with net := s.mem.net.map fun f =>
      if f.core == a && f.launch == n && (match f.kind with | .fence _ => true | .pfence _ _ => true | _ => false) then { f with core := b } else f } }

/-- Fences whose condition holds leave the network; those that hold later loads of the core empty its cache (09 R250 R257 R258). -/
def State.cleanNet (s : State) : State :=
  let done := s.mem.net.filter s.fenceOver
  let s' := { s with mem := { s.mem with net := s.mem.net.filter fun f => !(s.fenceOver f) } }
  done.foldl (fun s f => match f.kind with
    | .fence k => if k != 2 then s.invalidate f.core else s
    | .pfence _ a => if bitOf a 0 then s.invalidate f.core else s
    | _ => s) s'

/-! Bank-unit operations (08 R220 to R222, 16 R462 to R465). -/

/-- The new value of a read-modify-write at width w (16 R462): W op number, type code, old value, operand, expected value. -/
def atomicNew (op ty old v expect : Nat) : Nat :=
  let w := if ty == 0 then 32 else 8 * tyBytes ty
  let m := 2 ^ w
  let lt (a b : Nat) : Bool := if ty % 2 == 0 then decide (sext a w < sext b w) else decide (a < b)
  match op with
  | 8 => (old + v) % m
  | 10 => old &&& v
  | 11 => old ||| v
  | 12 => old ^^^ v
  | 13 => if ty == 0 then rneFP32 (Num.pickMax false ((ffmt 0).decode old) ((ffmt 0).decode v)).1 else if lt v old then v else old
  | 14 => if ty == 0 then rneFP32 (Num.pickMax true ((ffmt 0).decode old) ((ffmt 0).decode v)).1 else if lt old v then v else old
  | 15 => v
  | 16 => if old == expect then v else old
  | _ => old - 1

/-- Bytes of a bank operation's operand (16 R450). -/
def bankBytes (op ty : Nat) : Nat :=
  if op == 18 || op == 19 then 16 else if op == 20 then 256 else if ty == 0 then 4 else tyBytes ty

/-- What a list operation's entry line does to it: alpush writes some of its bytes, alpop reads them; the cause, and the entry's address in
the header's page (05 R133 R140, 08 R220 R221 R235). -/
def State.entryFault (s : State) (op h : Nat) : Option (Nat × Nat) :=
  if op != 18 && op != 19 then none
  else match s.listEntry op h with
    | some a => (if op == 18 then (s.line a).writeFault false else (s.line a).readFault false).map fun c => (c, a % 0x200000)
    | none => none

/-- A bank unit's write inside its bank: bytes and line tags (08 R221, 05 R137). -/
def State.bankWrite (s : State) (pa : Nat) (bs : List Byte) (tag : Nat) : State :=
  let s := s.setPhys pa bs
  let l := s.line pa
  (s.setLine pa { l with tag := tag % 0x4000 }).tagPage pa tag

/-- alpush of `v` at header `h` (08 R221, 16 R464): the returned value and whether the list became non-empty. -/
def listPush (s : State) (h v tag : Nat) : State × Nat × Bool :=
  let (n, c, off, last) := s.listHeader h
  if 2 ^ 64 - 2 ≤ v || listMalformed n c off last then (s, 2 ^ 64 - 2, false)
  else if n == c then (s, 2 ^ 64 - 1, false)
  else
    let entry := (s.listEntry 18 h).getD 0
    let s := (s.bankWrite entry (natLe 8 v) tag).bankWrite h (natLe 4 (n + 1)) tag
    (s, n, n == 0)

/-- alpop at header `h` (08 R221). -/
def listPop (s : State) (h tag : Nat) : State × Nat :=
  let (n, c, off, last) := s.listHeader h
  if listMalformed n c off last then (s, 2 ^ 64 - 2)
  else if n == 0 then (s, 2 ^ 64 - 1)
  else
    let v := s.physLe ((s.listEntry 19 h).getD 0) 8
    (s.bankWrite h (natLe 4 (n - 1)) tag, v)

/-- adraw of pair `p` to leaf `k` of the cell at `a` under draw key `key` (08 R222): the status; the fold when it completes. -/
def drawCell (s : State) (a p k : Nat) (key : BitVec 128) (tag : Nat) : State × Nat :=
  let l1 := a + 128
  let present := s.physLe (l1 + 8) 2
  let n := s.physLe (l1 + 10) 1
  let flags := s.physLe (l1 + 11) 1
  if n == 0 || 16 < n || s.physLe (l1 + 22) 106 != 0 || 4 ≤ flags || n ≤ k || bitOf present k || bitOf flags 0 then (s, 2)
  else
    let s := s.bankWrite (a + 8 * k) (natLe 8 p) tag
    let present := present + 2 ^ k
    let s := s.bankWrite (l1 + 8) (natLe 2 present) tag
    if present % 2 ^ n != 2 ^ n - 1 then (s, 0)
    else
      let w0 := s.physLe (l1 + 12) 4
      let w1 := s.physLe (l1 + 16) 4
      let pos := s.physLe (l1 + 20) 2
      let leaves := (List.range n).map fun i => some (bitsPair (s.physLe (a + 8 * i) 8))
      let (root, bad) := drawTree (fun j k => coin key w0 w1 (counter2 pos 2 (0x30 + j)) k) leaves
      let s := s.bankWrite l1 (natLe 8 (pairBits root)) tag
      (s.bankWrite (l1 + 11) (natLe 1 (flags + 1 + (if bad && !(bitOf flags 1) then 2 else 0))) tag, 1)

/-- aaddf of active lanes on the bytes of one line (16 R463): format 0 or 1 by the type code, 4- or 2-byte lanes. -/
def addLanes (ty : Nat) (old new : List Byte) (mask : List Bool) : List Byte :=
  let w := if ty == 0 then 4 else 2
  (List.range (old.length / w)).flatMap fun i =>
    let a := leAt old (w * i) w
    let b := leAt new (w * i) w
    if mask.getD (w * i) false then
      natLe w ((ffmt ty).round rne (Num.add false ((ffmt ty).decode a) ((ffmt ty).decode b)).1 0).1
    else natLe w a

/-! Scratchpad (08 R225 to R227). -/

/-- Physical scratchpad offset of a launch offset on a core; none where the bank is not mapped or not owned (07 R194 R196). -/
def CoreCtx.spadPhys (x : CoreCtx) (off : Nat) : Option Nat :=
  let b := off / 0x4000
  if x.own.contains b then (x.banks[b]?).map fun p => p * 0x4000 + off % 0x4000 else none

/-- Bytes of scratchpad by physical offset. -/
def CoreSt.spadRead (k : CoreSt) (p n : Nat) : List Byte := Memory.readN k.spad p n

/-- The granules of a physical scratchpad range. DEDUCED [log 38]. -/
def granules (p n : Nat) : List Nat := (List.range ((p + n + 15) / 16 - p / 16)).map (p / 16 + ·)

end Sys2Proof.Machine
end

