-- ==== Sys2Proof/Machine/Buffers.lean ====
section
/-! DEFINITION. Machine/Buffers.lean: circular buffers: set-up words, slots and the events that change them (08 R228 to R232,
17 R484 to R487 R508). -/
namespace Sys2Proof.Machine

/-! The set-up word (08 R228). -/

/-- V. -/
def hV (w : Word) : Bool := bitOf w.toNat 31
/-- CNT. -/
def hCnt (w : Word) : Bool := bitOf w.toNat 30
/-- Number of slots. -/
def hSlots (w : Word) : Nat := fld w.toNat 48 8 + 1
/-- Slot size in bytes. -/
def hSize (w : Word) : Nat := (fld w.toNat 40 8 + 1) * 256
/-- Launch scratchpad offset of the ring. -/
def hBase (w : Word) : Nat := fld w.toNat 0 13 * 256
/-- The reserved bits of a set-up word are zero. -/
def hReservedOk (w : Word) : Bool := fld w.toNat 56 8 == 0 && fld w.toNat 32 8 == 0 && fld w.toNat 13 17 == 0

/-- The set-up word of handle `h`. DESIGN CHOICE [log 42]. -/
def CoreCtx.setupOf (x : CoreCtx) (h : Nat) : Word := SMap.get x.setup h 0
/-- The dynamic state of handle `h`. -/
def CoreCtx.handle (x : CoreCtx) (h : Nat) : Handle := SMap.get x.handles h {}
/-- That state replaced. -/
def CoreCtx.setHandle (x : CoreCtx) (h : Nat) (d : Handle) : CoreCtx := { x with handles := SMap.set x.handles h d {} }
/-- Launch scratchpad offset of a slot (08 R228). -/
def CoreCtx.slotOff (x : CoreCtx) (h slot : Nat) : Nat := hBase (x.setupOf h) + slot * hSize (x.setupOf h)

/-- A form names a handle it may use: below HND and configured (17 R508). -/
def State.handleOk (s : State) (h : Nat) : Bool := h < s.launch.record.hnd && hV (s.ctx.setupOf h)

/-! Slots (08 R230). -/

/-- State of a slot: 0 FREE, 1 FILLING, 2 FULL, 3 DRAINING. -/
def Handle.state (d : Handle) (i : Nat) : Nat := SMap.get d.st i 0
/-- Count of a slot. -/
def Handle.count (d : Handle) (i : Nat) : Nat := SMap.get d.cnt i 0
/-- The producer has advanced past the slot and its writes are not all made (17 R486). DEDUCED [log 43]. -/
def Handle.leaving (d : Handle) (i : Nat) : Bool := d.filling.any fun f => f.1 == i
/-- State and count of a slot set. -/
def Handle.put (d : Handle) (i st cnt : Nat) : Handle := { d with st := SMap.set d.st i st 0, cnt := SMap.set d.cnt i cnt 0 }

/-- A close takes effect once every claimed slot has passed its cbadv (08 R231). -/
def Handle.settleClose (d : Handle) : Handle :=
  if d.closing && !(d.st.any fun p => p.2 == 1 && !(d.leaving p.1)) then { d with closed := true, closing := false } else d

/-- The producer may write slot `i`: FREE or FILLING, and not already advanced past. DEDUCED [log 43]. -/
def Handle.writable (d : Handle) (i : Nat) : Bool := d.state i == 0 || (d.state i == 1 && !(d.leaving i))

/-- The producer claims slot `i`: a FREE slot becomes FILLING (08 R230). -/
def Handle.claim (d : Handle) (i : Nat) : Handle := if d.state i == 0 then d.put i 1 0 else d

/-- The producer's advance at PP: the slot becomes FULL with its count, now or once the writes named have been made
(08 R230, 17 R486). -/
def Handle.advance (d : Handle) (slots n : Nat) (reqs ops : List Nat) (now : Bool) : Handle :=
  let i := d.pp
  let d := d.put i (if now then 2 else 1) (if now then n else 0)
  let d := { d with pp := (i + 1) % slots, filling := if now then d.filling else d.filling ++ [(i, n, reqs, ops)] }
  d.settleClose

/-- What a consuming read or claim at CP meets (08 R231): `some true` to proceed, `some false` an over-read, `none` to wait. -/
def Handle.atCp (d : Handle) : Option Bool :=
  match d.state d.cp with
  | 2 | 3 => some true
  | 0 => if d.closed then some false else none
  | _ => none

/-- A consumer claim at CP: FULL becomes DRAINING (08 R230). -/
def Handle.drainAt (d : Handle) (i : Nat) : Handle := if d.state i == 2 then { d with st := SMap.set d.st i 3 0 } else d

/-- The end of one consuming read of slot `i`: a non-zero count falls, and at zero the slot is FREE and CP advances (08 R230). -/
def Handle.consumed (d : Handle) (slots i : Nat) : Handle :=
  let d := d.drainAt i
  let n := d.count i
  if n == 0 then d
  else if n == 1 then
    let d := d.put i 0 0
    if d.cp == i then { d with cp := (i + 1) % slots } else d
  else d.put i 3 (n - 1)

/-- The consumer's advance at CP: the slot is FREE; whether its count was not 0, an under-read (08 R230 R232). DEDUCED [log 43]. -/
def Handle.release (d : Handle) (slots : Nat) : Handle × Bool :=
  let i := d.cp
  ({ (d.put i 0 0) with cp := (i + 1) % slots }, d.count i != 0)

/-- Handle `h` of the core whose syllable runs, changed. -/
def State.modHandle (s : State) (h : Nat) (g : Handle → Handle) : State :=
  s.modCtx fun x => x.setHandle h (g (x.handle h))

/-- An under-read: the launch's fault count rises (08 R232). -/
def State.underRead (s : State) (n : Nat) : State := s.modLaunch n fun l => { l with faults := (l.faults + 1) % 2 ^ 32 }

/-! Engine operations that name a handle (17 R484). -/

/-- A fault as the engine that raised it holds it, whenever it was reported. -/
def TrapInfo.held (t : TrapInfo) : TrapInfo := { t with at_ := 0 }

/-- A copy operation names a handle: a gather, a scatter, or TH or FH. -/
def CopyOp.names (o : CopyOp) (h : Nat) : Bool :=
  o.f == h && (o.op == 4 || o.op == 5 || (o.op == 1 && o.mw.toNat % 4 != 0))

/-- It writes the slots of a handle. -/
def CopyOp.produces (o : CopyOp) (h : Nat) : Bool := o.f == h && (o.op == 4 || (o.op == 1 && o.mw.toNat % 2 == 1))

/-- Byte ranges of the scratchpad window that an operation at address `a` of `n` bytes touches overlap a launch range. -/
def inWindow (a n off len : Nat) : Bool := overlap a n (0x7FFE00000000 + off) len

/-- Bytes at a virtual address as they stand, for an engine of core `c`; none where they do not translate to memory or scratchpad. -/
def State.peek (s : State) (w : Who) (c va n : Nat) : Option (List Byte) :=
  match cutAccess s w false va n with
  | .error _ => none
  | .ok ps =>
    ps.foldl (fun (acc : Option (List Byte)) p =>
      match acc, p.x.dest with
      | some bs, .mem pa => some (bs ++ s.phys pa p.len)
      | some bs, .spad off => ((s.core c).ctx.spadPhys off).map fun q => bs ++ (s.core c).spadRead q p.len
      | _, _ => none) (some [])

/-- The destination ranges of a scatter, from its table as it stands (17 R477). -/
def State.scatterRanges (s : State) (w : Who) (c : Nat) (o : CopyOp) : List (Nat × Nat) :=
  (List.range o.n).filterMap fun k => (s.peek w c (o.a + 16 * k) 16).map fun e => ((o.b + leAt e 0 8) % 2 ^ 64, leAt e 8 4)

/-- Engine operations of core `c` that write slot `i` of handle `h`, by identifier (17 R486): they target the handle, or their
destination in the scratchpad window overlaps the slot. -/
def State.writers (s : State) (w : Who) (c h i : Nat) : List Nat :=
  let x := (s.core c).ctx
  let off := x.slotOff h i
  let n := hSize (x.setupOf h)
  let images (o : CopyOp) : Nat := if o.mw.getLsbD 19 then 66 * ((o.n + 255) / 256) else 0
  ((x.copyq.filter fun o => (o.produces h && o.slot == some i) ||
      (o.op == 1 && o.mw.toNat % 2 == 0 && inWindow o.a (o.n + images o) off n) ||
      (o.op == 5 && (s.scatterRanges w c o).any fun r => inWindow r.1 r.2 off n)).map (·.id)) ++
  ((x.streamq.filter fun o => o.f == h && o.slot == some i).map (·.id)) ++
  ((x.cipherq.filter fun o => (o.op == 2 && o.buf && o.f == h && o.slot == some i) ||
      (o.op == 2 && !o.buf && inWindow o.dst o.len off n) || (o.op == 3 && inWindow o.dst 32 off n)).map (·.id))

/-- A drain into slot `i` of handle `h` is still on its way (15 R443). -/
def Thread.draining (th : Thread) (h i : Nat) : Bool := th.inflight.any fun l => l.slotOf == some (h, i)

/-- The writes that hold slot `i` of handle `h` back have all been made. -/
def State.slotDone (s : State) (c h : Nat) (f : Nat × Nat × List Nat × List Nat) : Bool :=
  let k := s.core c
  let ops := (k.ctx.copyq.map (·.id)) ++ (k.ctx.streamq.map (·.id)) ++ (k.ctx.cipherq.map (·.id))
  !(k.th.draining h f.1) && !(f.2.2.1.any fun r => s.mem.net.any fun e => e.id == r) && !(f.2.2.2.any fun o => ops.contains o)

/-- The slots of a handle whose writes are all made become FULL (17 R486, 08 R230). -/
def State.fillSlots (s : State) (c h : Nat) : State :=
  s.modCore c fun k =>
    let d := k.ctx.handle h
    let ready := d.filling.filter fun f => s.slotDone c h f
    let d' := ready.foldl (fun (d : Handle) f => d.put f.1 2 f.2.1) { d with filling := d.filling.filter fun f => !(s.slotDone c h f) }
    { k with ctx := k.ctx.setHandle h d'.settleClose }

/-- A slot of some handle of core `c` can become FULL: the handle. -/
def State.fillable (s : State) (c : Nat) : Option Nat :=
  ((s.core c).ctx.handles.find? fun p => p.2.filling.any fun f => s.slotDone c p.1 f).map (·.1)

/-- An over-read of a buffer slot by a syllable: RCOVER, precise; the manual gives no address, so TVA is a free value
(08 R231, 11 R310). DESIGN CHOICE [log 35]. -/
def overRead (path : Nat) (s : State) : Res :=
  .next (trapAt 0x0201 0 (Config.overReadTva s.free) path s).draw

/-- A held scratchpad write's request identifiers on the core whose syllable runs, inside a launch range (16 R467). -/
def State.heldWrites (s : State) : List Nat :=
  (s.mem.net.filter fun r => r.core == s.cur && r.parts.any fun p => decide (2 ^ 50 ≤ p.addr)).map (·.id)

end Sys2Proof.Machine
end

