-- ==== Sys2Proof/Machine/Packets.lean ====
section
/-! DEFINITION. Machine/Packets.lean: Smivy's packets, flits, ports and routes: what the fabric engine, the Skidder and the ports share
(03 R68 to R74, R87 R89). -/
namespace Sys2Proof.Machine

/-! Packets (03 R70). -/

/-- Flits of a packet with `n` bytes of payload. -/
def flitsOf (n : Nat) : Nat := if n ≤ 224 then 1 else 1 + (n - 224 + 255) / 256

/-- The virtual channel of a kind. -/
def kindVc (k : Nat) : Nat :=
  match k with
  | 1 => 1 | 2 => 1 | 3 => 2 | 4 => 2 | 5 => 1 | 6 => 2 | 7 => 3 | _ => 0

/-- The virtual channel of a packet. -/
def Pk.vc (p : Pk) : Nat := kindVc p.kind

/-- Flits of a packet. -/
def Pk.flits (p : Pk) : Nat := flitsOf p.data.length

/-- A packet's bytes: header and payload, in whole flits. -/
def Pk.bytes (p : Pk) : List Byte :=
  padTo (natLe 1 p.kind ++ natLe 1 (p.flits - 1 + 16 * p.vc) ++ natLe 1 p.part ++ natLe 1 p.status ++ natLe 2 p.dpkg ++ natLe 2 p.spkg ++
    natLe 2 p.dmcx ++ natLe 2 p.smcx ++ natLe 4 p.opid ++ p.karg ++ p.data) (256 * p.flits)

/-- KARG: header bytes `lo` to `lo + n - 1`, 16 ≤ lo. -/
def Pk.arg (p : Pk) (lo n : Nat) : Nat := leAt p.karg (lo - 16) n

/-- A KARG field of `n` bytes at header byte `lo`. -/
def Pk.setArg (p : Pk) (lo n x : Nat) : Pk := { p with karg := splice p.karg (lo - 16) (natLe n x) }

/-- KARG bytes that a kind does not use, as ranges of header bytes (03 R70). -/
def unusedArgs (k : Nat) : List (Nat × Nat) :=
  match k with
  | 3 => [(28, 4)] | 4 => [(16, 16)] | 5 => [(20, 4)] | 6 => [(20, 12)] | 7 => [(22, 2)] | 8 => [(20, 12)] | _ => []

/-- A packet read from its bytes: none for a bad packet (03 R70 R83). DEDUCED [log 76]. -/
def readPk (bs : List Byte) : Option Pk :=
  let k := leAt bs 0 1
  let b := leAt bs 1 1
  let fl := fld b 0 4
  let p : Pk :=
    { kind := k, part := fld (leAt bs 2 1) 0 5, status := leAt bs 3 1, dpkg := fld (leAt bs 4 2) 0 11, spkg := fld (leAt bs 6 2) 0 11
      dmcx := fld (leAt bs 8 2) 0 13, smcx := fld (leAt bs 10 2) 0 13, opid := leAt bs 12 4, karg := padTo (slice bs 16 16) 16
      data := padTo (slice bs 32 (min 2048 (224 + 256 * fl))) (min 2048 (224 + 256 * fl)) }
  if k == 0 || 0x0A < k || fld b 4 2 != kindVc k || 8 < fl || fld b 6 2 != 0 || fld (leAt bs 2 1) 5 3 != 0 || fld (leAt bs 4 2) 11 5 != 0 ||
      fld (leAt bs 6 2) 11 5 != 0 || fld (leAt bs 8 2) 13 3 != 0 || fld (leAt bs 10 2) 13 3 != 0 ||
      (unusedArgs k).any (fun r => p.arg r.1 r.2 != 0) ||
      (k == 0x0A && (p.arg 16 1 == 0 || 3 < p.arg 16 1 || fld (p.arg 18 2) 11 5 != 0 || fld (p.arg 20 2) 13 3 != 0)) then none
  else some p

/-! Ports and routes (03 R71). -/

/-- Smivy port `n`. -/
def State.slp (s : State) (n : Nat) : SlPort := SMap.get s.sl.ports n {}

/-- Smivy port `n` changed. -/
def State.modSlp (s : State) (n : Nat) (g : SlPort → SlPort) : State :=
  { s with sl := { s.sl with ports := SMap.upd s.sl.ports n {} g } }

/-- Port counter `k` of port `n` rises by `x` (03 R89). -/
def State.countSl (s : State) (n k x : Nat) : State :=
  { s with sl := { s.sl with ctr := SMap.upd s.sl.ctr (32 * n + k) 0 fun c => sat48 c x } }

/-- The port on which a packet of partition `part` leaves for package `d`; none for an empty mask. DEDUCED [log 76]. -/
def State.routePort (s : State) (d part : Nat) : Option Nat :=
  let m := SMap.get s.sl.route d 0
  let ps := (List.range 16).filter fun n => m.getLsbD n
  if ps.isEmpty then none else ps[part % ps.length]?

/-- A packet put at the end of a port's send queue. -/
def State.queueAt (s : State) (n : Nat) (p : Pk) : State := s.modSlp n fun x => { x with sendq := x.sendq ++ [{ pk := p }] }

/-- A packet leaves by its route; none when it is dropped, which is counted at the chosen port, or at port 0 for an empty mask. -/
def State.routed (s : State) (p : Pk) : Option State × State :=
  match s.routePort p.dpkg p.part with
  | none => (none, s.countSl 0 5 1)
  | some n => if (s.slp n).link then (some (s.queueAt n p), s) else (none, s.countSl n 5 1)

/-- A request, whose drop its sender learns of. -/
def Pk.isRequest (p : Pk) : Bool := p.kind == 1 || p.kind == 2 || p.kind == 5 || p.kind == 7

/-! Flits on a link (03 R68 R69 R74). -/

/-- Flits of port `n`'s receive buffer that share `k` takes: what has arrived and has neither been sent on nor used up (03 R74). -/
def State.buffered (s : State) (n k : Nat) : Nat :=
  let of (p : Pk) : Nat := if p.inPort == n then (p.shares.filter (· == k)).length else 0
  (s.sl.rx.map of).sum + (s.sl.ports.flatMap fun e => e.2.sendq.map fun q => of q.pk).sum +
    (s.mem.net.map fun r => match r.kind with | .arriving p _ => of p | _ => 0).sum

/-- The credit that port `n`'s next flit returns: the first share with flits freed and not yet returned, and how many (03 R68 R74). -/
def State.creditDue (s : State) (n : Nat) : Nat × Nat :=
  match (s.slp n).got.find? fun e => decide (s.buffered n e.1 < e.2) with
  | some e => (e.1, e.2 - s.buffered n e.1)
  | none => (0, 0)

/-- A flit's 8-byte trailer: sequence number in [11:0], a credit return as share in [19:12] and flits in [31:20], and in [63:32] the CRC-32C
over the flit and what stands before it in the trailer (03 R68). DESIGN CHOICE [log 101]. -/
def flitTrailer (flit : List Byte) (seq share credit : Nat) : List Byte :=
  let t := natLe 4 (seq % 2 ^ 12 + share % 2 ^ 8 * 2 ^ 12 + credit % 2 ^ 12 * 2 ^ 20)
  t ++ natLe 4 (crc32c (flit ++ t)).toNat

/-- A flit with its trailer. -/
def State.wholeFlit (s : State) (n : Nat) (flit : List Byte) : List Byte :=
  flit ++ flitTrailer flit (s.slp n).txSeq (s.creditDue n).1 (s.creditDue n).2

/-- A new flit leaves by port `n`: numbered, kept in the retry buffer of 512 flits, with the credit that it returns (03 R68 R69 R74). -/
def State.sendFlit (s : State) (n : Nat) (flit : List Byte) : State :=
  let due := s.creditDue n
  let bs := s.wholeFlit n flit
  ((s.countSl n 0 1).modSlp n fun x => { x with
    txSeq := (x.txSeq + 1) % 2 ^ 12
    retry := (x.retry ++ [(x.txSeq, bs)]).drop (x.retry.length + 1 - 512)
    got := if due.2 == 0 then x.got else SMap.upd x.got due.1 0 fun k => k - due.2 }).emit (.flit n bs)

/-- A flit of the retry buffer leaves again, as it was (03 R69). -/
def State.resendFlit (s : State) (n : Nat) (bs : List Byte) : State :=
  ((s.countSl n 0 1).modSlp n fun x => { x with resend := x.resend.drop 1 }).emit (.flit n bs)

/-! Shares of a receive buffer (03 R73 R74). -/

/-- The partition that owns slot `k` of a wheel (03 R87). -/
def wheelOwner (wheel : SMap Nat) (k : Nat) : Option Nat :=
  let b := SMap.get wheel k 0
  if bitOf b 7 && k != 0 then some (b % 32) else none

/-- Slots of the wheel in force that partition `p` owns. -/
def SlPort.owned (x : SlPort) (p : Nat) : Nat := (x.wheel.filter fun e => bitOf e.2 7 && e.2 % 32 == p).length

/-- Flits of the best-effort pool with an assignment of the wheel. -/
def poolFlits (wheel : SMap Nat) : Nat := 1024 - 64 - 12 * (wheel.filter fun e => bitOf e.2 7).length

/-- The share that an arriving flit takes in this port's receive buffer while `got` flits of each are used: its own first, then the pool; the
house has its own only (03 R74). DEDUCED [log 76]. -/
def SlPort.landing (x : SlPort) (got : SMap Nat) (p : Pk) : Nat :=
  if p.vc == 0 then 128
  else if SMap.get got (4 * p.part + p.vc) 0 < 4 * x.owned p.part then 4 * p.part + p.vc
  else 129

/-- The flits of an arriving packet take their shares one by one (03 R74). -/
def SlPort.land (x : SlPort) (n : Nat) (p : Pk) : SlPort × Pk :=
  (List.range p.flits).foldl (fun (a : SlPort × Pk) _ =>
    let k := x.landing a.1.got p
    ({ a.1 with got := SMap.upd a.1.got k 0 (· + 1) }, { a.2 with shares := a.2.shares ++ [k] })) (x, { p with inPort := n })

end Sys2Proof.Machine
end

