-- ==== Sys2Proof/Machine/Access.lean ====
section
/-! DEFINITION. Machine/Access.lean: what every access of an engine or at a home slice shares: waiting for segments and zero fills,
late faults, filling the scalar data cache, and the engines' own reads and writes (05 R143, 08 R224 R239 R240, 11 R308 R320). -/
namespace Sys2Proof.Machine

/-! Segments and zero marks (08 R239 to R241, 05 R143). -/

/-- A segment's table entry. -/
def State.seg (s : State) (i : Nat) : Segment := SMap.get s.mem.segs i {}

/-- Segments LOADING. -/
def State.segsLoading (s : State) : Nat := (s.mem.segs.filter fun e => e.2.st == 1).length

/-- A segment's entry as the hardware keeps it: its STATE stands in the house's table too (08 R238). -/
def State.setSeg (s : State) (i : Nat) (e : Segment) : State :=
  let s := { s with mem := { s.mem with segs := SMap.set s.mem.segs i e {} } }
  match s.mem.segBase with
  | some b => s.setPhys (b + 64 * i + 40) (natLe 1 e.st)
  | none => s

/-- The NVMe Read of segment `i`: two MiB from its first LBA, into its page by a list of 4 KiB pages; the I/O queue pair is the model's
choice (08 R238 R242). DESIGN CHOICE [log 103]. -/
def Segment.flashRead (e : Segment) (i : Nat) : NvmeRead :=
  let port := e.flash / 2 ^ 63 % 2
  { seg := i, port := port, queue := 1 + i % 8, slba := e.flash % 2 ^ 63
    blocks := 0x200000 / (if Config.nvmeLarge port then 4096 else 512), prps := (List.range 512).map fun k => e.page + 4096 * k }

/-- The READ that fetches a segment's content from its peer (08 R240, 03 R70). DESIGN CHOICE [log 103]. -/
def Segment.peerRead (e : Segment) (pkg : Nat) (at_ : Nat × Nat) : Pk :=
  (({ kind := 2, dpkg := e.peer, spkg := pkg, dmcx := at_.1 % 8192, smcx := at_.2 % 8192, opid := e.opid } : Pk).setArg 16 8 e.offset).setArg
    24 4 0x200000

/-- Segment `i` begins to load from its peer, by a READ in the house's slot, or from flash, by an NVMe Read (08 R240 R242). A READ without
a route counts as one that failed. DESIGN CHOICE [log 103]. -/
def State.segLoad (s : State) (i : Nat) (fromPeer retried : Bool) : State :=
  let e : Segment := { s.seg i with st := 1, retried := retried, fromPeer := fromPeer, got := 0, failed := false }
  let s := { s with mem := { s.mem with nvme := s.mem.nvme.filter fun r => r.seg != i } }
  if fromPeer then
    let x := Config.segmentRead s.free
    let e := { e with opid := s.sl.nextOpid, offset := x.2.2 % 2 ^ 63 }
    let s := { s.draw with sl := { s.sl with nextOpid := (s.sl.nextOpid + 1) % 2 ^ 32 } }
    match s.routePort e.peer 0 with
    | some n =>
      if (s.slp n).link then
        (s.setSeg i e).modSlp n fun y => { y with sendq := y.sendq ++ [{ pk := e.peerRead s.sl.pkg (x.1, x.2.1), house := true }] }
      else (s.setSeg i { e with failed := true }).countSl n 5 1
    | none => (s.setSeg i { e with failed := true }).countSl 0 5 1
  else
    let r := e.flashRead i
    let s := s.setSeg i e
    ({ s with mem := { s.mem with nvme := s.mem.nvme ++ [r] } }).emit (.nvme r)

/-- A segment begins to load: LOADING, from flash first where both sources are set (08 R240). DEDUCED [log 83]. -/
def State.segStart (s : State) (i : Nat) : State := s.segLoad i (!(bitOf (s.seg i).sources 0)) false

/-- An answer to a segment's READ: its data goes into the page that loads; an error ends the load (08 R240 R241). -/
def State.segmentData (s : State) (p : Pk) : State :=
  match s.mem.segs.find? fun e => e.2.st == 1 && e.2.fromPeer && e.2.opid == p.opid && (e.2.peer == p.spkg || p.spkg == s.sl.pkg) with
  | none => s
  | some (i, e) =>
    let at_ := p.arg 16 8 - e.offset
    let bs := p.data.take (p.arg 24 4)
    if p.kind != 3 || p.status != 0 || 0x200000 < at_ + bs.length then s.setSeg i { e with failed := true }
    else (s.setSeg i { e with got := e.got + bs.length }).setPhys (e.page + at_) bs

/-- The Skidder takes entries from the head of its list while fewer than eight segments load: an EMPTY, placed one with a source starts,
any other is skipped (08 R240). -/
def skidRun (list : List Nat) (s : State) : State :=
  match list with
  | [] => { s with mem := { s.mem with skid := [] } }
  | i :: r =>
    if 8 ≤ s.segsLoading then { s with mem := { s.mem with skid := i :: r } }
    else skidRun r (if (s.seg i).st == 0 && (s.seg i).page != 0 && (s.seg i).sources != 0 then s.segStart i else s)

/-- The Skidder goes on with its list. DEDUCED [log 83]. -/
def State.skidder (s : State) : State := skidRun s.mem.skid s

/-- An EMPTY segment that an access waits for goes ahead of every entry not yet started (08 R240). DEDUCED [log 83]. -/
def State.hurry (s : State) (pa : Nat) : State :=
  match s.segOf pa with
  | some i =>
    if (s.seg i).st == 0 then
      ({ s with mem := { s.mem with skid := i :: without s.mem.skid i } }).skidder
    else s
  | none => s

/-- A read of a page waits for its segment: none when it need not, else whether the segment is BAD (08 R239 R241). DEDUCED [log 83]. -/
def State.segWaits (s : State) (pa : Nat) : Option Bool :=
  match s.segState pa with
  | some 2 => none
  | some 3 => some true
  | some _ => some false
  | none => none

/-- The first write to a page with a zero mark begins the page's zero fill (05 R143). -/
def State.fillStart (s : State) (pa : Nat) : State :=
  { s with mem := { s.mem with zeroFill := withElem s.mem.zeroFill (pa / 0x200000) } }

/-- A unit set with one unit put in or taken out. -/
def UnitSet.put (u : UnitSet) (k : Nat) (v : Bool) : UnitSet :=
  { u with but := if v == u.rest then without u.but k else withElem u.but k }

/-- The zero fill of a page is done: the mark clears (05 R143). The page's bytes already read zero. -/
def State.fillDone (s : State) (page : Nat) : State :=
  { s with mem := { s.mem with zeroFill := without s.mem.zeroFill page, zeroMark := s.mem.zeroMark.put page false } }

/-! Late faults (11 R308 R320). -/

/-- Segment fault. -/
def SEGBAD : Nat := 0x0106
/-- A bank that is not owned. -/
def BANKFREE : Nat := 0x0104

/-- A late fault among those reported: the earlier report first, and of those reported in one tick of TIME the lower PATH first (11 R316).
DEDUCED [log 99]. -/
def insertLate (l : List TrapInfo) (t : TrapInfo) : List TrapInfo :=
  match l with
  | [] => [t]
  | e :: r => if t.at_ < e.at_ || (t.at_ == e.at_ && t.path < e.path) then t :: e :: r else e :: insertLate r t

/-- A late fault is reported to core `c`: to the strand that runs there, or held with the engines (11 R316 R320). DEDUCED [log 99]. -/
def State.reportLate (s : State) (c : Nat) (t : TrapInfo) : State :=
  let t := { t with at_ := s.time.toNat }
  s.modCore c fun k =>
    match k.strand with
    | some _ => { k with th := { k.th with late := insertLate k.th.late t } }
    | none => { k with ctx := { k.ctx with heldLate := insertLate k.ctx.heldLate t } }

/-- What keeps an access of Circulation's loader from a page of a segment, or of a MCB_WRITE from its template: the page still waits for
its segment (08 R239). -/
def State.waitsOn (s : State) (w : Who) (rs : List (Nat × Nat)) : Option Nat :=
  rs.findSome? fun r => match cutAccess s w false r.1 r.2 with
    | .ok ps => ps.findSome? fun p => match p.x.dest with
        | .mem a => if s.segWaits a == some false then some a else none
        | _ => none
    | .error _ => none

/-- What a read of a line meets that waits for nothing: a BAD segment, poison, a tombstone, ciphertext (08 R235 R241, 05 R133 R140). -/
def State.loadFault (s : State) (a : Nat) : Option Nat :=
  if s.segWaits a == some true then some SEGBAD else (s.line a).readFault false

/-- The launch on a core runs and the core is not frozen: its engines may work (11 R328). -/
def State.engineOn (s : State) (c : Nat) : Bool :=
  match (s.core c).launch with
  | some n => (match s.launchAt n with | some l => l.st == .bound && (s.core c).freeze == 0 | none => false)
  | none => false

/-- Who translates for the engines of core `c`. -/
def State.engineWho (s : State) (c : Nat) : Who :=
  match (s.core c).launch with
  | some n => { s.who ((s.launchAt n).getD {}) with core := some c }
  | none => {}

/-! The scalar data cache (08 R224). -/

/-- Lines the cache holds: 64 KiB. -/
def dcacheLines : Nat := 512

/-- A line enters a core's scalar data cache; a full cache loses one of its lines, which one is not said (08 R224).
DESIGN CHOICE [log 36]. -/
def State.cacheFill (s : State) (c pa : Nat) : State :=
  let line := bytesBv 1024 (s.phys (pa / 128 * 128) 128)
  let k := s.core c
  let full := decide (dcacheLines ≤ k.dcache.length) && (SMap.get k.dcache (pa / 128) none).isNone
  let kept := if full then k.dcache.eraseIdx (Config.cacheVictim s.free % k.dcache.length) else k.dcache
  let s := s.setCore c { k with dcache := SMap.set kept (pa / 128) (some line) none }
  if full then s.draw else s

/-! Accesses of engines (17 R470). -/

/-- An engine's range cut at lines, and in the scratchpad window at banks, in ascending address order. -/
def engineCut (s : State) (w : Who) (write : Bool) (fuel va n off : Nat) : Except (Nat × Nat × Nat) (List Piece) :=
  match fuel with
  | 0 => .ok []
  | fuel + 1 =>
    if n == 0 then .ok []
    else match translate s w (va % 2 ^ 64) write with
      | .error (c, l) => .error (c, l, va % 2 ^ 64)
      | .ok x =>
        let room := match x.dest with
          | .spad o => min x.len (0x4000 - o % 0x4000)
          | _ => min x.len (128 - va % 128)
        let k := min n room
        match engineCut s w write fuel (va + k) (n - k) (off + k) with
        | .error e => .error e
        | .ok r => .ok ({ x := x, va := va % 2 ^ 64, len := k, off := off } :: r)

/-- The pieces of an engine's range of `n` bytes at `va`. DEDUCED [log 41]. -/
def enginePieces (s : State) (w : Who) (write : Bool) (va n : Nat) : Except (Nat × Nat × Nat) (List Piece) :=
  engineCut s w write (n / 128 + n / 0x4000 + 4) va n 0

/-- What stops an engine's row: it waits, with the state after what waiting starts, or it faults late. -/
inductive RowStop where
  | wait (s : State)
  | fault (cause detail tva : Nat) (s : State)

/-- A row, as it stands after a step of its work. -/
abbrev RowM (α : Type) := Except RowStop α

/-- The pieces of a list of ranges; a range that does not translate, or lies in a bank not owned, faults. DEDUCED [log 41]. -/
def rowPieces (s : State) (w : Who) (c : Nat) (write : Bool) (rs : List (Nat × Nat)) : RowM (List (List Piece)) :=
  match rs with
  | [] => .ok []
  | (va, n) :: rest =>
    match enginePieces s w write va n with
    | .error (cause, l, a) => .error (.fault cause (b2n write * 2 ^ 15 + l) a s)
    | .ok ps =>
      match ps.findSome? fun p => match p.x.dest with
          | .spad o => if ((s.core c).ctx.spadPhys o).isNone then some (o / 0x4000) else none
          | _ => none with
      | some b => .error (.fault BANKFREE (b % 256) (0x7FFE00000000 + 0x4000 * b) s)
      | none =>
        match rowPieces s w c write rest with
        | .error e => .error e
        | .ok r => .ok (ps :: r)

/-- A piece in memory. -/
def Piece.pa (p : Piece) : Option Nat := match p.x.dest with | .mem a => some a | _ => none

/-- Reads wait for segments, or fault on a BAD one. -/
def rowSegments (s : State) (ps : List Piece) : RowM Unit :=
  match ps.findSome? fun p => match p.pa with
      | some a => (s.segWaits a).map fun bad => (bad, a, p.va)
      | none => none with
  | some (true, _, va) => .error (.fault SEGBAD 0 va s)
  | some (false, a, _) => .error (.wait (s.hurry a))
  | none => .ok ()

/-- A form fault of sources: a ciphertext line where `keeps` does not allow it (05 R133, 17 R470). -/
def rowForms (s : State) (ps : List Piece) (keeps : Piece → Bool) : RowM Unit :=
  match ps.find? fun p => match p.pa with
      | some a => (s.line a).cipher && !(keeps p)
      | none => false with
  | some p => .error (.fault FORM 0 p.va s)
  | none => .ok ()

/-- What the destination pieces meet: a partial write of ciphertext or of a tombstone, then a dirty page or a zero mark, for which the row
waits (05 R133 R143, 08 R235). -/
def rowDests (s : State) (ps : List Piece) : RowM Unit :=
  match ps.findSome? fun p => match p.pa with
      | some a => ((s.line a).writeFault (p.len == 128)).map fun c => (c, p.va)
      | none => none with
  | some (c, va) => .error (.fault c 0 va s)
  | none =>
    if ps.any fun p => match p.pa with | some a => s.pageDirty a p.x.tag | none => false then .error (.wait s)
    else match ps.findSome? fun p => match p.pa with | some a => if s.zeroMarked a then some a else none | none => none with
      | some a => .error (.wait (s.fillStart a))
      | none => .ok ()

/-- The bytes of pieces as they stand; `win` reads the device windows. -/
def State.pieceBytes (s : State) (c : Nat) (win : Piece → List Byte) (ps : List Piece) : List Byte :=
  ps.flatMap fun p => match p.x.dest with
    | .spad o => (s.core c).spadRead (((s.core c).ctx.spadPhys o).getD 0) p.len
    | .mem a => s.phys a p.len
    | _ => win p

/-- The lines of pieces read, in ascending order, each once: poison and tombstones fault, counted lines fall; what has been read
before a fault stays read (17 R470, 08 R234 R237). -/
def readLines (ps : List Piece) (seen : List Nat) (s : State) : RowM State :=
  match ps with
  | [] => .ok s
  | p :: rest =>
    match p.pa with
    | none => readLines rest seen s
    | some a =>
      if seen.contains (a / 128) then readLines rest seen s
      else match (s.line a).readFault true with
        | some c => .error (.fault c 0 p.va s)
        | none => readLines rest (a / 128 :: seen) (s.consume a p.x.cn)

/-- An engine writes pieces: scratchpad with its full bits, memory as line writes with a count (08 R227 R233). -/
def State.writePieces (s : State) (c stamp : Nat) (win : Piece → List Byte → State → State) (ps : List Piece) (bs : List Byte) :
    State :=
  ps.foldl (fun (s : State) p =>
    let b := slice bs p.off p.len
    match p.x.dest with
    | .spad o => s.modCore c fun k => k.engineWrite ((k.ctx.spadPhys o).getD 0) b
    | .mem a => s.putLine a b (List.replicate p.len true) stamp p.x.tag
    | _ => win p b s) s

end Sys2Proof.Machine
end

