-- ==== Sys2Proof/Machine/HostLib.lean ====
section
/-! DEFINITION. Machine/HostLib.lean: what the host interface's events share: host memory, the event rings, interrupts, the mapped queues
and the completion of commands (04 R93 to R107, R113). -/
namespace Sys2Proof.Machine

/-! Functions, virtual queues and mapped queues. -/

/-- Function `v`: the PF is 0. -/
def State.fn (s : State) (v : Nat) : FnRegs := SMap.get s.hif.fns v {}
/-- Function `v` changed. -/
def State.modFn (s : State) (v : Nat) (g : FnRegs → FnRegs) : State :=
  { s with hif := { s.hif with fns := SMap.upd s.hif.fns v {} g } }
/-- The stage-2 entry of a VQN (04 R107). -/
def State.st2 (s : State) (q : Nat) : Stage2 := SMap.get s.hif.stage2 q {}
/-- A stage-2 entry changed. -/
def State.modSt2 (s : State) (q : Nat) (g : Stage2 → Stage2) : State :=
  { s with hif := { s.hif with stage2 := SMap.upd s.hif.stage2 q {} g } }
/-- Mapped queue `m`. -/
def State.mq (s : State) (m : Nat) : Mq := SMap.get s.hif.mqs m {}
/-- A mapped queue changed. -/
def State.modMq (s : State) (m : Nat) (g : Mq → Mq) : State :=
  { s with hif := { s.hif with mqs := SMap.upd s.hif.mqs m {} g } }

/-- DEPTH of bucket `v` (04 R107). -/
def State.bkDepth (s : State) (v : Nat) : Nat := (s.fn v).bkDepth.getD (if v = 0 then 0xFFFFFFFF else 0)
/-- RATE of bucket `v`. -/
def State.bkRate (s : State) (v : Nat) : Nat := (s.fn v).bkRate.getD (if v = 0 then 0x25800 else 0)
/-- LEVEL of bucket `v`. -/
def State.bkLevel (s : State) (v : Nat) : Int := (s.fn v).bkLevel.getD (if v = 0 then 0xFFFFFFFF00 else 0)
/-- A bucket is empty while LEVEL is not above 0 (04 R103). -/
def State.bkEmpty (s : State) (v : Nat) : Bool := decide (s.bkLevel v ≤ 0)

/-! Functions that exist (04 R90 R112 R113, 01 R36). -/

/-- The part answers the host: READY, or minimal mode (01 R32 R36). -/
def State.hostServed (s : State) : Bool := !s.pkg.held && !s.pkg.tripped && (s.pkg.mode == 1 || s.pkg.mode == 2)

/-- Minimal mode (01 R36). -/
def State.minimal (s : State) : Bool := s.pkg.mode == 2

/-- Function `v` is offered: the PF always, a virtual function while NumVFs reaches it, none in minimal mode (04 R90, 01 R36). -/
def State.offered (s : State) (v : Nat) : Bool := v == 0 || (decide (v ≤ s.hif.numVfs) && !s.minimal)

/-- Function `v` is offered and enabled. -/
def State.fnUp (s : State) (v : Nat) : Bool := s.offered v && (s.fn v).enabled

/-- MSI-X vectors of function `v` (04 R90). -/
def msixVectors (v : Nat) : Nat := if v = 0 then 128 else 64

/-! Host memory (04 R93 R95 R113). -/

/-- Key of a host address of a function. DESIGN CHOICE [log 15]. -/
def hostKey (fn a : Nat) : Nat := fn * 2 ^ 64 + a % 2 ^ 64

/-- A function's requests reach host memory: the link is up and the function offered and enabled (04 R113). -/
def State.hostUp (s : State) (fn : Nat) : Bool := s.hif.link && s.fnUp fn

/-- `n` bytes of host memory; none where the read fails. DESIGN CHOICE [log 15]. -/
def State.hostRead (s : State) (fn a n : Nat) : Option (List Byte) :=
  if !(s.hostUp fn) || 2 ^ 64 < a + n || s.mem.hostBad.any (fun r => decide (r.1 < hostKey fn a + n ∧ hostKey fn a < r.1 + r.2)) then none
  else some (Memory.readN s.mem.host (hostKey fn a) n)

/-- Host memory written; a write that cannot go is dropped. DESIGN CHOICE [log 15]. -/
def State.hostWrite (s : State) (fn a : Nat) (bs : List Byte) : State :=
  if s.hostUp fn then { s with mem := { s.mem with host := Memory.writeN s.mem.host (hostKey fn a) bs } } else s

/-- A write that fails: the link or the function is down, or the range cannot be reached. -/
def State.hostWriteOk (s : State) (fn a n : Nat) : Bool := (s.hostRead fn a n).isSome

/-- A completion record or signal: written, or dropped and counted in HIF.LOSTCNT (04 R113). -/
def State.hostReport (s : State) (fn a : Nat) (bs : List Byte) : State :=
  if s.hostUp fn then s.hostWrite fn a bs else { s with hif := { s.hif with lostCnt := sat48 s.hif.lostCnt 1 } }

/-! Proem wait packets (04 R109). -/

/-- A Proem thread. -/
def State.thread (s : State) (t : Nat) : PThread := SMap.get s.hif.threads t {}
/-- A Proem thread changed. -/
def State.modThread (s : State) (t : Nat) (g : PThread → PThread) : State :=
  { s with hif := { s.hif with threads := SMap.upd s.hif.threads t {} g } }

/-- A wait packet of a source for thread `t`; the manual does not give its argument. DESIGN CHOICE [log 60]. -/
def State.waitPacket (s : State) (t source : Nat) : State :=
  (s.modThread t fun p => { p with
    packets := p.packets ++ [BitVec.ofNat 64 (Config.waitArg s.free % 2 ^ 60 * 16 + source)] }).draw

/-- A wait packet for the thread to which the firmware gives a source. DESIGN CHOICE [log 60]. -/
def State.houseWait (s : State) (source : Nat) : State := s.waitPacket (Config.houseThread source % 128) source

/-! The event rings (04 R104 to R106). -/

/-- The ring is full. -/
def FnRegs.ringFull (r : FnRegs) : Bool := (r.evTail + 1) % 2 ^ r.evLog == r.evHead

/-- An event-ring entry (04 R104). -/
def eventEntry (ty : Nat) (phase : Bool) (detail vqn time arg : Nat) : List Byte :=
  natLe 1 ty ++ natLe 1 (b2n phase) ++ natLe 2 detail ++ natLe 4 vqn ++ natLe 8 time ++ natLe 8 arg ++ List.replicate 8 0

/-- An event is written and EVTAIL advances; the phase flips at each wrap (04 R104). DEDUCED [log 58]. -/
def State.putEvent (s : State) (v ty detail vqn arg : Nat) : State :=
  let r := s.fn v
  let s := s.hostWrite v (64 * r.evBase.toNat + 32 * r.evTail) (eventEntry ty r.evPhase detail vqn s.time.toNat arg)
  s.modFn v fun r => { r with
    evTail := (r.evTail + 1) % 2 ^ r.evLog
    evPhase := if r.evTail + 1 == 2 ^ r.evLog then !r.evPhase else r.evPhase }

/-- One more event that could not be posted. -/
def State.eventLost (s : State) (v : Nat) : State := s.modFn v fun r => { r with evOvf := min (r.evOvf + 1) 0xFFFFFFFF }

/-- HOSTLOST goes out before any other event of the PF (04 R113). -/
def State.hostLostFirst (s : State) : State :=
  match s.hif.lostOwed with
  | some n =>
    if (s.fn 0).evEn && !(s.fn 0).ringFull then
      { s.putEvent 0 0x09 0 0xFFFFFFFF n with hif := { (s.putEvent 0 0x09 0 0xFFFFFFFF n).hif with lostOwed := none } }
    else s
  | none => s

/-- EVENT_POST of an event without a queue (04 R104 R105). -/
def State.post (s : State) (v ty detail vqn arg : Nat) : State :=
  let s := if v == 0 then s.hostLostFirst else s
  if (s.fn v).evEn && !(s.fn v).ringFull then s.putEvent v ty detail vqn arg else s.eventLost v

/-- EVENT_POST of QERR or TAMPER for a queue: one that finds the ring full is kept in the stage-2 entry (04 R105). -/
def State.postQueue (s : State) (v ty detail q arg : Nat) : State :=
  if (s.st2 q).kept.isSome then s.eventLost v
  else if (s.fn v).evEn && (s.fn v).ringFull then (s.eventLost v).modSt2 q fun e => { e with kept := some (ty, detail) }
  else s.post v ty detail q arg

/-- The argument of a kept event: the entry keeps type and detail, and with TAMPER the stored digest (04 R104 R105). What a kept QERR of
detail 4 carries is left open. DESIGN CHOICE [log 104]. -/
def State.keptArg (s : State) (q ty detail : Nat) : Nat :=
  if ty == 0x02 then (s.st2 q).digest else if detail == 4 then Config.keptArgument s.free % 2 ^ 64 else 0

/-- The kept events that the ring has room for, in ascending VQN order (04 R105). -/
def postKept (qs : List Nat) (v : Nat) (s : State) : State :=
  match qs with
  | [] => s
  | q :: r =>
    if (s.fn v).ringFull then s
    else match (s.st2 q).kept with
      | some (ty, d) => postKept r v ((s.putEvent v ty d q (s.keptArg q ty d)).draw.modSt2 q fun e => { e with kept := none })
      | none => postKept r v s

/-- Entries have been freed: OVERFLOW, then the kept events (04 R105). -/
def State.ringFreed (s : State) (v : Nat) : State :=
  let r := s.fn v
  let s := if r.evOvf != 0 && !r.ringFull && r.evEn then
      (s.putEvent v 0x04 0 0xFFFFFFFF r.evOvf).modFn v fun r => { r with evOvf := 0 }
    else s
  if r.evEn then postKept ((s.hif.stage2.filter fun e => e.2.fn == v && e.2.kept.isSome).map (·.1)) v s else s

/-! Interrupts (04 R98). -/

/-- Vector `n` of function `v` is sent, or pends in the PBA while it is masked; a function has no vector beyond its table (04 R90 R98).
PRESUMED [log 16]. -/
def State.raiseVector (s : State) (v n : Nat) : State :=
  if msixVectors v ≤ n then s
  else if !((s.fn v).unmasked.contains n) then s.modFn v fun r => { r with pba := withElem r.pba n }
  else if s.hostUp v then s.emit (.msix v n) else s

/-- The mask bit of vector `n` of function `v` is written; a vector that pends leaves when its mask clears (04 R98). PRESUMED [log 16]. -/
def State.maskVector (s : State) (v n : Nat) (masked : Bool) : State :=
  if msixVectors v ≤ n then s
  else if masked then s.modFn v fun r => { r with unmasked := without r.unmasked n }
  else
    let pends := (s.fn v).pba.contains n
    let s := s.modFn v fun r => { r with unmasked := withElem r.unmasked n, pba := without r.pba n }
    if pends then s.raiseVector v n else s

/-- A queue's vector is sent, or pends while masked; its counter and window clear (04 R98). -/
def State.sendIrq (s : State) (q : Nat) : State :=
  let e := s.st2 q
  (s.modSt2 q fun e => { e with irqs := 0, irqAt := 0 }).raiseVector e.fn e.vector

/-- A counted completion. -/
def State.countIrq (s : State) (q : Nat) : State :=
  let s := s.modSt2 q fun e => { e with irqs := e.irqs + 1, irqAt := if e.irqs == 0 then s.time.toNat else e.irqAt }
  if max 1 (s.st2 q).coalesce ≤ (s.st2 q).irqs then s.sendIrq q else s

/-- INTERRUPT_WINDOW_EXPIRY: WINDOW µs after the first counted completion still pending on VQN `a`, the vector is sent (04 R98). -/
def execInterruptWindowExpiry (s : State) : Res :=
  let e := s.st2 s.ev.a
  .next (if e.irqs != 0 && e.window != 0 && e.irqAt + 1000 * e.window ≤ s.time.toNat then s.sendIrq s.ev.a else s)

/-! Mapped queues (04 R101). -/

/-- QUEUE_EVICT: HEAD goes back to QCB bytes 16 to 19, and the mapped queue is free (04 R101). -/
def State.evict (s : State) (m : Nat) : State :=
  match (s.mq m).vqn with
  | none => s
  | some q =>
    let s := s.hostWrite (s.mq m).fn ((s.st2 q).qcb + 16) (natLe 4 (s.mq m).head)
    { (s.modSt2 q fun e => { e with mq := none }) with
      hif := { (s.modSt2 q fun e => { e with mq := none }).hif with mqs := SMap.drop s.hif.mqs m } }

/-- A mapped queue is dropped without a write back. -/
def State.unmap (s : State) (q : Nat) : State :=
  match (s.st2 q).mq with
  | none => s
  | some m =>
    let s := s.modSt2 q fun e => { e with mq := none }
    { s with hif := { s.hif with mqs := SMap.drop s.hif.mqs m } }

/-! Completion of commands (04 R96 R97 R509). -/

/-- OP of a command packet. -/
def Cmd.op (c : Cmd) : Nat := leAt c.packet 0 1
/-- FLAGS.INT. -/
def Cmd.int_ (c : Cmd) : Bool := bitOf (leAt c.packet 1 1) 1
/-- TAG. -/
def Cmd.tag (c : Cmd) : Nat := leAt c.packet 4 4

/-- A completion record (04 R97). -/
def completionRecord (status detail faults start now tag vqn lid dump : Nat) : List Byte :=
  natLe 2 status ++ natLe 2 detail ++ natLe 4 faults ++ natLe 8 start ++ natLe 8 now ++ natLe 4 tag ++ natLe 4 vqn ++ natLe 8 lid ++
    natLe 4 dump ++ List.replicate 20 0

/-- Steps 1 and 2 of a completion: the record, then the signal (04 R97). -/
def State.reportAt (s : State) (fn crec sig sigVal : Nat) (record : List Byte) : State :=
  let s := if crec != 0 then s.hostReport fn crec record else s
  if sig != 0 then s.hostReport fn sig (natLe 8 sigVal) else s

/-- What a completion of a LAUNCH adds to the record. -/
structure LaunchDone where
  faults : Nat := 0
  start : Nat := 0
  lid : Nat := 0
  dump : Nat := 0

/-- A command is completed and leaves the commands in progress (04 R97). A command a hot reset has ended reports HOST_LOST, and the queue
whose interrupt it would count towards is gone (04 R113). -/
def State.finishCmd (s : State) (c : Cmd) (status detail : Nat) (l : LaunchDone) : State :=
  let status := if c.lost then 5 else status
  let s := s.reportAt c.fn c.crec c.sigAddr c.sigVal
    (completionRecord status (if c.lost then 0 else detail) l.faults l.start s.time.toNat c.tag c.vqn l.lid l.dump)
  let s := if c.int_ && !c.lost then s.countIrq c.vqn else s
  ({ s with hif := { s.hif with cmds := s.hif.cmds.filter fun x => x.id != c.id } }).houseWait 4

/-- An unbinding queue whose commands in progress have completed: its QUEUE_UNBIND completes and the entry clears (04 R102). Interrupts
that still pend there are dropped with the entry, unsent: the manual does not say. DESIGN CHOICE [log 88]. -/
def State.settleUnbind (s : State) : Nat → State
  | 0 => s
  | n + 1 =>
    match s.hif.cmds.find? fun c => c.op == 0x21 && (s.st2 (leAt c.packet 32 4)).stopping &&
        !(s.hif.cmds.any fun d => d.vqn == leAt c.packet 32 4 && d.id != c.id) with
    | some c =>
      let q := leAt c.packet 32 4
      let s := s.unmap q
      let s := s.finishCmd c 0 0 { start := c.startAt }
      State.settleUnbind { s with hif := { s.hif with stage2 := SMap.drop s.hif.stage2 q } } n
    | none => s

/-- COMMAND_COMPLETION (04 R97), with the unbinds that waited for it. -/
def State.complete (s : State) (c : Cmd) (status detail : Nat) : State :=
  let s := s.finishCmd c status detail { start := c.startAt }
  s.settleUnbind s.hif.cmds.length

/-- The completion of a LAUNCH command. DEDUCED [log 58]. -/
def State.completeLaunch (s : State) (c : Cmd) (status detail : Nat) (l : LaunchDone) : State :=
  let s := s.finishCmd c status detail l
  s.settleUnbind s.hif.cmds.length

/-- A command with no valid place to report to: QERR with detail 4 (04 R509). -/
def State.completeNowhere (s : State) (c : Cmd) (status : Nat) : State :=
  let s := s.finishCmd { c with crec := 0, sigAddr := 0 } status 0 { start := c.startAt }
  let s := s.postQueue c.fn 0x01 4 c.vqn (c.tag + status * 2 ^ 32)
  s.settleUnbind s.hif.cmds.length

/-- The command a launch serves. -/
def State.cmdOf (s : State) (id : Nat) : Option Cmd := s.hif.cmds.find? fun c => c.id == id

end Sys2Proof.Machine
end

