-- ==== Sys2Proof/Machine/Vault.lean ====
section
/-! DEFINITION. Machine/Vault.lean: the Vault: derived keys, sealed handles, key slots and the random generator (05 R125 to R129,
10 R297). -/
namespace Sys2Proof.Machine

/-! The random generator: CTR_DRBG with AES-256 (05 R125). -/

/-- CTR_DRBG's update of Key and V with 48 bytes of data: three blocks of the cipher stream after V, exclusive-ored with the data. -/
def drbgUpdate (key : List Byte) (v : Nat) (data : List Byte) : List Byte × Nat :=
  let ks := aesKeys key
  let t := xorBytes ((List.range 3).flatMap fun i => aesEnc ks (natBe 16 ((v + 1 + i) % 2 ^ 128))) data
  (t.take 32, beAt t 32 16)

/-- The generator takes 48 bytes from the entropy source into its Key and V. PRESUMED [log 85]. -/
def Vault.reseed (v : Vault) : Vault :=
  let r := drbgUpdate v.drbgKey v.drbgV ((List.range 48).map fun i => Config.entropy (v.entropy + i))
  { v with drbgKey := r.1, drbgV := r.2, drbgCount := 0, entropy := v.entropy + 48 }

/-- The generator as stage 0x02 seeds it (05 R125). -/
def Vault.seed (v : Vault) : Vault := ({ v with drbgKey := List.replicate 32 0, drbgV := 0 }).reseed

/-- One request of `n` bytes: a reseed first where 2^20 requests have been made since the last (05 R125). -/
def Vault.generate (v : Vault) (n : Nat) : List Byte × Vault :=
  let v := if 2 ^ 20 ≤ v.drbgCount then v.reseed else v
  let ks := aesKeys v.drbgKey
  let blocks := (n + 15) / 16
  let out := (List.range blocks).flatMap fun i => aesEnc ks (natBe 16 ((v.drbgV + 1 + i) % 2 ^ 128))
  let r := drbgUpdate v.drbgKey ((v.drbgV + blocks) % 2 ^ 128) (List.replicate 48 0)
  (out.take n, { v with drbgKey := r.1, drbgV := r.2, drbgCount := v.drbgCount + 1 })

/-- `n` bytes of the Vault's generator, and the state after (05 R125). -/
def State.random (s : State) (n : Nat) : List Byte × State :=
  let r := s.prot.vault.generate n
  (r.1, { s with prot := { s.prot with vault := r.2 } })

/-! Derived keys (05 R125). -/

/-- The root of the Vault's keys. DEDUCED [log 71]. -/
def Vault.prk (v : Vault) : List Byte := hkdfExtract (ascii "FJ-ROOT") v.puf
/-- The seeds of the identity key pair. -/
def Vault.identitySeeds (v : Vault) : List Byte := hkdfExpand v.prk (ascii "identity") 96
/-- The key of the replay-protected block. -/
def Vault.rpmbKey (v : Vault) : List Byte := hkdfExpand v.prk (ascii "rpmb") 32
/-- The secret that PUF reconstruction yields from the boot flash's helper data (01 R27). -/
def Flash.puf (f : Flash) : List Byte := (List.range 32).map (Config.puf f.helper)
/-- The data of the replay-protected block (01 R29). DESIGN CHOICE [log 86]. -/
def Flash.block (f : Flash) : List Byte :=
  natLe 1 f.fails ++ natLe 1 f.lastReason ++ natLe 2 f.fwSvn ++ natLe 2 f.cfgSvn ++ padTo f.opKey 32
/-- The HMAC-SHA-256 over the block's data and its write counter (01 R29). DESIGN CHOICE [log 86]. -/
def Flash.blockMac (f : Flash) : List Byte := hmac ({ puf := f.puf } : Vault).rpmbKey (f.block ++ natLe 4 f.writes)
/-- The block carries the HMAC of its last write (01 R29 R33). -/
def Flash.authentic (f : Flash) : Bool := match f.mac with | some m => m == f.blockMac | none => true
/-- A write of the replay-protected block: the counter increases, and the write carries the HMAC over data and counter (01 R29). -/
def Flash.write (f : Flash) (g : Flash → Flash) : Flash :=
  let x := { g f with writes := f.writes + 1 }
  { x with mac := some x.blockMac }
/-- A write of the replay-protected block (01 R29). -/
def State.writeBlock (s : State) (g : Flash → Flash) : State := { s with flash := s.flash.write g }
/-- The sealing root. -/
def Vault.sealing (v : Vault) : List Byte := hkdfExpand v.prk (ascii "seal") 32
/-- The handle tag key. -/
def Vault.tagKey (v : Vault) : List Byte := hkdfExpand v.sealing (ascii "FJKT") 32
/-- The seeds of the static MRP key pair. -/
def Vault.mrpSeeds (v : Vault) : List Byte := hkdfExpand v.sealing (ascii "mrp-static" ++ v.measurement) 64

/-! Sealed handles (05 R126). -/

/-- Key slot of a handle. -/
def hdSlot (h : List Byte) : Nat := fld (leAt h 0 2) 0 12
/-- Purpose. -/
def hdPurpose (h : List Byte) : Nat := leAt h 2 1
/-- Partition. -/
def hdPart (h : List Byte) : Nat := fld (leAt h 3 1) 0 5
/-- Micro-context. -/
def hdMcx (h : List Byte) : Nat := fld (leAt h 4 2) 0 13
/-- P, partition-wide. -/
def hdP (h : List Byte) : Bool := bitOf (leAt h 4 2) 15
/-- A reserved field is not zero. -/
def hdReserved (h : List Byte) : Bool :=
  fld (leAt h 0 2) 12 4 != 0 || fld (leAt h 3 1) 5 3 != 0 || fld (leAt h 4 2) 13 2 != 0 || leAt h 6 2 != 0
/-- The tag that authenticates bytes 0 to 15. -/
def Vault.handleTag (v : Vault) (h : List Byte) : List Byte := (hmac v.tagKey (h.take 16)).take 16
/-- Purpose and P keep their rule. -/
def hdPurposeOk (h : List Byte) : Bool :=
  (hdPurpose h == 0 && !(hdP h)) || (hdPurpose h == 1 && hdP h && hdMcx h == 0)
/-- The slot key a handle stands for. -/
def Vault.slotKey (v : Vault) (h : List Byte) : List Byte :=
  hkdfExpand v.sealing (ascii "FJKS" ++ h.take 16) (if hdPurpose h == 0 then 64 else 32)
/-- A launch's draw key where its record gives no seed: sixteen zero bytes stand for a house launch's handle (10 R297). -/
def Vault.drawKey (v : Vault) (h : List Byte) : BitVec 128 := bytesBv 128 (hkdfExpand v.sealing (ascii "FJDR" ++ h.take 16) 16)

/-! Key slots (05 R126 R127 R129). -/

/-- Key slot `k`. -/
def State.keySlotAt (s : State) (k : Nat) : KeySlot := SMap.get s.prot.vault.slots k {}

/-- Key slot `k` replaced. -/
def State.setKeySlot (s : State) (k : Nat) (x : KeySlot) : State :=
  { s with prot := { s.prot with vault := { s.prot.vault with slots := SMap.set s.prot.vault.slots k x {} } } }

/-- The line key a slot holds, none where it holds none (05 R125, 17 R494). -/
def State.lineKey (s : State) (k : Nat) : Option (List Byte) :=
  if k == 0 then (if s.prot.vault.houseKey.length == 64 then some s.prot.vault.houseKey else none)
  else
    let x := s.keySlotAt k
    if x.st == 1 && x.purp == 0 then some x.key else none

/-- The status of the checks of an import of handle `h` into slot `k` for partition `p`, in their order; 0 when all pass. A handle
of zeros from byte 8 on asks for minting, which has no tag to check (05 R126). -/
def State.importStatus (s : State) (k : Nat) (h : List Byte) (p : Nat) (mint : Bool) : Nat :=
  let d := SMap.get s.prot.parts p {}
  if k == 0 || k < d.keyBase || d.keyBase + d.keyCount ≤ k then 2
  else if hdReserved h then 11
  else if !(hdPurposeOk h) || (!mint && s.prot.vault.handleTag h != slice h 16 16) then 11
  else if hdSlot h != k then 11
  else if hdPart h != p then 2
  else if (s.keySlotAt k).failed then 3
  else if (s.keySlotAt k).st != 0 then 13
  else 0

/-- Slot `k` is loaded with the key of handle `h`. -/
def State.loadKey (s : State) (k : Nat) (h : List Byte) : State :=
  s.setKeySlot k { s.keySlotAt k with
    st := 1, purp := hdPurpose h, p := hdP h, part := hdPart h, mcx := hdMcx h, nonce := slice h 8 8, key := s.prot.vault.slotKey h }

/-- Zeroisation of slot `k` begins: STATE reads ZEROISING until KEY_ZEROISE_DONE (05 R129). DEDUCED [log 71]. -/
def State.zeroise (s : State) (k : Nat) : State :=
  s.setKeySlot k { s.keySlotAt k with st := 2, key := [], nonce := [] }

/-- A request to the Vault ends: whether it was struck, and so fails (05 R141). DEDUCED [log 64]. -/
def State.vaultDone (s : State) : Bool × State :=
  (s.prot.vault.struck, { s with prot := { s.prot with vault := { s.prot.vault with struck := false } } })

/-- A handle passes the checks of a binding: tag, key slot of the MCB, loaded line key of the same nonce, partition and
micro-context (05 R128). -/
def State.handleBinds (s : State) (h : List Byte) (m : Nat) : Bool :=
  let x := s.keySlotAt (hdSlot h)
  s.prot.vault.handleTag h == slice h 16 16 && hdSlot h == (SMap.get s.prot.mcbs m {}).keySlot && hdSlot h != 0 &&
  x.st == 1 && x.purp == 0 && x.nonce == slice h 8 8 && x.part == hdPart h && x.mcx == hdMcx h && hdMcx h == m

end Sys2Proof.Machine
end

