-- ==== Sys2Proof/Machine/Chipper.lean ====
section
/-! DEFINITION. Machine/Chipper.lean: dirty units and their scrub, the completion of partition commands, and teardown
(05 R116 R117 R123 R142 to R146, 19 R504 R505). -/
namespace Sys2Proof.Machine

/-! Units (05 R142). -/

/-- Units of a class; 0 for class 6, whose number depends on the pools. -/
def classUnits (k : Nat) : Nat := [600, 76800, 153600, 600, 1024, 294912, 0, 4096].getD k 0

/-- A unit is in a set. -/
def UnitSet.mem (u : UnitSet) (k : Nat) : Bool := UnitSetMem u.rest u.but k

/-- Units of a class in a set. -/
def UnitSet.count (u : UnitSet) (n : Nat) : Nat := if u.rest then n - u.but.length else u.but.length

/-- The dirty units of a class. -/
def State.dirtySet (s : State) (k : Nat) : UnitSet := SMap.get s.prot.chip.dirty k {}

/-- A unit is dirty. -/
def State.isDirty (s : State) (k u : Nat) : Bool := (s.dirtySet k).mem u

/-- A unit is marked failed. -/
def State.unitFailed (s : State) (k u : Nat) : Bool := (SMap.get s.prot.chip.failed k []).contains u

/-- The Chipper changed. -/
def State.modChip (s : State) (g : Chipper → Chipper) : State := { s with prot := { s.prot with chip := g s.prot.chip } }

/-- Units are marked dirty by something other than a start (05 R142 R146). -/
def State.markDirty (s : State) (k : Nat) (us : List Nat) : State :=
  s.modChip fun c => { c with
    dirty := SMap.upd c.dirty k {} fun d => us.foldl (fun d u => d.put u true) d
    rst := if us.isEmpty then c.rst else false }

/-- Dirty units not yet scrubbed; class 6 does not count (05 R146). -/
def State.chipPend (s : State) : Nat := ((List.range 8).map fun k => if k == 6 then 0 else (s.dirtySet k).count (classUnits k)).sum

/-- The lowest class with units pending. -/
def State.chipPhase (s : State) : Option Nat :=
  firstBelow 8 fun k => (s.dirtySet k).rest || !(s.dirtySet k).but.isEmpty

/-- Physical address of an HBM page by its unit number, in ascending physical address. -/
def hbmPage (u : Nat) : Nat := 0x1000000000 + u * 0x200000

/-- The dirty-unit class and number of a physical page: a Stacks bank or an HBM page. DEDUCED [log 82]. -/
def pageUnit (page : Nat) : Nat × Nat := memUnit (page * 0x200000)

/-- The unit number of a slot of a partition's pool: which is 0 for the receive slot, 1 for the reply slot. -/
def slotUnit (p pair which : Nat) : Nat := p * 2 ^ 16 + 2 * pair + which

/-! What a scrub zeroes. -/

/-- A range of memory scrubbed: plaintext zeros, counts, tombstones, poison and tags cleared (05 R142, 08 R218). -/
def State.scrubMem (s : State) (a n : Nat) : State :=
  { s with mem := { s.mem with
    bytes := Memory.zero s.mem.bytes a n
    lines := s.mem.lines.filter fun l => 128 * l.1 < a || a + n ≤ 128 * l.1 } }

/-- A page scrubbed whole: its tag clears too (05 R137), and a CHP.TMARK page is counted (19 R504). -/
def State.scrubPage (s : State) (page : Nat) : State :=
  let s := s.scrubMem (page * 0x200000) 0x200000
  ({ s with mem := { s.mem with pageTag := SMap.drop s.mem.pageTag page } }).modChip fun c =>
    { c with tmLeft := without c.tmLeft page }

/-- A slot of a pair is dirty or has failed: the pair stays held (02 R56, 05 R145). -/
def State.pairTaken (s : State) (p pair : Nat) : Bool :=
  [0, 1].any fun w => s.isDirty 6 (slotUnit p pair w) || s.unitFailed 6 (slotUnit p pair w)

/-- A slot pair is held no longer once both its slots are zeroed (02 R56). -/
def State.freePair (s : State) (p pair : Nat) : State :=
  if s.pairTaken p pair then s
  else { s with eth := { s.eth with pools := SMap.upd s.eth.pools p {} fun q => { q with held := without q.held pair } } }

/-- The scrub of one unit (05 R142 R143). -/
def State.scrubUnit (s : State) (k u : Nat) : State :=
  match k with
  | 0 => s.modCore u fun c => { c with
      th := { cycle := c.th.cycle, bundles := c.th.bundles }, ctx := {}, active := {}, shadow := {}, table := none, dcache := [], seqWrites := [] }
  | 1 => s.modCore (u / 128) fun c => { c with
      spad := Memory.zero c.spad (u % 128 * 0x4000) 0x4000
      full := c.full.filter fun g => g / 1024 != u % 128 }
  | 2 => s.modCore (u / 256) fun c => { c with acc := Memory.zero c.acc (u % 256 * 0x800) 0x800 }
  | 3 => s.modCore u fun c => { c with ctx := { c.ctx with gnodes := [], gcap := 1024, gdir := false } }
  | 4 => s.scrubPage u
  | 5 =>
    let s := s.scrubPage (hbmPage u / 0x200000)
    { s with mem := { s.mem with zeroMark := s.mem.zeroMark.put (hbmPage u / 0x200000) true } }
  | 6 =>
    let p := u / 2 ^ 16
    let e := SMap.get s.eth.pools p {}
    s.scrubMem (e.slotAddr (u % 2 ^ 16 / 2) (u % 2)) e.slotBytes
  | _ => s.setKeySlot u { failed := (s.keySlotAt u).failed }

/-! Partitions (05 R116 R117). -/

/-- Partition `p`. -/
def State.part (s : State) (p : Nat) : Partition := SMap.get s.prot.parts p {}
/-- Partition `p` changed. -/
def State.modPart (s : State) (p : Nat) (g : Partition → Partition) : State :=
  { s with prot := { s.prot with parts := SMap.upd s.prot.parts p {} g } }

/-- The cores of a mask, in ascending order. -/
def maskCores (m : BitVec 640) : List Nat := (List.range 600).filter fun c => m.getLsbD c
/-- The pseudo-channel of an HBM page by unit number: bit of the HBM mask. -/
def pageChannel (u : Nat) : Nat := u / 384

/-- A unit belongs to a partition. -/
def Partition.owns (d : Partition) (k u : Nat) : Bool :=
  match k with
  | 0 => d.cores.getLsbD u
  | 1 => d.cores.getLsbD (u / 128)
  | 2 => d.cores.getLsbD (u / 256)
  | 3 => d.cores.getLsbD u
  | 4 => d.banks.getLsbD u
  | 5 => d.hbm.getLsbD (pageChannel u)
  | 6 => false
  | _ => decide (d.keyBase ≤ u ∧ u < d.keyBase + d.keyCount)

/-- Set bits of a mask. -/
def maskCount (w x : Nat) : Nat := popN w x

/-- Units of a class that a partition owns. -/
def Partition.units (d : Partition) (k : Nat) : Nat :=
  let cores := maskCount 640 d.cores.toNat
  match k with
  | 0 => cores
  | 1 => 128 * cores
  | 2 => 256 * cores
  | 3 => cores
  | 4 => maskCount 1024 d.banks.toNat
  | 5 => 384 * maskCount 768 d.hbm.toNat
  | 6 => 0
  | _ => d.keyCount

/-- Some unit of partition `p` is dirty, slots of its pool included. -/
def State.partDirty (s : State) (p : Nat) : Bool :=
  let d := s.part p
  (List.range 8).any fun k =>
    let u := s.dirtySet k
    if k == 6 then u.but.any fun x => x / 2 ^ 16 == p
    else if u.rest then decide ((u.but.filter (d.owns k)).length < d.units k) else u.but.any (d.owns k)

/-- Every resource that a partition owns is marked dirty: those of its masks and its key slots (05 R114 R117). -/
def State.dirtyPart (s : State) (p : Nat) : State :=
  let d := s.part p
  let cs := maskCores d.cores
  let s := s.markDirty 0 cs
  let s := s.markDirty 1 (cs.flatMap fun c => (List.range 128).map (128 * c + ·))
  let s := s.markDirty 2 (cs.flatMap fun c => (List.range 256).map (256 * c + ·))
  let s := s.markDirty 3 cs
  let s := s.markDirty 4 ((List.range 1024).filter fun b => d.banks.getLsbD b)
  let s := s.markDirty 5 (((List.range 768).filter fun c => d.hbm.getLsbD c).flatMap fun c => (List.range 384).map (384 * c + ·))
  s.markDirty 7 ((List.range d.keyCount).map (d.keyBase + ·))

/-- A partition is no longer defined: its descriptor, and what was kept of its pool until its slots were scrubbed (05 R117). -/
def State.dropPart (s : State) (p : Nat) : State :=
  let s := { s with prot := { s.prot with parts := SMap.drop s.prot.parts p } }
  if (SMap.get s.eth.pools p {}).gone then
    ({ s with eth := { s.eth with pools := SMap.drop s.eth.pools p } }).modChip fun c => { c with
      failed := SMap.upd c.failed 6 [] fun l => l.filter fun u => u / 2 ^ 16 != p
      once := SMap.upd c.once 6 [] fun l => l.filter fun u => u / 2 ^ 16 != p }
  else s

/-- A partition command whose scrub has ended completes (05 R116 R117). DEDUCED [log 55]. -/
def State.settlePart (s : State) (p : Nat) : State :=
  let d := s.part p
  if (d.st == 1 || d.st == 3) && !(s.partDirty p) &&
      !((List.range 4096).any fun k => d.st == 3 && d.owns 7 k && (s.keySlotAt k).st == 2) then
    let s := if d.st == 1 then s.modPart p fun d => { d with st := 2, cmd := none }
      else s.dropPart p
    match d.cmd.bind s.cmdOf with
    | some c => s.complete c 0 0
    | none => s
  else s

/-! The end of Ethernet requests and sessions (02 R47 R51 R53 R56). -/

/-- Session slot `i`. -/
def State.sess (s : State) (i : Nat) : Session := SMap.get s.eth.sessions i {}

/-- A session slot changed. -/
def State.modSess (s : State) (i : Nat) (g : Session → Session) : State :=
  { s with eth := { s.eth with sessions := SMap.upd s.eth.sessions i {} g } }

/-- A request in flight. -/
def State.ereq (s : State) (id : Nat) : Option Request := SMap.get s.eth.requests id none

/-- A request replaced. -/
def State.setEreq (s : State) (id : Nat) (r : Option Request) : State :=
  { s with eth := { s.eth with requests := SMap.set s.eth.requests id r none } }

/-- Slots of a pair are marked dirty, and so stay held until they are scrubbed (02 R56). -/
def State.dirtySlots (s : State) (p pair : Nat) : State := s.markDirty 6 [slotUnit p pair 0, slotUnit p pair 1]

/-- A request leaves: its slots pass to the Chipper. -/
def State.dropEreq (s : State) (id : Nat) : State :=
  match s.ereq id with
  | some r => (s.dirtySlots r.part r.pair).setEreq id none
  | none => s

/-- A launch of session slot `i` is still in the launch table or at intake (02 R47). -/
def State.sessBusy (s : State) (i : Nat) : Bool :=
  s.eth.requests.any fun e => match e.2 with | some r => r.slot == i | none => false

/-- A LAPSED session with no launch left is zeroised and FREE (02 R47 R51). -/
def State.settleSess (s : State) (i : Nat) : State :=
  if (s.sess i).st == SessState.lapsed && !(s.sessBusy i) then { s with eth := { s.eth with sessions := SMap.drop s.eth.sessions i } } else s

/-- A session lapses: requests in reassembly are discarded and their slots freed (02 R51). One that is complete and not yet bound goes on
to its binding: the manual does not say. DESIGN CHOICE [log 95]. -/
def State.lapse (s : State) (i : Nat) : State :=
  if (s.sess i).st != SessState.openS then s
  else
    let s := s.modSess i fun e => { e with st := .lapsed }
    let ids := (s.eth.requests.filter fun e => match e.2 with | some r => r.slot == i && !r.complete | none => false).map (·.1)
    (ids.foldl (fun s id => s.dropEreq id) s).settleSess i

/-- The binding of key slot `k` is withdrawn: its sessions lapse, and one still in HALF is FREE again (02 R51). DEDUCED [log 98]. -/
def State.withdrawBinding (s : State) (k : Nat) : State :=
  ((s.eth.sessions.filter fun e => e.2.binding == k).map (·.1)).foldl (fun s i =>
    if (s.sess i).st == .half then { s with eth := { s.eth with sessions := SMap.drop s.eth.sessions i } } else s.lapse i) s

/-- Key slot `k` is zeroised; an admission key was the binding of sessions, which lapse with it (02 R51, 05 R129). -/
def State.zeroiseSlot (s : State) (k : Nat) : State :=
  let x := s.keySlotAt k
  if x.st == 1 && x.purp == 1 then (s.zeroise k).withdrawBinding k else s.zeroise k

/-! Teardown (05 R123). -/

/-- Micro-context `m`. -/
def State.mcb (s : State) (m : Nat) : Mcb := SMap.get s.prot.mcbs m {}

/-- The 256 bytes of an MCB (05 R119 R120). -/
def Mcb.bytes (b : Mcb) (m : Nat) : List Byte :=
  natLe 2 m ++ natLe 1 b.st ++ natLe 1 b.part ++ natLe 1 b.prio ++ natLe 1 b.bucket ++ natLe 2 b.keySlot ++ natLe 8 b.ptRoot ++
    natLe 4 b.vqn ++ natLe 4 0 ++ padTo b.handle 32 ++ natLe 2 b.bind ++ natLe 6 0 ++ natLe 8 b.epTab ++ natLe 8 b.fwBase ++
    natLe 8 b.fwLen ++ natLe 8 b.reqLr ++ natLe 8 b.dumpBase ++ natLe 4 b.dumpMax ++ natLe 20 0 ++
    natLe 2 b.running ++ natLe 1 b.st ++ natLe 1 b.reason ++
    natLe 4 (match b.backLink with | some e => e / 4 + e % 4 * 2 ^ 14 + 2 ^ 16 | none => 0) ++ natLe 8 b.terminations ++ natLe 112 0

/-- Micro-context `m` changed, and with it the copy that the house reads (05 R120, 19 R505). -/
def State.modMcb (s : State) (m : Nat) (g : Mcb → Mcb) : State :=
  let s := { s with prot := { s.prot with mcbs := SMap.upd s.prot.mcbs m {} g } }
  match s.mem.mcbBase with
  | some base => s.houseLines (base + 256 * m) 1 ((s.mcb m).bytes m)
  | none => s

/-- The pages whose owner tag is `m`, and which a scrub can still clear: a page marked failed waits for none. DEDUCED [log 82]. -/
def State.taggedPages (s : State) (m : Nat) : List Nat := (s.mem.pageTag.filter fun e => e.2 == m && !(s.memFailed (e.1 * 0x200000))).map (·.1)

/-- A micro-context becomes FREE: its device area is zero (05 R120 R122). -/
def State.freeMcb (s : State) (m : Nat) : State :=
  { (s.modMcb m fun b => { b with st := 0, running := 0, reason := 0, backLink := none, terminations := 0, scrubbing := false }) with
    circ := { s.circ with templates := SMap.drop s.circ.templates m } }

/-- WRITEs and SENDs for micro-context `m` that are not performed yet are dropped: their pages are no longer its own. DEDUCED [log 77]. -/
def State.dropArriving (s : State) (m : Nat) : State :=
  { s with mem := { s.mem with net := s.mem.net.filter fun r => match r.kind with | .arriving p _ => p.dmcx != m | _ => true } }

/-- TEARDOWN goes on: once no launch of a CLOSING micro-context is left, its Catalog entry is cleared, its key slot zeroised and its
pages marked dirty; once those are scrubbed it is FREE (05 R123). A key slot that still has launches bound to it stays LOADED (05 R129).
DEDUCED [log 55]. -/
def State.teardown (s : State) (m : Nat) : State :=
  let b := s.mcb m
  if b.st != 2 then s
  else if b.scrubbing then (if (s.taggedPages m).isEmpty then s.freeMcb m else s)
  else if s.circ.launches.any fun e => match e.2 with | some l => !l.house && l.mcx == m | none => false then s
  else
    let s := match b.backLink with
      | some e => { s with eth := { s.eth with catalog := SMap.drop s.eth.catalog e } }
      | none => s
    let x := s.keySlotAt b.keySlot
    let s := if x.binds == 0 && x.st == 1 then s.zeroiseSlot b.keySlot else s
    let pages := s.taggedPages m
    let s := pages.foldl (fun s p => s.markDirty (pageUnit p).1 [(pageUnit p).2]) s
    let s := (s.modMcb m fun b => { b with backLink := none, scrubbing := true }).dropArriving m
    if pages.isEmpty then s.freeMcb m else s

/-- A segment's entry as the house's table has it (08 R238). The house gives every field but STATE, which it only returns to EMPTY: the other
values are the Skidder's. DEDUCED [log 83]. -/
def segEntry (b : List Byte) (old : Segment) : Segment :=
  let e := { old with
    hash := b.take 32, page := leAt b 32 8, sources := leAt b 41 1, mappings := leAt b 44 4, flash := leAt b 48 8, peer := leAt b 56 2 % 2048 }
  if b.all (· == 0) then {} else if leAt b 40 1 == 0 then { e with st := 0, retried := false } else e

/-- Entry `i` of the house's segment table has been stored to. A page that it no longer names is freed, and so dirty (08 R238). -/
def State.segStored (s : State) (base i : Nat) : State :=
  let old := s.seg i
  let new := segEntry (s.phys (base + 64 * i) 64) old
  let s := s.setSeg i new
  if old.page != 0 && new.page != old.page then
    s.markDirty (pageUnit (old.page / 0x200000)).1 [(pageUnit (old.page / 0x200000)).2]
  else s

/-- A house store of `n` bytes at `pa`: the entries of the segment table that it reaches (08 R238). -/
def State.segStore (s : State) (pa n : Nat) : State :=
  match s.mem.segBase with
  | none => s
  | some base =>
    if base ≤ pa ∧ pa < base + 64 * 65536 ∧ 0 < n then
      (List.range ((pa + n - 1 - base) / 64 + 1 - (pa - base) / 64)).foldl (fun s k => s.segStored base ((pa - base) / 64 + k)) s
    else s

/-- A house store of 0 to the current-state byte of a micro-context's MCB ends its teardown (19 R505). -/
def State.mcbStore (s : State) (pa : Nat) (bs : List Byte) (mask : List Bool) : State :=
  match s.mem.mcbBase with
  | none => s
  | some base =>
    let wrote (m : Nat) : Bool :=
      let i := base + 256 * m + 130 - pa
      decide (pa ≤ base + 256 * m + 130) && mask.getD i false && bs.getD i 1 == 0
    let m := (pa - base) / 256
    if base ≤ pa + 130 ∧ m < 8192 ∧ wrote m = true ∧ (s.mcb m).st = 2 then s.freeMcb m else s

/-! UNIT_SCRUB_DONE (05 R143 R145). -/

/-- A unit whose scrub failed twice is marked failed and never assigned (05 R145). -/
def State.failUnit (s : State) (k u : Nat) : State :=
  let s := s.modChip fun c => { c with
    fail := sat48 c.fail 1
    failed := SMap.upd c.failed k [] fun l => withElem l u
    once := SMap.upd c.once k [] fun l => without l u
    dirty := SMap.upd c.dirty k {} fun d => d.put u false }
  match k with
  | 0 => s.modCore u fun c => { c with failed := true }
  | 7 => s.setKeySlot u { failed := true }
  | _ => s

/-! The order of scrubs (05 R143). -/

/-- The core to whose memories a unit of class 0 to 3 belongs. -/
def coreOfUnit (k u : Nat) : Nat := match k with | 1 => u / 128 | 2 => u / 256 | _ => u

/-- Whether a waiting binding needs a unit of a core: the core's own launch waits for what it uses there, and a launch on the wait list of
the core's partition for the core to be free (05 R143). DEDUCED [log 55]. -/
def State.unitNeeded (s : State) (k u : Nat) : Bool :=
  let c := coreOfUnit k u
  match SMap.get s.circ.owner c none with
  | some n =>
    !(s.core c).loaded && (k != 1 || (match s.launchAt n with | some l => decide (u % 128 < l.record.spb) | none => false))
  | none => k == 0 && (SMap.get s.circ.waits ((s.partOfCore c).getD 32) []) != []

/-- The dirty units of core `c`'s memories, by class and index. -/
def State.coreDirt (s : State) (c : Nat) : List (Nat × Nat) :=
  ([(0, c)] ++ (List.range 128).map (fun b => (1, 128 * c + b)) ++ (List.range 256).map (fun b => (2, 256 * c + b)) ++ [(3, c)]).filter
    fun x => s.isDirty x.1 x.2

/-- The unit of core `c` that is scrubbed next: those that a waiting binding needs first, then in ascending class and index (05 R143). -/
def State.coreScrub (s : State) (c : Nat) : Option (Nat × Nat) :=
  ((s.coreDirt c).find? fun x => s.unitNeeded x.1 x.2).or (s.coreDirt c).head?

/-- The Stacks bank in which a slot unit of class 6 lies. -/
def State.slotBank (s : State) (u : Nat) : Nat :=
  (SMap.get s.eth.pools (u / 2 ^ 16) {}).slotAddr (u % 2 ^ 16 / 2) (u % 2) / 0x200000

/-- It is the turn of dirty unit `u` of class `k`: scrubs of different cores, banks and stacks run in parallel; on one core, in one bank
or stack, and in the Vault they go in the order of R143. DEDUCED [log 55]. -/
def State.scrubTurn (s : State) (k u : Nat) : Bool :=
  if k < 4 then s.coreScrub (coreOfUnit k u) == some (k, u)
  else if k == 4 then true
  else if k == 5 then (List.range (u % 24576)).all fun i => !(s.isDirty 5 (u / 24576 * 24576 + i))
  else if k == 6 then !(s.isDirty 4 (s.slotBank u)) && (s.dirtySet 6).but.all fun x => decide (u ≤ x) || s.slotBank x != s.slotBank u
  else (List.range u).all fun i => !(s.isDirty 7 i)

/-- Partition commands that wait for a scrub or a zeroisation go on. DEDUCED [log 55]. -/
def State.settleParts (s : State) : State :=
  (s.prot.parts.filter fun e => e.2.st == 1 || e.2.st == 3).foldl (fun s e => s.settlePart e.1) s

/-- What waits for scrubs: slot pairs, partition commands, teardowns. DEDUCED [log 55]. -/
def State.afterScrub (s : State) (k u : Nat) : State :=
  let s := if k == 6 then s.freePair (u / 2 ^ 16) (u % 2 ^ 16 / 2) else s
  let s := if k == 4 || k == 5 then (s.prot.mcbs.filter fun e => e.2.scrubbing).foldl (fun s e => s.teardown e.1) s else s
  s.settleParts

/-- KEY_ZEROISE_DONE: slot `a` is EMPTY, and a withdrawal that waited for it may complete (05 R117 R129). DEDUCED [log 71]. -/
def execKeyZeroiseDone (s : State) : Res :=
  let x := s.keySlotAt s.ev.a
  .next (if x.st == 2 then (s.setKeySlot s.ev.a { failed := x.failed }).settleParts else s)

/-- UNIT_SCRUB_DONE: the scrub of unit `b` of class `a` ends, well with the flag; a first failure repeats it, a second marks the unit
failed; a unit whose turn has not come is not scrubbed yet (05 R143 R145). -/
def execUnitScrubDone (s : State) : Res :=
  let k := s.ev.a
  let u := s.ev.b
  .next (if !(s.isDirty k u) || !(s.scrubTurn k u) || s.pkg.held || s.pkg.tripped then s
    else if s.ev.flag then
      let s := (s.scrubUnit k u).modChip fun c => { c with
        done := sat48 c.done 1
        once := SMap.upd c.once k [] fun l => without l u
        dirty := SMap.upd c.dirty k {} fun d => d.put u false }
      s.afterScrub k u
    else if (SMap.get s.prot.chip.once k []).contains u then (s.failUnit k u).afterScrub k u
    else s.modChip fun c => { c with once := SMap.upd c.once k [] fun l => withElem l u })

/-! CHP.TMARK (19 R504). -/

/-- A house write of CHP.TMARK: a scan of the page tag table begins; the pages it will reach are marked dirty (19 R504).
DEDUCED [log 82]. -/
def State.writeTmark (s : State) (v : Nat) : State :=
  let tag := fld v 0 14
  if s.prot.chip.tmBusy || 0x2000 ≤ tag then s
  else
    let pages := s.taggedPages tag
    let s := pages.foldl (fun s p => s.markDirty (pageUnit p).1 [(pageUnit p).2]) s
    s.modChip fun c => { c with tmBusy := true, tmTag := tag, tmLeft := pages }

/-- CHP_TMARK_WRITE: a house write of `value` (19 R504). -/
def execChpTmarkWrite (s : State) : Res := .next (s.writeTmark s.ev.value.toNat)

/-- TMARK_SCAN_DONE: the scan reaches its end and BUSY clears (19 R504). The pages it marks are those tagged at the request. -/
def execTmarkScanDone (s : State) : Res := .next (s.modChip fun c => { c with tmBusy := false })

end Sys2Proof.Machine
end

