-- ==== Sys2Proof/Machine/LoadStore.lean ====
section
/-! DEFINITION. Machine/LoadStore.lean: the load and store slots (16_load_store_instructions.md), but for the two accumulator
forms, which stand with the matrix unit. -/
namespace Sys2Proof.Machine

/-! Checks at issue (16 R451). -/

/-- What an L or W syllable asks of memory. -/
structure Access where
  y : Syll
  f : LW
  /-- access path: 0 ls, 1 bu -/
  path : Nat := 0
  write : Bool := false
  bank : Bool := false
  /-- the form must address a Stacks page -/
  inStk : Bool := false
  align : Nat := 1
  ea : Nat
  n : Nat
  /-- reader count a store names -/
  count : Nat := 0
deriving DecidableEq, Repr

/-- Alignment for a size: the size itself up to 16 bytes, 16 above (16 R450). -/
def alignOf (n : Nat) : Nat := min n 16

/-- An access inside the scratchpad window crosses a bank boundary (08 R225, 16 R450). -/
def crossesBank (ea n : Nat) : Bool :=
  decide (0x7FFE00000000 ≤ ea ∧ ea < 0x7FFE00200000) &&
  (ea - 0x7FFE00000000) / 0x4000 != (ea - 0x7FFE00000000 + n - 1) / 0x4000

/-- Where a piece lies in the scratchpad window. -/
def Piece.spad (p : Piece) : Option Nat := match p.x.dest with | .spad o => some o | _ => none

/-- A piece lies in a Stacks bank. -/
def Piece.inStacks (p : Piece) : Bool :=
  match p.x.dest with
  | .mem pa => (match placeOf pa with | .stacks _ => true | _ => false)
  | _ => false

/-- The physical address a piece's request carries: windows keep the place the physical map gives them (08 R210). -/
def Target.addr (t : Target) : Nat :=
  match t with
  | .spad _ => 0
  | .mem pa => pa
  | .house o => 0xF000000000 + o
  | .host a => 0x10000000000 + a

/-- An address fault's DETAIL: write in bit 15, walk level in [2:0] (11 R309). -/
def faultDetail (write : Bool) (lvl : Nat) : Nat := b2n write * 2 ^ 15 + lvl

/-- The bank cause's TVA for launch bank `b` (11 R310). -/
def bankTva (b : Nat) : Nat := 0x7FFE00000000 + 0x4000 * b

/-- Steps 2 to 7 of R451 in order, each over the whole range. -/
def accessChecks (a : Access) (s : State) (k : List Piece → State → Res) : Res :=
  if a.ea % a.align != 0 || crossesBank a.ea a.n then trap 0x0103 0 a.ea a.path s
  else match cutAccess s (s.who s.launch) a.write a.ea a.n with
    | .error (c, l, va) => trap c (faultDetail a.write l) va a.path s
    | .ok ps =>
      match ps.find? fun p => (a.bank && p.x.cn) || (a.inStk && p.spad.isNone && !p.inStacks) with
      | some p => trap ACCESS (faultDetail a.write p.x.lvl) p.va a.path s
      | none =>
        if a.bank && ps.any (fun p => p.spad.isSome) then trap 0x0006 0 a.ea a.path s
        else if a.f.fe != 0 && ps.any (fun p => p.spad.isNone) then trap 0x0007 0 a.ea a.path s
        else match ps.find? fun p => a.count != 0 && !p.x.cn with
          | some p => trap ACCESS (faultDetail a.write p.x.lvl) p.va a.path s
          | none =>
            match ps.findSome? fun p => match p.spad with
                | some o => if (s.ctx.spadPhys o).isNone then some (o / 0x4000) else none
                | none => none with
            | some b => trap 0x0104 (b % 256) (bankTva b) a.path s
            | none => k ps s

/-- The checks of an access: step 1 gives ILLOP with TVA the effective address (16 R451). DEDUCED [log 26]. -/
def checkedAccess (a : Access) (names : Bool) (s : State) (k : List Piece → State → Res) : Res :=
  if a.y.fits && a.y.legal && names then accessChecks a s k else trap 0x0001 a.y.detail a.ea 15 s

/-! Byte lanes (16 R452). -/

/-- Active byte lanes of a form of `n` bytes under Q[qp], applied to each 256-byte part. -/
def activeLanes (q : BitVec 256) (n : Nat) : List Bool := (List.range n).map fun i => q.getLsbD (i % 256)

/-- Each 2,048-bit register's bit mask from byte lanes. -/
def laneMasks (act : List Bool) (span : Nat) : List VWord := (pieces 256 span act).map (maskBits 2048)

/-- The qualifiers of a syllable. -/
def acqOf (f : LW) : Bool := f.ord % 2 == 1
/-- See acq. -/
def relOf (f : LW) : Bool := f.ord / 2 == 1

/-- An acquire empties the scalar data cache (09 R250 R252). -/
def acquireNow (acq : Bool) (s : State) : State := if acq then s.invalidate s.cur else s

/-! Scratchpad accesses: performed at issue (16 R453 R458 R467). -/

/-- An acquire of core `c` between requests `a` and `b` is not performed: what follows it waits (09 R252). -/
def State.acquireOpen (s : State) (c a b : Nat) : Bool :=
  s.mem.net.any fun r => r.core == c && a ≤ r.id && r.id < b && r.lsbu && r.acq && r.open_.any fun p => p.ok != 2

/-- A scratchpad access of the ls path waits: a scratchpad access of an earlier bundle is still held (09 R248, 16 R467), an acquire
of an earlier bundle is not performed (09 R252), or a fence or pfence of an earlier bundle holds the path (09 R257 R258). DEDUCED [log 38]. -/
def State.spadHeld (s : State) (write : Bool) : Bool :=
  (s.mem.net.any fun r => r.core == s.cur && r.id < s.th.reqStart && r.parts.any fun p => decide (2 ^ 50 ≤ p.addr) && !p.done) ||
  s.acquireOpen s.cur 0 s.th.reqStart || s.heldBack s.cur 0 s.th.reqStart write

/-- An access on `ls` or `bu` of an earlier bundle is not performed: a release store to scratchpad waits for it. -/
def State.lsbuOpen (s : State) : Bool := s.lsbuBefore s.cur s.th.reqStart

/-- Granules all full, or all empty. -/
def CoreSt.granulesAre (k : CoreSt) (gs : List Nat) (full : Bool) : Bool := gs.all fun g => k.full.contains g == full

/-- The full-empty test of a load passes (08 R226). -/
def feLoadReady (fe : Nat) (k : CoreSt) (gs : List Nat) : Bool := fe == 0 || k.granulesAre gs true

/-- The full-empty test of a store passes (08 R226). -/
def feStoreReady (fe : Nat) (k : CoreSt) (gs : List Nat) : Bool := fe != 1 || k.granulesAre gs false

/-- Where a request carries scratchpad byte `p` of core `c` that is not performed at issue (16 R467). -/
def heldAddr (c p : Nat) : Nat := 2 ^ 50 + c * 2 ^ 21 + p

/-- Write scratchpad bytes now, or hold the write: a release behind the pending accesses of its own bundle (16 R467), any behind an
acquire of its own bundle (09 R252). DEDUCED [log 38]. -/
def spadStore (p : Nat) (bs : List Byte) (act : List Bool) (rel : Bool) (fe : Nat) (s : State) : State :=
  if (rel && s.lsbuBefore s.cur s.mem.nextReq) || s.acquireOpen s.cur s.th.reqStart s.mem.nextReq then
    s.send { core := s.cur, launch := s.slotNo, strand := s.strandNo, path := 0, kind := .store, rel := rel,
             parts := [{ addr := heldAddr s.cur p, len := bs.length, ok := 0 }],
             data := bs, mask := act, stamp := b2n (fe != 0), pc := s.th.bpc, slot := s.th.slot }
  else
    s.modCore s.cur fun k =>
      let k := { k with spad := Memory.writeMask k.spad p bs act }
      if fe != 0 then k.setFull (granules p bs.length) true else k

/-- What a load does with its bytes at latency `n`, by type: 0 to 7 scalar, 8 vector, 9 predicate (16 R455 to R457). -/
def landBytes (n ty d : Nat) (bs : List Byte) (act : List Bool) (s : State) : State :=
  if ty == 9 then s.landQ n d (bytesBv 256 bs) 0
  else if ty == 8 then
    let span := bs.length / 256
    s.modTh fun th => th.landVg n (vgroup th.rot d span) ((pieces 256 span bs).map (bytesBv 2048)) (laneMasks act span) 0
  else s.landS n d (tyExtend ty (leNat bs))

/-- The registers a load of a type fills. -/
def loadRegs (ty d n : Nat) (rot : Word) : List Reg :=
  if ty == 9 then [.q d] else if ty == 8 then (vgroup rot d (n / 256)).map Reg.v else [.s d]

/-- A load that lies in the scratchpad (16 R453): exposed at latency 4. -/
def spadLoad (a : Access) (ty off : Nat) (act : List Bool) (s : State) : Res :=
  let p := (s.ctx.spadPhys off).getD 0
  let gs := granules p a.n
  let k := s.core s.cur
  if s.spadHeld false || !(feLoadReady a.f.fe k gs) then stall s
  else
    let s := acquireNow (acqOf a.f) s
    let s := if a.f.fe == 2 then s.modCore s.cur fun k => k.setFull gs false else s
    .next (landBytes 4 ty a.f.d (k.spadRead p a.n) act s)

/-! Requests to home slices (16 R453). -/

/-- The part of a request that a piece gives: done at once where it lies in scratchpad or holds no active byte. -/
def Piece.part (p : Piece) (act : List Bool) : Part :=
  { addr := p.x.dest.addr, len := p.len, off := p.off, va := p.va, ok := p.x.ok, cn := p.x.cn, tag := p.x.tag
    done := p.spad.isSome || !((slice act p.off p.len).any id) }

/-- A request as a syllable of the issuing core sends it. -/
def Access.request (a : Access) (kind : ReqKind) (ps : List Piece) (data : List Byte) (act : List Bool) (s : State) : Req :=
  { id := s.mem.nextReq, core := s.cur, launch := s.slotNo, strand := s.strandNo, path := a.path, kind := kind
    acq := (acqOf a.f), rel := (relOf a.f), scope := a.f.scope, parts := ps.map fun p => p.part act, data := data, mask := act
    stamp := a.count, pc := s.th.bpc, slot := s.th.slot }

/-- The qualifiers act on some page that is not unordered (09 R252 R253). -/
def ordersSome (ps : List Piece) : Bool := ps.any fun p => p.x.ok != 2

/-- A piece of a load may be served by the scalar data cache (16 R453, 08 R224, 09 R250). -/
def Piece.cacheable (p : Piece) (acq : Bool) : Bool :=
  match p.x.dest with
  | .mem _ => !p.x.cn && p.x.ok != 0 && (!acq || p.x.ok == 2)
  | _ => false

/-- The cached line at a physical address. -/
def CoreSt.cached (k : CoreSt) (pa : Nat) : Option (BitVec 1024) := SMap.get k.dcache (pa / 128) none

/-- A hit may be taken: every line cached, no earlier acquire open, no earlier access to the same bytes open (09 R250 R252).
DESIGN CHOICE [log 36]. -/
def hitAllowed (ps : List Piece) (s : State) : Bool :=
  ps.all (fun p => ((s.core s.cur).cached p.x.dest.addr).isSome) && !(s.heldBack s.cur 0 s.mem.nextReq false) &&
  !(s.mem.net.any fun e => e.core == s.cur && e.lsbu &&
      ((e.acq && e.open_.any fun q => q.ok != 2) ||
        e.open_.any fun q => ps.any fun p => overlap q.addr q.len p.x.dest.addr p.len))

/-- Bytes of a cached line. -/
def lineBytes (l : BitVec 1024) (off n : Nat) : List Byte := slice ((List.range 128).map fun i => l.extractLsb' (8 * i) 8) off n

/-- Cached lines of the issuing core take a store's bytes at issue (08 R224). DESIGN CHOICE [log 36]. -/
def cacheStore (c pa : Nat) (bs : List Byte) (act : List Bool) (s : State) : State :=
  s.modCore c fun k =>
    match k.cached pa with
    | none => k
    | some l =>
      let old := lineBytes l 0 128
      let new := (List.range 128).map fun i =>
        let j := i - pa % 128
        if pa % 128 ≤ i ∧ act.getD j false then bs.getD j 0 else old.getD i 0
      { k with dcache := SMap.set k.dcache (pa / 128) (some (bytesBv 1024 new)) none }

/-- Lines leave a core's scalar data cache. DESIGN CHOICE [log 36]. -/
def cacheDrop (c : Nat) (lines : List Nat) (s : State) : State :=
  s.modCore c fun k => { k with dcache := k.dcache.filter fun p => !(lines.contains p.1) }

/-- The part of a straddling load that lies in scratchpad: an acquire reads it after its parts in memory, which lie below (09 R249 R252). -/
def Piece.heldPart (p : Piece) (s : State) (acq : Bool) (act : List Bool) : Part :=
  match p.spad with
  | some o => if acq then { p.part act with addr := heldAddr s.cur ((s.ctx.spadPhys o).getD 0), ok := 0, done := !((slice act p.off p.len).any id) } else p.part act
  | none => p.part act

/-- A pending load (16 R453): by the cache where that may serve and does, else by its home slices. A part in scratchpad waits as a
scratchpad load does (09 R249). -/
def memLoad (a : Access) (ty : Nat) (ps : List Piece) (act : List Bool) (s : State) : Res :=
  let regs := loadRegs ty a.f.d a.n s.th.rot
  let from_ (p : Piece) : List Byte :=
    match p.spad with
    | some o => (s.core s.cur).spadRead ((s.ctx.spadPhys o).getD 0) p.len
    | none => List.replicate p.len 0
  if 64 < s.th.outstanding + max 1 regs.length || ((ps.any fun p => p.spad.isSome) && s.spadHeld false) then stall s
  else if !(act.any id) then .next s
  else
    let cacheable := ty ≤ 9 && ty != 8 && ps.all fun p => p.cacheable (acqOf a.f)
    let r := { a.request .load ps (ps.flatMap from_) act s with
      parts := ps.map fun (p : Piece) => p.heldPart s (acqOf a.f) act, pend := some s.mem.nextReq, ty := ty, cacheable := cacheable }
    let mark (s : State) : State := s.modTh fun th => th.setPending r.id regs
    if cacheable && hitAllowed ps s && Config.cacheHit s.free then
      match ps.find? fun p => (s.line p.x.dest.addr).cipher with
      | some p => .next (trapAt FORM 0 p.va a.path s).draw
      | none =>
        let bytes := ps.flatMap fun p => match (s.core s.cur).cached p.x.dest.addr with
          | some l => lineBytes l (p.x.dest.addr % 128) p.len
          | none => []
        .next (mark (s.draw.send { r with data := bytes, parts := [], ready := true }))
    else
      .next (mark ((acquireNow ((acqOf a.f) && ordersSome ps) s).draw.send { r with ready := r.performed }))

/-- A load form: checks, then scratchpad or memory. -/
def loadForm (op ty : Nat) (f : LW) (ea n span : Nat) (s : State) : Res :=
  let a : Access := { y := .l op f, f := f, align := alignOf n, ea := ea, n := n }
  checkedAccess a (ty != 8 || vnamesOk s.th.rot f.d span) s fun ps s =>
    let act := activeLanes (s.th.rQ f.qp) n
    match ps.map Piece.spad with
    | [some off] => spadLoad a ty off act s
    | _ => memLoad a ty ps act s

/-- A store to memory: it is sent, and the cache takes its bytes (16 R453). A part in scratchpad, which lies above the rest, waits and is
held as a scratchpad store with the same qualifier (09 R249, 16 R467). -/
def memStore (a : Access) (ps : List Piece) (bs : List Byte) (act : List Bool) (s : State) : Res :=
  let inSpad := ps.any fun p => p.spad.isSome
  if 128 ≤ s.storesOut s.cur || (inSpad && (s.spadHeld true || (relOf a.f && s.lsbuOpen))) then stall s
  else
    let now (s : State) (p : Piece) : State :=
      let b := slice bs p.off p.len
      let m := slice act p.off p.len
      match p.x.dest with
      | .spad o => spadStore ((s.ctx.spadPhys o).getD 0) b m (relOf a.f) 0 s
      | .mem pa => cacheStore s.cur pa b m s
      | _ => s
    let r := a.request .store ps bs act s
    .next (ps.foldl now (if r.performed then s else s.send r))

/-- A store form. -/
def storeForm (op : Nat) (f : LW) (ea : Nat) (bs : List Byte) (names : Bool) (count : Nat) (s : State) : Res :=
  let n := bs.length
  let a : Access := { y := .w op f, f := f, write := true, align := alignOf n, ea := ea, n := n, count := count }
  checkedAccess a names s fun ps s =>
    let act := activeLanes (s.th.rQ f.qp) n
    match ps.map Piece.spad with
    | [some off] =>
      let p := (s.ctx.spadPhys off).getD 0
      if s.spadHeld true || (relOf f && s.lsbuOpen) || !(feStoreReady f.fe (s.core s.cur) (granules p n)) then stall s
      else .next (spadStore p bs act (relOf f) f.fe s)
    | _ => memStore a ps bs act s

/-- The bytes of a group of vector registers. -/
def State.groupBytes (s : State) (d span : Nat) : List Byte := (s.th.rVg d span).flatMap vBytes

/-! Loads (16 R455 to R457). -/

/-- lds: a scalar from memory, extended by its type (16 R455). -/
def execLds (f : LW) (s : State) : Res := loadForm 1 f.ty f (lwAddress f s) (tyBytes f.ty) 0 s

/-- ldv: 256 bytes to V[d] (16 R456). -/
def execLdv (f : LW) (s : State) : Res := loadForm 2 8 f (lwAddress f s) 256 1 s

/-- ldvg: G registers, register k from bytes 256 k on (16 R456). -/
def execLdvg (f : LW) (s : State) : Res := loadForm 3 8 f (lwAddress f s) (256 * 2 ^ f.ty) (2 ^ f.ty) s

/-- ldx: a scalar at an indexed address (16 R455). -/
def execLdx (f : LW) (s : State) : Res := loadForm 4 f.ty f (lwIndexed f s) (tyBytes f.ty) 0 s

/-- ldq: 32 bytes to Q[d]; into q0 discarded (16 R457). -/
def execLdq (f : LW) (s : State) : Res := loadForm 7 9 f (lwAddress f s) 32 0 s

/-! Stores (16 R455 to R457). -/

/-- sts: the low bytes of S[d] (16 R455). -/
def execSts (f : LW) (s : State) : Res := storeForm 1 f (lwAddress f s) (natLe (tyBytes f.ty) (s.rS f.d).toNat) true 0 s

/-- stv: V[d] to 256 bytes, with a reader count (16 R456). -/
def execStv (f : LW) (s : State) : Res :=
  storeForm 2 f (lwAddress f s) (s.groupBytes f.d 1) (vnamesOk s.th.rot f.d 1) f.idx s

/-- stvg: G registers (16 R456). -/
def execStvg (f : LW) (s : State) : Res :=
  storeForm 3 f (lwAddress f s) (s.groupBytes f.d (2 ^ f.ty)) (vnamesOk s.th.rot f.d (2 ^ f.ty)) f.idx s

/-- stx: a scalar to an indexed address (16 R455). -/
def execStx (f : LW) (s : State) : Res := storeForm 4 f (lwIndexed f s) (natLe (tyBytes f.ty) (s.rS f.d).toNat) true 0 s

/-- stq: Q[d] to 32 bytes; q0 gives 0xFF bytes (16 R457). -/
def execStq (f : LW) (s : State) : Res := storeForm 7 f (lwAddress f s) (natLe 32 (s.th.rQ f.d).toNat) true 0 s

/-! Buffer forms (16 R459 R460). -/

/-- The checks of ldcb and stcb: handle, alignment and slot range, ownership; then `k` with the launch scratchpad offset.
DEDUCED [log 26]. -/
def bufferChecks (y : Syll) (f : LW) (slot : Handle → Nat) (s : State) (k : Nat → Handle → State → Res) : Res :=
  if !(y.fits && y.legal && vnamesOk s.th.rot f.d 1 && s.handleOk f.idx) then illop y s
  else
    let d := s.ctx.handle f.idx
    let off := sext f.off 21
    let at_ := s.ctx.slotOff f.idx (slot d)
    if off % 256 != 0 || off < 0 || (hSize (s.ctx.setupOf f.idx) : Int) < off + 256 then
      trap 0x0103 0 (((0x7FFE00000000 + at_ : Nat) : Int) + off).toNat 0 s
    else
      let o := at_ + off.toNat
      if (s.ctx.spadPhys o).isNone then trap 0x0104 (o / 0x4000 % 256) (bankTva (o / 0x4000)) 0 s
      else k o d s

/-- ldcb: 256 bytes of the slot at CP, consuming with `.cons` (16 R459). -/
def execLdcb (f : LW) (s : State) : Res :=
  bufferChecks (.l 5 f) f (·.cp) s fun o d s =>
    match d.atCp with
    | none => stall s
    | some false => overRead 0 s
    | some true =>
      if s.spadHeld false then stall s
      else
        let bs := (s.core s.cur).spadRead ((s.ctx.spadPhys o).getD 0) 256
        let slots := hSlots (s.ctx.setupOf f.idx)
        let s := acquireNow (acqOf f) s
        let s := if f.x == 1 then s.modHandle f.idx fun d => d.consumed slots d.cp else s
        .next (landBytes 4 8 f.d bs (activeLanes (s.th.rQ f.qp) 256) s)

/-- stcb: V[d] into the slot at PP, which is claimed (16 R460). -/
def execStcb (f : LW) (s : State) : Res :=
  bufferChecks (.w 5 f) f (·.pp) s fun o d s =>
    if !(d.writable d.pp) || s.spadHeld true || (relOf f && s.lsbuOpen) then stall s
    else
      let s := s.modHandle f.idx fun d => d.claim d.pp
      .next (spadStore ((s.ctx.spadPhys o).getD 0) (s.groupBytes f.d 1) (activeLanes (s.th.rQ f.qp) 256) (relOf f) 0 s)

/-! Bank operations (16 R462 to R465). -/

/-- A bank operation: checked, then sent to the home slice; the issuing core's cached lines go (09 R250). DEDUCED [log 39]. -/
def bankForm (op : Nat) (f : LW) (returns : Bool) (data : List Byte) (act : List Bool) (opB : Word) (s : State) : Res :=
  let n := if op == 9 then 2 ^ f.idx else bankBytes op f.ty
  let a : Access := { y := .w op f, f := f, path := 1, write := true, bank := true, inStk := decide (18 ≤ op)
                      align := n, ea := lwAddress f s, n := n }
  checkedAccess a (op != 9 || vnamesOk s.th.rot f.d 1) s fun ps s =>
    if 128 ≤ s.storesOut s.cur || (returns && 64 < s.th.outstanding + 1) then stall s
    else if !(act.any id) then .next s
    else
      let r := { a.request (.bank op f.ty) ps data act s with
        opA := s.rS f.idx, opB := opB, key := s.launch.drawKey, pend := if returns then some s.mem.nextReq else none }
      let s := cacheDrop s.cur (ps.map fun p => p.x.dest.addr / 128) (acquireNow (acqOf f && ordersSome ps) s)
      let s := s.send r
      .next (if returns then s.modTh fun th => th.setPending r.id [.s (f.d % 64)] else s)

/-- A bank operation on one number, its expected value or leaf in `opB`. -/
def bankScalar (op : Nat) (f : LW) (opB : Word) (s : State) : Res :=
  bankForm op f true [] (List.replicate (bankBytes op f.ty) true) opB s

/-- aadd (16 R462). -/
def execAadd (f : LW) (s : State) : Res := bankScalar 8 f 0 s

/-- Lanes of aaddf: a lane is active by the bit of its first byte (12 R343, 16 R463). -/
def addActive (q : BitVec 256) (n w : Nat) : List Bool := (List.range n).map fun i => q.getLsbD (i / w * w)

/-- aaddf: a lane-wise float add, nothing returned (16 R463). -/
def execAaddf (f : LW) (s : State) : Res :=
  let n := 2 ^ (f.idx % 8)
  bankForm 9 f false ((s.groupBytes f.d 1).take n) (addActive (s.th.rQ f.qp) n (if f.ty == 0 then 4 else 2)) 0 s

/-- aand (16 R462). -/
def execAand (f : LW) (s : State) : Res := bankScalar 10 f 0 s

/-- aor (16 R462). -/
def execAor (f : LW) (s : State) : Res := bankScalar 11 f 0 s

/-- axor (16 R462). -/
def execAxor (f : LW) (s : State) : Res := bankScalar 12 f 0 s

/-- amin (16 R462, 10 R291 for .fp32). -/
def execAmin (f : LW) (s : State) : Res := bankScalar 13 f 0 s

/-- amax (16 R462, 10 R291 for .fp32). -/
def execAmax (f : LW) (s : State) : Res := bankScalar 14 f 0 s

/-- aswp (16 R462). -/
def execAswp (f : LW) (s : State) : Res := bankScalar 15 f 0 s

/-- acas: S[d] read at issue is the expected value (16 R462). -/
def execAcas (f : LW) (s : State) : Res := bankScalar 16 f (s.rS f.d) s

/-- adec (16 R462). -/
def execAdec (f : LW) (s : State) : Res := bankScalar 17 f 0 s

/-- alpush of S[sv] onto the free list at the address (16 R464). -/
def execAlpush (f : LW) (s : State) : Res := bankScalar 18 f 0 s

/-- alpop from the free list (16 R464). -/
def execAlpop (f : LW) (s : State) : Res := bankScalar 19 f 0 s

/-- adraw of pair S[sp] to leaf k, field [17:14] (16 R465). -/
def execAdraw (f : LW) (s : State) : Res := bankScalar 20 f (BitVec.ofNat 64 (f.d / 64 % 16)) s

end Sys2Proof.Machine
end

