-- ==== Sys2Proof/Machine/Matrix.lean ====
section
/-! DEFINITION. Machine/Matrix.lean: the matrix slot, accumulator memory with its two load and store forms, and the end of an
issued cycle (15_matrix_scale_instructions.md, 16 R461, 10 R286 to R288). -/
namespace Sys2Proof.Machine

/-! Cells (15 R432 R434). -/

/-- Elements in each cell (15 R432). -/
def perCell (f : Nat) : Nat := if f ≤ 2 then 1 else if f == 5 || f == 6 || f == 7 then 4 else 2

/-- The elements of a cell row or column `i` of a register, at their full value (15 R432). -/
def cellElems (f : Nat) (data : BitVec 2048) (image : BitVec 528) (i : Nat) : List Num :=
  (List.range (perCell f)).map fun t =>
    let k := perCell f * i + t
    scaledElem f (data.extractLsb' (fmtBits f * k) (fmtBits f)).toNat image k

/-- Cell row `i` of a latch: what mshift has moved there, zero past the end (15 R432 R439). -/
def MLatch.cells (l : MLatch) (f i : Nat) : List Num :=
  if i + l.shift < 128 then cellElems f l.data l.image (i + l.shift) else List.replicate (perCell f) (.fin false 0 0)

/-- An integer value of an exact value. -/
def Num.toInt (x : Num) : Int := match x with | .fin n m e => scaled n m e 0 | _ => 0

/-- Exact sum of a list. -/
def Num.sum (l : List Num) : Num := match l with | [] => .fin false 0 0 | a :: r => r.foldl (fun x y => (Num.add false x y).1) a

/-- Absolute value. -/
def Num.abs (x : Num) : Num := match x with | .nan s => .nan s | .inf _ => .inf false | .fin _ m e => .fin false m e

/-- Greatest of a list, with R291's rules for NaN and zeros. -/
def Num.maximum (l : List Num) : Num :=
  match l with
  | [] => .fin false 0 0
  | a :: r => r.foldl (fun x y => (Num.pickMax true x y).1) a

/-- One cell of a beat: the tile element after it (15 R434, 10 R286 R287). -/
def cellBeat (op f : Nat) (xs ys : List Num) (old : Nat) : Nat :=
  if f == 9 || f == 10 then
    let x := xs.map Num.toInt
    let y := ys.map Num.toInt
    let m : Int := (2 ^ 32 : Nat)
    if op == 0 then (((old : Int) + (List.zipWith (· * ·) x y).sum) % m).toNat
    else if op == 1 then (((old : Int) + (List.zipWith (fun a b => ((a - b).natAbs : Int)) x y).sum) % m).toNat
    else
      let t := List.zipWith (· + ·) x y
      let s := t.foldl max (t.headD 0)
      if f == 9 then (max (sext old 32) s % m).toNat else (max (old : Int) s % m).toNat
  else
    let add (a b : Num) : Num := (Num.add false a b).1
    if op == 0 then addFP32 old (rneFP32 (Num.sum (List.zipWith (fun a b => (Num.mul a b).1) xs ys)))
    else if op == 1 then addFP32 old (rneFP32 (Num.sum (List.zipWith (fun a b => (add a b.neg).abs) xs ys)))
    else
      let v := rneFP32 (Num.maximum (List.zipWith add xs ys))
      rneFP32 (Num.pickMax true ((ffmt 0).decode old) ((ffmt 0).decode v)).1

/-! Accumulator memory by blocks of 512 bytes: block 4 b + r is quarter r of bank b, one tile row (15 R432). -/

/-- A block's 128 elements in accumulator memory. -/
def accRow (acc : List Host.Cell) (blk : Nat) : List Nat := (List.range 128).map fun j => leNat (Memory.readN acc (512 * blk + 4 * j) 4)

/-- The bytes of a block. -/
def rowBytes (r : List Nat) : List Byte := r.flatMap (natLe 4)

/-- What one update makes of a block (15 R434 R442, 16 R461). -/
def AccOp.onRow (o : AccOp) (blk : Nat) (r : List Nat) : List Nat :=
  match o with
  | .beat tile op f act row image =>
    if 4 * tile ≤ blk ∧ blk < 4 * tile + 128 then
      let xs := act.cells f (blk - 4 * tile)
      (List.range 128).map fun j => cellBeat op f xs (cellElems f row image j) (r.getD j 0)
    else r
  | .clear tile row => if 4 * tile + row ≤ blk ∧ blk < 4 * tile + 128 then List.replicate 128 0 else r
  | .store addr val mask =>
    if addr / 512 == blk then
      let old : BitVec 4096 := bytesBv 4096 (rowBytes r)
      let sh := 8 * (addr % 512)
      let m : BitVec 4096 := mask.setWidth 4096 <<< sh
      let new := (old &&& ~~~m) ||| ((val.setWidth 4096 <<< sh) &&& m)
      (List.range 128).map fun j => (new.extractLsb' (32 * j) 32).toNat
    else r

/-- An update that a reader at issued cycle `t` sees: every clear, and what was issued at t - 6 or before (15 R435). -/
def AccOp.seen (o : AccOp) (at_ t : Nat) : Bool := match o with | .clear _ _ => true | _ => at_ + 6 ≤ t

/-- A block as a reader at issued cycle `t` sees it: the updates it sees, in issue order (15 R435). DEDUCED [log 40]. -/
def accView (acc : List Host.Cell) (ops : List (Nat × AccOp)) (t blk : Nat) : List Nat :=
  (ops.filter fun o => o.2.seen o.1 t).foldl (fun r o => o.2.onRow blk r) (accRow acc blk)

/-- An update touches a block. -/
def AccOp.touches (o : AccOp) (blk : Nat) : Bool :=
  match o with
  | .beat tile _ _ _ _ _ => decide (4 * tile ≤ blk ∧ blk < 4 * tile + 128)
  | .clear tile row => decide (4 * tile + row ≤ blk ∧ blk < 4 * tile + 128)
  | .store addr _ _ => addr / 512 == blk

/-- Every update folded into accumulator memory, as before a strand leaves the core (15 R444). -/
def CoreSt.settleAcc (k : CoreSt) : CoreSt :=
  let ops := k.ctx.matrix.ops
  let blks := (List.range 1024).filter fun b => ops.any fun o => o.2.touches b
  let acc := blks.foldl (fun a b => Memory.writeN a (512 * b) (rowBytes (ops.foldl (fun r o => o.2.onRow b r) (accRow a b)))) k.acc
  { k with acc := acc, ctx := { k.ctx with matrix := { k.ctx.matrix with ops := [] } } }

/-! Operand passes (15 R436 to R438). -/

/-- The 256 bytes of row or entry `n` of a slot, as a register. -/
def CoreSt.slotRow (k : CoreSt) (h slot n : Nat) : BitVec 2048 :=
  let off := k.ctx.slotOff h slot + 256 * n
  match k.ctx.banks[off / 0x4000]? with
  | some p => bytesBv 2048 (k.spadRead (p * 0x4000 + off % 0x4000) 256)
  | none => 0

/-- An operand pass is complete: a counted slot's count falls (15 R438). -/
def CoreCtx.endPass (x : CoreCtx) (p : Option MPass) : CoreCtx :=
  match p with
  | none => x
  | some p => x.setHandle p.h ((x.handle p.h).consumed (hSlots (x.setupOf p.h)) p.slot)

/-- The weight run of bank `b` at the end of issued cycle `c`: its next row is written (15 R436). DEDUCED [log 40]. -/
def CoreSt.stepRun (c : Nat) (k : CoreSt) (b : Nat) : CoreSt :=
  match SMap.get k.ctx.matrix.run b none with
  | none => k
  | some p =>
    if c ≤ p.since then k
    else
      let m := k.ctx.matrix
      let m := { m with wb := SMap.set m.wb (128 * b + p.row + p.next) (k.slotRow p.h p.slot p.next) 0 }
      if p.left ≤ 1 then
        let x := { k.ctx with matrix := { m with run := SMap.set m.run b none none } }
        { k with ctx := x.endPass (some p) }
      else
        { k with ctx := { k.ctx with matrix :=
          { m with run := SMap.set m.run b (some { p with next := p.next + 1, left := p.left - 1 }) none } } }

/-- A feed reads one entry ahead (09 R258). -/
def CoreSt.readAhead (k : CoreSt) (p : Nat) : CoreSt :=
  match SMap.get k.ctx.matrix.feed p none with
  | none => k
  | some d =>
    if d.left ≤ d.ahead.length then k
    else
      let d := { d with ahead := d.ahead ++ [k.slotRow d.h d.slot (d.next + d.ahead.length)] }
      { k with ctx := { k.ctx with matrix := { k.ctx.matrix with feed := SMap.set k.ctx.matrix.feed p (some d) none } } }

/-- The operand passes go on in a cycle that issues nothing, where a fence waits for them (09 R258). DEDUCED [log 40]. -/
def CoreSt.fetchOn (k : CoreSt) : CoreSt :=
  (((k.stepRun k.th.cycle 0).stepRun k.th.cycle 1).readAhead 0).readAhead 1

/-- Bindings that are in force from issued cycle `c` (15 R441). DEDUCED [log 40]. -/
def Matrix.bindDue (m : Matrix) (c : Nat) : Matrix :=
  let due := m.binding.filter fun b => b.2.2 ≤ c
  due.foldl (fun (m : Matrix) b => { m with tile := SMap.set m.tile b.1 (some b.2.1) none })
    { m with binding := m.binding.filter fun b => c < b.2.2 }

/-- THE END OF AN ISSUED CYCLE on a core: weight rows are written, results land, bindings come into force (12 R335, 15 R436 R441).
DESIGN CHOICE [log 7]. -/
def CoreSt.endCycle (k : CoreSt) : CoreSt :=
  let c := k.th.cycle
  let k := (k.stepRun c 0).stepRun c 1
  let k := k.advance
  { k with ctx := { k.ctx with matrix := k.ctx.matrix.bindDue (c + 1) } }

/-- A stalled cycle: only the drain writes go on, which are the operand fetcher's, and occupied slots count it (12 R336 R338, 15 R443). DESIGN CHOICE [log 7]. -/
def CoreSt.stallCycle (k : CoreSt) : CoreSt :=
  let tick (l : Landing) : Landing := if l.slotOf.isSome then { l with due := l.due - 1 } else l
  let fl := k.th.inflight.map tick
  let now := fl.filter fun l => l.slotOf.isSome && l.due < k.th.cycle
  let later := fl.filter fun l => !(l.slotOf.isSome && l.due < k.th.cycle)
  now.foldl CoreSt.applyLanding { k with th := { k.th.slotCycle with inflight := later } }

/-! The M forms. -/

/-- The matrix state changed. -/
def State.modMatrix (s : State) (g : Matrix → Matrix) : State := s.modCtx fun x => { x with matrix := g x.matrix }

/-- The physical bank a weight-bank field names (15 R431). -/
def Matrix.physBank (m : Matrix) (bank : Nat) : Nat := (m.front + bank) % 2

/-- The scale image a push takes: z for the block formats, zero otherwise (15 R436 R437). -/
def pushImage (f : MOp) (s : State) : BitVec 528 := if fmtB f.fmt then s.th.rZ f.z else 0

/-- An earlier fence holds the matrix fetcher's next operations (09 R258). -/
def State.fetchHeld (s : State) : Bool := s.heldBack s.cur 3 s.mem.nextReq true

/-- What the pushes share: legal, handle configured, the slot at CP ready or a wait or an over-read (15 R436 to R438); a pass that a
fence holds back is not begun (09 R258). -/
def pushForm (op : Nat) (f : MOp) (ok : Nat → Bool) (s : State) (k : Nat → State → Res) : Res :=
  checked (.m op f) s fun s =>
    if !(s.handleOk f.f && ok (hSize (s.ctx.setupOf f.f) / 256)) then illop (.m op f) s
    else
      let d := s.ctx.handle f.f
      match d.atCp with
      | none => stall s
      | some false => overRead 3 s
      | some true =>
        if s.fetchHeld then stall s else
        let off := s.ctx.slotOff f.f d.cp
        let n := hSize (s.ctx.setupOf f.f)
        match (List.range ((off + n - 1) / 0x4000 + 1 - off / 0x4000)).find? fun i => (s.ctx.spadPhys ((off / 0x4000 + i) * 0x4000)).isNone with
        | some i => trap 0x0104 ((off / 0x4000 + i) % 256) (bankTva (off / 0x4000 + i)) 3 s
        | none => k d.cp (s.modHandle f.f fun d => d.drainAt d.cp)

/-- mpushw: a weight run into the physical bank named at issue (15 R436). -/
def execMpushw (f : MOp) (s : State) : Res :=
  pushForm 1 f (fun n => f.row + n ≤ 128) s fun slot s =>
    let n := hSize (s.ctx.setupOf f.f) / 256
    let b := s.ctx.matrix.physBank f.bank
    let run : MPass := { h := f.f, slot := slot, left := n, row := f.row, since := s.th.cycle }
    let s := s.modCtx fun x => x.endPass (SMap.get x.matrix.run b none)
    .next (s.modMatrix fun m => { m with
      tag := SMap.set m.tag b f.fmt 0, image := SMap.set m.image b (pushImage f s) 0, run := SMap.set m.run b (some run) none })

/-- mpusha: an activation feed into the plane's latch; entry 0 enters at once (15 R437). -/
def execMpusha (f : MOp) (s : State) : Res :=
  pushForm 2 f (fun _ => true) s fun slot s =>
    let n := hSize (s.ctx.setupOf f.f) / 256
    let img := pushImage f s
    let s := s.modCtx fun x => x.endPass (SMap.get x.matrix.feed f.plane none)
    let latch : MLatch := { data := (s.core s.cur).slotRow f.f slot 0, image := img, tag := f.fmt }
    let feed : MPass := { h := f.f, slot := slot, next := 1, left := n - 1, image := img, since := s.th.cycle }
    let s := s.modMatrix fun m => { m with latch := SMap.set m.latch f.plane latch {} }
    .next (if n ≤ 1 then
        (s.modMatrix fun m => { m with feed := SMap.set m.feed f.plane none none }).modCtx fun x => x.endPass (some feed)
      else s.modMatrix fun m => { m with feed := SMap.set m.feed f.plane (some feed) none })

/-- mshift: both latches move towards cell row 0 (15 R439). -/
def execMshift (f : MOp) (s : State) : Res :=
  checked (.m 3 f) s fun s =>
    let sh (m : Matrix) (p : Nat) : Matrix :=
      { m with latch := SMap.upd m.latch p {} fun l => { l with shift := min 128 (l.shift + f.row) } }
    .next (s.modMatrix fun m => sh (sh m 0) 1)

/-- The plane's binding is valid. -/
def Matrix.bound (m : Matrix) (p : Nat) : Option Nat := SMap.get m.tile p none

/-- Every bank of a bound tile is held by the issuing strand (15 R435). -/
def State.holdsTile (s : State) (t : Nat) : Bool :=
  (List.range 32).all fun i => SMap.get s.ctx.held (t + i) 0 == s.strandNo + 1

/-- The latch of a plane as the next beat finds it: a running feed's next entry enters (15 R437). -/
def CoreSt.nextEntry (k : CoreSt) (p : Nat) : CoreSt :=
  match SMap.get k.ctx.matrix.feed p none with
  | none => k
  | some d =>
    let m := k.ctx.matrix
    if !d.used then { k with ctx := { k.ctx with matrix := { m with feed := SMap.set m.feed p (some { d with used := true }) none } } }
    else
      let l := SMap.get m.latch p {}
      let entry := d.ahead.headD (k.slotRow d.h d.slot d.next)
      let m := { m with latch := SMap.set m.latch p { l with data := entry, image := d.image, shift := 0 } {} }
      if d.left ≤ 1 then
        { k with ctx := ({ k.ctx with matrix := { m with feed := SMap.set m.feed p none none } }).endPass (some d) }
      else
        { k with ctx := { k.ctx with matrix :=
          { m with feed := SMap.set m.feed p (some { d with next := d.next + 1, left := d.left - 1, ahead := d.ahead.tail }) none } } }

/-- macc: one beat on the plane's tile (15 R434 R435). -/
def execMacc (f : MOp) (s : State) : Res :=
  checked (.m 4 f) s fun s =>
    let m := s.ctx.matrix
    let b := m.physBank f.bank
    match m.bound f.plane with
    | none => illop (.m 4 f) s
    | some t =>
      if !(s.holdsTile t) || (SMap.get m.latch f.plane {}).tag != f.fmt || SMap.get m.tag b 0 != f.fmt then illop (.m 4 f) s
      else
        let s := s.modCore s.cur fun k => k.nextEntry f.plane
        let m := s.ctx.matrix
        let beat : AccOp := .beat t f.cellop f.fmt (SMap.get m.latch f.plane {}) (SMap.get m.wb (128 * b + f.row) 0) (SMap.get m.image b 0)
        .next (s.modMatrix fun m => { m with
          ops := m.ops ++ [(s.th.cycle, beat)], kind := SMap.set m.kind f.plane (decide (f.fmt = 9 ∨ f.fmt = 10)) false })

/-- Bytes of a drained row (15 R443). -/
def drainBytes (f : Nat) : Nat := 16 * fmtBits f

/-- The drained row: its bytes and flags (15 R443, 10 R288). -/
def drainRow (f row : Nat) (integer : Bool) (band : Num) (r : Rnd) (elems : List Nat) : List Byte × BitVec 7 :=
  let one (j x : Nat) : Nat × BitVec 7 :=
    let a : Num := if integer then Num.ofInt (sext x 32) else (ffmt 0).decode x
    let (p, f1) := Num.mul a band
    let (c, f2) := roundElem f r p (128 * row + j)
    (c, f1 ||| f2)
  let out := (List.range 128).map fun j => one j (elems.getD j 0)
  (out.flatMap fun o => natLe (fmtBits f / 8) o.1, orFlags (out.map (·.2)))

/-- The band scale of XI (15 R443). -/
def bandScale (xi : Nat) : Num := if xi == 0 then .fin false 1 0 else (ffmt 1).decode xi

/-- The landings of a drain: its bytes by scratchpad bank, with the flags on the first (15 R443). DEDUCED [log 40]. -/
def drainLandings (x : CoreCtx) (due bundle h slot off : Nat) (bs : List Byte) (fl : BitVec 7) : List Landing :=
  let room := 0x4000 - off % 0x4000
  let one (o : Nat) (b : List Byte) (f : BitVec 7) : Landing :=
    { due := due, bundle := bundle, flags := f, spad := (x.spadPhys o).map fun p => (p, b), slotOf := some (h, slot) }
  one off (bs.take room) fl :: (if bs.length ≤ room then [] else [one (off + room) (bs.drop room) 0])

/-- mdrain: a converted tile row into the slot at PP, written 8 cycles after issue (15 R443). -/
def execMdrain (f : MOp) (s : State) : Res :=
  checked (.m 5 f) s fun s =>
    let m := s.ctx.matrix
    match m.bound f.plane with
    | none => illop (.m 5 f) s
    | some t =>
      let rb := drainBytes f.fmt
      let size := hSize (s.ctx.setupOf f.f)
      if !(s.handleOk f.f) || size % rb != 0 then illop (.m 5 f) s
      else
        let d := s.ctx.handle f.f
        if !(d.writable d.pp) || s.fetchHeld then stall s
        else
          let off := s.ctx.slotOff f.f d.pp + f.row * rb % size
          match [off, off + rb - 1].find? fun o => (s.ctx.spadPhys o).isNone with
          | some o => trap 0x0104 (o / 0x4000 % 256) (bankTva (o / 0x4000)) 3 s
          | none =>
            let rnd := s.rounding 0 s.th.posTaken
            let elems := accView (s.core s.cur).acc m.ops s.th.cycle (4 * t + f.row)
            let (bs, fl) := drainRow f.fmt f.row (SMap.get m.kind f.plane false) (bandScale s.th.xi.toNat) rnd elems
            let ls := drainLandings s.ctx (s.th.cycle + 8) s.th.bundles f.f d.pp off bs fl
            let s := s.modHandle f.f fun d => d.claim d.pp
            .next (s.modTh fun th => { th with
              inflight := th.inflight ++ ls, posTaken := if rnd.mode == 4 then th.posTaken + 1 else th.posTaken })

/-- mclr: tile rows from `row` on become zero (15 R442). -/
def execMclr (f : MOp) (s : State) : Res :=
  checked (.m 6 f) s fun s =>
    match s.ctx.matrix.bound f.plane with
    | none => illop (.m 6 f) s
    | some t => .next (s.modMatrix fun m => { m with ops := m.ops ++ [(s.th.cycle, .clear t f.row)] })

/-- mplane: bind the lowest aligned block of 32 held banks, in force two cycles later (15 R441). -/
def execMplane (f : MOp) (s : State) : Res :=
  checked (.m 7 f) s fun s =>
    match (List.range 4).find? fun k => s.holdsTile (128 * f.plane + 32 * k) with
    | none => illop (.m 7 f) s
    | some k =>
      .next (s.modMatrix fun m => { m with
        binding := m.binding ++ [(f.plane, 128 * f.plane + 32 * k, s.th.cycle + 2)]
        tileBy := SMap.set m.tileBy f.plane s.strandNo 0, kind := SMap.set m.kind f.plane false false })

/-- mwswap: front and back exchange (15 R440). -/
def execMwswap (f : MOp) (s : State) : Res :=
  checked (.m 8 f) s fun s => .next (s.modMatrix fun m => { m with front := 1 - m.front })

/-- mwswap.home: front is physical bank 0 (15 R440). -/
def execMwswapHome (f : MOp) (s : State) : Res :=
  checked (.m 8 f) s fun s => .next (s.modMatrix fun m => { m with front := 0 })

/-! Accumulator loads and stores (16 R461). -/

/-- The checks of ldacc and stacc: alignment, then the bank is held by the issuing strand; then `k` with the offset. DEDUCED [log 27]. -/
def accChecks (y : Syll) (f : LW) (s : State) (k : Nat → State → Res) : Res :=
  let x := lwAddress f s
  if !(y.fits && y.legal && vnamesOk s.th.rot f.d 1) then trap 0x0001 y.detail x 15 s
  else if x % 256 != 0 then trap 0x0103 0 x 15 s
  else if 0x7FF00 < x || SMap.get s.ctx.held (x / 2048) 0 != s.strandNo + 1 then trap 0x0402 (x / 2048 % 256) 0 15 s
  else k x s

/-- ldacc: 256 bytes of accumulator memory at latency 6, seeing the updates of R435 (16 R461). -/
def execLdacc (f : LW) (s : State) : Res :=
  accChecks (.l 6 f) f s fun x s =>
    let row := rowBytes (accView (s.core s.cur).acc s.ctx.matrix.ops s.th.cycle (x / 512))
    let s := acquireNow (acqOf f) s
    .next (landBytes 6 8 f.d (slice row (x % 512) 256) (activeLanes (s.th.rQ f.qp) 256) s)

/-- stacc: V[d] to accumulator memory, in issue order with the beats (16 R461). -/
def execStacc (f : LW) (s : State) : Res :=
  accChecks (.w 6 f) f s fun x s =>
    if relOf f && s.lsbuOpen then stall s
    else
      let val := (s.th.rVg f.d 1).headD 0
      let mask := maskBits 2048 (activeLanes (s.th.rQ f.qp) 256)
      .next (s.modMatrix fun m => { m with ops := m.ops ++ [(s.th.cycle, .store x val mask)] })

end Sys2Proof.Machine
end

