-- ==== Sys2Proof/Machine/Microword.lean ====
section
/-! DEFINITION. Machine/Microword.lean: the fields of a copy microword and the sizes that follow from them (17 R472 R473). -/
namespace Sys2Proof.Machine

/-- Source format of a microword. -/
def mwSrc (mw : Nat) : Nat := fld mw 14 4
/-- Destination format of a microword. -/
def mwDst (mw : Nat) : Nat := fld mw 10 4
/-- CV, UNP, TR, SCA, DEC and ST of a microword. -/
def mwCV (mw : Nat) : Bool := bitOf mw 9
/-- See mwCV. -/
def mwUNP (mw : Nat) : Bool := bitOf mw 20
/-- See mwCV. -/
def mwTR (mw : Nat) : Bool := bitOf mw 8
/-- See mwCV. -/
def mwSCA (mw : Nat) : Bool := bitOf mw 19
/-- See mwCV. -/
def mwDEC (mw : Nat) : Bool := bitOf mw 18
/-- See mwCV. -/
def mwST (mw : Nat) : Bool := bitOf mw 3
/-- Bits of a source element as the stages read it: a byte where no stage looks at elements. -/
def mwSrcBits (mw : Nat) : Nat := if mwUNP mw || mwCV mw || mwTR mw then fmtBits (mwSrc mw) else 8
/-- Bits of a destination element. -/
def mwDstBits (mw : Nat) : Nat := if mwCV mw then fmtBits (mwDst mw) else mwSrcBits mw
/-- Bits from one source element to the next: the unpack period, or the element. -/
def mwStep (mw : Nat) : Nat := if mwUNP mw then fld mw 21 7 + 1 else mwSrcBits mw
/-- Elements of `n` output bytes. -/
def mwElems (mw n : Nat) : Nat := (8 * n + mwDstBits mw - 1) / mwDstBits mw
/-- Source bytes of the elements of `n` output bytes. -/
def mwSrcBytes (mw n : Nat) : Nat := (mwStep mw * mwElems mw n + 7) / 8
/-- The scale attach stage writes images, or reads them. -/
def mwImagesOut (mw : Nat) : Bool := mwSCA mw && fmtB (mwDst mw)
/-- See mwImagesOut. -/
def mwImagesIn (mw : Nat) : Bool := mwSCA mw && !(fmtB (mwDst mw))
/-- Rows of `n` output bytes (17 R470). -/
def rowsOf (n : Nat) : Nat := (n + 255) / 256
/-- Bytes written for `n` output bytes, images included. -/
def mwDstSpan (mw n : Nat) : Nat := n + if mwImagesOut mw then 66 * rowsOf n else 0
/-- Bytes read for `n` output bytes, images included; with DEC the data decide. -/
def mwSrcSpan (mw n : Nat) : Nat := if mwDEC mw then 0 else mwSrcBytes mw n + if mwImagesIn mw then 66 * rowsOf n else 0
/-- Output bytes come in whole pieces of this many: a row for DEC and block formats, a block for TR (17 R473). -/
def mwUnit (mw : Nat) : Nat :=
  if mwTR mw then 256 * (2048 / mwDstBits mw)
  else if mwDEC mw || mwSCA mw then 256 else 1

/-- The most bytes that `n` output bytes can read. -/
def mwReadSpan (mw n : Nat) : Nat := if mwDEC mw then n + 2 * rowsOf n else mwSrcSpan mw n

end Sys2Proof.Machine
end

