-- ==== Sys2Proof/Machine/Strands.lean ====
section
/-! DEFINITION. Machine/Strands.lean: what Circulation keeps for a launch's strands: readiness, wake conditions, events, groups and
barriers, and the step sequencer (06 R170 to R173, 07 R182 to R193). -/
namespace Sys2Proof.Machine

/-- A strand's record becomes ready, behind those that are (06 R170). -/
def Launch.makeReady (l : Launch) (i : Nat) : Launch :=
  { (l.modStrand i fun r => { r with st := .ready, wake := if r.wkind == 1 then 1 else r.wake, wkind := 0, evt := 0, arg := 0 }) with ready := without l.ready i ++ [i] }

/-- Count of an event. -/
def Launch.event (l : Launch) (e : Nat) : BitVec 32 := SMap.get l.events e 0

/-- Events: (count - v) mod 2^32 < 2^31 (07 R185). -/
def eventMet (count v : Nat) : Bool := (count + 2 ^ 32 - v % 2 ^ 32) % 2 ^ 32 < 2 ^ 31

/-- Times: (TIME[47:0] - t) mod 2^48 < 2^47 (07 R185). -/
def timeMet (time t : Nat) : Bool := (time % 2 ^ 48 + 2 ^ 48 - t % 2 ^ 48) % 2 ^ 48 < 2 ^ 47

/-- A wake condition is met (07 R185). -/
def wakeMet (l : Launch) (time kind evt arg : Nat) : Bool :=
  if kind == 1 then eventMet (l.event evt).toNat arg else if kind == 2 then timeMet time arg else false

/-- The waiting strands whose condition is met. -/
def Launch.wakeable (l : Launch) (time : Nat) : List Nat :=
  (List.range l.record.strands).filter fun i =>
    let r := l.strand i
    r.st == .waiting && wakeMet l time r.wkind r.evt r.arg

/-- Every waiting strand whose condition is met becomes ready, in ascending index (07 R185). -/
def Launch.wake (l : Launch) (time : Nat) : Launch := (l.wakeable time).foldl Launch.makeReady l

/-- A signal of `n` to event `e` of launch slot `slot`: the count rises and met waits end (07 R185, 17 R488). -/
def State.signal (s : State) (slot e n : Nat) : State :=
  s.modLaunch slot fun l =>
    ({ l with events := SMap.upd l.events e 0 fun c => c + BitVec.ofNat 32 n }).wake s.time.toNat

/-! Groups and barriers (07 R191 R193). -/

/-- Group `g` of a launch. -/
def Launch.group (l : Launch) (g : Nat) : Group := SMap.get l.groups g {}

/-- Group `g` changed. -/
def Launch.modGroup (l : Launch) (g : Nat) (h : Group → Group) : Launch := { l with groups := SMap.upd l.groups g {} h }

/-- A phase whose members have all arrived completes; strands that arrived for the next one begin it (07 R193). -/
def Group.complete (g : Group) : Group :=
  match g.phaseMembers with
  | none => g
  | some ms =>
    if ms.all g.arrived.contains then
      { g with
        phase := g.phase + 1
        phaseMembers := if g.next.isEmpty then none else some g.members
        arrived := g.next
        next := [] }
    else g

/-- Completion carried on while it goes: the next phase may be complete as it begins. -/
def Group.settle (g : Group) : Group := g.complete.complete

/-- Strand `i` arrives: the group after it and the phase it waits for (07 R193). -/
def Group.arrive (g : Group) (i : Nat) : Group × Nat :=
  match g.phaseMembers with
  | none => (({ g with phaseMembers := some g.members, arrived := [i] }).settle, g.phase)
  | some ms =>
    if ms.contains i then (({ g with arrived := withElem g.arrived i }).settle, g.phase)
    else ({ g with next := withElem g.next i }, g.phase + 1)

/-- Strand `i` leaves a group; the phase in progress waits for it no longer (07 R191 R193). -/
def Group.leave (g : Group) (i : Nat) : Group :=
  ({ g with members := without g.members i, phaseMembers := g.phaseMembers.map fun ms => without ms i }).settle

/-- Strand `i` leaves every group (07 R188). -/
def Launch.leaveAll (l : Launch) (i : Nat) : Launch := (List.range 16).foldl (fun l g =>
  if (l.group g).members.contains i then l.modGroup g fun h => h.leave i else l) l

/-! The step sequencer (06 R172 R173). -/

/-- A strand that has started and has not exited. -/
def Strand.live (r : Strand) : Bool := r.st != .exited && r.st != .unstarted

/-- Every live strand is held, and there is one (06 R172). -/
def Launch.iterationOver (l : Launch) : Bool :=
  let live := (List.range l.record.strands).filter fun i => (l.strand i).live
  !live.isEmpty && live.all fun i => (l.strand i).st == .held

/-- OCC band: the number of thresholds that the value reaches (06 R172). -/
def band (x : Nat) (ts : List Nat) : Nat := (ts.filter fun t => t ≤ x).length

/-- The word s4 of a strand that the sequencer readies (06 R172). -/
def stepWord (step j o d fin : Nat) : Word :=
  BitVec.ofNat 64 (step + j * 2 ^ 32 + o * 2 ^ 36 + d * 2 ^ 40 + fin * 2 ^ 43)

/-- The end of an iteration, when every live strand is held (06 R172). -/
def Launch.sequence (l : Launch) : Launch :=
  match l.table with
  | none => l
  | some t =>
    if !l.iterationOver then l
    else
      let occ := l.occ.toNat
      let o := band occ t.t
      let d := band l.dlen.toNat t.d
      let step := l.step + 1
      let fin := occ == 0
      let j := if fin then 0 else t.map.getD (4 * o + d) 0
      let pc := if fin then t.finish else t.entries.getD j 0
      let s4 := stepWord step.toNat j o d (b2n fin)
      let held := (List.range l.record.strands).filter fun i => (l.strand i).st == .held
      held.foldl (fun l i => (l.modStrand i fun r => { r with pc := pc, slotRes := 0, c4 := s4 }).makeReady i) { l with step := step }

/-- The sequencer takes one OCC or DLEN write of core `c` (06 R173). -/
def State.takeSeqWrite (s : State) (c : Nat) : State :=
  let k := s.core c
  match k.launch, k.seqWrites with
  | some n, (isDlen, v) :: r =>
    (s.setCore c { k with seqWrites := r }).modLaunch n fun l =>
      if isDlen then { l with dlen := v.setWidth 8 } else { l with occ := v.setWidth 16 }
  | _, _ => s

/-- All OCC and DLEN writes of a core taken, as before its strand's seqnext reaches the sequencer (06 R173). -/
def State.takeSeqWrites (s : State) (c : Nat) : State := ((s.core c).seqWrites).foldl (fun s _ => s.takeSeqWrite c) s

end Sys2Proof.Machine
end

