-- ==== Sys2Proof/Machine/Sync.lean ====
section
/-! DEFINITION. Machine/Sync.lean: the synchronisation slot: fences, buffer handles, scratchpad and accumulator banks, groups,
events, the Grader and row progress (17 R483 to R492 R508, 07 R191 to R202, 09 R257 R258 R262). -/
namespace Sys2Proof.Machine

/-! Fences (09 R257 R258). -/

/-- fence: accesses of earlier bundles are waited for; those of its own bundle hold later ones back (09 R257, 12 R336). -/
def execFence (f : YF) (s : State) : Res :=
  checked (.yf 1 f) s fun s =>
    if f.kind != 2 && s.fenceOpen s.cur f.kind s.th.reqStart then stall s
    else
      let s := if f.kind != 2 then s.invalidate s.cur else s
      .next (if s.fenceOpen s.cur f.kind s.mem.nextReq then
          s.send { core := s.cur, launch := s.slotNo, strand := s.strandNo, kind := .fence f.kind, scope := f.scope
                   pc := s.th.bpc, slot := s.th.slot }
        else s)

/-- The bundle waits at a pfence of the operand fetcher's path: its passes go on (09 R258). -/
def State.waitPasses (s : State) (before : Nat) : State := s.modTh fun th => { th with fetchOn := bitOf before 3 }

/-- pfence: BEFORE paths before AFTER paths; with ls or bu in AFTER the bundle waits (09 R258). Its own bundle's earlier slots are waited
for by what follows. -/
def execPfence (f : YP) (s : State) : Res :=
  checked (.yp 2 f) s fun s =>
    if f.after % 4 != 0 && s.pathsBusy s.cur f.before s.th.reqStart s.th.cycle f.scope then stall (s.waitPasses f.before)
    else
      let s := if bitOf f.after 0 then s.invalidate s.cur else s
      .next (if s.pathsBusy s.cur f.before s.mem.nextReq (s.th.cycle + 1) f.scope then
          s.send { core := s.cur, launch := s.slotNo, strand := s.strandNo, kind := .pfence f.before f.after, scope := f.scope
                   stamp := s.th.cycle, pc := s.th.bpc, slot := s.th.slot }
        else s)

/-! What engine operations touch in the scratchpad (07 R195, 17 R484). -/

/-- A launch scratchpad range that an address range meets, if it begins in the window. -/
def windowRange (a n : Nat) : List (Nat × Nat) :=
  if 0x7FFE00000000 ≤ a && a < 0x7FFE00200000 && n != 0 then [(a - 0x7FFE00000000, min n (0x7FFE00200000 - a))] else []

/-- The first of the rows at `base`, `base + stride`, ... (mod 2^64) that begins in the scratchpad window, and how many follow there. -/
def rowsInWindow (base stride rows : Nat) : Nat × Nat :=
  let lo := 0x7FFE00000000
  let hi := 0x7FFE00200000
  let below (d a b : Nat) : Nat := if a < b then (b - a + d - 1) / d else 0
  let span (first stop : Nat) : Nat × Nat := (first, min rows stop - first)
  if stride == 0 then (if lo ≤ base ∧ base < hi then (0, min rows 1) else (0, 0))
  else if stride < 2 ^ 63 then span (below stride base lo) (below stride base hi)
  else span (below (2 ^ 64 - stride) (hi - 1) base) (below (2 ^ 64 - stride) lo (base + 1))

/-- The scratchpad window ranges of the rows of a stream: one range where they lie closer than a bank (17 R475). -/
def rowWindows (base stride rows len : Nat) : List (Nat × Nat) :=
  let (first, n) := rowsInWindow base stride rows
  let at_ (i : Nat) : Nat := (base + (first + i) * stride) % 2 ^ 64
  if n == 0 then []
  else
    let a := min (at_ 0) (at_ (n - 1))
    let b := max (at_ 0) (at_ (n - 1))
    if b - a ≤ 0x4000 * n then windowRange a (b + len - a) else (List.range n).flatMap fun i => windowRange (at_ i) len

/-- The ring of a handle, or one slot of it, as launch scratchpad ranges. -/
def CoreCtx.slotRange (x : CoreCtx) (h : Nat) (slot : Option Nat) : List (Nat × Nat) :=
  match slot with
  | some i => [(x.slotOff h i, hSize (x.setupOf h))]
  | none => [(hBase (x.setupOf h), hSize (x.setupOf h) * hSlots (x.setupOf h))]

/-- Table entries of a gather, as source ranges (17 R477). -/
def CopyOp.tableBytes (o : CopyOp) : List (Nat × Nat) := windowRange o.a (16 * o.n)

/-- Ranges of the scratchpad that a copy operation touches. -/
def State.copyRanges (s : State) (c : Nat) (o : CopyOp) : List (Nat × Nat) :=
  let x := (s.core c).ctx
  let w := match (s.core c).launch with | some n => s.who ((s.launchAt n).getD {}) | none => {}
  let mw := o.mw.toNat
  if o.op == 1 then
    (if bitOf mw 0 then x.slotRange o.f o.slot else windowRange o.a (mwDstSpan mw o.n)) ++
    (if bitOf mw 1 then x.slotRange o.f (if bitOf mw 0 then none else o.slot) else windowRange o.b (mwReadSpan mw o.n))
  else if o.op == 4 then
    o.tableBytes ++ x.slotRange o.f o.slot ++ (s.scatterRanges w c o).flatMap fun r => windowRange r.1 (mwReadSpan mw r.2)
  else if o.op == 5 then
    o.tableBytes ++ x.slotRange o.f o.slot ++ (s.scatterRanges w c o).flatMap fun r => windowRange r.1 r.2
  else if o.op == 9 then windowRange o.a (8 * o.b)
  else []

/-- Ranges that a stream touches: the slots it fills and its remaining rows (17 R475). -/
def CoreCtx.streamRanges (x : CoreCtx) (o : StreamOp) : List (Nat × Nat) :=
  x.slotRange o.f o.slot ++ rowWindows ((o.base + o.row * o.stride) % 2 ^ 64) o.stride (o.rows - o.row) o.len

/-- Ranges that a fabric operation touches. -/
def FabricOp.ranges (o : FabricOp) : List (Nat × Nat) :=
  windowRange o.addr (if o.op == 8 then 64 else o.len) ++ windowRange o.status 8

/-- Ranges that a cipher operation touches (17 R493). -/
def CoreCtx.cipherRanges (x : CoreCtx) (o : CipherOp) : List (Nat × Nat) :=
  (if o.buf then x.slotRange o.f o.slot else []) ++
  (if o.op ≤ 2 then (if o.buf && o.op == 2 then [] else windowRange o.dst o.len) ++ (if o.buf && o.op == 1 then [] else windowRange o.src o.len)
   else if o.op == 3 then windowRange o.dst 32 ++ (if o.buf then [] else windowRange o.src o.len)
   else if o.op == 4 then windowRange o.src 32
   else [])

/-- A number for an operand pass: pass `k` (runs 0 and 1, feeds 2 and 3) issued at a cycle. -/
def passId (k : Nat) (p : MPass) : Nat := 2 ^ 40 + 4 * p.since + k

/-- A number for a drain on its way. -/
def drainId (l : Landing) : Nat := 2 ^ 60 + l.bundle

/-- An engine operation is issued only where the launch owns every scratchpad bank that it names: BANKFREE with the lowest other
(07 R196). -/
def ownsBanks (path : Nat) (rs : List (Nat × Nat)) (s : State) (k : State → Res) : Res :=
  let banks (r : Nat × Nat) : List Nat := (List.range ((r.1 + r.2 + 0x3FFF) / 0x4000 - r.1 / 0x4000)).map fun i => r.1 / 0x4000 + i
  let free := rs.flatMap fun r => if r.2 == 0 then [] else (banks r).filter fun b => (s.ctx.spadPhys (0x4000 * b)).isNone
  match free with
  | [] => k s
  | b :: r => let b := r.foldl min b; trap 0x0104 (b % 256) (bankTva b) path s

/-- Every operation under way on core `c` with the scratchpad ranges it touches (07 R195). -/
def State.opsUnderWay (s : State) (c : Nat) : List (Nat × List (Nat × Nat)) :=
  let k := s.core c
  let x := k.ctx
  (x.copyq.map fun o => (o.id, s.copyRanges c o)) ++ (x.streamq.map fun o => (o.id, x.streamRanges o)) ++
  (x.fabricq.map fun o => (o.id, o.ranges)) ++ (x.cipherq.map fun o => (o.id, x.cipherRanges o)) ++
  (x.matrix.run.filterMap fun p => p.2.map fun r => (passId p.1 r, x.slotRange r.h (some r.slot))) ++
  (x.matrix.feed.filterMap fun p => p.2.map fun r => (passId (2 + p.1) r, x.slotRange r.h (some r.slot))) ++
  (k.th.inflight.filterMap fun l => l.slotOf.map fun q => (drainId l, x.slotRange q.1 (some q.2)))

/-- Operations under way that name launch bank `b`. -/
def State.opsOfBank (s : State) (c b : Nat) : List Nat :=
  ((s.opsUnderWay c).filter fun o => o.2.any fun r => overlap r.1 r.2 (0x4000 * b) 0x4000).map (·.1)

/-- Held scratchpad writes into launch bank `b` (16 R467). -/
def State.heldOfBank (s : State) (c b : Nat) : List Nat :=
  match (s.core c).ctx.banks[b]? with
  | none => []
  | some p => (s.mem.net.filter fun r => r.core == c && r.parts.any fun q =>
      decide (2 ^ 50 ≤ q.addr) && overlap (q.addr % 2 ^ 21) q.len (0x4000 * p) 0x4000).map (·.id)

/-! Buffer handles (17 R484 to R487 R508). -/

/-- Operations, runs, feeds and drains that name handle `h` and are not stopped (17 R484). -/
def State.handleBusy (s : State) (c h : Nat) : Bool :=
  let k := s.core c
  let x := k.ctx
  (x.copyq.any fun o => o.names h && o.fault.isNone) || (x.streamq.any fun o => o.f == h && o.fault.isNone) ||
  (x.cipherq.any fun o => o.buf && o.f == h && o.fault.isNone) ||
  (x.matrix.run.any fun p => p.2.any fun r => r.h == h) || (x.matrix.feed.any fun p => p.2.any fun r => r.h == h) ||
  (k.th.inflight.any fun l => l.slotOf.any fun q => q.1 == h)

/-- The held faults of stopped operations that name handle `h`, not yet taken. -/
def CoreCtx.faultsOf (x : CoreCtx) (h : Nat) : List TrapInfo :=
  let pick (f : Option (TrapInfo × Bool)) : Option TrapInfo := match f with | some (t, true) => some t | _ => none
  (x.copyq.filterMap fun o => if o.names h then pick o.fault else none) ++
  (x.streamq.filterMap fun o => if o.f == h then pick o.fault else none) ++
  (x.cipherq.filterMap fun o => if o.buf && o.f == h then pick o.fault else none)

/-- Faults that no longer wait to be taken. -/
def CoreSt.forget (k : CoreSt) (ts : List TrapInfo) : CoreSt :=
  { k with th := { k.th with late := k.th.late.filter fun t => !(ts.contains t.held) }
           ctx := { k.ctx with heldLate := k.ctx.heldLate.filter fun t => !(ts.contains t.held) } }

/-- Stopped operations that name handle `h` discarded, with their held faults (17 R484). -/
def CoreSt.discardStopped (k : CoreSt) (h : Nat) : CoreSt :=
  let ts := k.ctx.faultsOf h
  let k := k.forget ts
  { k with ctx := { k.ctx with
      copyq := k.ctx.copyq.filter fun o => !(o.names h && o.fault.isSome)
      streamq := k.ctx.streamq.filter fun o => !(o.f == h && o.fault.isSome)
      cipherq := k.ctx.cipherq.filter fun o => !(o.buf && o.f == h && o.fault.isSome) } }

/-- cbinit: a handle's set-up word, its dynamic state reset (17 R484, 08 R228 R229). DESIGN CHOICE [log 42]. -/
def execCbinit (f : YH) (s : State) : Res :=
  checked (.yh 3 f) s fun s =>
    let w := s.rS f.sa
    let r := s.launch.record
    if !(hReservedOk w) || r.hnd ≤ f.h || (hV w && decide (r.spb * 0x4000 < hBase w + hSlots w * hSize w)) then illop (.yh 3 f) s
    else if s.handleBusy s.cur f.h then stall s
    else .next (s.modCore s.cur fun k =>
      let k := k.discardStopped f.h
      { k with ctx := { k.ctx with setup := SMap.set k.ctx.setup f.h w 0, handles := SMap.drop k.ctx.handles f.h } })

/-- What R508 checks of every handle form: `k` runs on a configured handle. -/
def handleForm (y : Syll) (h : Nat) (s : State) (k : State → Res) : Res :=
  checked y s fun s => if s.handleOk h then k s else illop y s

/-- cbwait.free: wait for and claim the slot at PP (17 R485). -/
def execCbwaitFree (f : YH) (s : State) : Res :=
  handleForm (.yh 4 f) f.h s fun s =>
    let d := s.ctx.handle f.h
    if d.closed then illop (.yh 4 f) s
    else if !(d.writable d.pp) then stall s
    else .next (s.modHandle f.h fun d => d.claim d.pp)

/-- cbwait.full: wait for the slot at CP and begin to drain it (17 R485, 08 R231). -/
def execCbwaitFull (f : YH) (s : State) : Res :=
  handleForm (.yh 4 f) f.h s fun s =>
    match (s.ctx.handle f.h).atCp with
    | none => stall s
    | some false => overRead 15 s
    | some true => .next (s.modHandle f.h fun d => d.drainAt d.cp)

/-- The producer advances handle `h` with count `n`: FULL now, or once the writes into the slot are made (17 R486). -/
def State.advanceHandle (s : State) (w : Who) (c h n : Nat) (held : List Nat) : State :=
  let k := s.core c
  let d := k.ctx.handle h
  let ops := s.writers w c h d.pp
  let now := ops.isEmpty && held.isEmpty && !(k.th.draining h d.pp)
  s.modCore c fun k => { k with ctx := k.ctx.setHandle h ((k.ctx.handle h).advance (hSlots (k.ctx.setupOf h)) n held ops now) }

/-- cbadv.prod: advance PP (17 R486). DEDUCED [log 43]. -/
def execCbadvProd (f : YH) (s : State) : Res :=
  handleForm (.yh 5 f) f.h s fun s =>
    let d := s.ctx.handle f.h
    let n := (s.rS f.sa).toNat
    if 15 < n || (n != 0 && !(hCnt (s.ctx.setupOf f.h))) || d.closed || !(d.writable d.pp) then illop (.yh 5 f) s
    else .next (s.advanceHandle (s.who s.launch) s.cur f.h n s.heldWrites)

/-- cbadv.cons: free the slot at CP; a count left over is an under-read (17 R486, 08 R231 R232). -/
def execCbadvCons (f : YH) (s : State) : Res :=
  handleForm (.yh 5 f) f.h s fun s =>
    let d := s.ctx.handle f.h
    match d.atCp with
    | none => stall s
    | some false => overRead 15 s
    | some true =>
      let slots := hSlots (s.ctx.setupOf f.h)
      let under := (d.release slots).2
      let s := s.modHandle f.h fun d => (d.release slots).1
      .next (if under then s.underRead s.slotNo else s)

/-- cbrel: close the handle, once every claimed slot has passed its cbadv (17 R487, 08 R231). -/
def execCbrel (f : YH) (s : State) : Res :=
  handleForm (.yh 6 f) f.h s fun s =>
    .next (s.modHandle f.h fun d => if d.closed then d else ({ d with closing := true }).settleClose)

/-- cbrel.line: release a reader-counted line (17 R487, 08 R236). -/
def execCbrelLine (f : YH) (s : State) : Res :=
  checked (.yh 6 f) s fun s =>
    let ea := (s.rS f.sa).toNat
    match cutAccess s (s.who s.launch) false ea 1 with
    | .error (c, l, va) => trap c (faultDetail false l) va 0 s
    | .ok ps =>
      match ps.find? fun p => !p.x.cn with
      | some p => trap ACCESS (faultDetail false p.x.lvl) p.va 0 s
      | none =>
        .next (s.send { core := s.cur, launch := s.slotNo, strand := s.strandNo, kind := .release
                        parts := ps.map fun p => p.part [true], mask := [true], pc := s.th.bpc, slot := s.th.slot })

/-! Scratchpad banks (07 R194 to R196). -/

/-- Causes of the bank and group rules (11 R307). -/
def BANKRANGE : Nat := 0x0005
/-- See BANKRANGE. -/
def BANKHELD : Nat := 0x0403
/-- See BANKRANGE. -/
def BARMEMBER : Nat := 0x0404
/-- See BANKRANGE. -/
def BARCORES : Nat := 0x0405
/-- See BANKRANGE. -/
def ACCFREE : Nat := 0x0402

/-- RP is set for a bank. -/
def CoreCtx.releasing (x : CoreCtx) (b : Nat) : Bool := x.rp.any fun r => r.1 == b

/-- A released bank's operations have all completed: OWN can clear (07 R195). -/
def State.bankDone (s : State) (c : Nat) (r : Nat × List Nat × List Nat) : Bool :=
  let ops := (s.opsUnderWay c).map (·.1)
  !(r.2.1.any fun i => s.mem.net.any fun e => e.id == i) && !(r.2.2.any ops.contains)

/-- OWN and RP of a bank clear (07 R195). -/
def CoreSt.clearOwn (k : CoreSt) (b : Nat) : CoreSt :=
  { k with ctx := { k.ctx with own := without k.ctx.own b, rp := k.ctx.rp.filter fun r => r.1 != b } }

/-- bkrel: release a bank once its operations have completed (07 R195). -/
def execBkrel (f : YB) (s : State) : Res :=
  checked (.yb 7 f) s fun s =>
    if s.launch.record.spb ≤ f.bank then trap BANKRANGE (f.bank % 256) (bankTva f.bank) 15 s
    else if !(s.ctx.own.contains f.bank) || s.ctx.releasing f.bank then .next s
    else
      let r := (f.bank, s.heldOfBank s.cur f.bank, s.opsOfBank s.cur f.bank)
      .next (if s.bankDone s.cur r then s.modCore s.cur fun k => k.clearOwn f.bank
        else s.modCtx fun x => { x with rp := x.rp ++ [r] })

/-- bkacq: own a bank, waiting for its release (07 R196). -/
def execBkacq (f : YB) (s : State) : Res :=
  checked (.yb 8 f) s fun s =>
    if s.launch.record.spb ≤ f.bank then trap BANKRANGE (f.bank % 256) (bankTva f.bank) 15 s
    else if !(s.ctx.own.contains f.bank) then .next (s.modCtx fun x => { x with own := x.own ++ [f.bank] })
    else if s.ctx.releasing f.bank then stall s
    else trap BANKHELD (f.bank % 256) (bankTva f.bank) 15 s

/-! Groups and barriers (07 R191 R193). -/

/-- GMK and GSUM with bit `g` set or cleared. -/
def gmkBit (w : Word) (g : Nat) (v : Bool) : Word :=
  if v then w ||| BitVec.ofNat 64 (2 ^ g) else w &&& ~~~(BitVec.ofNat 64 (2 ^ g))

/-- join: the strand becomes a member (07 R191, 18 R501). -/
def execJoin (f : YG) (s : State) : Res :=
  checked (.yg 9 f) s fun s =>
    circPass s fun s =>
    let me := s.strandNo
    .next ((s.modLaunch s.slotNo fun l => (l.modGroup f.group fun g => { g with members := withElem g.members me }).modStrand me
        fun r => { r with gsum := r.gsum ||| BitVec.ofNat 16 (2 ^ f.group) }).modTh fun th => { th with gmk := gmkBit th.gmk f.group true })

/-- leave: the strand is a member no longer; a phase waits for it no longer (07 R191 R193, 18 R501). -/
def execLeave (f : YG) (s : State) : Res :=
  checked (.yg 10 f) s fun s =>
    circPass s fun s =>
    let me := s.strandNo
    .next ((s.modLaunch s.slotNo fun l => (l.modGroup f.group fun g => g.leave me).modStrand me
        fun r => { r with gsum := r.gsum &&& ~~~(BitVec.ofNat 16 (2 ^ f.group)) }).modTh fun th =>
          { th with gmk := gmkBit th.gmk f.group false, barWait := th.barWait.filter fun b => b.1 != f.group })

/-- Earlier accesses of ls and bu, not on unordered pages, that a release before request `id` waits for (09 R253). -/
def State.releaseOpen (s : State) (c id : Nat) : Bool :=
  s.mem.net.any fun r => r.core == c && r.id < id && r.lsbu && r.open_.any fun p => p.ok != 2

/-- bar: arrive and wait until the phase completes (07 R193). The arrival outlives the stalled issue. DEDUCED [log 45]. -/
def execBar (f : YG) (s : State) : Res :=
  checked (.yg 11 f) s fun s =>
    let me := s.strandNo
    let g := s.launch.group f.group
    let pass (s : State) : State := (s.modTh fun th => { th with barWait := th.barWait.filter fun b => b.1 != f.group }).invalidate s.cur
    match s.th.barWait.find? fun b => b.1 == f.group with
    | some b => if b.2 < g.phase then .next (pass s) else stall s
    | none =>
      if !(g.members.contains me) then trap BARMEMBER f.group 0 15 s
      else if !s.launch.record.gang && g.members != [me] then trap BARCORES f.group 0 15 s
      else if s.releaseOpen s.cur s.th.reqStart || s.signalOpen s.cur then stall s
      else
        let (g', p) := g.arrive me
        let s := s.modLaunch s.slotNo fun l => l.modGroup f.group fun _ => g'
        if p < g'.phase then .next (pass s)
        else stall (s.modTh fun th => { th with barWait := th.barWait ++ [(f.group, p)] })

/-! Accumulator banks (07 R200 R201, 15 R445). -/

/-- Bank `b` of core `k` is free: held by no strand, not waiting to become free, and not a resident context's (07 R200 R201). -/
def CoreSt.bankFree (k : CoreSt) (b : Nat) : Bool :=
  SMap.get k.ctx.held b 0 == 0 && !(k.ctx.freeing.any fun p => p.1 == b) &&
  (match k.resident with
    | some (_, x) => SMap.get x.held b 0 == 0 && !(x.freeing.any fun p => p.1 == b)
    | none => true)

/-- Banks of the launch on the core: held, or freed and not yet free. -/
def CoreCtx.banksUsed (x : CoreCtx) : Nat := (x.held.filter fun p => p.2 != 0).length + x.freeing.length

/-- The smallest power of two from `n` on, at most 32. -/
def bankAlign (n : Nat) : Nat := ((List.range 5).map (2 ^ ·)).find? (n ≤ ·) |>.getD 32

/-- The lowest placement of `n` banks in plane `p` (07 R200). -/
def CoreSt.place (k : CoreSt) (n p : Nat) : Option Nat :=
  let a := bankAlign n
  ((List.range (128 / a)).map (a * ·)).findSome? fun i =>
    if i + n ≤ 128 && (List.range n).all fun j => k.bankFree (128 * p + i + j) then some (128 * p + i) else none

/-- aballoc: contiguous banks of one plane for the issuing strand (07 R200). -/
def execAballoc (f : YA) (s : State) : Res :=
  checked (.ya 12 f) s fun s =>
    let n := (s.rS f.sa).toNat
    if n == 0 || 128 < n then illop (.ya 12 f) s
    else
      let k := s.core s.cur
      let found := if f.choice == 2 then (k.place n 0).or (k.place n 1) else k.place n f.choice
      match (if s.launch.record.acc < s.ctx.banksUsed + n then none else found) with
      | none => .next (s.landS 2 f.sd (ones 64))
      | some b =>
        let me := s.strandNo + 1
        .next ((s.modCtx fun x => { x with
          held := (List.range n).foldl (fun m i => SMap.set m (b + i) me 0) x.held }).landS 2 f.sd (BitVec.ofNat 64 b))

/-- Bindings whose tile has a bank of a range are valid no longer (15 R441). -/
def Matrix.unbind (m : Matrix) (b n : Nat) : Matrix :=
  { m with tile := m.tile.filter fun p => !(p.2.any fun t => overlap t 32 b n)
           binding := m.binding.filter fun p => !(overlap p.2.1 32 b n) }

/-- abfree: banks become free once the matrix operations that name them have completed (07 R201, 15 R445). -/
def execAbfree (f : YA) (s : State) : Res :=
  checked (.ya 13 f) s fun s =>
    let n := (s.rS f.sa).toNat
    let b := (s.rS f.sd).toNat
    if n == 0 then .next s
    else if 256 < b + n || !((List.range n).all fun i => SMap.get s.ctx.held (b + i) 0 == s.strandNo + 1) then
      trap ACCFREE (b % 256) 0 15 s
    else
      .next (s.modCtx fun x => { x with
        held := (List.range n).foldl (fun m i => SMap.drop m (b + i)) x.held
        freeing := x.freeing ++ (List.range n).map fun i => (b + i, s.th.cycle)
        matrix := x.matrix.unbind b n })

/-- Freed bank `b` becomes free: no matrix operation that touches it is under way (07 R201). -/
def CoreSt.accDone (k : CoreSt) (b : Nat) : Bool :=
  let blk (i : Nat) : Nat := 4 * b + i
  !(k.ctx.matrix.ops.any fun o => decide (k.th.cycle < o.1 + 6) && (List.range 4).any fun i => o.2.touches (blk i)) &&
  !(k.th.inflight.any fun l => l.slotOf.isSome)

/-- Freed banks that can become free do. -/
def CoreSt.freeAcc (k : CoreSt) : CoreSt :=
  { k with ctx := { k.ctx with freeing := k.ctx.freeing.filter fun p => !(k.accDone p.1) } }

/-! Events and the sequencer (17 R488 R489, 09 R262). -/

/-- evsig: add to an event, as a release (17 R488). DEDUCED [log 45]. -/
def execEvsig (f : YE) (s : State) : Res :=
  checked (.ye 15 f) s fun s =>
    let n := (s.rS f.sa).toNat
    if 2 ^ 32 ≤ n then illop (.ye 15 f) s
    else if s.releaseOpen s.cur s.mem.nextReq || s.signalOpen s.cur then
      .next (s.send { core := s.cur, launch := s.slotNo, strand := s.strandNo, kind := .signal f.event n
                      pc := s.th.bpc, slot := s.th.slot })
    else .next (s.signal s.slotNo f.event n)

/-- evwait: stall until the event reaches the count, then acquire (17 R488). -/
def execEvwait (f : YE) (s : State) : Res :=
  checked (.ye 14 f) s fun s =>
    let v := (s.rS f.sa).toNat
    if 2 ^ 32 ≤ v then illop (.ye 14 f) s
    else circPass s fun s => if eventMet (s.launch.event f.event).toNat v then .next (s.invalidate s.cur) else stall s

/-- seqwait: until the sequencer has the strand's OCC and DLEN writes; with 1 the views are reloaded (17 R489). -/
def execSeqwait (f : YR) (s : State) : Res :=
  checked (.yr 0x18 f) s fun s =>
    let v := s.rS f.sa
    if !s.launch.record.bkt || (v != 0 && v != 1) then illop (.yr 0x18 f) s
    else if !(s.core s.cur).seqWrites.isEmpty then stall s
    else .next (if v == 1 then
        s.modTh fun th => { th with occ := s.launch.occ.setWidth 64, dlen := s.launch.dlen.setWidth 64 }
      else s)

/-- swaptok: a jump that waits for the drain, with a flip where the target is outside the window (07 R199). -/
def execSwaptok (f : YR) (s : State) : Res :=
  checked (.yr 0x10 f) s fun s =>
    let t := (s.rS f.sa).toNat
    if targetOk t then .next (s.modTh fun th => { th with latchX := some (.flip t) }) else illop (.yr 0x10 f) s

/-! The Grader (17 R490 R491). -/

/-- Order of FP32 priorities that are not NaN: -0 below +0 (10 R291). -/
def prioKey (p : BitVec 32) : Int := if p.msb then -(p.toNat % 2 ^ 31 : Nat) - 1 else (p.toNat : Int)

/-- An FP32 code is a NaN. -/
def isNaN32 (p : BitVec 32) : Bool := decide (0x7F800000 < p.toNat % 2 ^ 31)

/-- Node `a` ranks before node `b` (17 R490). -/
def GNode.before (dir : Bool) (a b : GNode) : Bool :=
  let ka := prioKey a.prio
  let kb := prioKey b.prio
  if ka == kb then decide (a.id.toNat < b.id.toNat) else if dir then decide (ka < kb) else decide (kb < ka)

/-- A node placed in a list that is in rank order. -/
def GNode.insert (dir : Bool) (n : GNode) (l : List GNode) : List GNode :=
  match l with
  | [] => [n]
  | m :: r => if n.before dir m then n :: m :: r else m :: GNode.insert dir n r

/-- grinit: empty, with capacity and direction (17 R491). -/
def execGrinit (f : YR) (s : State) : Res :=
  checked (.yr 0x11 f) s fun s =>
    let c := (s.rS f.sa).toNat
    let d := (s.rS f.sb).toNat
    if c == 0 || 1024 < c || 1 < d then illop (.yr 0x11 f) s
    else .next (s.modCtx fun x => { x with gnodes := [], gcap := c, gdir := d == 1 })

/-- grpush: insert or replace a node; a full Grader keeps the better; a NaN priority only raises NV (17 R491, 10 R283). -/
def execGrpush (f : YR) (s : State) : Res :=
  checked (.yr 0x12 f) s fun s =>
    let a := s.rS f.sa
    let b := s.rS f.sb
    if 2 ^ 32 ≤ a.toNat || 2 ^ 32 ≤ b.toNat then illop (.yr 0x12 f) s
    else
      let n : GNode := { id := a.setWidth 16, parent := (a >>> 16).setWidth 16, prio := b.setWidth 32 }
      if isNaN32 n.prio then .next (s.modTh fun th => th.land 1 none 0 0 flNV)
      else .next (s.modCtx fun x => { x with
        gnodes := (n.insert x.gdir (x.gnodes.filter fun m => m.id != n.id)).take x.gcap })

/-- grpop: remove the best node, at latency 4 (17 R491). -/
def execGrpop (f : YR) (s : State) : Res :=
  checked (.yr 0x13 f) s fun s =>
    match s.ctx.gnodes with
    | [] => .next (s.landS 4 f.sd (ones 64))
    | n :: r => .next ((s.modCtx fun x => { x with gnodes := r }).landS 4 f.sd (n.prio ++ n.parent ++ n.id))

/-- grbud: keep the best nodes; the number removed at latency 4 (17 R491). -/
def execGrbud (f : YR) (s : State) : Res :=
  checked (.yr 0x14 f) s fun s =>
    let n := (s.rS f.sa).toNat
    if 1024 < n then illop (.yr 0x14 f) s
    else .next ((s.modCtx fun x => { x with gnodes := x.gnodes.take n }).landS 4 f.sd
      (BitVec.ofNat 64 (s.ctx.gnodes.length - n)))

/-- Nodes whose chain of parents reaches a node of `ids`, found in `n` passes; parent 0xFFFF is none (17 R490 R491). -/
def descendants (n : Nat) (nodes : List GNode) (ids : List (BitVec 16)) : List (BitVec 16) :=
  match n with
  | 0 => ids
  | n + 1 => descendants n nodes (ids ++ (nodes.filter fun m => m.parent != 0xFFFF && ids.contains m.parent && !(ids.contains m.id)).map (·.id))

/-- grprune: remove a node and every held node whose chain of parents, through held nodes, reaches its id (17 R491). -/
def execGrprune (f : YR) (s : State) : Res :=
  checked (.yr 0x15 f) s fun s =>
    let a := s.rS f.sa
    if 2 ^ 16 ≤ a.toNat then illop (.yr 0x15 f) s
    else .next (s.modCtx fun x =>
      let gone := descendants x.gnodes.length x.gnodes [a.setWidth 16]
      { x with gnodes := x.gnodes.filter fun m => !(gone.contains m.id) })

/-! Row progress (17 R492, 11 R321). -/

/-- What rowsave reads of a stopped operation. -/
def rowWord (f : Option (TrapInfo × Bool)) (h row : Nat) : Word :=
  match f with
  | none => 0
  | some (_, u) => BitVec.ofNat 64 (2 ^ 63 + b2n u * 2 ^ 62 + h * 2 ^ 32 + row % 2 ^ 32)

/-- The handle of a copy operation, 0 where it names none. -/
def CopyOp.handleNo (o : CopyOp) : Nat := if o.names o.f then o.f else 0

/-- The handle of a cipher operation, 0 where it names none. -/
def CipherOp.handleNo (o : CipherOp) : Nat := if o.buf then o.f else 0

/-- rowsave: a stopped operation's progress at latency 2 (17 R492). -/
def execRowsave (f : YR) (s : State) : Res :=
  checked (.yr 0x16 f) s fun s =>
    let x := s.ctx
    let w : Option Word :=
      match (s.rS f.sa).toNat with
      | 2 => some (((x.copyq.find? fun o => o.fault.isSome).map fun o => rowWord o.fault o.handleNo o.row).getD 0)
      | 3 => some (((x.streamq.find? fun o => o.fault.isSome).map fun o => rowWord o.fault o.f o.row).getD 0)
      | 4 => some (((x.cipherq.find? fun o => o.fault.isSome).map fun o => rowWord o.fault o.handleNo o.row).getD 0)
      | _ => none
    match w with
    | some w => .next (s.landS 2 f.sd w)
    | none => illop (.yr 0x16 f) s

/-- The untaken fault of a stopped operation. -/
def untaken (f : Option (TrapInfo × Bool)) : List TrapInfo := match f with | some (t, true) => [t] | _ => []

/-- A copy queue with its stopped operation given a progress, or ended. -/
def CoreSt.restCopy (k : CoreSt) (v : Nat) : CoreSt :=
  if bitOf v 63 then
    let gone := k.ctx.copyq.filter fun o => o.fault.isSome
    let k := k.forget (gone.flatMap fun o => untaken o.fault)
    { k with ctx := { k.ctx with copyq := k.ctx.copyq.filter fun o => o.fault.isNone } }
  else { k with ctx := { k.ctx with copyq := k.ctx.copyq.map fun o => if o.fault.isSome then { o with row := v % 2 ^ 32 } else o } }

/-- The same of the stream queue. -/
def CoreSt.restStream (k : CoreSt) (v : Nat) : CoreSt :=
  if bitOf v 63 then
    let gone := k.ctx.streamq.filter fun o => o.fault.isSome
    let k := k.forget (gone.flatMap fun o => untaken o.fault)
    { k with ctx := { k.ctx with streamq := k.ctx.streamq.filter fun o => o.fault.isNone } }
  else { k with ctx := { k.ctx with streamq := k.ctx.streamq.map fun o => if o.fault.isSome then { o with row := v % 2 ^ 32 } else o } }

/-- The same of the cipher unit. -/
def CoreSt.restCipher (k : CoreSt) (v : Nat) : CoreSt :=
  if bitOf v 63 then
    let gone := k.ctx.cipherq.filter fun o => o.fault.isSome
    let k := k.forget (gone.flatMap fun o => untaken o.fault)
    { k with ctx := { k.ctx with cipherq := k.ctx.cipherq.filter fun o => o.fault.isNone } }
  else { k with ctx := { k.ctx with cipherq := k.ctx.cipherq.map fun o => if o.fault.isSome then { o with row := v % 2 ^ 32 } else o } }

/-- rowrest: set or end a stopped operation's progress (17 R492). DEDUCED [log 47]. -/
def execRowrest (f : YR) (s : State) : Res :=
  checked (.yr 0x17 f) s fun s =>
    let v := (s.rS f.sb).toNat
    match (s.rS f.sa).toNat with
    | 2 => .next (s.modCore s.cur fun k => k.restCopy v)
    | 3 => .next (s.modCore s.cur fun k => k.restStream v)
    | 4 => .next (s.modCore s.cur fun k => k.restCipher v)
    | _ => illop (.yr 0x17 f) s

end Sys2Proof.Machine
end

