-- ==== Sys2Proof/Machine/Copy.lean ====
section
/-! DEFINITION. Machine/Copy.lean: the copy slot at issue: copies, streams, prefetches, gathers, scatters, fabric operations and
streaming lists enter the core's queues (17 R469 to R482). What the engines then do stands in CopyRows.lean and SmivyLib.lean. -/
namespace Sys2Proof.Machine

/-! Entering a queue (17 R469). -/

/-- The next request identifier is taken, so that pfences before an operation can be told from those after it. DESIGN CHOICE [log 3]. -/
def State.stampSeq (s : State) : State := { s with mem := { s.mem with nextReq := s.mem.nextReq + 1 } }

/-- A copy operation enters the copy queue. -/
def State.queueCopy (s : State) (o : CopyOp) : State :=
  (s.modCtx fun x => { x with
    copyq := x.copyq ++ [{ o with id := x.nextOp, pc := s.th.bpc, strand := s.strandNo, seq := s.mem.nextReq }]
    nextOp := x.nextOp + 1 }).stampSeq

/-- A stream enters the stream queue. -/
def State.queueStream (s : State) (o : StreamOp) : State :=
  (s.modCtx fun x => { x with
    streamq := x.streamq ++ [{ o with id := x.nextOp, pc := s.th.bpc, strand := s.strandNo, seq := s.mem.nextReq }]
    nextOp := x.nextOp + 1 }).stampSeq

/-- A fabric operation enters the fabric queue. -/
def State.queueFabric (s : State) (o : FabricOp) : State :=
  (s.modCtx fun x => { x with
    fabricq := x.fabricq ++ [{ o with id := x.nextOp, pc := s.th.bpc, strand := s.strandNo, seq := s.mem.nextReq }]
    nextOp := x.nextOp + 1 }).stampSeq

/-- `k` runs unless the copy queue is full: then the bundle stalls. -/
def copyRoom (s : State) (k : State → Res) : Res := if 32 ≤ s.ctx.copyq.length then stall s else k s

/-- `k` runs unless the fabric queue is full. -/
def fabricRoom (s : State) (k : State → Res) : Res := if 64 ≤ s.ctx.fabricq.length then stall s else k s

/-- The slot at PP as an operation's destination: claimed where it is FREE (17 R471, 08 R230). -/
def State.claimAtPp (s : State) (h : Nat) : State := s.modHandle h fun d => d.claim d.pp

/-! cpy (17 R471 to R473). -/

/-- cpy: memory to memory, or to or from a buffer slot (17 R471). -/
def execCpy (f : COp) (s : State) : Res :=
  checked (.c 1 f) s fun s =>
    let mw := f.hi
    let th := bitOf mw 0
    let fh := bitOf mw 1
    let a := (s.rS f.sa).toNat
    let b := (s.rS f.sb).toNat
    let n := (s.rS f.sc).toNat
    let size := hSize (s.ctx.setupOf f.f)
    if 2 ^ 32 ≤ n || ((th || fh) && !(s.handleOk f.f)) || n % mwUnit mw != 0 ||
        (th && decide (size < a + mwDstSpan mw n)) || (fh && decide (size < b + mwSrcSpan mw n)) then illop (.c 1 f) s
    else if mwST mw && (a % 128 != 0 || n % 128 != 0) then trap 0x0103 0 a 2 s
    else if n == 0 then .next s
    else
      let o : CopyOp := { op := 1, f := f.f, a := a, b := b, n := n, mw := BitVec.ofNat 32 mw }
      let o := if th then { o with slot := some (s.ctx.handle f.f).pp } else o
      ownsBanks 2 (s.copyRanges s.cur o) s fun s => copyRoom s fun s =>
        .next ((if th then s.claimAtPp f.f else s).queueCopy o)

/-! Streams (17 R475). -/

/-- cstream: rows of L bytes fill the slots of a handle in turn (17 R475). -/
def execCstream (f : COp) (s : State) : Res :=
  checked (.c 2 f) s fun s =>
    let len := 16 * (fld f.hi 0 12 + 1)
    let cnt := fld f.hi 12 4
    let rows := (s.rS f.sc).toNat
    let w := s.ctx.setupOf f.f
    if !(s.handleOk f.f) || 2 ^ 32 ≤ rows || hSize w % len != 0 || (cnt != 0 && !(hCnt w)) then illop (.c 2 f) s
    else
      let o : StreamOp := { f := f.f, base := (s.rS f.sa).toNat, stride := (s.rS f.sb).toNat, rows := rows, len := len
                            cnt := cnt, close := bitOf f.hi 16 }
      ownsBanks 3 (if rows == 0 then [] else s.ctx.streamRanges o) s fun s =>
        if 16 ≤ s.ctx.streamq.length then stall s else .next (s.queueStream o)

/-! Prefetch, gather, scatter and streaming lists (17 R476 R477 R482). -/

/-- cprefetch: the target is kept as the microword (17 R476). -/
def execCprefetch (f : COp) (s : State) : Res :=
  checked (.c 3 f) s fun s =>
    let n := (s.rS f.sb).toNat
    if 2 ^ 32 ≤ n then illop (.c 3 f) s
    else copyRoom s fun s =>
      .next (s.queueCopy { op := 3, a := (s.rS f.sa).toNat, n := n, mw := BitVec.ofNat 32 f.hi })

/-- cgather: table entries are packed into the slot at PP (17 R477). -/
def execCgather (f : COp) (s : State) : Res :=
  checked (.c 4 f) s fun s =>
    let n := (s.rS f.sc).toNat
    if 4096 < n || !(s.handleOk f.f) then illop (.c 4 f) s
    else if n == 0 then .next s
    else
      let o : CopyOp := { op := 4, f := f.f, a := (s.rS f.sa).toNat, b := (s.rS f.sb).toNat, n := n
                          mw := BitVec.ofNat 32 f.hi, slot := some (s.ctx.handle f.f).pp }
      ownsBanks 2 (o.tableBytes ++ s.ctx.slotRange f.f o.slot) s fun s => copyRoom s fun s => .next ((s.claimAtPp f.f).queueCopy o)

/-- cscatter: the slot at CP is spread over the table's entries (17 R477). -/
def execCscatter (f : COp) (s : State) : Res :=
  checked (.c 5 f) s fun s =>
    let n := (s.rS f.sc).toNat
    if 4096 < n || !(s.handleOk f.f) then illop (.c 5 f) s
    else if n == 0 then .next s
    else
      let o : CopyOp := { op := 5, f := f.f, a := (s.rS f.sa).toNat, b := (s.rS f.sb).toNat, n := n, mw := BitVec.ofNat 32 f.hi }
      ownsBanks 2 (o.tableBytes ++ s.ctx.slotRange f.f none) s fun s => copyRoom s fun s => .next (s.queueCopy o)

/-- cskid: a streaming list for the Skidder (17 R482). -/
def execCskid (f : COp) (s : State) : Res :=
  checked (.c 9 f) s fun s =>
    let n := (s.rS f.sb).toNat
    if n == 0 || 65536 < n then illop (.c 9 f) s
    else ownsBanks 2 (windowRange (s.rS f.sa).toNat (8 * n)) s fun s => copyRoom s fun s =>
      .next (s.queueCopy { op := 9, a := (s.rS f.sa).toNat, b := n, n := n })

/-! Fabric operations (17 R478 to R481). -/

/-- The message and remote forms: csend is 6, crecv 7 (17 R479). -/
def fabricForm (op : Nat) (rma : Bool) (f : COp) (s : State) : Res :=
  checked (.c op f) s fun s =>
    let a := (s.rS f.sa).toNat
    let c := (s.rS f.sc).toNat
    let len := fld c 0 24
    let status := fld a 16 48
    if len == 0 || (!rma && fld c 24 40 != 0) then illop (.c op f) s
    else if status % 8 != 0 then trap 0x0103 0 status 5 s
    else fabricRoom s fun s =>
      .next (s.queueFabric { op := op, rma := rma, ep := fld a 0 8, event := fld a 8 8, status := status
                             addr := (s.rS f.sb).toNat, len := len, off := 128 * fld c 24 40, tag := fld f.hi 0 31 })

/-- csend: a message (17 R479, 03 R77). -/
def execCsend (f : COp) (s : State) : Res := fabricForm 6 false f s
/-- csend.rma: a remote write (17 R479). -/
def execCsendRma (f : COp) (s : State) : Res := fabricForm 6 true f s
/-- crecv: a posted receive (17 R479, 03 R77). -/
def execCrecv (f : COp) (s : State) : Res := fabricForm 7 false f s
/-- crecv.rma: a remote read (17 R479). -/
def execCrecvRma (f : COp) (s : State) : Res := fabricForm 7 true f s

/-- ccoll: a collective; its identifier, operation, ALL and event stay together in `tag` (17 R480). -/
def execCcoll (f : COp) (s : State) : Res :=
  checked (.c 8 f) s fun s =>
    let status := (s.rS f.sc).toNat
    if status % 8 != 0 then trap 0x0103 0 status 5 s
    else fabricRoom s fun s =>
      .next (s.queueFabric { op := 8, event := fld f.hi 20 8, status := status, addr := (s.rS f.sa).toNat
                             tag := f.hi, step := fld (s.rS f.sb).toNat 0 32 })

end Sys2Proof.Machine
end

