-- ==== Sys2Proof/Machine/Cipher.lean ====
section
/-! DEFINITION. Machine/Cipher.lean: the cipher slot at issue (17 R493 to R497, 12 R361). What the cipher unit then does stands in
CipherRows.lean. -/
namespace Sys2Proof.Machine

/-- A house-privileged operation issued by tenant code (11 R307). -/
def PRIV : Nat := 0x0004
/-- A misaligned address. -/
def ALIGN : Nat := 0x0103

/-- An operation enters the unit's queue where the banks it names are owned (07 R196). -/
def queueOwned (o : CipherOp) (s : State) (k : State → State) : Res := ownsBanks 4 (s.ctx.cipherRanges o) s fun s => .next (k s)

/-- A cipher operation enters the unit's queue. DEDUCED [log 49]. -/
def State.queueCipher (s : State) (o : CipherOp) : State :=
  (s.modCtx fun x => { x with
    cipherq := x.cipherq ++ [{ o with id := x.nextOp, pc := s.th.bpc, strand := s.strandNo, seq := s.mem.nextReq }]
    nextOp := x.nextOp + 1 }).stampSeq

/-- The key slot a selector names: 0 is the launch key (05 R128). -/
def State.selected (s : State) (key : Nat) : Nat := if key == 0 then s.launch.keySlot else key

/-- An address in the scratchpad window. -/
def inSpadWindow (a : Nat) : Bool := decide (0x7FFE00000000 ≤ a ∧ a < 0x7FFE00200000)

/-- The checks of seal, open and shablk on the length word and the handle: its reserved bits, the length and the slot range
(17 R493, 17 R508). DEDUCED [log 49]. -/
def cipherOk (f : KOp) (reserved unit least most off word_ : Nat) (s : State) : Bool :=
  let n := fld word_ 0 32
  reserved == 0 && n % unit == 0 && least ≤ n && n ≤ most &&
  (if bitOf word_ 63 then s.handleOk f.f && off + n ≤ hSize (s.ctx.setupOf f.f) else f.f == 0)

/-- seal: plaintext to ciphertext under the selected key (17 R493 R494). -/
def execCipherSeal (f : KOp) (s : State) : Res :=
  checked (.k 1 f) s fun s =>
    let dst := (s.rS f.sa).toNat
    let src := (s.rS (f.sa + 1)).toNat
    let w := (s.rS (f.sa + 2)).toNat
    if !(cipherOk f (fld w 32 31) 128 128 (2 ^ 31) src w s) || inSpadWindow dst then illop (.k 1 f) s
    else if f.key != 0 && !s.isHouse then trap PRIV 0 0 15 s
    else if dst % 128 != 0 then trap ALIGN 0 dst 4 s
    else
      let o : CipherOp := { op := 1, f := f.f, dst := dst, src := src, len := fld w 0 32, buf := bitOf w 63
                            tile := s.rS (f.sa + 3), key := s.selected f.key }
      queueOwned o s fun s => s.queueCipher o

/-- open: ciphertext to plaintext; with BUF into the slot at PP, which is claimed (17 R493 R494). -/
def execCipherOpen (f : KOp) (s : State) : Res :=
  checked (.k 2 f) s fun s =>
    let dst := (s.rS f.sa).toNat
    let src := (s.rS (f.sa + 1)).toNat
    let w := (s.rS (f.sa + 2)).toNat
    if !(cipherOk f (fld w 32 31) 128 128 (2 ^ 31) dst w s) || inSpadWindow src then illop (.k 2 f) s
    else if f.key != 0 && !s.isHouse then trap PRIV 0 0 15 s
    else if src % 128 != 0 then trap ALIGN 0 src 4 s
    else
      let o : CipherOp := { op := 2, f := f.f, dst := dst, src := src, len := fld w 0 32, buf := bitOf w 63
                            tile := s.rS (f.sa + 3), key := s.selected f.key }
      let o := if bitOf w 63 then { o with slot := some (s.ctx.handle f.f).pp } else o
      queueOwned o s fun s => (if bitOf w 63 then s.claimAtPp f.f else s).queueCipher o

/-- shablk: SHA-256 compression over the source (17 R493 R496). DEDUCED [log 49]. -/
def execShablk (f : KOp) (s : State) : Res :=
  checked (.k 3 f) s fun s =>
    let dst := (s.rS f.sa).toNat
    let src := (s.rS (f.sa + 1)).toNat
    let w := (s.rS (f.sa + 2)).toNat
    if !(cipherOk f (fld w 32 30) 64 0 (2 ^ 32) src w s) then illop (.k 3 f) s
    else
      let o : CipherOp := { op := 3, f := f.f, dst := dst, src := src, len := fld w 0 32, buf := bitOf w 63, init := bitOf w 62 }
      queueOwned o s fun s => s.queueCipher o

/-- kbind: import of the sealed handle at S[sa] into a key slot; house-privileged (17 R497). DEDUCED [log 49]. -/
def execKbind (f : KOp) (s : State) : Res :=
  checked (.k 4 f) s fun s =>
    let src := (s.rS f.sa).toNat
    if !s.isHouse then trap PRIV 0 0 15 s
    else if src % 32 != 0 then trap ALIGN 0 src 4 s
    else queueOwned { op := 4, src := src, len := 32, key := f.key } s fun s => s.queueCipher { op := 4, src := src, len := 32, key := f.key }

/-- kzero: zeroisation of a key slot; house-privileged (17 R497). -/
def execKzero (f : KOp) (s : State) : Res :=
  checked (.k 5 f) s fun s =>
    if !s.isHouse then trap PRIV 0 0 15 s else .next (s.queueCipher { op := 5, key := f.key })

end Sys2Proof.Machine
end

