-- ==== Sys2Proof/Machine/EthLib.lean ====
section
/-! DEFINITION. Machine/EthLib.lean: what the Ethernet engine's events share: frames and datagrams sent, sessions and slot pairs, errors
and replies (02 R42 to R60, R67). -/
namespace Sys2Proof.Machine

/-! Ports, counters, sessions. -/

/-- Port `n`. -/
def State.port (s : State) (n : Nat) : EthPort := SMap.get s.eth.ports n {}
/-- Port `n` changed. -/
def State.modPort (s : State) (n : Nat) (g : EthPort → EthPort) : State :=
  { s with eth := { s.eth with ports := SMap.upd s.eth.ports n {} g } }
/-- Port counter `k` counts (02 R67). -/
def State.countPort (s : State) (n k : Nat) : State :=
  { s with eth := { s.eth with portCtr := SMap.upd s.eth.portCtr (32 * n + k) 0 fun c => sat48 c 1 } }
/-- Port counter `k` counts `m` at once (02 R67). -/
def State.countPortN (s : State) (n k m : Nat) : State :=
  { s with eth := { s.eth with portCtr := SMap.upd s.eth.portCtr (32 * n + k) 0 fun c => sat48 c m } }
/-- Partition counter `k` counts (02 R67). -/
def State.countPart (s : State) (p k : Nat) : State :=
  { s with eth := { s.eth with partCtr := SMap.upd s.eth.partCtr (16 * p + k) 0 fun c => sat48 c 1 } }
/-- An entry of the address table. -/
def State.eaddr (s : State) (n k : Nat) : EthAddr := SMap.get s.eth.addr (32 * n + k) {}
/-- The pool of a partition. -/
def State.epool (s : State) (p : Nat) : EthPool := SMap.get s.eth.pools p {}

/-! Internet headers (RFC 791, 8200 and 768 as 02 R39 and R60 use them). -/

/-- One's-complement sum of 16-bit words. -/
def onesSum (bs : List Byte) : Nat :=
  let n := ((List.range ((bs.length + 1) / 2)).map fun i => beAt (padTo bs (bs.length + 1)) (2 * i) 2).sum
  let n := n % 65536 + n / 65536
  n % 65536 + n / 65536

/-- Internet checksum of bytes whose checksum field is zero. -/
def inetSum (bs : List Byte) : Nat := 65535 - onesSum bs

/-- A UDP packet with its checksum over the pseudo-header; a computed zero is sent as all ones. PRESUMED [log 72]. -/
def udpPacket (ip6 : Bool) (src dst sport dport : Nat) (payload : List Byte) : List Byte :=
  let n := 8 + payload.length
  let pseudo := if ip6 then natBe 16 src ++ natBe 16 dst ++ natBe 4 n ++ natBe 4 17
    else natBe 4 src ++ natBe 4 dst ++ natBe 2 17 ++ natBe 2 n
  let udp (c : Nat) := natBe 2 sport ++ natBe 2 dport ++ natBe 2 n ++ natBe 2 c ++ payload
  let c := inetSum (pseudo ++ udp 0)
  udp (if c == 0 then 65535 else c)

/-- An IP packet (02 R60): DSCP copied, ECN 0, TTL or hop limit 64, DF set and identification 0. PRESUMED [log 72]. -/
def ipPacket (ip6 : Bool) (src dst dscp proto : Nat) (payload : List Byte) : List Byte :=
  if ip6 then natBe 4 (6 * 2 ^ 28 + dscp * 2 ^ 22) ++ natBe 2 payload.length ++ natBe 1 proto ++ natBe 1 64 ++ natBe 16 src ++
    natBe 16 dst ++ payload
  else
    let h (c : Nat) := natBe 1 0x45 ++ natBe 1 (dscp * 4) ++ natBe 2 (20 + payload.length) ++ natBe 2 0 ++ natBe 2 0x4000 ++
      natBe 1 64 ++ natBe 1 proto ++ natBe 2 c ++ natBe 4 src ++ natBe 4 dst
    h (inetSum (h 0)) ++ payload

/-- An Ethernet frame without its FCS, padded to the minimum size. PRESUMED [log 72]. -/
def etherFrame (dst src : Nat) (vid : Option Nat) (ethertype : Nat) (payload : List Byte) : List Byte :=
  let tag := match vid with | some v => natBe 2 0x8100 ++ natBe 2 v | none => []
  padTo (natBe 6 dst ++ natBe 6 src ++ tag ++ natBe 2 ethertype ++ payload) 60

/-- MAC address of port `n` (01 R28). -/
def State.macOf (s : State) (n : Nat) : Nat := (s.pkg.macBase + n) % 2 ^ 48

/-- A frame leaves port `n`. -/
def State.sendFrame (s : State) (n : Nat) (bs : List Byte) : State := (s.emit (.frame n bs)).countPort n 12

/-- An address-table entry as an IP address of its version (02 R65). -/
def EthAddr.matchesIp (e : EthAddr) (ip6 : Bool) (ip : Nat) : Bool :=
  e.flags.getLsbD 0 && e.flags.getLsbD 2 == ip6 && e.ip.toNat == (if ip6 then ip else 0xFFFF00000000 + ip)

/-- The port an answer leaves through (02 R60). -/
def State.answerPort (s : State) (p : Peer) : Option Nat :=
  if (s.port p.port).link then some p.port
  else firstBelow 4 fun n => (s.port n).link && (List.range 32).any fun k =>
    (s.eaddr n k).matchesIp p.ip6 p.dstIp && (s.eaddr n k).part == p.part

/-- A UDP payload goes back to a peer, or is dropped where no port leads there (02 R60). -/
def State.sendUdp (s : State) (p : Peer) (payload : List Byte) : State :=
  match s.answerPort p with
  | none => s
  | some n =>
    let udp := udpPacket p.ip6 p.dstIp p.srcIp s.eth.mrpPort p.udp payload
    s.sendFrame n (etherFrame p.mac (s.macOf n) p.vid (if p.ip6 then 0x86DD else 0x0800)
      (ipPacket p.ip6 p.dstIp p.srcIp p.dscp 17 udp))

/-! MRP datagrams (02 R42 to R44). -/

/-- An MRP header. -/
def mrpHeader (ty frag count blen sid seq func reqid tlen : Nat) : List Byte :=
  natBe 1 (0x10 + ty) ++ natBe 1 (frag * 16 + (count - 1)) ++ natBe 2 blen ++ natBe 8 sid ++ natBe 8 seq ++ natBe 4 func ++
    natBe 4 reqid ++ natBe 4 tlen

/-- Bytes of the IP header. -/
def Peer.iphdr (p : Peer) : Nat := if p.ip6 then 40 else 20

/-- A message cut into datagram bodies of `b` bytes; an empty one is one empty datagram. -/
def mrpBodies (b : Nat) (body : List Byte) : List (List Byte) :=
  (List.range (max 1 ((body.length + b - 1) / b))).map fun i => slice body (b * i) b

/-- An unprotected message of type `ty` is sent in datagrams of `b` body bytes. -/
def State.sendPlain (s : State) (p : Peer) (ty sid reqid b : Nat) (body : List Byte) : State :=
  let ds := mrpBodies b body
  (ds.zip (List.range ds.length)).foldl (fun s d =>
    s.sendUdp p (mrpHeader ty d.2 ds.length d.1.length sid 0 0 reqid body.length ++ d.1)) s

/-- A protected message of session slot `i`: each datagram takes the next SEQ and is sealed under k_dc (02 R44). Nothing is sent and no SEQ
taken where no port leads to the peer (02 R60). -/
def State.sendSealed (s : State) (i : Nat) (p : Peer) (ty func reqid b : Nat) (body : List Byte) : State :=
  let ds := mrpBodies b body
  if (s.answerPort p).isNone then s
  else (ds.zip (List.range ds.length)).foldl (fun (s : State) d =>
    let e := s.sess i
    let seq := e.sent + 1
    let h := mrpHeader ty d.2 ds.length d.1.length e.sid seq func reqid body.length
    let (ct, tag) := gcmSeal e.kDc (e.saltDc ++ natBe 8 seq) h d.1
    (s.sendUdp p (h ++ ct ++ tag)).modSess i fun e => { e with sent := seq }) s

/-- A reply or an ERROR to a peer: sent and counted under `k`, or dropped and counted once as RPPORT (02 R60 R67). -/
def State.sendReply (s : State) (i : Nat) (p : Peer) (ty func reqid b : Nat) (body : List Byte) (k : Nat) : State :=
  if (s.answerPort p).isNone then s.countPart p.part 4 else (s.sendSealed i p ty func reqid b body).countPart p.part k

/-! Slot pairs and the end of requests (02 R53 R54 R56). -/

/-- A direction's SEQ has no number left for `n` more datagrams below 2^48 (02 R51). -/
def State.seqSpent (s : State) (i n : Nat) : Bool := decide (2 ^ 48 < (s.sess i).sent + n)

/-- An ERROR datagram to a peer of session slot `i`; in a lapsed session it is dropped and counted as RPLAPSE (02 R51 R54). -/
def State.sendError (s : State) (i : Nat) (p : Peer) (func reqid code detail : Nat) : State :=
  if (s.sess i).st != SessState.openS then s.countPart p.part 3
  else if s.seqSpent i 1 then (s.lapse i).countPart p.part 3
  else
    s.sendReply i p 0x6 func reqid 4 (natBe 2 code ++ natBe 2 detail) 1

/-- ERROR for a request in flight. -/
def State.errorFor (s : State) (r : Request) (code detail : Nat) : State := s.sendError r.slot r.peer r.func r.reqid code detail

/-- A request ends with an ERROR and leaves. -/
def State.failEreq (s : State) (id code detail : Nat) : State :=
  match s.ereq id with
  | some r => ((s.errorFor r code detail).dropEreq id).settleSess r.slot
  | none => s

/-! The Catalog (02 R55). -/

/-- The Catalog set of a binding and a function (02 R55). -/
def catalogSet (bind func : Nat) : Nat := (crc32c (natLe 2 bind ++ natLe 4 func)).toNat % 2 ^ 14

/-- Catalog entry `i` = 4 set + way. -/
def State.catEntry (s : State) (i : Nat) : CatalogEntry := SMap.get s.eth.catalog i {}

/-- CATALOG_LOOKUP: the valid entry of a binding and a function (02 R55). -/
def State.catLookup (s : State) (bind func : Nat) : Option Nat :=
  let set := catalogSet bind func
  ((List.range 4).map (4 * set + ·)).find? fun i => (s.catEntry i).v && (s.catEntry i).bind == bind && (s.catEntry i).func == func

/-- A Catalog entry replaced. -/
def State.setCat (s : State) (i : Nat) (e : CatalogEntry) : State :=
  { s with eth := { s.eth with catalog := SMap.set s.eth.catalog i e {} } }

/-- The Catalog entry in a packet (02 R55). -/
def packetEntry (b : List Byte) : CatalogEntry :=
  { v := bitOf (leAt b 32 8) 47, part := fld (leAt b 40 8) 0 5, mcx := fld (leAt b 32 8) 48 13, bind := fld (leAt b 32 8) 32 12
    func := fld (leAt b 32 8) 0 32 }

/-- A CATALOG_SET packet that R94 refuses: V = 0, or a reserved bit of the entry set. -/
def entryBad (b : List Byte) : Bool :=
  !(bitOf (leAt b 32 8) 47) || fld (leAt b 40 8) 5 59 != 0 || fld (leAt b 32 8) 61 3 != 0 || fld (leAt b 32 8) 44 3 != 0

/-! REPLY (02 R58 R59). -/

/-- The lines of a reply body decrypted under a key, tile offset 0 (05 R134). -/
def openLines (key : List Byte) (lines : List (List Byte)) : List Byte :=
  (lines.zip (List.range lines.length)).flatMap fun p => xtsLine false key p.2 p.1

/-- The reply slot of a request is sent as a REPLY or an ERROR, and the request leaves (02 R59). The MTU is the arrival port's, also where
the reply leaves by another port. DESIGN CHOICE [log 96]. -/
def State.reply (s : State) (id : Nat) (faultClass : Option Nat) (key : Option (List Byte)) : State :=
  match s.ereq id with
  | none => s
  | some r =>
    let pool := s.epool r.part
    let slot := pool.slotAddr r.pair 1
    let len := s.physLe slot 4
    let status := s.physLe (slot + 4) 2
    let cap := pool.slotBytes - 128
    let n := (len + 127) / 128
    let p := r.peer
    let m := ((s.port p.port).mtu - p.iphdr - 56) / 16 * 16
    let b := min 8192 m
    let plain := (List.range n).any fun i => !(s.line (slot + 128 + 128 * i)).cipher
    let s :=
      match faultClass with
      | some c => s.errorFor r 0x0006 c
      | none =>
        if 0x8000 ≤ status then s.errorFor r 0x0007 2
        else if status != 0 then s.errorFor r (0x8000 + status) status
        else if cap < len then s.errorFor r 0x0007 0
        else if plain then s.errorFor r 0x0007 1
        else if 16 * b < len then s.errorFor r 0x0008 0
        else if (s.sess r.slot).st != SessState.openS then s.countPart p.part 3
        else if s.seqSpent r.slot (max 1 ((len + b - 1) / b)) then (s.lapse r.slot).countPart p.part 3
        else
          let lines := (List.range n).map fun i => s.phys (slot + 128 + 128 * i) 128
          let body := (openLines (key.getD []) lines).take len
          s.sendReply r.slot p 0x5 r.func r.reqid b body 2
    (s.dropEreq id).settleSess r.slot

end Sys2Proof.Machine
end

