-- ==== Sys2Proof/Machine/Circ.lean ====
section
/-! DEFINITION. Machine/Circ.lean: Circulation: launch records, the choice of cores, pre-emption, wait lists and bindings
(06 R150 to R169, 05 R118 R124 R128). -/
namespace Sys2Proof.Machine

/-! Launch records (06 R150). -/

/-- The fields of a 128-byte launch record. -/
def parseRecord (b : List Byte) : LaunchRec :=
  { hpart := fld (leAt b 0 8) 27 5, nopart := bitOf (leAt b 0 8) 26, bkt := bitOf (leAt b 0 8) 10, prot := bitOf (leAt b 0 8) 9
    gang := bitOf (leAt b 0 8) 8, kind := leAt b 0 1, entry := leAt b 8 6, cmin := fld (leAt b 16 8) 32 10
    cores := fld (leAt b 16 8) 16 10, strands := leAt b 16 2, handle := slice b 24 32, seed := BitVec.ofNat 128 (leAt b 56 16)
    args := leAt b 72 6, crec := leAt b 80 8, sigVal := leAt b 94 2, sigAddr := leAt b 88 6, trapv := leAt b 96 6, btab := leAt b 104 6
    hnd := fld (leAt b 112 8) 24 7, acc := fld (leAt b 112 8) 8 9, spb := leAt b 112 1, deadline := leAt b 124 4
    prio := fld (leAt b 120 4) 0 4 }

/-- Every bit marked reserved is zero (06 R150). -/
def recordReservedOk (b : List Byte) : Bool :=
  fld (leAt b 0 8) 32 32 == 0 && fld (leAt b 0 8) 11 15 == 0 && leAt b 14 2 == 0 && fld (leAt b 16 8) 42 22 == 0 &&
  fld (leAt b 16 8) 26 6 == 0 && leAt b 78 2 == 0 && leAt b 102 2 == 0 && leAt b 110 2 == 0 && fld (leAt b 112 8) 31 33 == 0 &&
  fld (leAt b 112 8) 17 7 == 0 && fld (leAt b 120 4) 4 28 == 0

/-- The record's fields keep R150. -/
def LaunchRec.ok (r : LaunchRec) : Bool :=
  decide (r.kind ≤ 2) && (r.kind == 2 || (r.hpart == 0 && !r.nopart)) && (!r.nopart || r.hpart == 0) && r.entry % 4 == 0 &&
  decide (1 ≤ r.cmin ∧ r.cmin ≤ r.cores ∧ r.cores ≤ 600) && decide (1 ≤ r.strands ∧ r.strands ≤ 16384) &&
  r.crec % 64 == 0 && r.sigAddr % 8 == 0 && r.trapv % 4 == 0 && r.btab % 64 == 0 && (r.btab != 0) == r.bkt &&
  decide (r.hnd ≤ 64 ∧ r.acc ≤ 256 ∧ r.spb ≤ 128) && (!r.gang || (r.strands == r.cmin && r.cmin == r.cores))

/-- Circulation changed. -/
def State.modCirc (s : State) (g : Circ → Circ) : State := { s with circ := g s.circ }

/-- CIRC.CNT[k] counts (06 R177). -/
def State.countCirc (s : State) (k : Nat) : State := s.modCirc fun c => { c with cnt := SMap.upd c.cnt k 0 fun n => sat48 n 1 }

/-! Cores (06 R159 R160). -/

/-- Core `c` lies in a launch's partition; for none, in no partition (05 R118). -/
def State.coreIn (s : State) (p : Option Nat) (c : Nat) : Bool :=
  match p with
  | some p => (s.part p).st == 2 && (s.part p).cores.getLsbD c
  | none => (s.partOfCore c).isNone

/-- The launch slot a core is bound to. -/
def State.owner (s : State) (c : Nat) : Option Nat := SMap.get s.circ.owner c none

/-- A core's claim replaced. -/
def State.setOwner (s : State) (c : Nat) (n : Option Nat) : State :=
  s.modCirc fun x => { x with owner := SMap.set x.owner c n none }

/-- The pre-emption in progress on a core. -/
def State.preempt (s : State) (c : Nat) : Option Preempt := SMap.get s.circ.preempts c none

/-- A core's pre-emption replaced. -/
def State.setPreempt (s : State) (c : Nat) (p : Option Preempt) : State :=
  s.modCirc fun x => { x with preempts := SMap.set x.preempts c p none }

/-- Accumulator banks a context holds. -/
def CoreCtx.accHeld (x : CoreCtx) : Nat := (x.held.filter fun p => p.2 != 0).length

/-- Scratchpad banks of core `c` that may be mapped for a launch: not failed, not a resident context's (06 R159, 05 R145). -/
def State.freeBanks (s : State) (c : Nat) : List Nat :=
  let taken := match (s.core c).resident with | some (_, x) => x.banks | none => []
  (List.range 128).filter fun b => !(s.unitFailed 1 (128 * c + b)) && !(taken.contains b)

/-- A launch's reservation fits on core `c` beside a resident context (06 R159). -/
def State.fits (s : State) (r : LaunchRec) (c : Nat) : Bool :=
  let (acc, hnd) := match (s.core c).resident with
    | some (n, x) => (x.accHeld, match s.launchAt n with | some l => l.record.hnd | none => 0)
    | none => (0, 0)
  decide (r.spb ≤ (s.freeBanks c).length) &&
  decide (r.acc + acc + ((List.range 256).filter fun b => s.unitFailed 2 (256 * c + b)).length ≤ 256) && decide (r.hnd + hnd ≤ 64)

/-- Core `c` is free to a launch with record `r` in partition `p`; `mine` is its own slot, whose resident context does not
stand in its way. A core whose Grader is marked failed can be given to no launch (06 R159, 05 R145). -/
def State.freeTo (s : State) (r : LaunchRec) (p : Option Nat) (mine : Option Nat) (c : Nat) : Bool :=
  s.coreIn p c && !(s.core c).failed && !(s.unitFailed 3 c) && !(s.isDirty 0 c) && (s.owner c).isNone &&
  (s.fits r c || (mine.isSome && ((s.core c).resident.map (·.1)) == mine))

/-- Usable cores of a partition that is not UNDEFINED, or of no partition: PKG.PART.CORES (05 R145 R146). -/
def State.usable (s : State) (p : Option Nat) : List Nat :=
  (List.range 600).filter fun c => !(s.core c).failed &&
    (match p with | some p => (s.part p).st != 0 && (s.part p).cores.getLsbD c | none => (s.partOfCore c).isNone)

/-- The key of R160: min(COREA, DIEA) >> 3. -/
def State.coolness (s : State) (c : Nat) : Nat := min (s.allowance c 105) (s.allowance (600 + c / 150) 105) / 8

/-- Whether `a` comes before `b`: cooler first, then ascending number from the rotating pointer (06 R160). DEDUCED [log 52]. -/
def State.before (s : State) (a b : Nat) : Bool :=
  decide (s.coolness b < s.coolness a) ||
  (s.coolness a == s.coolness b && decide ((a + 600 - s.circ.pointer) % 600 < (b + 600 - s.circ.pointer) % 600))

/-- Insert by an order. -/
def insertBy (lt : Nat → Nat → Bool) (x : Nat) (l : List Nat) : List Nat :=
  match l with
  | [] => [x]
  | y :: r => if lt y x then y :: insertBy lt x r else x :: y :: r

/-- A list in a strict order; equal elements keep theirs. -/
def sortBy (lt : Nat → Nat → Bool) (l : List Nat) : List Nat := l.foldr (insertBy lt) []

/-- The cores free to a launch, in the order in which they are taken. DEDUCED [log 52]. -/
def State.freeCores (s : State) (r : LaunchRec) (p : Option Nat) (mine : Option Nat) : List Nat :=
  sortBy s.before ((List.range 600).filter (s.freeTo r p mine))

/-! Victims (06 R162). -/

/-- Save areas that are free: not in use, and clean, of pages that have not failed (11 R324, 05 R145). DESIGN CHOICE [log 19]. DEDUCED [log 54]. -/
def State.freeSaves (s : State) : List Nat :=
  (List.range s.mem.saveCount).filter fun i =>
    (SMap.get s.saves i none).isNone &&
    let page := (s.mem.saveBase + 0x400000 * i) / 0x200000
    [page, page + 1].all fun g => !(s.isDirty (pageUnit g).1 (pageUnit g).2) && !(s.unitFailed (pageUnit g).1 (pageUnit g).2)

/-- Save areas that no pre-emption in progress is to use (11 R324). -/
def State.spareSaves (s : State) : Nat :=
  s.freeSaves.length - (s.circ.preempts.filter fun e => e.2.isSome).length

/-- A core whose launch can be made its victim: held, and not already in a pre-emption. -/
def State.canPreempt (s : State) (c : Nat) : Bool := (s.preempt c).isNone && !(s.core c).failed

/-- The running carrels a launch may take cores from, lowest base priority first, then the most recently bound. -/
def State.victimCarrels (s : State) (prio : Nat) (part : Option Nat) : List Nat :=
  let l (n : Nat) : Launch := (s.launchAt n).getD {}
  let cand := (s.circ.launches.filter fun e => match e.2 with
    | some v => v.st == .bound && v.part == part && decide (v.prio < prio) && v.parkAddr.isNone && v.parkNo == 0
    | none => false).map (·.1)
  sortBy (fun a b => decide ((l a).prio < (l b).prio) || ((l a).prio == (l b).prio && decide ((l b).bindNo < (l a).bindNo))) cand

/-- The cores a carrel gives up when `need` are still sought: a gang all or none, another its highest (06 R162). -/
def State.giveUp (s : State) (n need : Nat) : List Nat :=
  let l := (s.launchAt n).getD {}
  let cs := l.cores.filter s.canPreempt
  if l.record.gang then (if cs.length == l.cores.length then l.cores else [])
  else (sortBy (fun a b => decide (b < a)) cs).take need

/-- Victim cores until `need` are found and save areas last. -/
def pickVictims (s : State) (need saves : Nat) (carrels : List Nat) (got : List Nat) : List Nat :=
  match carrels with
  | [] => got
  | n :: r =>
    if need ≤ got.length then got
    else
      let cs := s.giveUp n (need - got.length)
      if got.length + cs.length ≤ saves then pickVictims s need saves r (got ++ cs) else pickVictims s need saves r got

/-- The victim cores of a launch that still needs `need` cores; none when they fall short. -/
def State.victims (s : State) (prio : Nat) (part : Option Nat) (need : Nat) : Option (List Nat) :=
  let got := pickVictims s need s.spareSaves (s.victimCarrels prio part) []
  if need ≤ got.length then some got else none

/-! Wait lists (06 R165 R166). -/

/-- Key of a partition's wait list. -/
def waitKey (p : Option Nat) : Nat := p.getD 32

/-- A partition's wait list in its order: aged priority, then time of entry; of two that enter at one TIME the earlier entrant stands
first (06 R165). -/
def State.waitList (s : State) (p : Option Nat) : List Nat :=
  let l (n : Nat) : Launch := (s.launchAt n).getD {}
  sortBy (fun a b => decide ((l b).aged < (l a).aged) || ((l a).aged == (l b).aged && decide ((l a).waitAt < (l b).waitAt)))
    (SMap.get s.circ.waits (waitKey p) [])

/-- A launch enters its partition's wait list. -/
def State.enterWait (s : State) (n : Nat) : State :=
  match s.launchAt n with
  | none => s
  | some l =>
    (s.setLaunch n (some { l with waitAt := s.time.toNat, aged := l.prio })).modCirc fun c =>
      { c with waits := SMap.upd c.waits (waitKey l.part) [] fun w => withElem w n }

/-- A launch leaves the wait lists. -/
def State.leaveWait (s : State) (n : Nat) : State :=
  s.modCirc fun c => { c with waits := (c.waits.map fun e => (e.1, without e.2 n)).filter fun e => !e.2.isEmpty }

/-- A launch whose bucket is empty is not eligible (06 R167). -/
def State.eligible (s : State) (n : Nat) : Bool :=
  match s.launchAt n with
  | some l => (match l.bucket with | some b => !(s.bkEmpty b) | none => true)
  | none => false

/-- The wait-list head: the first entry whose bucket is not empty. -/
def State.waitHead (s : State) (p : Option Nat) : Option Nat := (s.waitList p).find? s.eligible

/-! Cores joining a carrel (06 R158 R164 R168, 11 R326 R327). -/

/-- A save area replaced. -/
def State.setSave (s : State) (i : Nat) (x : Option Save) : State := { s with saves := SMap.set s.saves i x none }

/-- The lines from line `first` on, `n` of them, hold plaintext of a domain. -/
def State.tagLines (s : State) (tag first n : Nat) : State :=
  { s with mem := { s.mem with lines := (s.mem.lines.filter fun e => e.1 < first) ++
      ((List.range n).map fun i => (first + i, ({ tag := tag } : LineState))) ++ (s.mem.lines.filter fun e => first + n ≤ e.1) } }

/-- The house writes bytes to a save area, in plaintext and with the victim's tag (11 R324). -/
def State.putArea (s : State) (tag pa : Nat) (bs : List Byte) : State :=
  ((s.fillDone (pa / 0x200000)).setPhys pa bs).tagLines tag (pa / 128) ((pa + bs.length + 127) / 128 - pa / 128)

/-- A bank's `n` bytes, given by offset, are written to a save area (11 R326). -/
def State.putBank (s : State) (tag pa n : Nat) (cells : List Host.Cell) : State :=
  let s := (s.fillDone (pa / 0x200000)).tagLines tag (pa / 128) (n / 128)
  { s with mem := { s.mem with bytes := cells.foldl (fun m p => Memory.write m (pa + p.1) p.2) (Memory.zero s.mem.bytes pa n) } }

/-- Context `x` of core state `k` spills to a save area: accumulator banks plane by plane, then scratchpad banks, then the extents
(11 R324 R326). -/
def State.spillBanks (s : State) (k : CoreSt) (x : CoreCtx) (tag area : Nat) : State :=
  let held := (x.held.filter fun (p : Nat × Nat) => p.2 != 0).map (·.1)
  let s := held.foldl (fun (s : State) b => s.putBank tag (area + 0xA0000 + 0x800 * b) 0x800
    ((k.acc.filter fun p => p.1 / 0x800 == b).map fun p => (p.1 % 0x800, p.2))) s
  let s := (List.range x.banks.length).foldl (fun (s : State) b => s.putBank tag (area + 0x120000 + 0x4000 * b) 0x4000
    ((k.spad.filter fun p => p.1 / 0x4000 == x.banks.getD b 0).map fun p => (p.1 % 0x4000, p.2))) s
  s.putArea tag (area + 0x90) (natLe 8 (b2n (!held.isEmpty) + 2 * b2n (!x.banks.isEmpty)))

/-- A resident context of core `c` is written to the save area of its launch there (11 R326). -/
def State.spill (s : State) (c : Nat) : State :=
  let k := s.core c
  match k.resident with
  | none => s
  | some (n, x) =>
    let mine (v : Save) : Bool := v.launch == n && v.core == c
    let s : State := (s.saves.filterMap fun e => e.2).foldl (fun (s : State) (v : Save) =>
      if mine v then s.spillBanks k x ((s.launchAt n).getD {}).tag v.area else s) s
    let s := { s with saves := s.saves.map fun (e : Nat × Option Save) => (e.1, e.2.map fun (v : Save) => if mine v then
      { v with
        ctx := some x
        full := (List.range x.banks.length).flatMap fun b =>
          (k.full.filter fun g => g / 1024 == x.banks.getD b 0).map fun g => b * 1024 + g % 1024 }
      else v) }
    let s := s.markDirty 1 (x.banks.map (128 * c + ·))
    let s := s.markDirty 2 ((x.held.filter fun (p : Nat × Nat) => p.2 != 0).map fun (p : Nat × Nat) => 256 * c + p.1)
    (s.modCore c fun k => { k with resident := none }).countCirc 6

/-- Records and saved core states tied to core `old` are tied to `new` instead; a context still resident on `old` spills there
(06 R164, 11 R326). DEDUCED [log 53]. -/
def State.retie (s : State) (n old new : Nat) : State :=
  let s := if ((s.core old).resident.map (·.1)) == some n then s.spill old else s
  s.modLaunch n fun l => { l with
    strands := l.strands.map fun e => (e.1, if e.2.tie == some old then { e.2 with tie := some new } else e.2)
    coreSaves := match SMap.get l.coreSaves old none with
      | some i => SMap.set (SMap.drop l.coreSaves old) new (some i) none
      | none => l.coreSaves }

/-- Cores to which something of launch `n` is tied and which are not of its carrel. -/
def Launch.absent (l : Launch) : List Nat :=
  (((l.strands.filterMap fun e => e.2.tie) ++ (l.coreSaves.map (·.1))).filter fun c => !(l.cores.contains c)).eraseDups

/-- Core `c` joins the carrel of launch `n`: claimed, to be loaded; it stands in for the lowest core that the carrel has lost, unless
something of the launch is tied to `c` itself; its scalar data cache holds nothing older than the launch (06 R158 R164 R168, 09 R264).
DEDUCED [log 53]. -/
def State.joinCore (s : State) (n c : Nat) : State :=
  match s.launchAt n with
  | none => s
  | some l =>
    let gone := l.absent
    let s := if gone.contains c then s
      else match sortBy (fun a b => decide (a < b)) gone with
        | old :: _ => s.retie n old c
        | [] => s
    let s := s.modLaunch n fun l => { l with cores := l.cores ++ [c] }
    (s.setOwner c (some n)).modCore c fun k => { k with launch := some n, strand := none, loaded := false, dcache := [], seqWrites := [] }

/-- The rotating pointer moves past the last core taken at a binding (06 R160). -/
def State.movePointer (s : State) (cs : List Nat) : State :=
  match cs.getLast? with
  | some c => s.modCirc fun q => { q with pointer := (c + 1) % 600 }
  | none => s

/-- Several cores join. -/
def State.joinCores (s : State) (n : Nat) (cs : List Nat) : State := cs.foldl (fun s c => s.joinCore n c) s

/-- A pre-emption is asked of the Collector for each core (06 R163). -/
def State.askPreempt (s : State) (cs : List Nat) (incoming : Option Nat) : State :=
  cs.foldl (fun s c => match s.owner c with
    | some v => s.setPreempt c (some { incoming := incoming, victim := v })
    | none => s) s

/-! The launch table (06 R151 R169). -/

/-- The lowest free slot. -/
def State.freeSlot (s : State) : Option Nat := firstBelow 4096 fun n => (s.launchAt n).isNone

/-- Records of `p`'s share and of the shared pool that a launch of `n` strands takes; none when they do not suffice (06 R169). -/
def State.recordSplit (s : State) (p : Option Nat) (n : Nat) : Option (Nat × Nat) :=
  let own := match p with | some p => min n (2048 - SMap.get s.circ.recPart p 0) | none => 0
  if s.circ.recShared + (n - own) ≤ 65536 then some (own, n - own) else none

/-- A draw key (10 R297). -/
def State.launchDrawKey (s : State) (r : LaunchRec) (house : Bool) : BitVec 128 :=
  if r.seed != 0 then r.seed else s.prot.vault.drawKey (if house then List.replicate 16 0 else r.handle)

/-- COMMIT: the launch enters the table with its strand pool (06 R154 R156 R169); the key binds (05 R128). -/
def State.commit (s : State) (x : Intake) (n : Nat) (own shared : Nat) (st : LaunchState) : State :=
  let part := if x.house then (if x.record.nopart then none else some x.record.hpart) else some (s.mcb x.mcx).part
  let key := if x.house then 0 else (s.mcb x.mcx).keySlot
  let prio := if x.house then 16 else min x.record.prio (s.mcb x.mcx).prio
  let l : Launch :=
    { gen := SMap.get s.circ.gens n 0, record := x.record, st := st, mcx := if x.house then 0 else x.mcx, house := x.house, part := part
      tag := if x.house then 0x200A else x.mcx, prio := prio, bucket := if x.house then none else some (s.mcb x.mcx).bucket
      keySlot := key, drawKey := s.launchDrawKey x.record x.house, request := x.request, cmd := x.cmd, bindNo := s.circ.bindings + 1
      waitAt := s.time.toNat, aged := prio, deadlineFrom := s.time.toNat, recOwn := own, recShared := shared }
  let s := (s.setLaunch n (some l)).modCirc fun c => { c with
    bindings := c.bindings + 1
    recShared := c.recShared + shared
    recPart := match part with | some p => SMap.upd c.recPart p 0 fun k => k + own | none => c.recPart }
  if x.house then s
  else (s.setKeySlot key { s.keySlotAt key with binds := (s.keySlotAt key).binds + 1 }).modMcb x.mcx fun b =>
    { b with running := b.running + 1 }

/-- The function whose VQN range holds a VQN (04 R107). -/
def State.vqnOwner (s : State) (q : Nat) : Option Nat :=
  firstBelow 65 fun v => decide ((s.fn v).vqBase ≤ q ∧ q < (s.fn v).vqBase + (s.fn v).vqCount)

/-- The completion of a launch that has, or would have had, record `r`: to its command, or to the function that owns its micro-context's
VQN, or for a house launch to the PF; a VQN that no function owns has nowhere to write it (04 R97, 06 R153). DEDUCED [log 62]. -/
def State.reportLaunch (s : State) (r : LaunchRec) (cmd : Option Nat) (house : Bool) (mcx status detail : Nat) (l : LaunchDone) :
    State :=
  match cmd with
  | some id => (match s.cmdOf id with | some c => s.completeLaunch c status detail l | none => s)
  | none =>
    let vqn := if house then 0xFFFFFFFF else (s.mcb mcx).vqn
    match if house then some 0 else if vqn == 0xFFFFFFFF then none else s.vqnOwner vqn with
    | none => s
    | some fn =>
      s.reportAt fn r.crec r.sigAddr r.sigVal (completionRecord status detail l.faults l.start s.time.toNat 0 vqn l.lid l.dump)

/-- A binding is refused (06 R154 R155). -/
def State.refuse (s : State) (x : Intake) (cause : Nat) : State :=
  let s := s.countCirc 2
  match x.request with
  | some id => s.failEreq id 0x0009 0
  | none => s.reportLaunch x.record x.cmd x.house x.mcx 10 cause { start := s.time.toNat }

/-- The refusal cause that stage C finds, if any; a check in which the Vault was struck fails (06 R155, 05 R141). -/
def State.stageC (s : State) (x : Intake) : Option Nat :=
  if x.malformed || !x.record.ok || (x.request.isSome && x.record.kind != 1) || (x.cmd.isSome && !x.house && x.record.kind != 0) ||
      (x.house && x.record.kind != 2) then some 1
  else if x.house then none
  else if (s.mcb x.mcx).st != 1 then some 2
  else if s.prot.vault.struck || !(s.handleBinds x.record.handle x.mcx) then some 3
  else none

/-- The outcome of a binding that is to wait (06 R155 R165 R169). -/
def State.bindWait (s : State) (x : Intake) (part : Option Nat) : State :=
  if 256 ≤ (SMap.get s.circ.waits (waitKey part) []).length then s.refuse x 5
  else match s.freeSlot, s.recordSplit part x.record.strands with
    | some n, some (own, shared) => ((s.commit x n own shared .waiting).enterWait n).countCirc 1
    | _, _ => s.refuse x 6

/-- The outcome bound, on cores `cs` that are free and with victims `vs` (06 R154 R159 R162). -/
def State.bindNow (s : State) (x : Intake) (part : Option Nat) (cs vs : List Nat) : State :=
  match s.freeSlot, s.recordSplit part x.record.strands with
  | some n, some (own, shared) =>
    let s := (((s.commit x n own shared .bound).joinCores n cs).movePointer cs).countCirc 0
    let spare := vs.drop (x.record.cores - cs.length)
    (s.askPreempt (vs.take (x.record.cores - cs.length)) (some n)).askPreempt spare none
  | _, _ => s.refuse x 6

/-- A binding from stage S on (06 R154 R159 R162 R167). -/
def State.bindLaunch (s : State) (x : Intake) : State :=
  match s.stageC x with
  | some cause => (if cause == 3 then s.vaultDone.2 else s).refuse x cause
  | none =>
    let part := if x.house then (if x.record.nopart then none else some x.record.hpart) else some (s.mcb x.mcx).part
    let prio := if x.house then 16 else min x.record.prio (s.mcb x.mcx).prio
    let us := s.usable part
    let room (c : Nat) : Bool :=
      decide (x.record.spb + ((List.range 128).filter fun b => s.unitFailed 1 (128 * c + b)).length ≤ 128) &&
      decide (x.record.acc + ((List.range 256).filter fun b => s.unitFailed 2 (256 * c + b)).length ≤ 256)
    if us.length < x.record.cmin || !(us.any room) then s.refuse x 4
    else if !x.house && s.bkEmpty (s.mcb x.mcx).bucket then s.bindWait x part
    else
      let free := s.freeCores x.record part none
      if x.record.cmin ≤ free.length then s.bindNow x part (free.take x.record.cores) []
      else match s.victims prio part (x.record.cmin - free.length) with
        | some vs => s.bindNow x part free vs
        | none => s.bindWait x part

/-- The start has reached READY or minimal mode is not in force: Circulation serves its lanes (01 R32 R36). -/
def State.ready (s : State) : Bool := s.pkg.stage == 8 && !s.pkg.held && !s.pkg.tripped

/-- BINDING: the oldest launch at the Ethernet lane (flag set) or at the host lane is bound, waits or is refused (06 R154). -/
def execBinding (s : State) : Res :=
  .next (if !s.ready then s
    else if s.ev.flag then
      match s.circ.ethLane with
      | x :: r => (s.modCirc fun c => { c with ethLane := r }).bindLaunch x
      | [] => s
    else
      match s.circ.hostLane with
      | x :: r => (s.modCirc fun c => { c with hostLane := r }).bindLaunch x
      | [] => s)

/-! CORE_FREE and the wait list (06 R165 R166 R168). -/

/-- A launch of the wait list that has CMIN cores starts (06 R166). -/
def State.startHead (s : State) (n : Nat) : State :=
  match s.launchAt n with
  | some l => if l.record.cmin ≤ l.cores.length then (s.setLaunch n (some { l with st := .bound })).leaveWait n else s
  | none => s

/-- Cores that a launch has or is to be given when pre-emptions in progress release them. -/
def State.coresDue (s : State) (n : Nat) : Nat :=
  ((s.launchAt n).getD {}).cores.length +
    (s.circ.preempts.filter fun e => match e.2 with | some p => p.incoming == some n | none => false).length

/-- The running carrels of a partition that are short of cores, highest base priority first, then the earliest bound (06 R166). -/
def State.shortCarrels (s : State) (p : Option Nat) : List Nat :=
  let l (n : Nat) : Launch := (s.launchAt n).getD {}
  let cand := (s.circ.launches.filter fun e => match e.2 with
    | some v => v.st == .bound && v.part == p && !v.record.gang && decide (s.coresDue e.1 < v.record.cores) && v.parkNo == 0
    | none => false).map (·.1)
  sortBy (fun a b => decide ((l b).prio < (l a).prio) || ((l a).prio == (l b).prio && decide ((l a).bindNo < (l b).bindNo))) cand

/-- CORE_FREE: free core `a` is given to the head of its partition's wait list, else to a short carrel, else stays free (06 R166). -/
def execCoreFree (s : State) : Res :=
  let c := s.ev.a
  let p := s.partOfCore c
  let takes (n : Nat) : Bool := match s.launchAt n with | some l => s.freeTo l.record l.part (some n) c | none => false
  .next (if 600 ≤ c || !s.ready then s
    else match s.waitHead p with
      | some n =>
        if takes n then (s.joinCore n c).startHead n
        else match (s.shortCarrels p).find? takes with | some m => s.joinCore m c | none => s
      | none => match (s.shortCarrels p).find? takes with | some m => s.joinCore m c | none => s)

/-- WAIT_LIST_AGING: each full millisecond on a wait list raises the aged priority of launch slot `a` by 1, up to 15 (06 R165). -/
def execWaitListAging (s : State) : Res :=
  .next (match s.launchAt s.ev.a with
    | some l =>
      if (SMap.get s.circ.waits (waitKey l.part) []).contains s.ev.a && l.prio ≤ 15 then
        s.setLaunch s.ev.a (some { l with aged := min 15 (l.prio + (s.time.toNat - l.waitAt) / 1000000) })
      else s
    | none => s)

end Sys2Proof.Machine
end

