-- ==== Sys2Proof/Machine/Ether.lean ====
section
/-! DEFINITION. Machine/Ether.lean: the Ethernet ports' receive path and slow path, MRP datagrams, sessions and requests
(02 R38 to R57, R62 R63). -/
namespace Sys2Proof.Machine

/-! Ports (02 R38 R62 R63). -/

/-- The Ethernet engine works: the part is READY (01 R32 R36). -/
def State.etherRuns (s : State) : Bool := s.ready && s.pkg.mode == 1

/-- A link goes down: LINK clears, and with it AL and the speed in force. DESIGN CHOICE [log 97]. -/
def EthPort.down (p : EthPort) : EthPort := { p with link := false, al := false, speedNow := 0 }

/-- A write of ETH.PCTL (02 R62). -/
def State.writeEthPctl (s : State) (n : Nat) (v : Word) : State :=
  let mtu := fld v.toNat 18 14
  let speed := fld v.toNat 2 2
  s.modPort n fun p =>
    let p := { p with
      mtu := if 1500 ≤ mtu ∧ mtu ≤ 9000 then mtu else p.mtu
      speed := if p.en || speed == 3 then p.speed else speed
      an := bitOf v.toNat 1, en := bitOf v.toNat 0 }
    if p.en then p else p.down

/-- ETH_PCTL_WRITE: `value` to ETH.PCTL of port `a` (02 R62). -/
def execEthPctlWrite (s : State) : Res := .next (if s.ev.a < 4 then s.writeEthPctl s.ev.a s.ev.value else s)

/-- ETH_LINK_CHANGE: the link of port `a` comes up, with the flag, or goes down (02 R63). -/
def execEthLinkChange (s : State) : Res :=
  .next (if 4 ≤ s.ev.a then s
    else if !s.ev.flag then s.modPort s.ev.a EthPort.down
    else if (s.port s.ev.a).en && s.etherRuns then s.modPort s.ev.a fun p => { p with link := true, al := true, speedNow := p.speed }
    else s)

/-! The receive path (02 R38 to R41). -/

/-- CRC-32 of IEEE 802.3, the FCS of a frame. DEDUCED [log 50]. -/
def crc32 (bs : List Byte) : BitVec 32 :=
  ~~~(bs.foldl (fun (r : BitVec 32) b => (List.range 8).foldl (fun (r : BitVec 32) _ =>
    (r >>> 1) ^^^ (if r.getLsbD 0 then 0xEDB88320 else 0)) (r ^^^ b.setWidth 32)) 0xFFFFFFFF)

/-- The parts of a frame without its FCS: destination, source, tag, EtherType and payload. -/
structure Frame where
  dst : Nat
  src : Nat
  vid : Option Nat
  ety : Nat
  pay : List Byte

/-- A frame read from its bytes without the FCS. PRESUMED [log 72]. -/
def readFrame (bs : List Byte) : Frame :=
  let tagged := beAt bs 12 2 == 0x8100
  let o := if tagged then 18 else 14
  { dst := beAt bs 0 6, src := beAt bs 6 6, vid := if tagged then some (fld (beAt bs 14 2) 0 12) else none, ety := beAt bs (o - 2) 2
    pay := bs.drop o }

/-- A port takes a frame at layer 2: its FCS is right, its size fits, it is for the port's address or a group, and it is no PAUSE frame
(02 R38, R39 check 1). PAUSE is the MAC control frame of opcode 1; another one goes on to the slow path. PRESUMED [log 72]. -/
def State.layer2Ok (s : State) (n : Nat) (bs : List Byte) : Bool :=
  let f := readFrame (bs.take (bs.length - 4))
  decide (64 ≤ bs.length ∧ bs.length ≤ (s.port n).mtu + 22) && leNat (bs.drop (bs.length - 4)) == (crc32 (bs.take (bs.length - 4))).toNat &&
    (f.dst == s.macOf n || bitOf f.dst 40) && !(f.ety == 0x8808 && beAt f.pay 0 2 == 1)

/-- An IP length that fits the bytes a frame carries: equal, or smaller in a frame of the minimum size (02 R39 check 3). -/
def lengthOk (total have_ frameLen : Nat) : Bool := total == have_ || (total < have_ && frameLen == 64)

/-- What the receive path does with a frame (02 R39). -/
inductive Verdict where
  | drop (counter : Nat)
  | slow
  | mrp (peer : Peer) (dstPort : Nat) (udp : List Byte)

/-- Checks 2 to 7 (02 R39): the packet's addresses and its UDP part. -/
def Frame.verdict (f : Frame) (n frameLen mrpPort : Nat) : Verdict :=
  let b := f.pay
  let udpOk (v6 : Bool) (src dst : Nat) (u : List Byte) : Bool :=
    let pseudo := if v6 then natBe 16 src ++ natBe 16 dst ++ natBe 4 u.length ++ natBe 4 17
      else natBe 4 src ++ natBe 4 dst ++ natBe 2 17 ++ natBe 2 u.length
    beAt u 4 2 == u.length && (if beAt u 6 2 == 0 then !v6 else onesSum (pseudo ++ u) == 65535)
  let go (v6 : Bool) (src dst dscp : Nat) (u : List Byte) : Verdict :=
    if u.length < 4 || beAt u 2 2 != mrpPort then .slow
    else if u.length < 8 || !(udpOk v6 src dst u) then .drop 2
    else .mrp { port := n, mac := f.src, ip6 := v6, srcIp := src, dstIp := dst, udp := beAt u 0 2, dscp := dscp, vid := f.vid } (beAt u 2 2) u
  if f.ety == 0x0800 then
    let total := beAt b 2 2
    if b.length < 20 || beAt b 0 1 != 0x45 || onesSum (b.take 20) != 65535 || total < 20 || !(lengthOk total b.length frameLen) ||
        fld (beAt b 6 2) 0 14 != 0 then .drop 2
    else if beAt b 9 1 != 17 then .slow
    else go false (beAt b 12 4) (beAt b 16 4) (beAt b 1 1 / 4) (slice b 20 (total - 20))
  else if f.ety == 0x86DD then
    if b.length < 40 || beAt b 0 1 / 16 != 6 || !(lengthOk (40 + beAt b 4 2) b.length frameLen) then .drop 2
    else if beAt b 6 1 == 58 then .slow
    else if beAt b 6 1 != 17 then .drop 2
    else go true (beAt b 8 16) (beAt b 24 16) (fld (beAt b 0 4) 22 6) (slice b 40 (beAt b 4 2))
  else .slow

/-- The tag state of a packet agrees with an entry (02 R65). -/
def EthAddr.matchesTag (e : EthAddr) (vid : Option Nat) : Bool :=
  if e.flags.getLsbD 1 then vid == some e.vid.toNat else vid.isNone

/-- The lowest entry of port `n` that a packet matches (02 R65). -/
def State.addrFor (s : State) (n : Nat) (ip6 : Bool) (ip : Nat) (vid : Option Nat) : Option EthAddr :=
  ((List.range 32).find? fun k => (s.eaddr n k).matchesIp ip6 ip && (s.eaddr n k).matchesTag vid).map (s.eaddr n)

/-- The receive queue `q` of port `n`. -/
def State.rxQueue (s : State) (n q : Nat) : List Datagram := SMap.get s.eth.queues (64 * n + q) []

/-- A receive queue replaced. -/
def State.setRxQueue (s : State) (n q : Nat) (l : List Datagram) : State :=
  { s with eth := { s.eth with queues := SMap.set s.eth.queues (64 * n + q) l [] } }

/-- FRAME_RECEIVE: port `a` receives a frame, `bytes` with its FCS, `b` of whose FEC codewords were corrected and `c` could not be
(02 R38 to R41 R67). DEDUCED [log 73]. -/
def execFrameReceive (s : State) : Res :=
  let n := s.ev.a
  let bs := s.ev.bytes
  .next (if 4 ≤ n || !(s.port n).link || !s.etherRuns then s
    else
      let s := ((s.countPort n 0).countPortN n 13 s.ev.b).countPortN n 14 s.ev.c
      let raw := bs.take (bs.length - 4)
      if !(s.layer2Ok n bs) then s.countPort n 1
      else match (readFrame raw).verdict n bs.length s.eth.mrpPort with
        | .drop k => s.countPort n k
        | .slow =>
          if 256 ≤ (s.port n).slow.length then s.countPort n 5
          else s.modPort n fun p => { p with slow := p.slow ++ [raw] }
        | .mrp peer _ u =>
          match s.addrFor n peer.ip6 peer.dstIp peer.vid with
          | none => s.countPort n 3
          | some e =>
            let q := s.rxQueue n e.queue
            if 32768 < (q.map fun d => d.payload.length).sum + (u.length - 8) then s.countPort n 15
            else s.setRxQueue n e.queue (q ++ [{ peer := { peer with part := e.part }, payload := u.drop 8 }]))

/-! The slow path (02 R40). -/

/-- An ICMPv6 message with its checksum over the pseudo-header. PRESUMED [log 72]. -/
def icmp6 (src dst ty code : Nat) (rest : List Byte) : List Byte :=
  let m (c : Nat) := natBe 1 ty ++ natBe 1 code ++ natBe 2 c ++ rest
  let pseudo := natBe 16 src ++ natBe 16 dst ++ natBe 4 (4 + rest.length) ++ natBe 4 58
  m (inetSum (pseudo ++ m 0))

/-- The checksum of a received ICMPv6 message is right. -/
def icmp6Ok (src dst : Nat) (m : List Byte) : Bool :=
  onesSum (natBe 16 src ++ natBe 16 dst ++ natBe 4 m.length ++ natBe 4 58 ++ m) == 65535

/-- Proem's answer to a slow-path frame: ARP, neighbour solicitation or echo for an address of the port; none for any other frame.
PRESUMED [log 72]. -/
def State.slowAnswer (s : State) (n : Nat) (bs : List Byte) : Option (List Byte) :=
  let f := readFrame bs
  let b := f.pay
  let mac := s.macOf n
  let ours (v6 : Bool) (ip : Nat) : Bool := (s.addrFor n v6 ip f.vid).isSome
  let frame (ety : Nat) (p : List Byte) : Option (List Byte) := some (etherFrame f.src mac f.vid ety p)
  if f.ety == 0x0806 then
    if beAt b 0 8 == 0x0001080006040001 && 28 ≤ b.length && ours false (beAt b 24 4) then
      frame 0x0806 (natBe 8 0x0001080006040002 ++ natBe 6 mac ++ natBe 4 (beAt b 24 4) ++ slice b 8 10)
    else none
  else if f.ety == 0x0800 then
    let m := slice b 20 (beAt b 2 2 - 20)
    if beAt b 9 1 == 1 && beAt m 0 2 == 0x0800 && 8 ≤ m.length && onesSum m == 65535 && ours false (beAt b 16 4) then
      let r (c : Nat) := natBe 2 0 ++ natBe 2 c ++ m.drop 4
      frame 0x0800 (ipPacket false (beAt b 16 4) (beAt b 12 4) (beAt b 1 1 / 4) 1 (r (inetSum (r 0))))
    else none
  else if f.ety == 0x86DD then
    let src := beAt b 8 16
    let dst := beAt b 24 16
    let m := slice b 40 (beAt b 4 2)
    if beAt b 6 1 != 58 || m.length < 8 || !(icmp6Ok src dst m) then none
    else if beAt m 0 2 == 0x8000 && ours true dst then
      frame 0x86DD (ipPacket true dst src (fld (beAt b 0 4) 22 6) 58 (icmp6 dst src 129 0 (m.drop 4)))
    else if beAt m 0 2 == 0x8700 && beAt b 7 1 == 255 && 24 ≤ m.length && ours true (beAt m 8 16) then
      let target := beAt m 8 16
      let back := if src == 0 then 0xFF020000000000000000000000000001 else src
      let body := natBe 4 (if src == 0 then 0x20000000 else 0x60000000) ++ natBe 16 target ++ natBe 2 0x0201 ++ natBe 6 mac
      let p := icmp6 target back 136 0 body
      frame 0x86DD (natBe 4 0x60000000 ++ natBe 2 p.length ++ natBe 1 58 ++ natBe 1 255 ++ natBe 16 target ++ natBe 16 back ++ p)
    else none
  else none

/-- SLOW_PATH_FRAME: a Proem thread takes the oldest slow-path frame of port `a` and answers it, or drops and counts it; while a firmware
activation runs, frames stay queued (02 R40, 04 R110). -/
def execSlowPathFrame (s : State) : Res :=
  let n := s.ev.a
  .next (match (s.port n).slow with
    | [] => s
    | bs :: r =>
      if !s.etherRuns || s.hif.fwPhase != .idle then s
      else
        let s := s.modPort n fun p => { p with slow := r }
        match s.slowAnswer n bs with
        | some a => s.sendFrame n a
        | none => s.countPort n 4)

/-! MRP checks (02 R41 to R47). -/

/-- An MRP datagram's header fields. -/
structure Mrp where
  ver : Nat
  ty : Nat
  frag : Nat
  count : Nat
  blen : Nat
  sid : Nat
  seq : Nat
  func : Nat
  reqid : Nat
  tlen : Nat

/-- A header read from a UDP payload (02 R42). -/
def readMrp (b : List Byte) : Mrp :=
  { ver := beAt b 0 1 / 16, ty := beAt b 0 1 % 16, frag := beAt b 1 1 / 16, count := beAt b 1 1 % 16 + 1, blen := beAt b 2 2
    sid := beAt b 4 8, seq := beAt b 12 8, func := beAt b 20 4, reqid := beAt b 24 4, tlen := beAt b 28 4 }

/-- A type whose datagrams are sealed (02 R43). -/
def protectedType (t : Nat) : Bool := 3 ≤ t && t ≤ 9

/-- Types a client sends (02 R43). -/
def clientType (t : Nat) : Bool := t == 1 || t == 3 || t == 4 || t == 7 || t == 9 || t == 10

/-- The rules of R42, R43, R48, R50 and R52 that a datagram of a client keeps. DEDUCED [log 73]. -/
def mrpOk (b : List Byte) : Bool :=
  let h := readMrp b
  32 ≤ b.length && h.ver == 1 && clientType h.ty && h.frag < h.count && h.blen ≤ 8192 && h.blen ≤ h.tlen && h.tlen ≤ 131072 &&
    (1 < h.count || h.tlen == h.blen) && b.length == (if protectedType h.ty then 48 else 32) + h.blen &&
    (match h.ty with
      | 1 => h.sid == 0 && h.seq == 0 && h.func == 0 && h.reqid == 0 && h.tlen == 3180
      | 3 => h.seq == 1 && h.func == 0 && h.reqid == 0 && h.tlen == 32 && h.count == 1
      | 7 => h.func == 0 && h.reqid == 0 && h.tlen == 0 && h.count == 1
      | 9 => h.func == 0 && h.reqid == 0
      | 10 => h.sid == 0 && h.seq == 0 && h.func == 0 && h.reqid ≤ 3 && h.tlen == 0 && h.count == 1
      | _ => true)

/-- The next receive queue of a port with a datagram, from the rotating pointer (02 R41). -/
def State.nextQueue (s : State) (n : Nat) : Option Nat :=
  ((List.range 64).map fun i => ((s.port n).pointer + i) % 64).find? fun q => !(s.rxQueue n q).isEmpty

/-- The MRP checks take the next datagram of port `a` where it is of type `ty`, or of no type a client may send; a bad one is dropped and
counted, a good one goes to `k`. -/
def State.mrpTake (s : State) (ty : Nat) (k : Peer → Mrp → List Byte → State → State) : State :=
  let n := s.ev.a
  if 4 ≤ n || !s.etherRuns then s
  else match s.nextQueue n with
    | none => s
    | some q =>
      match s.rxQueue n q with
      | [] => s
      | d :: r =>
        let h := readMrp d.payload
        if h.ty != ty && clientType h.ty then s
        else
          let s := (s.setRxQueue n q r).modPort n fun p => { p with pointer := (q + 1) % 64 }
          if mrpOk d.payload then k d.peer h d.payload s else s.countPort n 6

/-- SEQs of a session's window after `seq` has verified (02 R44). -/
def Session.note (e : Session) (seq : Nat) : Session :=
  let high := max e.high seq
  { e with high := high, seen := (withElem e.seen seq).filter fun x => decide (high < x + 1024) }

/-- The session checks of a protected datagram of type `ty`: session, partition and state, replay window, tag; a datagram that verifies
refreshes the session and goes on with its plain body (02 R44 to R47). -/
def State.verify (s : State) (p : Peer) (h : Mrp) (b : List Byte) (k : Nat → List Byte → State → State) : State :=
  let n := s.ev.a
  let i := h.sid % 16384
  let e := s.sess i
  if e.st == SessState.free || e.sid != h.sid || e.part != p.part then s.countPort n 7
  else if e.st == SessState.lapsed then s.countPort n 8
  else if e.st == SessState.half && h.ty != 3 then s.countPort n 7
  else if h.seq + 1024 ≤ e.high || e.seen.contains h.seq then s.countPort n 9
  else match gcmOpen e.kCd (e.saltCd ++ natBe 8 h.seq) (b.take 32) (slice b 32 h.blen) (b.drop (32 + h.blen)) with
    | none => s.countPort n 10
    | some body =>
      let s := s.modSess i fun e => { e.note h.seq with lastAt := if e.st == SessState.half then e.lastAt else s.time.toNat }
      if 2 ^ 48 < h.seq then s.lapse i else k i body s

/-! Sessions (02 R47 to R52). -/

/-- Body bytes of a datagram of an unprotected message (02 R50). -/
def State.plainBody (s : State) (p : Peer) : Nat := min 8192 (((s.port p.port).mtu - p.iphdr - 40) / 16 * 16)

/-- The static ML-KEM key of the running image (02 R48 R49, 05 R125). -/
def State.staticKey (s : State) : List Byte := Config.kemPublic s.prot.vault.mrpSeeds

/-- Sessions in a state that `f` holds of. -/
def State.sessCount (s : State) (f : Session → Bool) : Nat := (s.eth.sessions.filter fun e => f e.2).length

/-- A HELLO's body is handled: checked, a slot claimed in HALF, the keys derived and ACCEPT sent (02 R48 R49). DEDUCED [log 73]. The manual
names neither what a HELLO that finds no FREE slot counts as (HSDROP of the port here) nor which FREE slot is taken (the lowest here):
DESIGN CHOICE [log 92]. Nor does it size ACCEPT's datagrams (R50's b here): DESIGN CHOICE [log 93]. -/
def State.helloBody (s : State) (p : Peer) (b : List Byte) : State :=
  let n := s.ev.a
  let bind := beAt b 0 2
  let slot := s.keySlotAt (bind % 4096)
  let pub := s.staticKey
  let quota := min 16384 (s.epool p.part).sessMax
  if 4096 ≤ bind then s.countPort n 6
  else if 1024 ≤ s.sessCount (fun (e : Session) => e.st == SessState.half) then s.countPort n 11
  else if quota ≤ s.sessCount (fun (e : Session) => e.st != SessState.free && e.part == p.part) then s.countPart p.part 7
  else if !(slot.st == 1 && slot.purp == 1 && slot.part == p.part) then s.countPart p.part 5
  else if slice b 4 8 != (sha256 pub).take 8 then s.countPart p.part 6
  else if beAt b 2 2 < 10 || 60000 < beAt b 2 2 then s.countPort n 6
  else match firstBelow 16384 fun i => (s.sess i).st == SessState.free with
    | none => s.countPort n 11
    | some i =>
      let (rnd, s) := s.random 7
      let (nd, s) := s.random 32
      let (m, s) := s.random 32
      let sid := leNat rnd % 2 ^ 50 * 2 ^ 14 + i
      let shared := Config.kemDecaps s.prot.vault.mrpSeeds (slice b 1612 1568)
      let (ssc, ctc) := Config.kemEncaps (slice b 44 1568) m
      let t := sha256 (b ++ nd ++ ctc)
      let prk := hkdfExtract (slice b 12 32 ++ nd) (shared ++ ssc ++ slot.key)
      let okm := hkdfExpand prk (ascii "MRP1" ++ natBe 8 sid ++ t) 136
      let s := s.modSess i fun _ =>
        { st := .half, sid := sid, part := p.part, binding := bind, period := beAt b 2 2, kCd := slice okm 0 32, kDc := slice okm 32 32
          saltCd := slice okm 64 4, saltDc := slice okm 68 4, clientTag := hmac (slice okm 104 32) (ascii "C" ++ t), lastAt := s.time.toNat }
      s.sendPlain p 0x2 sid 0 (s.plainBody p) (nd ++ ctc ++ hmac (slice okm 72 32) (ascii "D" ++ t))

/-- Datagrams of one HELLO: those from one client address to one of ours, with the same length and count. DEDUCED [log 74]. -/
def HelloPart.same (x : HelloPart) (p : Peer) (h : Mrp) : Bool :=
  x.peer.ip6 == p.ip6 && x.peer.srcIp == p.srcIp && x.peer.udp == p.udp && x.peer.dstIp == p.dstIp && x.peer.part == p.part &&
    x.tlen == h.tlen && x.frags == h.count

/-- A whole message's body from its fragments. DEDUCED [log 74]. -/
def joinBodies (m : SMap (Option (List Byte))) (n : Nat) : List Byte := (List.range n).flatMap fun i => (SMap.get m i none).getD []

/-- HELLO: a datagram of a HELLO; the last one of them lets it be handled (02 R42 R48). DEDUCED [log 74]. -/
def execHello (s : State) : Res :=
  .next (s.mrpTake 1 fun p h b s =>
    let body := b.drop 32
    if h.count == 1 then s.helloBody p body
    else
      let x := (s.eth.hellos.find? fun x => x.same p h).getD { tlen := h.tlen, frags := h.count }
      let x := { x with peer := p, bodies := SMap.put x.bodies h.frag (some body) }
      let rest := s.eth.hellos.filter fun y => !(y.same p h)
      if x.bodies.length < h.count then { s with eth := { s.eth with hellos := rest ++ [x] } }
      else
        let s := { s with eth := { s.eth with hellos := rest } }
        let all := joinBodies x.bodies h.count
        if all.length == 3180 then s.helloBody p all else s.countPort s.ev.a 6)

/-- HBACK with TIME to a peer of session `i` (02 R49 R52). DEDUCED [log 73]. -/
def State.sendHback (s : State) (i : Nat) (p : Peer) : State :=
  if s.seqSpent i 1 then s.lapse i else s.sendSealed i p 0x8 0 0 8 (natBe 8 s.time.toNat)

/-- CONFIRM: the right client tag opens the session, a wrong one frees its slot (02 R47 R49). -/
def execConfirm (s : State) : Res :=
  .next (s.mrpTake 3 fun p h b s => s.verify p h b fun i body s =>
    if body == (s.sess i).clientTag then
      (s.modSess i fun e => { e with st := .openS, lastAt := s.time.toNat }).sendHback i p
    else { s with eth := { s.eth with sessions := SMap.drop s.eth.sessions i } })

/-- HEARTBEAT: answered with HBACK (02 R52). -/
def execHeartbeat (s : State) : Res := .next (s.mrpTake 7 fun p h b s => s.verify p h b fun i _ s => s.sendHback i p)

/-- CLOSE: the session lapses (02 R51). -/
def execClose (s : State) : Res := .next (s.mrpTake 9 fun p h b s => s.verify p h b fun i _ s => s.lapse i)

/-- The device certificate (02 R50). -/
def State.certificate (s : State) : List Byte :=
  let key := s.staticKey
  let b := natBe 4 0x464A4D43 ++ natBe 2 1 ++ natBe 2 s.pkg.svn ++ s.pkg.devid ++ s.prot.vault.measurement ++ (sha256 key).take 8 ++
    padTo (key.take 1568) 1568
  b ++ padTo ((Config.sign s.prot.vault.identitySeeds b).take 29792) 29792

/-- CERTREQ: answered with one part of the certificate, at most 1,000 times a second on each port (02 R50). A second is a whole second of
TIME, counted from its multiple: the manual does not say where a second begins. DESIGN CHOICE [log 94]. -/
def execCertreq (s : State) : Res :=
  .next (s.mrpTake 10 fun p h _ s =>
    let n := s.ev.a
    let now := s.time.toNat / 1000000000
    let used := if (s.port n).certSecond == now then (s.port n).certCount else 0
    if 1000 ≤ used then s.countPort n 11
    else
      let s := s.modPort n fun x => { x with certSecond := now, certCount := used + 1 }
      s.sendPlain p 0xB 0 h.reqid (s.plainBody p) (slice s.certificate (8192 * h.reqid) 8192))

/-- SESSION_LAPSE_TIMEOUT: no datagram of session slot `a` has verified for 3 x P (02 R51). -/
def execSessionLapseTimeout (s : State) : Res :=
  let e := s.sess s.ev.a
  .next (if e.st == SessState.openS && decide (e.lastAt + 3000000 * e.period < s.time.toNat) then s.lapse s.ev.a else s)

/-- HALF_TIMEOUT: session slot `a` has been in HALF for 100 ms (02 R47). -/
def execHalfTimeout (s : State) : Res :=
  let e := s.sess s.ev.a
  .next (if e.st == SessState.half && decide (e.lastAt + 100000000 ≤ s.time.toNat) then
    { s with eth := { s.eth with sessions := SMap.drop s.eth.sessions s.ev.a } }
  else s)

/-! Requests (02 R53 to R57). -/

/-- A free pair of a partition's pool: not held, and neither slot dirty or failed (02 R56, 05 R143 R145). -/
def State.freePairOf (s : State) (p : Nat) : Option Nat :=
  let q := s.epool p
  if q.gone then none else firstBelow q.count fun k => !(q.held.contains k) && !(s.pairTaken p k)

/-- The request of session `i` with identifier `reqid` that is in flight. -/
def State.ereqOf (s : State) (i reqid : Nat) : Option (Nat × Request) :=
  s.eth.requests.findSome? fun e => match e.2 with | some r => if r.slot == i && r.reqid == reqid then some (e.1, r) else none | none => none

/-- The receive header line (02 R57). -/
def State.rxHeader (s : State) (r : Request) : List Byte :=
  padTo (natLe 4 r.tlen ++ natLe 2 r.frags ++ natLe 2 0 ++ natLe 4 r.reqid ++ natLe 4 r.func ++ natLe 8 (s.sess r.slot).sid ++
    natLe 8 s.time.toNat ++ natLe 8 0x7FFF00020000 ++ natLe 4 ((s.epool r.part).slotBytes - 128)) 128

/-- The receive slot is filled: the header in plaintext, the body as lines under the micro-context's key, tile offset 0 (02 R57). -/
def State.fillSlot (s : State) (r : Request) (body : List Byte) : State :=
  let a := (s.epool r.part).slotAddr r.pair 0
  let mask := List.replicate 128 true
  let s := s.putLine a (s.rxHeader r) mask 0 (0x4000 + r.mcx)
  match s.lineKey (s.mcb r.mcx).keySlot with
  | none => s
  | some k =>
    (List.range ((body.length + 127) / 128)).foldl (fun (s : State) i =>
      let pa := a + 128 + 128 * i
      let ct := xtsLine true k i (padTo (slice body (128 * i) 128) 128)
      let s := s.putLine pa ct mask 0 (0x4000 + r.mcx)
      s.setLine pa { s.line pa with cipher := true, icv := lineIcv k i ct }) s

/-- A request whose fragments have all verified passes to Circulation, with the template of its micro-context (02 R53 R57, 06 R153).
DEDUCED [log 73]. -/
def State.requestDone (s : State) (id : Nat) (r : Request) : State :=
  let body := joinBodies r.bodies r.frags
  let s := s.setEreq id (some r)
  if body.length != r.tlen then s.failEreq id 4 0
  else
    let r := { r with complete := true }
    let s := ((s.setEreq id (some r)).fillSlot r body).countPart r.part 0
    let t := SMap.get s.circ.templates r.mcx none
    let rec_ := { t.getD {} with handle := (s.mcb r.mcx).handle, args := 0x7FFF00000000 }
    s.modCirc fun c => { c with ethLane := c.ethLane ++ [{ record := rec_, malformed := t.isNone, mcx := r.mcx, request := some id }] }

/-- The first datagram of a request: the causes of R54 in their order, then its slot pair and its place (02 R53 R54 R55). -/
def State.requestFirst (s : State) (i : Nat) (p : Peer) (h : Mrp) (body : List Byte) : State :=
  let e := s.sess i
  let err (code detail : Nat) : State := s.sendError i p h.func h.reqid code detail
  let inFlight := (s.eth.requests.filter fun x => match x.2 with | some r => r.slot == i | none => false).length
  if (s.ereqOf i h.reqid).isSome then err 5 0
  else if 256 ≤ inFlight then err 2 1
  else match s.catLookup e.binding h.func with
    | none => err 1 0
    | some k =>
      let c := s.catEntry k
      if c.part != e.part then err 1 0
      else match s.freePairOf e.part with
        | none => err 2 0
        | some pair =>
          let q := s.epool e.part
          if q.slotBytes - 128 < h.tlen then err 3 q.slot
          else
            let id := s.eth.nextReq
            let r : Request :=
              { slot := i, func := h.func, reqid := h.reqid, tlen := h.tlen, frags := h.count, bodies := [(h.frag, some body)], part := e.part
                mcx := c.mcx, pair := pair, firstAt := s.time.toNat, peer := p }
            let s := { s with eth := { s.eth with
              nextReq := id + 1, pools := SMap.upd s.eth.pools e.part {} fun q => { q with held := q.held ++ [pair] } } }
            if h.count == 1 then s.requestDone id r else s.setEreq id (some r)

/-- REQUEST: the first datagram of a request, or a later fragment of one in reassembly (02 R53). -/
def execRequest (s : State) : Res :=
  .next (s.mrpTake 4 fun p h b s => s.verify p h b fun i body s =>
    match s.ereqOf i h.reqid with
    | some (id, r) =>
      if r.complete then s.requestFirst i p h body
      else if h.func != r.func || h.tlen != r.tlen || h.count != r.frags || (SMap.get r.bodies h.frag none).isSome then s.countPort s.ev.a 6
      else
        let r := { r with bodies := SMap.put r.bodies h.frag (some body), peer := p }
        if r.bodies.length == r.frags then s.requestDone id r else s.setEreq id (some r)
    | none => s.requestFirst i p h body)

/-- REASSEMBLY_TIMEOUT: the fragments of request `a` are incomplete 10 ms after its first datagram verified (02 R54). -/
def execReassemblyTimeout (s : State) : Res :=
  .next (match s.ereq s.ev.a with
    | some r => if !r.complete && decide (r.firstAt + 10000000 ≤ s.time.toNat) then s.failEreq s.ev.a 4 0 else s
    | none => s)

end Sys2Proof.Machine
end

