-- ==== Sys2Proof/Machine/Retire.lean ====
section
/-! DEFINITION. Machine/Retire.lean: fault dumps, retirement and termination (05 R131 R139 R147 R148, 04 R97, 06 R175, 09 R264, 11 R318). -/
namespace Sys2Proof.Machine

/-! Continuation and trap records (07 R178 to R181, 11 R312). -/

/-- Word 0 of a continuation record (07 R179). -/
def Strand.word0 (r : Strand) (gang : Bool) : Nat :=
  b2n (r.st == .waiting) * 2 ^ 58 + b2n gang * 2 ^ 57 + b2n r.th * 2 ^ 56 + b2n (r.st == .exited) * 2 ^ 55 +
    b2n (r.st == .held) * 2 ^ 54 + b2n r.save.isSome * 2 ^ 52 + r.slotRes % 16 * 2 ^ 48 + r.pc % 2 ^ 48

/-- Word 1, the status word (07 R180). -/
def Strand.word1 (r : Strand) : Nat := r.arg % 2 ^ 48 * 2 ^ 16 + r.evt % 256 * 2 ^ 8 + r.wkind % 256

/-- Word 2 (07 R181). -/
def Strand.word2 (r : Strand) (mcx id : Nat) : Nat := r.gsum.toNat * 2 ^ 48 + mcx * 2 ^ 32 + id

/-- The 64 bytes of a continuation record with save-area pointer `ptr` (07 R178). -/
def Strand.bytes (r : Strand) (l : Launch) (n ptr : Nat) : List Byte :=
  natLe 8 (r.word0 l.record.gang) ++ natLe 8 r.word1 ++ natLe 8 (r.word2 l.mcx (lid n l.gen)) ++ natLe 8 ptr ++ natLe 8 r.c1.toNat ++
    natLe 8 r.c2.toNat ++ natLe 8 r.c3.toNat ++ natLe 8 r.c4.toNat

/-- The 64 bytes of a trap record (11 R312). -/
def Thread.trapRecord (th : Thread) : List Byte :=
  natLe 8 th.swd.toNat ++ natLe 8 th.tva.toNat ++ natLe 8 th.trs.toNat ++ natLe 8 th.recTime ++ natLe 8 th.recOrigin.toNat ++
    natLe 8 th.recEngine.toNat ++ natLe 16 0

/-! Fault dumps (05 R148). -/

/-- The thread state of a strand: on the core that runs it, or in its save area. DEDUCED [log 31]. -/
def State.strandThread (s : State) (n i : Nat) : Option Thread :=
  match s.cores.find? fun e => e.2.launch == some n && e.2.strand == some i with
  | some e => some e.2.th
  | none =>
    match ((s.launchAt n).getD {}).strand i |>.save with
    | some k => (SMap.get s.saves k none).bind (·.th)
    | none => none

/-- The strand block of strand `i` (05 R148). Of a strand that is on no core and in no save area only s1 to s4 are kept.
DEDUCED [log 63]. -/
def State.strandBlock (s : State) (n i : Nat) : List Byte :=
  let l := (s.launchAt n).getD {}
  let r := l.strand i
  match s.strandThread n i with
  | some th =>
    ({ r with pc := th.pc, slotRes := th.slotRes, th := th.th }).bytes l n 0 ++ th.trapRecord ++
      ((List.range 64).flatMap fun k => natLe 8 (th.rS k).toNat) ++ ((List.range 16).flatMap fun k => natLe 32 (th.rQ k).toNat)
  | none =>
    let open_ (k : Nat) : Nat := Config.dumpReg (s.free + 128 * i + k)
    r.bytes l n 0 ++ natLe 64 0 ++ natLe 8 0 ++ natLe 8 r.c1.toNat ++ natLe 8 r.c2.toNat ++ natLe 8 r.c3.toNat ++ natLe 8 r.c4.toNat ++
      ((List.range 59).flatMap fun k => natLe 8 (open_ k)) ++ natLe 32 (2 ^ 256 - 1) ++
      ((List.range 15).flatMap fun k => natLe 32 (open_ (64 + k)))

/-- The strands that have a block, in order (05 R148). DEDUCED [log 63]. -/
def Launch.dumpOrder (l : Launch) : List Nat :=
  let started := (List.range l.record.strands).filter fun i => (l.strand i).started
  match l.ended.bind fun e => e.2.2.2 with
  | some i => if started.contains i then i :: without started i else started
  | none => started

/-- The bytes of a launch's fault dump with at most `room` bytes (05 R148). DEDUCED [log 63]. -/
def State.dumpBytes (s : State) (n room : Nat) : List Byte :=
  let l := (s.launchAt n).getD {}
  let (cls, cause, time) := match l.ended with | some (a, b, t, _) => (a, b, t) | none => (0, 0, 0)
  let is := l.dumpOrder.take ((room - 128) / 1152)
  natLe 4 0x50444A46 ++ natLe 1 cls ++ natLe 1 0 ++ natLe 2 cause ++ natLe 8 (lid n l.gen) ++ natLe 2 l.mcx ++ natLe 2 is.length ++
    natLe 4 (128 + 1152 * is.length) ++ natLe 8 time ++ natLe 96 0 ++ is.flatMap (s.strandBlock n)

/-- Lines written whole at translated addresses by the house: plaintext, or ciphertext under a key with tile offset 0. -/
def State.writeLines (s : State) (ps : List Piece) (bs : List Byte) (key : Option (List Byte)) : State :=
  ps.foldl (fun (s : State) p =>
    match p.pa with
    | none => s
    | some a =>
      let b := slice bs p.off p.len
      let s := if s.zeroMarked a then s.fillDone (a / 0x200000) else s
      match key with
      | none => s.putLine a b (List.replicate p.len true) 0 p.x.tag
      | some k =>
        let i := p.off / 128
        let ct := xtsLine true k i b
        let s := s.putLine a ct (List.replicate p.len true) 0 p.x.tag
        s.setLine a { s.line a with cipher := true, icv := lineIcv k i ct }) s

/-- FAULT_DUMP: the dump of launch `n` written at DUMPBASE; its length, 0 when none is written (05 R148). -/
def State.dump (s : State) (n : Nat) : State × Nat :=
  let l := (s.launchAt n).getD {}
  let b := s.mcb l.mcx
  if l.house || l.ended.isNone || b.dumpBase == 0 || b.dumpMax < 128 then (s, 0)
  else
    let bs := s.dumpBytes n b.dumpMax
    let key := if l.record.prot then s.lineKey l.keySlot else none
    if l.record.prot && key.isNone then (s, 0)
    else match cutAccess s (s.mcxWho l.mcx) true b.dumpBase bs.length with
      | .error _ => (s, 0)
      | .ok ps => (({ s with free := s.free + 128 * l.record.strands }).writeLines ps bs key, bs.length)

/-! The world goes (05 R130 R131). -/

/-- The reservations of a context on core `c` are marked dirty. -/
def State.dirtyBanks (s : State) (c : Nat) (x : CoreCtx) : State :=
  let s := s.markDirty 1 (x.banks.map (128 * c + ·))
  let other := match (s.core c).resident with | some (_, y) => y | none => {}
  s.markDirty 2 (((List.range 256).filter fun b => SMap.get other.held b 0 == 0).map (256 * c + ·))

/-- A core leaves a carrel without a launch: it stops, and its state is marked dirty. DEDUCED [log 56]. -/
def State.dropCore (s : State) (c : Nat) : State :=
  let k := s.core c
  let s := s.dirtyBanks c k.ctx
  let s := (s.markDirty 0 [c]).markDirty 3 [c]
  (s.setOwner c none).modCore c fun k => { k with
    launch := none, strand := none, loaded := false, seqWrites := []
    th := { k.th with drain := .none, inflight := [], pend := [], late := [], th := false, latchCsr := none, latchRot := none, latchX := none,
                      heldCsr := none, heldRot := none, heldX := none, stalled := false, trapped := false, barWait := [] }
    ctx := { banks := [] } }

/-- A save area is freed and scrubbed (11 R324). -/
def State.freeSave (s : State) (i : Nat) : State :=
  let page := (s.mem.saveBase + 0x400000 * i) / 0x200000
  let s := s.setSave i none
  (s.markDirty (pageUnit page).1 [(pageUnit page).2]).markDirty (pageUnit (page + 1)).1 [(pageUnit (page + 1)).2]

/-- What launch `n` keeps in save areas and resident on other cores is discarded. -/
def State.dropSaved (s : State) (n : Nat) : State :=
  let s := ((s.saves.filter fun e => match e.2 with | some v => v.launch == n | none => false).map (·.1)).foldl (fun s i => s.freeSave i) s
  ((s.cores.filter fun e => (e.2.resident.map (·.1)) == some n).map (·.1)).foldl (fun s c =>
    match (s.core c).resident with
    | some (_, x) =>
      let s := s.markDirty 1 (x.banks.map (128 * c + ·))
      let s := s.markDirty 2 ((x.held.filter fun p => p.2 != 0).map fun p => 256 * c + p.1)
      s.modCore c fun k => { k with resident := none }
    | none => s) s

/-- The fences of launch `n` hold nothing any more. -/
def State.dropFences (s : State) (n : Nat) : State :=
  { s with mem := { s.mem with net := s.mem.net.filter fun f =>
      !(f.launch == n && (match f.kind with | .fence _ => true | .pfence _ _ => true | _ => false)) } }

/-- A core of a launch that ends: an incoming launch takes it, else it is free once scrubbed (06 R157). -/
def State.endCore (s : State) (c : Nat) : State :=
  let p := s.preempt c
  let s := (s.dropCore c).setPreempt c none
  match p with
  | some p => (match p.incoming with
    | some m => if (s.launchAt m).isSome then (s.joinCore m c).countCirc 3 else s
    | none => s)
  | none => s

/-- Everything of launch `n` but its report is gone (05 R131 steps 4 and 5). -/
def State.dissolve (s : State) (n : Nat) : State :=
  match s.launchAt n with
  | none => s
  | some l =>
    let s := if l.house then s
      else
        let s := s.setKeySlot l.keySlot { s.keySlotAt l.keySlot with binds := (s.keySlotAt l.keySlot).binds - 1 }
        s.modMcb l.mcx fun b => { b with running := b.running - 1 }
    let s := { s with circ := { s.circ with preempts := s.circ.preempts.map fun (e : Nat × Option Preempt) =>
      (e.1, e.2.map fun (p : Preempt) => if p.incoming == some n then { p with incoming := none } else p) } }
    let s := l.cores.foldl (fun s c => s.endCore c) s
    let s := ((s.dropSaved n).leaveWait n).dropFences n
    (s.setLaunch n none).modCirc fun c => { c with
      gens := SMap.upd c.gens n 0 fun g => (g + 1) % 2 ^ 20
      recShared := c.recShared - l.recShared
      recPart := match l.part with | some p => SMap.upd c.recPart p 0 fun k => k - l.recOwn | none => c.recPart }

/-- What a launch's completion record says. -/
def State.doneInfo (s : State) (n dump : Nat) : LaunchDone :=
  let l := (s.launchAt n).getD {}
  { faults := l.faults, start := l.firstAt.getD s.time.toNat, lid := lid n l.gen, dump := dump }

/-- A core whose launch ends lets the exposed results in flight land, in the order of their cycles (11 R318 R322, 05 R139). -/
def CoreSt.landAll (k : CoreSt) : CoreSt :=
  let ls := k.th.inflight
  let order := sortBy (fun a b => decide ((ls.getD a {}).due < (ls.getD b {}).due)) (List.range ls.length)
  order.foldl (fun k i => k.applyLanding (ls.getD i {})) { k with th := { k.th with inflight := [] } }

/-- The carrel of a launch that ends stops: what is in flight on its cores lands (05 R131 step 1, 11 R318). -/
def State.landCores (s : State) (n : Nat) : State :=
  ((s.launchAt n).getD {}).cores.foldl (fun s c => if (s.core c).launch == some n then s.modCore c CoreSt.landAll else s) s

/-- RETIREMENT of launch `n`, in the order of R131. With the last bound launch of a micro-context its translations go (08 R215).
DEDUCED [log 62]. -/
def State.retire (s : State) (n : Nat) : State :=
  match s.launchAt n with
  | none => s
  | some l =>
    let (s, len) := (s.landCores n).dump n
    let cls := l.ended.map (·.1)
    let s := match l.request with
      | some id => s.reply id cls (s.lineKey l.keySlot)
      | none => s
    let done := s.doneInfo n len
    let s := if !l.house && (match cls with | some c => c != 5 && c != 6 | none => false) then
        s.modMcb l.mcx fun b => { b with terminations := b.terminations + 1, reason := cls.getD 0 }
      else s
    let s := s.dissolve n
    let s := if (s.mcb l.mcx).running == 0 then s.tlbFlush l.tag else s
    let s := s.reportLaunch l.record l.cmd l.house l.mcx (if cls.isSome then 4 else 0) (cls.getD 0) done
    if l.house then s else s.teardown l.mcx

/-- No access of launch `n` is outstanding on any path, and its engines are idle (09 R264). -/
def State.launchQuiet (s : State) (n : Nat) : Bool :=
  let l := (s.launchAt n).getD {}
  !(s.mem.net.any fun r => r.launch == n && !(match r.kind with | .fence _ => true | .pfence _ _ => true | _ => false)) &&
  l.cores.all fun c =>
    let x := (s.core c).ctx
    x.copyq.isEmpty && x.streamq.isEmpty && x.fabricq.isEmpty && x.cipherq.isEmpty &&
      !(x.matrix.run.any fun r => r.2.isSome) && !((s.core c).th.inflight.any fun l => l.slotOf.isSome)

/-- Every record of a launch is EXITED. -/
def Launch.allExited (l : Launch) : Bool := (List.range l.record.strands).all fun i => (l.strand i).st == .exited

/-- A fault still held when every strand has exited: with the engines of its cores, in a context that is resident or saved, or with a
record (11 R320). -/
def State.heldFault (s : State) (n : Nat) : Option TrapInfo :=
  let l := (s.launchAt n).getD {}
  (l.cores.findSome? fun c => (s.core c).ctx.heldLate.head?).or <|
  (s.cores.findSome? fun e => match e.2.resident with | some (m, x) => if m == n then x.heldLate.head? else none | none => none).or <|
  (s.saves.findSome? fun e => match e.2 with
    | some v => if v.launch == n then (v.ctx.bind fun x => x.heldLate.head?).or (v.th.bind fun t => t.late.head?) else none
    | none => none).or
  (l.strands.findSome? fun e => e.2.late.head?)

/-- What launch `n` has issued on its cores has landed but for exposed results: no register is pending (11 R318 R322). -/
def State.filled (s : State) (n : Nat) : Bool :=
  ((s.launchAt n).getD {}).cores.all fun c => (s.core c).launch != some n || (s.core c).th.pend.isEmpty

/-- LAUNCH_RETIRE: launch slot `a` retires once it has ended or every strand has exited, and all its accesses are performed; a fault
still held ends it first (05 R131, 07 R188, 09 R264, 11 R320). -/
def execLaunchRetire (s : State) : Res :=
  let n := s.ev.a
  .next (match s.launchAt n with
    | none => s
    | some l =>
      if l.st == .retiring then
        if (s.mem.net.any fun r => r.launch == n && (r.lsbu || r.path ≤ 1) && !r.performed) || !(s.filled n) then s else s.retire n
      else if l.st != .bound || !l.allExited then s
      else match s.heldFault n with
        | some t => endLaunch n t.cause t.owner s
        | none => if s.launchQuiet n then s.retire n else s)

/-! Ends that are not retirements of running launches (06 R175). -/

/-- A launch that waits and has never run completes with FAULTED and `cls`, without a dump (06 R175). DEDUCED [log 62]. -/
def State.endUnstarted (s : State) (n cls : Nat) : State :=
  match s.launchAt n with
  | none => s
  | some l =>
    let s := match l.request with
      | some id => s.reply id (some cls) none
      | none => s
    let done : LaunchDone := { faults := l.faults, start := s.time.toNat, lid := lid n l.gen }
    let s := s.dissolve n
    let s := s.reportLaunch l.record l.cmd l.house l.mcx 4 cls done
    if l.house then s else s.teardown l.mcx

/-- A launch has run, or its cores have been loaded for it. -/
def Launch.hasRun (l : Launch) : Bool := l.firstAt.isSome

/-- A launch ends with a termination cause, wherever it stands (11 R318); `unrun` is the detail of one that waits and has never run
(06 R175). -/
def State.endAny (s : State) (n cause unrun : Nat) : State :=
  match s.launchAt n with
  | none => s
  | some l =>
    if l.st == .waiting && !l.hasRun then s.endUnstarted n unrun
    else (endLaunch n cause none s).leaveWait n

/-- DEADLINE_EXPIRY: launch slot `a` has passed its deadline (06 R175). Time parked on a free list does not count. -/
def execDeadlineExpiry (s : State) : Res :=
  let n := s.ev.a
  .next (match s.launchAt n with
    | none => s
    | some l =>
      if l.record.deadline == 0 || l.parkNo != 0 || l.st == .retiring || s.time.toNat < l.deadlineFrom + 1000 * l.record.deadline then s
      else (s.endAny n 0x0701 7).countCirc 7)

/-! Termination of a micro-context (05 R139). -/

/-- The launches of micro-context `m`. -/
def State.launchesOf (s : State) (m : Nat) : List Nat :=
  (s.circ.launches.filter fun e => match e.2 with | some l => !l.house && l.mcx == m | none => false).map (·.1)

/-- TERMINATION of micro-context `m` with a cause of class 5 or 6: every launch ends, one that has never run with detail 6, and `m` enters
DEAD unless it was CLOSING, whose teardown goes on (05 R139, 06 R175); its translations go (08 R215). Launches at intake are refused at
their state read. -/
def State.terminate (s : State) (m cause : Nat) : State :=
  let closing := (s.mcb m).st == 2
  let s := (s.tlbFlush m).modMcb m fun b => { b with terminations := b.terminations + 1, reason := causeClass cause }
  let s := (s.launchesOf m).foldl (fun s n => s.endAny n cause 6) s
  if closing then s else s.modMcb m fun b => { b with st := 3 }

end Sys2Proof.Machine
end

