-- ==== Sys2Proof/Machine/HostQueues.lean ====
section
/-! DEFINITION. Machine/HostQueues.lean: doorbells, queue loads, buckets, the event rings' heads, taking a command packet and its
checks, and the PCIe link (04 R90 R93 to R107 R112 R113, 01 R32). -/
namespace Sys2Proof.Machine

/-! Doorbells and loads (04 R100 R101 R102). -/

/-- The guest queue index of a doorbell write; none where the write is ignored (04 R91 R100). -/
def doorbellIndex (off size : Nat) : Option Nat :=
  if 0x100000 ≤ off ∧ off < 0x200000 ∧ size = 4 ∧ off % 0x100 = 0 then some ((off - 0x100000) / 0x100) else none

/-- A tail the mapped queue can use. -/
def Mq.tailOk (m : Mq) (tail : Nat) : Bool := decide (tail < 2 ^ m.log)

/-- The tail up to which a mapped queue's packets are taken: TAIL, or what it was when a reload was requested (04 R100). -/
def State.tailOf (s : State) (m : Nat) : Nat := (s.mq m).reload.getD (s.st2 ((s.mq m).vqn.getD 0)).tail

/-- A command with FENCE waits at the head of a mapped queue (04 R96): there is a packet there, and it is such a command. -/
def State.fenceWaits (s : State) (m : Nat) : Bool :=
  (s.mq m).head != s.tailOf m &&
  match s.hostRead (s.mq m).fn ((s.mq m).base + 64 * (s.mq m).head) 2 with
  | some b => bitOf (leAt b 1 1) 0 && s.hif.cmds.any fun c => some c.vqn == (s.mq m).vqn
  | none => false

/-- An MQ is evictable (04 R101). -/
def State.evictable (s : State) (m : Nat) : Bool := (s.mq m).vqn.isSome && (s.mq m).head == s.tailOf m && !(s.fenceWaits m)

/-- A queue whose reload has been requested is evicted as soon as it is evictable (04 R100). -/
def State.settleReload (s : State) (m : Nat) : State := if (s.mq m).reload.isSome && s.evictable m then s.evict m else s

/-- A written tail reaches the queue of a VQN: it takes the place of TAIL, wakes the thread of a mapped queue, and leaves a doorbell
pending for an unmapped one. 0xFFFF_FFFF requests a reload: what stands before the old TAIL is still taken, then the queue is evicted
and waits for its next doorbell (04 R100 R101). -/
def State.newTail (s : State) (q tail : Nat) : State :=
  let old := (s.st2 q).tail
  let s := s.modSt2 q fun e => { e with tail := tail }
  match (s.st2 q).mq with
  | none => s.modSt2 q fun e => { e with p := tail != 0xFFFFFFFF }
  | some m =>
    if tail == 0xFFFFFFFF then
      let upto := if (s.mq m).tailOk old then old else (s.mq m).head
      (s.modMq m fun x => { x with reload := some (x.reload.getD upto) }).settleReload m
    else if (s.mq m).reload.isSome then s.modSt2 q fun e => { e with p := true }
    else if (s.mq m).tailOk tail then s.waitPacket m 0
    else s.postQueue (s.mq m).fn 0x01 2 q 0

/-- A write of `size` bytes at offset `off` of function `v`'s queue window that may be a doorbell (04 R91 R100). DEDUCED [log 58]. -/
def State.ringDoorbell (s : State) (v off size : Nat) (value : Word) : State :=
  let r := s.fn v
  if !s.hostServed || !(s.fnUp v) then s
  else match doorbellIndex off size with
    | none => s
    | some g =>
      let e := SMap.get r.s1 g 0
      let i := fld e.toNat 0 16
      if !(bitOf e.toNat 31) || r.vqCount ≤ i then s.modFn v fun r => { r with s1Cnt := sat48 r.s1Cnt 1 }
      else
        let q := r.vqBase + i
        if !(s.st2 q).v || (s.st2 q).fn != v then { s with hif := { s.hif with dbDrop := sat48 s.hif.dbDrop 1 } }
        else s.newTail q (fld value.toNat 0 32)

/-- DOORBELL: a write of `value`, `c` bytes, at offset `b` of function `a`'s queue window (04 R100). -/
def execDoorbell (s : State) : Res := .next (s.ringDoorbell s.ev.a s.ev.b s.ev.c s.ev.value)

/-- Mapped queues that exist (04 R101 R112). -/
def State.mqCount (s : State) : Nat := if s.minimal then 32 else 128

/-- A free MQ, or the least recently used evictable one, evicted (04 R101). -/
def State.findMq (s : State) : Option (Nat × State) :=
  match firstBelow s.mqCount fun m => (s.mq m).vqn.isNone with
  | some m => some (m, s)
  | none =>
    match sortBy (fun a b => decide ((s.mq a).used < (s.mq b).used)) ((List.range s.mqCount).filter s.evictable) with
    | m :: _ => some (m, s.evict m)
    | [] => none

/-- The next pending VQN whose bucket is not empty, from the rotating pointer (04 R101). -/
def State.nextPending (s : State) : Option Nat :=
  let qs := (s.hif.stage2.filter fun e => e.2.p && e.2.v && e.2.mq.isNone && !(s.bkEmpty e.2.fn) && (!s.minimal || e.2.fn == 0)).map (·.1)
  (qs.find? (s.hif.pendPtr ≤ ·)).or qs.head?

/-- The digest over a VQN and the privileged bytes of a QCB (04 R102). -/
def qcbDigest (q : Nat) (priv : List Byte) : Nat := leNat ((sha256 (natLe 4 q ++ priv)).take 8)

/-- A QCB read into mapped queue `m` (04 R99). DEDUCED [log 58]. -/
def State.mapQueue (s : State) (q m : Nat) (b : List Byte) : State :=
  let log := leAt b 8 1
  let s := s.modMq m fun _ =>
    { vqn := some q, base := leAt b 0 8, log := log, vector := leAt b 9 1, coalesce := leAt b 10 2, window := leAt b 12 4
      head := leAt b 16 4 % 2 ^ log, fn := leAt b 32 2, part := leAt b 34 1, bucket := leAt b 35 1, ceiling := leAt b 36 1
      mask := BitVec.ofNat 8 (leAt b 37 1), mcxBase := leAt b 38 2, mcxCount := leAt b 40 2, used := s.hif.nextCmd }
  s.modSt2 q fun e => { e with mq := some m, coalesce := leAt b 10 2, window := leAt b 12 4, vector := leAt b 9 1 }

/-- A QCB's function part keeps R99: ring base aligned, LOG2SIZE 4 to 16, COALESCE at most 1,024, reserved bytes 20 to 31 zero (00 R8). One
that does not is no QCB that can be read: QERR with detail 3. DEDUCED [log 58]. -/
def qcbBad (b : List Byte) : Bool :=
  leAt b 0 8 % 64 != 0 || leAt b 8 1 < 4 || 16 < leAt b 8 1 || 1024 < leAt b 10 2 || leAt b 20 12 != 0

/-- QUEUE_LOAD: a pending VQN's QCB is loaded into a mapped queue and its digest checked (04 R101 R102). -/
def execQueueLoad (s : State) : Res :=
  .next (if !s.hostServed then s
    else match s.nextPending with
      | none => s
      | some q =>
        let e := s.st2 q
        match s.hostRead e.fn e.qcb 64 with
        | none =>
          let s := s.modSt2 q fun e => { e with p := false }
          { (s.postQueue e.fn 0x01 3 q 0) with hif := { (s.postQueue e.fn 0x01 3 q 0).hif with pendPtr := q + 1 } }
        | some b =>
          if qcbDigest q (slice b 32 16) != e.digest then
            let s := s.modSt2 q fun e => { e with p := false, v := false }
            let s := s.postQueue e.fn 0x02 0 q e.digest
            if e.fn == 0 then s else s.post 0 0x02 0 q e.digest
          else if qcbBad b then
            (s.modSt2 q fun e => { e with p := false }).postQueue e.fn 0x01 3 q 0
          else match s.findMq with
            | none => s
            | some (m, s) =>
              let s := (s.mapQueue q m b).modSt2 q fun e => { e with p := false }
              let s := { s with hif := { s.hif with pendPtr := q + 1 } }
              if (s.mq m).tailOk e.tail then s.waitPacket m 0 else s.postQueue e.fn 0x01 2 q 0)

/-! Buckets (04 R103). -/

/-- Cores bound to launches charged to bucket `v`. -/
def State.bkCores (s : State) (v : Nat) : Nat :=
  (s.circ.owner.filter fun e => match e.2.bind s.launchAt with | some l => l.bucket == some v | none => false).length

/-- Every mapped queue of a function is evicted. -/
def State.evictFn (s : State) (v : Nat) : State :=
  ((s.hif.mqs.filter fun e => e.2.vqn.isSome && e.2.fn == v).map (·.1)).foldl (fun s m =>
    let q := ((s.mq m).vqn).getD 0
    let more := (s.mq m).head != (s.st2 q).tail && (s.st2 q).tail != 0xFFFFFFFF
    (s.evict m).modSt2 q fun e => { e with p := e.p || more }) s

/-- One bucket at a 1 µs tick: a written LEVEL, the refill, the charge (04 R103 R107). -/
def State.tickBucket (s : State) (v : Nat) : State :=
  let cap : Int := s.bkDepth v * 256
  let was := (s.fn v).bkWrite.getD (s.bkLevel v)
  let l := min (was + s.bkRate v) cap
  let l := max (l - 256 * s.bkCores v) (-cap)
  let empty0 := s.bkEmpty v
  let s := s.modFn v fun r => { r with
    bkLevel := if l == (if v = 0 then 0xFFFFFFFF00 else 0) then none else some l, bkWrite := none }
  if !empty0 && decide (l ≤ 0) then (s.evictFn v).post v 0x03 0 v 0
  else if empty0 && decide (0 < l) then s.post v 0x03 1 v 0
  else s

/-- BUCKET_TICK: a 1 µs tick of TIME (04 R103). -/
def execBucketTick (s : State) : Res := .next (if s.hostServed then (List.range 65).foldl (fun s v => s.tickBucket v) s else s)

/-- A write of FN.EVHEAD; a value not on the way from EVHEAD to EVTAIL is ignored (04 R105 R106). -/
def State.writeEvHead (s : State) (v x : Nat) : State :=
  let r := s.fn v
  let n := 2 ^ r.evLog
  if n ≤ x || (r.evTail + n - r.evHead) % n < (x + n - r.evHead) % n then s
  else if x == r.evHead then s
  else ((s.modFn v fun r => { r with evHead := x }).ringFreed v).houseWait 1

/-- FN_EVHEAD_WRITE: function `a` writes `value` to FN.EVHEAD (04 R105 R106). -/
def execFnEvheadWrite (s : State) : Res := .next (s.writeEvHead s.ev.a s.ev.value.toNat)

/-! Taking a packet (04 R93 to R96 R112). -/

/-- The operand bytes 32 to 63 that an operation names, as (first, length). -/
def opFields (op : Nat) : List (Nat × Nat) :=
  match op with
  | 0x01 => [(32, 2), (40, 8)]
  | 0x02 => [(32, 16)]
  | 0x03 => [(32, 2), (36, 4)]
  | 0x04 => [(32, 2), (40, 8)]
  | 0x05 => [(32, 2), (36, 4), (40, 8), (48, 8)]
  | 0x06 => [(32, 2), (36, 4), (40, 8), (48, 8)]
  | 0x07 => [(32, 2), (40, 8)]
  | 0x20 => [(32, 4), (40, 8), (48, 16)]
  | 0x21 => [(32, 4)]
  | 0x22 => [(32, 2), (36, 2), (38, 4)]
  | 0x23 => [(32, 1), (33, 1), (40, 8)]
  | 0x24 => [(32, 4), (36, 4), (40, 8)]
  | 0x25 => [(32, 1)]
  | 0x26 => [(40, 8)]
  | 0x27 => [(40, 8)]
  | _ => []

/-- OPs of R94. -/
def opAssigned (op : Nat) : Bool := decide ((1 ≤ op ∧ op ≤ 8) ∨ (0x20 ≤ op ∧ op ≤ 0x27))

/-- The class of an OP; NOP has none (04 R94). -/
def opClass (op : Nat) : Option Nat :=
  match op with
  | 0x01 => some 0 | 0x02 => some 1 | 0x03 => some 1 | 0x04 => some 2 | 0x05 => some 3 | 0x06 => some 3 | 0x07 => some 4
  | 0x08 => none | _ => some 5

/-- Reserved fields of a packet are zero (04 R93 R94). -/
def packetReservedOk (b : List Byte) : Bool :=
  let op := leAt b 0 1
  leAt b 1 1 < 4 && leAt b 2 2 == 0 &&
  ((List.range 32).all fun i => b.getD (32 + i) 0 == 0 || (opFields op).any fun f => decide (f.1 ≤ 32 + i ∧ 32 + i < f.1 + f.2)) &&
  (op != 0x01 || leAt b 8 24 == 0)

/-- The addresses a packet gives for its report are aligned. -/
def packetAligned (b : List Byte) : Bool := leAt b 8 8 % 64 == 0 && leAt b 16 8 % 8 == 0

/-- A packet with an OP. -/
def isOp (op : Nat) (b : List Byte) : Bool := leAt b 0 1 == op

/-- The packet at the head of mapped queue `m`, taken, when the queue may take it; otherwise the state after (04 R96 R101). While a
firmware activation is in progress nothing is taken but a FW_STAGE, which completes with BUSY (04 R110). DEDUCED [log 58].
DESIGN CHOICE [log 61]. -/
def State.takePacket (s : State) (m : Nat) (want : List Byte → Bool) : Except State (State × Cmd) :=
  let x := s.mq m
  match x.vqn with
  | none => .error s
  | some q =>
    let e := s.st2 q
    let stops := s.hif.fwPhase != .idle || (s.thread m).halted
    if !s.hostServed || s.mqCount ≤ m || e.stopping || !e.v || !(x.tailOk (s.tailOf m)) || x.head == s.tailOf m then .error s
    else match s.hostRead x.fn (x.base + 64 * x.head) 64 with
      | none => .error (if stops then s else s.postQueue x.fn 0x01 1 q 0)
      | some b =>
        if !(want b) || (stops && !(isOp 0x24 b)) || (bitOf (leAt b 1 1) 0 && s.hif.cmds.any fun c => c.vqn == q) then .error s
        else
          let id := s.hif.nextCmd
          let c : Cmd := { id := id, packet := b, vqn := q, fn := x.fn, startAt := s.time.toNat, crec := leAt b 8 8,
                           sigAddr := leAt b 16 8, sigVal := leAt b 24 8 }
          let s := s.modMq m fun y => { y with head := (y.head + 1) % 2 ^ y.log, used := id }
          .ok ({ s with hif := { s.hif with nextCmd := id + 1, cmds := s.hif.cmds ++ [c] } }, c)

/-- What is in force for the command's queue. -/
def State.cmdMq (s : State) (m : Nat) : Mq := s.mq m

/-- Checks 1 and 2 of R95. -/
def classOk (x : Mq) (op : Nat) : Bool :=
  match opClass op with
  | some k => x.mask.getLsbD k && (k != 5 || x.fn == 0)
  | none => true

/-- Check 3 of R95 for an operand. -/
def Mq.mcxOk (x : Mq) (m : Nat) : Bool := decide (x.mcxBase ≤ m ∧ m < x.mcxBase + x.mcxCount)

/-- OPs that minimal mode runs (04 R112). -/
def minimalOp (b : List Byte) : Bool :=
  let op := leAt b 0 1
  op == 0x08 || op == 0x24 || (op == 0x25 && leAt b 32 1 == 1) || op == 0x26 || op == 0x27

/-- RUN A COMMAND of mapped queue `m` that `want` accepts: taken, checked as R94, R112 and R95 checks 1 and 2 say, then `body`. A queue
whose reload was requested may have become evictable by the taking. A LAUNCH refused by these checks has no record read, so its
completion has no address to be written at. DESIGN CHOICE [log 89]. -/
def runCmd (m : Nat) (want : List Byte → Bool) (bad : List Byte → Bool) (body : State → Mq → Cmd → State) (s : State) : Res :=
  .next (match s.takePacket m want with
    | .error s => s
    | .ok (s, c) =>
      let b := c.packet
      (if !(packetAligned b) then s.completeNowhere c 1
      else if !(opAssigned (leAt b 0 1)) || !(packetReservedOk b) || bad b then s.complete c 1 0
      else if s.minimal && !(minimalOp b) then s.complete c 12 0
      else if !(classOk (s.mq m) (leAt b 0 1)) then s.complete c 2 0
      else body s (s.mq m) c).settleReload m)

/-- NOP: does nothing and completes; a packet with an unassigned OP is refused here (04 R94). -/
def execNop (s : State) : Res :=
  runCmd s.ev.a (fun b => isOp 0x08 b || !(opAssigned (leAt b 0 1))) (fun _ => false) (fun s _ c => s.complete c 0 0) s

/-! The PCIe link (04 R90 R113, 01 R32). -/

/-- PCIE_CONFIG_REQUEST of function `a`: before READY or minimal mode it completes with Request Retry Status. After it, `b` = 1 writes
NumVFs (`value`; above the blob's count it counts as 0), `b` = 2 Bus Master Enable (the flag) and `b` = 3 the mask bit of MSI-X vector
`c` (the flag); anything else is answered by the PCIe standard's own rules (01 R32, 04 R90 R98). PRESUMED [log 16]. -/
def execPcieConfigRequest (s : State) : Res :=
  .next (if !s.hostServed then s.emit (.cfg true)
    else
      let s := s.emit (.cfg false)
      if s.ev.b == 1 then { s with hif := { s.hif with numVfs := if s.ev.value.toNat ≤ s.pkg.nVf then s.ev.value.toNat else 0 } }
      else if s.ev.b == 2 then s.modFn s.ev.a fun r => { r with enabled := s.ev.flag }
      else if s.ev.b == 3 then s.maskVector s.ev.a s.ev.c s.ev.flag
      else s)

/-- A function as a reset leaves it: what R113 says survives, and the rest at its reset value, disabled. PRESUMED [log 16]. -/
def FnRegs.flr (r : FnRegs) : FnRegs :=
  { bkDepth := r.bkDepth, bkRate := r.bkRate, bkLevel := r.bkLevel, bkWrite := r.bkWrite }

/-- The queues of functions that `p` names are cleared (04 R113). -/
def State.clearQueues (s : State) (p : Nat → Bool) : State :=
  { s with hif := { s.hif with
    stage2 := s.hif.stage2.filter fun e => !(p e.2.fn)
    mqs := s.hif.mqs.filter fun e => !(p e.2.fn) } }

/-- Host commands in progress of functions that `p` names end with HOST_LOST: a LAUNCH when its launch retires, any other now
(04 R113). -/
def State.loseCmds (s : State) (p : Nat → Bool) : State :=
  let s := { s with hif := { s.hif with cmds := s.hif.cmds.map fun (c : Cmd) => if p c.fn then { c with lost := true } else c } }
  (s.hif.cmds.filter fun c => c.lost && c.op != 1).foldl (fun s c => s.finishCmd c 5 0 { start := c.startAt }) s

/-- PCIE_HOT_RESET: a hot reset or PF Function Level Reset; with the flag, the link goes down (04 R113). PRESUMED [log 16]. -/
def execPcieHotReset (s : State) : Res :=
  let s := { s with hif := { s.hif with
    link := if s.ev.flag then false else s.hif.link, linkLost := s.hif.linkLost || (s.ev.flag && s.hif.link), numVfs := 0
    spdm := [], spdmState := 0, spdmExt := false, spdmLog := [], spdmIn := none, spdmOut := none, ideKeys := [], ideOn := [] } }
  let s := (List.range 65).foldl (fun s v => s.modFn v FnRegs.flr) s
  .next ((s.loseCmds fun _ => true).clearQueues fun _ => true)

/-- VF_FLR of virtual function `a` (04 R113). -/
def execVfFlr (s : State) : Res :=
  let v := s.ev.a
  .next (if v == 0 || 64 < v then s else ((s.modFn v FnRegs.flr).loseCmds (· == v)).clearQueues (· == v))

/-- PCIE_LINK_UP: the link is up; when it comes back, the PF's first event is HOSTLOST (04 R113). -/
def execPcieLinkUp (s : State) : Res :=
  .next (if s.hif.link || s.pkg.held || (s.pkg.stage < 4 && s.pkg.mode != 2) then s
    else if !s.hif.linkLost then { s with hif := { s.hif with link := true } }
    else ({ s with hif := { s.hif with link := true, linkLost := false, lostOwed := some s.hif.lostCnt } }).hostLostFirst)

end Sys2Proof.Machine
end

