-- ==== Sys2Proof/Machine/Vector.lean ====
section
/-! DEFINITION. Machine/Vector.lean: the vector slots: arithmetic, comparison, conversion, reductions, draws, movement and
predicates (14_vector_instructions.md, 12 R343 R345 R350 to R352). -/
namespace Sys2Proof.Machine

/-! What the forms share (14 R396 to R400). -/

/-- Lanes of `n` elements of format `f` under a predicate, applied to each register of a group (12 R343). -/
def laneActive (q : BitVec 256) (f n : Nat) : List Bool :=
  (List.range n).map fun i => q.getLsbD (i % perReg f * fmtBits f / 8)

/-- A name the field kind reads or writes as a vector register maps (12 R342). DEDUCED [log 30]. -/
def vNameOk (rot : Word) (k : VKind) (span x : Nat) : Bool :=
  match k with
  | .vg => vnamesOk rot x (max 1 span)
  | .v1 => vnamesOk rot x 1
  | _ => true

/-- Every vector name of a syllable maps. -/
def vAllNames (rot : Word) (op : Nat) (f : VOp) : Bool :=
  let r := vRow (vBase op)
  let sp := vSpans op f
  (op ≥ 0x80 && (vBase op == 0x31 || vBase op == 0x3E) || vNameOk rot r.va sp.2.1 f.va) &&
  vNameOk rot r.vd sp.1 f.vd && (op ≥ 0x80 || vNameOk rot r.vb sp.2.2.1 f.vb) && vNameOk rot r.vc sp.2.2.2 f.vc

/-- The checks of a vector syllable: encoding, VA-only forms, mapped names (12 R342 R350 R351). -/
def vChecked (op : Nat) (f : VOp) (s : State) (k : State → Res) : Res :=
  if (Syll.v op f).fits && (Syll.v op f).legal && !((vRow (vBase op)).onlyVA && s.th.slot == 2) && vAllNames s.th.rot op f then k s
  else illop (.v op f) s

/-- An element's code with the flags it raised. -/
abbrev Elem := Nat × BitVec 7

/-- Results of active lanes to the `span` registers of format `fd` from name `vd`, register j at latency n + j (12 R338,
14 R396); a syllable that rounded stochastically takes one position (10 R281). -/
def State.landLanes (s : State) (n fd vd span : Nat) (out : List Elem) (act : List Bool) (rounds : Bool) (mode : Nat) : State :=
  let vals := packGroup fd span (out.map (·.1))
  let masks := packGroup fd span (act.map fun a => if a then 2 ^ fmtBits fd - 1 else 0)
  let fl := orFlags (List.zipWith (fun (o : Elem) a => flagIf a o.2) out act)
  s.modTh fun th =>
    let th := th.landVg n (vgroup th.rot vd span) vals masks fl
    if rounds && mode == 4 then { th with posTaken := th.posTaken + 1 } else th

/-- Every lane is written. -/
def allLanes (n : Nat) : List Bool := List.replicate n true

/-- The rounding of a syllable. DEDUCED [log 28]. -/
def vRound (f : VOp) (s : State) : Rnd := s.rounding f.rm s.th.posTaken

/-- The elements of a grouped operand. -/
def State.lanes (s : State) (fmt name span : Nat) : List Nat := elems fmt (s.th.rVg name span)

/-- The immediate operand of an immediate form in a format (12 R345): zero-extended where the form says so. DEDUCED [log 28]. -/
def vImm (fmt : Nat) (zero : Bool) (xi : BitVec 16) : Nat :=
  if fmtI fmt then (if zero && !(intSigned fmt) then xi.toNat % 2 ^ fmtBits fmt else intCode fmt (sext xi.toNat 16))
  else ((ffmt fmt).round rne ((ffmt 1).decode xi.toNat) 0).1

/-- The immediate of a form traps: a NaN into E2M1 (12 R345). -/
def vImmBad (fmt : Nat) (xi : BitVec 16) : Bool := fmt == 5 && ((ffmt 1).decode xi.toNat).isNan

/-- Map with index. -/
def mapIdx2 (g : Nat → Nat → Nat → Elem) (a b : List Nat) : List Elem := (a.zip b).zipIdx.map fun p => g p.2 p.1.1 p.1.2

/-- A lane-wise form of one source group. -/
def vUnary (op : Nat) (f : VOp) (lat : Nat) (rounds : Bool) (g : Rnd → Nat → Nat → Elem) (s : State) : Res :=
  vChecked op f s fun s =>
    let r := vRound f s
    let a := s.lanes f.fmt f.va (VOp.grp f)
    .next (s.landLanes lat f.fmt f.vd (VOp.grp f) (a.zipIdx.map fun p => g r p.2 p.1) (laneActive (s.th.rQ f.qp) f.fmt a.length) rounds r.mode)

/-- A lane-wise form of two sources, the second a group or the immediate. -/
def vBinary (op : Nat) (f : VOp) (lat : Nat) (rounds zero : Bool) (g : Rnd → Nat → Nat → Nat → Elem) (s : State) : Res :=
  vChecked op f s fun s =>
    if 0x80 ≤ op && vImmBad f.fmt s.th.xi then illop (.v op f) s
    else
      let r := vRound f s
      let a := s.lanes f.fmt f.va (VOp.grp f)
      let b := if 0x80 ≤ op then List.replicate a.length (vImm f.fmt zero s.th.xi) else s.lanes f.fmt f.vb (VOp.grp f)
      .next (s.landLanes lat f.fmt f.vd (VOp.grp f) (mapIdx2 (g r) a b) (laneActive (s.th.rQ f.qp) f.fmt a.length) rounds r.mode)

/-! Arithmetic (14 R401 to R406). -/

/-- One lane of vadd, vsub or vmul (14 R401). -/
def arithLane (fmt rm : Nat) (fop : Bool → Num → Num → Num × BitVec 7) (iop : Int → Int → Int) (r : Rnd) (i a b : Nat) : Elem :=
  if fmtI fmt then
    let x := iop (intVal fmt a) (intVal fmt b)
    if rm == 1 then satInt fmt x else (intCode fmt x, 0)
  else
    let (x, f1) := fop (r.mode == 2) ((ffmt fmt).decode a) ((ffmt fmt).decode b)
    let (c, f2) := (ffmt fmt).round r x i
    (c, f1 ||| f2)

/-- vadd, vsub and vmul with their immediate forms. -/
def vArith (op : Nat) (f : VOp) (li : Nat) (fop : Bool → Num → Num → Num × BitVec 7) (iop : Int → Int → Int) (s : State) : Res :=
  vBinary op f (if fmtI f.fmt then li else 4) (fmtF f.fmt) false (arithLane f.fmt f.rm fop iop) s

/-- vadd (14 R401). -/
def execVadd (f : VOp) (s : State) : Res := vArith 0x01 f 2 Num.add (· + ·) s
/-- vadd by the immediate (14 R401). -/
def execVaddImm (f : VOp) (s : State) : Res := vArith 0x81 f 2 Num.add (· + ·) s
/-- vsub (14 R401). -/
def execVsub (f : VOp) (s : State) : Res := vArith 0x02 f 2 (fun d a b => Num.add d a b.neg) (· - ·) s
/-- vsub of the immediate (14 R401). -/
def execVsubImm (f : VOp) (s : State) : Res := vArith 0x82 f 2 (fun d a b => Num.add d a b.neg) (· - ·) s
/-- vmul (14 R401). -/
def execVmul (f : VOp) (s : State) : Res := vArith 0x03 f 3 (fun _ a b => Num.mul a b) (· * ·) s
/-- vmul by the immediate (14 R401). -/
def execVmulImm (f : VOp) (s : State) : Res := vArith 0x83 f 3 (fun _ a b => Num.mul a b) (· * ·) s

/-- One lane of a fused form: (+-)(a x b) (+-) c rounded once (14 R402). -/
def fusedLane (fmt : Nat) (negP negC : Bool) (r : Rnd) (i a b c : Nat) : Elem :=
  let d := (ffmt fmt).decode
  let (p, f1) := Num.mul (d a) (d b)
  let (x, f2) := Num.add (r.mode == 2) (if negP then p.neg else p) (if negC then (d c).neg else d c)
  let (o, f3) := (ffmt fmt).round r x i
  (o, f1 ||| f2 ||| f3)

/-- vfma, vfms and vfnma. -/
def vFused (op : Nat) (f : VOp) (negP negC : Bool) (s : State) : Res :=
  vChecked op f s fun s =>
    let r := vRound f s
    let a := s.lanes f.fmt f.va (VOp.grp f)
    let b := s.lanes f.fmt f.vb (VOp.grp f)
    let c := s.lanes f.fmt f.vc (VOp.grp f)
    let out := ((a.zip b).zip c).zipIdx.map fun p => fusedLane f.fmt negP negC r p.2 p.1.1.1 p.1.1.2 p.1.2
    .next (s.landLanes 4 f.fmt f.vd (VOp.grp f) out (laneActive (s.th.rQ f.qp) f.fmt a.length) true r.mode)

/-- vfma: a x b + c (14 R402). -/
def execVfma (f : VOp) (s : State) : Res := vFused 0x04 f false false s
/-- vfms: a x b - c (14 R402). -/
def execVfms (f : VOp) (s : State) : Res := vFused 0x05 f false true s
/-- vfnma: -(a x b) + c (14 R402). -/
def execVfnma (f : VOp) (s : State) : Res := vFused 0x06 f true false s

/-- One lane of vmin or vmax (14 R403, 10 R291). -/
def pickLane (fmt : Nat) (big : Bool) (_ : Rnd) (_ a b : Nat) : Elem :=
  if fmtI fmt then
    let x := intVal fmt a
    let y := intVal fmt b
    (if (if big then decide (x < y) else decide (y < x)) then b else a, 0)
  else
    let (x, fl) := Num.pickMax big ((ffmt fmt).decode a) ((ffmt fmt).decode b)
    (((ffmt fmt).round rne x 0).1, fl)

/-- vmin (14 R403). -/
def execVmin (f : VOp) (s : State) : Res := vBinary 0x07 f 2 false false (pickLane f.fmt false) s
/-- vmin with the immediate (14 R403). -/
def execVminImm (f : VOp) (s : State) : Res := vBinary 0x87 f 2 false false (pickLane f.fmt false) s
/-- vmax (14 R403). -/
def execVmax (f : VOp) (s : State) : Res := vBinary 0x08 f 2 false false (pickLane f.fmt true) s
/-- vmax with the immediate (14 R403). -/
def execVmaxImm (f : VOp) (s : State) : Res := vBinary 0x88 f 2 false false (pickLane f.fmt true) s

/-- A float lane whose sign changes: a NaN becomes canonical (14 R404). -/
def signLane (fmt : Nat) (g : Nat → Nat) (a : Nat) : Elem :=
  let p := ffmt fmt
  let x := p.decode a
  if x.isNan then (p.nanCode, flagIf x.isSnan flNV) else (g a, 0)

/-- vabs (14 R404). -/
def execVabs (f : VOp) (s : State) : Res :=
  vUnary 0x09 f 2 false (fun _ _ a =>
    if fmtI f.fmt then (intCode f.fmt (intVal f.fmt a).natAbs, 0)
    else signLane f.fmt (fun a => a % 2 ^ (ffmt f.fmt).signBit) a) s

/-- vneg (14 R404). -/
def execVneg (f : VOp) (s : State) : Res :=
  vUnary 0x0A f 2 false (fun _ _ a =>
    if fmtI f.fmt then (intCode f.fmt (-(intVal f.fmt a)), 0)
    else signLane f.fmt (fun a => a ^^^ 2 ^ (ffmt f.fmt).signBit) a) s

/-- vcpysgn: magnitude of a, sign bit of b (14 R404). -/
def execVcpysgn (f : VOp) (s : State) : Res :=
  vBinary 0x0B f 2 false false (fun _ _ a b =>
    let k := 2 ^ (ffmt f.fmt).signBit
    signLane f.fmt (fun a => a % k + b / k % 2 * k) a) s

/-- The class code of a float element (14 R405). -/
def classCode (fmt a : Nat) : Nat :=
  let p := ffmt fmt
  match p.decode a with
  | .nan true => 8
  | .nan false => 9
  | .inf n => if n then 0 else 7
  | .fin n m _ =>
    if m == 0 then (if n then 3 else 4)
    else if fld a p.mb p.eb == 0 then (if n then 2 else 5) else (if n then 1 else 6)

/-- vclass (14 R405). -/
def execVclass (f : VOp) (s : State) : Res := vUnary 0x0C f 2 false (fun _ _ a => (classCode f.fmt a, 0)) s

/-- A bitwise lane. -/
def bitLane (g : Nat → Nat → Nat) (_ : Rnd) (_ a b : Nat) : Elem := (g a b, 0)

/-- vand (14 R406). -/
def execVand (f : VOp) (s : State) : Res := vBinary 0x0D f 1 false true (bitLane (· &&& ·)) s
/-- vand with the immediate (14 R406). -/
def execVandImm (f : VOp) (s : State) : Res := vBinary 0x8D f 1 false true (bitLane (· &&& ·)) s
/-- vor (14 R406). -/
def execVor (f : VOp) (s : State) : Res := vBinary 0x0E f 1 false true (bitLane (· ||| ·)) s
/-- vor with the immediate (14 R406). -/
def execVorImm (f : VOp) (s : State) : Res := vBinary 0x8E f 1 false true (bitLane (· ||| ·)) s
/-- vxor (14 R406). -/
def execVxor (f : VOp) (s : State) : Res := vBinary 0x0F f 1 false true (bitLane (· ^^^ ·)) s
/-- vxor with the immediate (14 R406). -/
def execVxorImm (f : VOp) (s : State) : Res := vBinary 0x8F f 1 false true (bitLane (· ^^^ ·)) s
/-- vnot (14 R406). -/
def execVnot (f : VOp) (s : State) : Res := vUnary 0x10 f 1 false (fun _ _ a => (2 ^ fmtBits f.fmt - 1 - a, 0)) s

/-- A shift form: the immediate is XI[5:0] with XI[15:6] zero (12 R345, 14 R406). -/
def vShift (op : Nat) (f : VOp) (g : Nat → Nat → Nat) (s : State) : Res :=
  vChecked op f s fun s =>
    if 0x80 ≤ op && 64 ≤ s.th.xi.toNat then illop (.v op f) s
    else
      let w := fmtBits f.fmt
      let a := s.lanes f.fmt f.va (VOp.grp f)
      let b := if 0x80 ≤ op then List.replicate a.length s.th.xi.toNat else s.lanes f.fmt f.vb (VOp.grp f)
      .next (s.landLanes 2 f.fmt f.vd (VOp.grp f) (mapIdx2 (fun _ x c => (g x (c % w) % 2 ^ w, 0)) a b)
        (laneActive (s.th.rQ f.qp) f.fmt a.length) false 0)

/-- vshl (14 R406). -/
def execVshl (f : VOp) (s : State) : Res := vShift 0x11 f (fun a c => a * 2 ^ c) s
/-- vshl by the immediate (14 R406). -/
def execVshlImm (f : VOp) (s : State) : Res := vShift 0x91 f (fun a c => a * 2 ^ c) s
/-- vshr (14 R406). -/
def execVshr (f : VOp) (s : State) : Res := vShift 0x12 f (fun a c => a / 2 ^ c) s
/-- vshr by the immediate (14 R406). -/
def execVshrImm (f : VOp) (s : State) : Res := vShift 0x92 f (fun a c => a / 2 ^ c) s
/-- Arithmetic shift right of a w-bit code. -/
def sarCode (fmt a c : Nat) : Nat := intCode fmt (sext a (fmtBits fmt) / (2 ^ c : Nat))
/-- vsar (14 R406). -/
def execVsar (f : VOp) (s : State) : Res := vShift 0x13 f (sarCode f.fmt) s
/-- vsar by the immediate (14 R406). -/
def execVsarImm (f : VOp) (s : State) : Res := vShift 0x93 f (sarCode f.fmt) s

/-- vmulh: bits [2w - 1 : w] of the product (14 R406). -/
def execVmulh (f : VOp) (s : State) : Res :=
  vBinary 0x14 f 3 false false (fun _ _ a b =>
    (intCode f.fmt (intVal f.fmt a * intVal f.fmt b / (2 ^ fmtBits f.fmt : Nat)), 0)) s

/-! Compare and select (14 R407 R408). -/

/-- The condition on two lanes, with NV for a signalling NaN (14 R407). -/
def cmpLane (fmt cc a b : Nat) : Bool × BitVec 7 :=
  if fmtI fmt then
    let sa := sext a (fmtBits fmt)
    let sb := sext b (fmtBits fmt)
    (match cc with
      | 0 => a == b | 1 => a != b
      | 2 => decide (sa < sb) | 3 => decide (sb ≤ sa) | 6 => decide (sa ≤ sb) | 7 => decide (sb < sa)
      | 4 => decide (a < b) | 5 => decide (b ≤ a) | 8 => decide (a ≤ b) | _ => decide (b < a), 0)
  else
    let x := (ffmt fmt).decode a
    let y := (ffmt fmt).decode b
    let fl := flagIf (x.isSnan || y.isSnan) flNV
    match Num.cmp x y with
    | none => (cc == 1 || cc == 4 || cc == 5 || cc == 8 || cc == 9, fl)
    | some o =>
      (match cc with
        | 0 => o == .eq | 1 => o != .eq
        | 2 | 4 => o == .lt | 3 | 5 => o != .lt | 6 | 8 => o != .gt | _ => o == .gt, fl)

/-- A predicate result from one bit a lane: the w/8 bits of each lane; for E2M1 one bit for two lanes, their AND (14 R407). -/
def laneBits (fmt : Nat) (l : List Bool) : BitVec 256 :=
  let w := fmtBits fmt
  if w < 8 then BitVec.ofNat 256 ((List.range 256).foldr (fun j acc => b2n (l.getD (2 * j) false && l.getD (2 * j + 1) false) + 2 * acc) 0)
  else BitVec.ofNat 256 (l.foldr (fun b acc => (if b then 2 ^ (w / 8) - 1 else 0) + 2 ^ (w / 8) * acc) 0)

/-- vcmp and its immediate form. -/
def vCompare (op : Nat) (f : VOp) (s : State) : Res :=
  vChecked op f s fun s =>
    if 0x80 ≤ op && vImmBad f.fmt s.th.xi then illop (.v op f) s
    else
      let a := s.lanes f.fmt f.va 1
      let b := if 0x80 ≤ op then List.replicate a.length (vImm f.fmt false s.th.xi) else s.lanes f.fmt f.vb 1
      let act := laneActive (s.th.rQ f.qp) f.fmt a.length
      let out := (a.zip b).map fun p => cmpLane f.fmt f.vc p.1 p.2
      let fl := orFlags (List.zipWith (fun (o : Bool × BitVec 7) k => flagIf k o.2) out act)
      .next (s.modTh fun th => th.land 2 (some (.q f.vd)) ((laneBits f.fmt (out.map (·.1))).setWidth 2048)
        ((laneBits f.fmt act).setWidth 2048) fl)

/-- vcmp (14 R407). -/
def execVcmp (f : VOp) (s : State) : Res := vCompare 0x15 f s
/-- vcmp with the immediate (14 R407). -/
def execVcmpImm (f : VOp) (s : State) : Res := vCompare 0x95 f s

/-- vsel (14 R408). -/
def execVsel (f : VOp) (s : State) : Res :=
  vChecked 0x16 f s fun s =>
    let a := s.lanes f.fmt f.va (VOp.grp f)
    let b := s.lanes f.fmt f.vb (VOp.grp f)
    let c := laneActive (s.th.rQ f.vc) f.fmt a.length
    .next (s.landLanes 1 f.fmt f.vd (VOp.grp f) (((a.zip b).zip c).map fun p => (if p.2 then p.1.1 else p.1.2, 0))
      (laneActive (s.th.rQ f.qp) f.fmt a.length) false 0)

/-! Conversion and quantisation (14 R409 to R413). -/

/-- A conversion of source elements into a destination span (14 R398 R409 R410). -/
def vConvert (op : Nat) (f : VOp) (src dst span lat : Nat) (r : Rnd) (a : List Nat) (rounds : Bool) (s : State) : Res :=
  vChecked op f s fun s =>
    .next (s.landLanes lat dst f.vd span (a.zipIdx.map fun p => cvtElem src dst r p.1 p.2)
      (laneActive (s.th.rQ f.qp) dst a.length) rounds r.mode)

/-- vcvt (14 R409). -/
def execVcvt (f : VOp) (s : State) : Res :=
  let sp := vSpans 0x17 f
  vConvert 0x17 f f.fmt f.vc sp.1 3 (vRound f s) (s.lanes f.fmt f.va sp.2.1) (!(fmtI f.fmt && fmtI f.vc)) s

/-- vpack: two groups into one narrower one (14 R410). -/
def execVpack (f : VOp) (s : State) : Res :=
  vConvert 0x18 f f.fmt f.vc (VOp.grp f) 3 (vRound f s) (s.lanes f.fmt f.va (VOp.grp f) ++ s.lanes f.fmt f.vb (VOp.grp f)) (fmtF f.fmt) s

/-- vunpack: one group into a wider one (14 R410). -/
def execVunpack (f : VOp) (s : State) : Res :=
  vConvert 0x19 f f.fmt f.vc (2 * (VOp.grp f)) 3 rne (s.lanes f.fmt f.va (VOp.grp f)) false s

/-- x / (d x 2^k) of a finite value as a wide quotient: sign, mantissa, exponent, and whether a remainder is left. -/
def divNum (x : Num) (d : Nat) (k : Int) : Bool × Nat × Int × Bool :=
  match x with
  | .fin n m e => (n, m * 2 ^ 200 / d, e - 200 - k, m * 2 ^ 200 % d != 0)
  | .inf n => (n, 0, 0, false)
  | .nan _ => (false, 0, 0, false)

/-- CVT(x / L, exact, e8m0, RUP) of x at or above 0 (14 R411, 10 R285). -/
def upE8M0 (x : Num) (l : Nat) : Nat × BitVec 7 :=
  let (_, m, e, more) := divNum x l 0
  if m == 0 then (0, 0)
  else
    let t := topBit m
    let c := e + t + 127 + (if more || m != 2 ^ t.toNat then 1 else 0)
    if c < 0 then (0, flSA) else if 254 < c then (0xFE, flSA) else (c.toNat, 0)

/-- CVT(B / (6 x 2^(g - 127)), exact, ue3m5, RUP) of B at or above 0 (14 R411). -/
def upUE3M5 (b : Num) (g : Nat) : Nat × BitVec 7 :=
  let (_, m, e, more) := divNum b 6 ((g : Int) - 127)
  let (c, fl) := ue3m5.roundMag { mode := 3 } false m e more 0
  (c, fl &&& flSA)

/-- SAT to a float format: an infinity becomes the largest finite value and sets SA (14 R411 R412). -/
def satFloat (f : Nat) (e : Elem) : Elem :=
  let p := ffmt f
  match p.decode e.1 with
  | .inf n => (p.signCode n + p.maxCode, e.2 ||| flSA)
  | _ => e

/-- ROUND and SAT of an exact quotient into a float format. -/
def satRound (f : Nat) (r : Rnd) (n : Bool) (m : Nat) (e : Int) (more : Bool) (i : Nat) : Elem :=
  satFloat f ((ffmt f).roundMag r n m e more i)

/-- The greatest magnitude of a list of finite values. -/
def maxAbs (l : List Num) : Num :=
  l.foldl (fun a x => let y : Num := match x with | .fin _ m e => .fin false m e | z => z; if Num.lt a y then y else a) (.fin false 0 0)

/-- No element is a NaN or infinite. -/
def allFinite (l : List Num) : Bool := l.all fun x => match x with | .fin _ _ _ => true | _ => false

/-- SX4 of one group of 256 elements, the first of index `i0`: codes with flags, micro-scales, group exponent (14 R411). -/
def quantGroup (r : Rnd) (i0 : Nat) (xs : List Num) : List Elem × List Nat × Nat × BitVec 7 :=
  if !(allFinite xs) then (List.replicate xs.length (0, 0), List.replicate 32 0, 0xFF, flNV)
  else
    let (g, f1) := upE8M0 (maxAbs xs) 6
    let blocks := pieces 8 32 xs
    let one (k : Nat) (b : List Num) : List Elem × Nat × BitVec 7 :=
      let (ms, f2) := upUE3M5 (maxAbs b) g
      let (dm, de) : Nat × Int := match valUE3M5 ms with | .fin _ m e => (m, e) | _ => (1, 0)
      let codes := b.zipIdx.map fun p =>
        if ms == 0 then ((ffmt 5).signCode p.1.sign, 0)
        else
          let (n, m, e, more) := divNum p.1 dm (de + (g : Int) - 127)
          if m == 0 && !more then ((ffmt 5).signCode n, 0) else satRound 5 r n m e more (i0 + 8 * k + p.2)
      (codes, ms, f2)
    let out := blocks.zipIdx.map fun p => one p.2 p.1
    (out.flatMap (·.1), out.map fun o => o.2.1, g, f1 ||| orFlags (out.map fun o => o.2.2))

/-- One block of 32 elements of MXFP4 or MXFP8: codes, scale, flags (14 R412). -/
def quantBlock (fmt : Nat) (r : Rnd) (i0 : Nat) (xs : List Num) : List Elem × Nat × BitVec 7 :=
  if !(allFinite xs) then (List.replicate xs.length (0, 0), 0xFF, flNV)
  else
    let (c, f1) := upE8M0 (maxAbs xs) (if fmt == 7 then 6 else 448)
    let codes := xs.zipIdx.map fun p =>
      match p.1 with
      | .fin n m e => satRound fmt r n m (e - ((c : Int) - 127)) false (i0 + p.2)
      | _ => (0, 0)
    (codes, c, f1)

/-- One destination register quantised from its elements, the first of index `i0`: codes, scale image, flags (14 R411 R412). -/
def quantReg (fmt : Nat) (r : Rnd) (i0 : Nat) (xs : List Num) : List Elem × BitVec 528 × BitVec 7 :=
  if fmt == 6 then
    let a := quantGroup r i0 (xs.take 256)
    let b := quantGroup r (i0 + 256) (xs.drop 256)
    (a.1 ++ b.1, BitVec.ofNat 528 (leNat ((a.2.1 ++ b.2.1 ++ [a.2.2.1, b.2.2.1]).map (BitVec.ofNat 8 ·))), a.2.2.2 ||| b.2.2.2)
  else
    let bs := (pieces 32 (perReg fmt / 32) xs).zipIdx.map fun p => quantBlock fmt r (i0 + 32 * p.2) p.1
    (bs.flatMap (·.1), BitVec.ofNat 528 (leNat (bs.map fun b => BitVec.ofNat 8 b.2.1)), orFlags (bs.map (·.2.2)))

/-- vquant (14 R411 R412). DEDUCED [log 28]. -/
def execVquant (f : VOp) (s : State) : Res :=
  vChecked 0x1A f s fun s =>
    let sp := vSpans 0x1A f
    let r := vRound f s
    let xs := (s.lanes f.vb f.va sp.2.1).map (decodeElem f.vb)
    if fmtB f.fmt then
      let n := perReg f.fmt
      let regs := (pieces n sp.1 xs).zipIdx.map fun p => quantReg f.fmt r (n * p.2) p.1
      let fl := orFlags (regs.map (·.2.2))
      let s := regs.zipIdx.foldl (fun (s : State) p => s.landZ (6 + p.2) (f.vc + p.2) p.1.2.1) s
      let s := s.landLanes 6 f.fmt f.vd sp.1 (regs.flatMap (·.1)) (allLanes xs.length) true r.mode
      .next (s.modTh fun th => th.land (6 + sp.1 - 1) none 0 0 fl)
    else
      let out := xs.zipIdx.map fun p => satFloat f.fmt ((ffmt f.fmt).round r p.1 p.2)
      .next (s.landLanes 6 f.fmt f.vd sp.1 out (allLanes xs.length) true r.mode)

/-- vdequant (14 R413). -/
def execVdequant (f : VOp) (s : State) : Res :=
  vChecked 0x1B f s fun s =>
    let sp := vSpans 0x1B f
    let r := vRound f s
    let n := perReg f.fmt
    let a := s.lanes f.fmt f.va sp.2.1
    let out := a.zipIdx.map fun p =>
      (ffmt f.vb).round r (scaledElem f.fmt p.1 (s.th.rZ (f.vc + p.2 / n)) (p.2 % n)) p.2
    .next (s.landLanes 6 f.vb f.vd sp.1 out (laneActive (s.th.rQ f.qp) f.vb a.length) true r.mode)

/-! Special functions (14 R414). -/

/-- vexp2 (10 R292). -/
def execVexp2 (f : VOp) (s : State) : Res := vUnary 0x1C f 8 true (fun r i a => exp2 f.fmt r ((ffmt f.fmt).decode a) i) s
/-- vlog2 (10 R294). -/
def execVlog2 (f : VOp) (s : State) : Res := vUnary 0x1D f 8 true (fun r i a => log2F f.fmt r ((ffmt f.fmt).decode a) i) s
/-- vrcp (10 R295). -/
def execVrcp (f : VOp) (s : State) : Res := vUnary 0x1E f 12 true (fun r i a => rcp f.fmt r ((ffmt f.fmt).decode a) i) s
/-- vrsq (10 R295). -/
def execVrsq (f : VOp) (s : State) : Res := vUnary 0x1F f 12 true (fun r i a => rsqF f.fmt r ((ffmt f.fmt).decode a) i) s
/-- vsqrt (10 R295). -/
def execVsqrt (f : VOp) (s : State) : Res := vUnary 0x20 f 12 true (fun r i a => sqrtF f.fmt r ((ffmt f.fmt).decode a) i) s

/-- An FP32 value in the low half of a scalar register. -/
def lowFP32 (w : Word) : Num := (ffmt 0).decode (w.toNat % 2 ^ 32)

/-- vexpd: 2^((a - m) k) with m and k from scalar registers (14 R414, 10 R293). -/
def execVexpd (f : VOp) (s : State) : Res :=
  vUnary 0x21 f 10 true (fun r i a => expd f.fmt r ((ffmt f.fmt).decode a) (lowFP32 (s.rS f.vb)) (lowFP32 (s.rS f.vc)) i) s

/-! Reductions and scans (14 R415 R416, 10 R289 R290). -/

/-- A value in a reduction tree: a float as an FP32 value, or an integer; with the flags raised so far. -/
abbrev RVal := Num × Int × BitVec 7

/-- An element as a leaf: a float exactly in FP32 (10 R289). -/
def leafOf (fmt a : Nat) : RVal :=
  if fmtI fmt then (.fin false 0 0, intVal fmt a, 0)
  else
    let x := (ffmt fmt).decode a
    let (c, fl) := cvtElem fmt 0 rne a 0
    if fmt == 0 then (x, 0, flagIf x.isSnan flNV) else ((ffmt 0).decode c, 0, fl)

/-- What a reduction combines: 0 sum, 1 max, 2 min (10 R289 R291). -/
def combine (fmt kind : Nat) (a b : RVal) : RVal :=
  if fmtI fmt then
    let x := if kind == 0 then (a.2.1 + b.2.1) % (2 ^ 32 : Nat) else if kind == 1 then max a.2.1 b.2.1 else min a.2.1 b.2.1
    (.fin false 0 0, x, 0)
  else if kind == 0 then
    let (x, f1) := Num.add false a.1 b.1
    let (c, f2) := (ffmt 0).round rne x 0
    ((ffmt 0).decode c, 0, a.2.2 ||| b.2.2 ||| f1 ||| f2)
  else
    let (x, f1) := Num.pickMax (kind == 1) a.1 b.1
    (x, 0, a.2.2 ||| b.2.2 ||| f1)

/-- The leaves of the active lanes. -/
def leavesOf (fmt : Nat) (a : List Nat) (act : List Bool) : List (Option RVal) :=
  List.zipWith (fun x k => if k then some (leafOf fmt x) else none) a act

/-- The value of a reduction of no element (10 R289). -/
def emptyRoot (fmt kind : Nat) : RVal :=
  if kind == 0 then (.fin false 0 0, 0, 0)
  else (.inf (kind == 1), if kind == 1 then (intRange fmt).1 else (intRange fmt).2, 0)

/-- vsum, vmaxr, vminr. DEDUCED [log 28]. -/
def vReduce (op kind : Nat) (f : VOp) (s : State) : Res :=
  vChecked op f s fun s =>
    let r := vRound f s
    let a := s.lanes f.fmt f.va (VOp.grp f)
    let leaves := leavesOf f.fmt a (laneActive (s.th.rQ f.qp) f.fmt a.length)
    let root := (treeRoot 20 1 (fun _ _ => combine f.fmt kind) leaves).getD (emptyRoot f.fmt kind)
    let (c, fl) : Elem :=
      if fmtI f.fmt then ((root.2.1 % (2 ^ 32 : Nat)).toNat, 0)
      else if f.fmt ≤ 2 then (ffmt f.fmt).round r root.1 0
      else (ffmt 0).round rne root.1 0
    .next (s.modTh fun th =>
      let th := th.landVg (6 + 2 * f.g) (vgroup th.rot f.vd 1) [BitVec.ofNat 2048 c] [ones 2048] (fl ||| root.2.2)
      if f.fmt ≤ 2 && r.mode == 4 then { th with posTaken := th.posTaken + 1 } else th)

/-- vsum (14 R415). -/
def execVsum (f : VOp) (s : State) : Res := vReduce 0x22 0 f s
/-- vmaxr (14 R415). -/
def execVmaxr (f : VOp) (s : State) : Res := vReduce 0x23 1 f s
/-- vminr (14 R415). -/
def execVminr (f : VOp) (s : State) : Res := vReduce 0x24 2 f s

/-- The levels of the fixed tree, leaves first, `n` of them (10 R289). -/
def treeLevels {α : Type} (n : Nat) (g : α → α → α) (l : List (Option α)) : List (List (Option α)) :=
  match n with
  | 0 => []
  | n + 1 => l :: treeLevels n g (treeLevel (fun _ => g) 0 l)

/-- The inclusive scan at element i: the blocks of the binary digits of i + 1, largest first (10 R290). -/
def scanAt {α : Type} (g : α → α → α) (levels : List (List (Option α))) (i : Nat) : Option α :=
  ((List.range levels.length).reverse.foldl (fun (acc : Option α × Nat) b =>
    if bitOf (i + 1) b then
      let node := ((levels.getD b []).getD (acc.2 / 2 ^ b) none)
      ((match acc.1, node with
        | some x, some y => some (g x y)
        | some x, none => some x
        | none, y => y), acc.2 + 2 ^ b)
    else acc) (none, 0)).1

/-- vscan: the inclusive prefix sum in every lane (14 R416). -/
def execVscan (f : VOp) (s : State) : Res :=
  vChecked 0x25 f s fun s =>
    let r := vRound f s
    let a := s.lanes f.fmt f.va (VOp.grp f)
    let leaves := leavesOf f.fmt a (laneActive (s.th.rQ f.qp) f.fmt a.length)
    let levels := treeLevels 12 (combine f.fmt 0) leaves
    let out := (List.range a.length).map fun i =>
      let v := (scanAt (combine f.fmt 0) levels i).getD (emptyRoot f.fmt 0)
      if fmtI f.fmt then (intCode f.fmt v.2.1, 0)
      else
        let (c, fl) := (ffmt f.fmt).round r v.1 i
        (c, fl ||| v.2.2)
    .next (s.landLanes (10 + 2 * f.g) f.fmt f.vd (VOp.grp f) out (allLanes a.length) (f.fmt ≤ 2) r.mode)

/-! Draws (14 R417 to R422). -/

/-- The fields of a draw-control register (14 R417). -/
structure DrawCtl where
  w0 : Nat
  w1 : Nat
  pos : Nat
  lvl : Nat
  purp : Nat
  w3 : Nat
  k : Num
  m : Num
  ibase : Nat
deriving DecidableEq, Repr

/-- Read a draw-control register. -/
def drawCtl (v : VWord) : DrawCtl :=
  let x := v.toNat
  { w0 := fld x 0 32, w1 := fld x 32 32, pos := fld x 64 16, lvl := fld x 80 8, purp := fld x 88 8, w3 := fld x 96 32
    k := (ffmt 0).decode (fld x 128 32), m := (ffmt 0).decode (fld x 160 32), ibase := fld x 192 32 }

/-- A draw form: its draw control is read and its level checked (14 R399 R417). -/
def vDraw (op : Nat) (f : VOp) (s : State) (k : DrawCtl → State → Res) : Res :=
  vChecked op f s fun s =>
    let c := drawCtl ((s.th.rVg f.vc 1).headD 0)
    if 0x2F < c.lvl then illop (.v op f) s else k c s

/-- A drawn pair into bits [63:0] of vd, the rest zero, IBASE added to an index that is not NIL's (14 R418 R420). -/
def State.landPair (s : State) (n vd ibase : Nat) (p : Pair) (bad : Bool) : State :=
  let p : Pair := if p == nilPair then p else ((p.1 + ibase) % 2 ^ 32, p.2)
  s.modTh fun th => th.landVg n (vgroup th.rot vd 1) [BitVec.ofNat 2048 (pairBits p)] [ones 2048] (flagIf bad flDS)

/-- The lane tree over weights, with purpose 0 coins (10 R301). -/
def laneDraw (key : BitVec 128) (c : DrawCtl) (w : List Nat) (act : List Bool) : Pair × Bool :=
  drawTree (fun j k => coin key c.w0 c.w1 (counter2 c.pos 0 c.lvl) (j * 2 ^ 16 + k))
    ((w.zip act).zipIdx.map fun p => if p.1.2 then some (p.2, p.1.1) else none)

/-- vdraw: from FP32 weights (14 R418). -/
def execVdraw (f : VOp) (s : State) : Res :=
  vDraw 0x26 f s fun c s =>
    let a := s.lanes 0 f.va (VOp.grp f)
    let (p, bad) := laneDraw s.launch.drawKey c a (laneActive (s.th.rQ f.qp) 0 a.length)
    .next (s.landPair (12 + 2 * f.g) f.vd c.ibase p bad)

/-- vdrawl: from logits; an active lane whose weight is NaN makes the draw NIL and sets DS (14 R418, 10 R302). -/
def execVdrawl (f : VOp) (s : State) : Res :=
  vDraw 0x27 f s fun c s =>
    let a := s.lanes f.fmt f.va (VOp.grp f)
    let w := a.map fun x => (expd 0 rne ((ffmt f.fmt).decode x) c.m c.k 0).1
    let act := laneActive (s.th.rQ f.qp) f.fmt a.length
    let nan := (w.zip act).any fun x => x.2 && ((ffmt 0).decode x.1).isNan
    let (p, bad) := if nan then (nilPair, true) else laneDraw s.launch.drawKey c w act
    .next (s.landPair (20 + 2 * f.g) f.vd c.ibase p bad)

/-- The pairs of a group, as 64-bit numbers (10 R299). -/
def pairsOf (vs : List VWord) : List Nat := vs.flatMap fun v => (List.range 32).map fun i => (v.extractLsb' (64 * i) 64).toNat

/-- 64-bit numbers as the halves, low first, that fmt 0 lanes hold. -/
def halves (l : List Nat) : List Nat := l.flatMap fun x => [x % 2 ^ 32, x / 2 ^ 32]

/-- vdmerge: pairs merged lane-wise, each with its own coin (14 R419). -/
def execVdmerge (f : VOp) (s : State) : Res :=
  vDraw 0x28 f s fun c s =>
    let l := pairsOf (s.th.rVg f.va (VOp.grp f))
    let r := pairsOf (s.th.rVg f.vb (VOp.grp f))
    let act := (List.range l.length).map fun p => (s.th.rQ f.qp).getLsbD (8 * (p % 32))
    let out := (l.zip r).zipIdx.map fun x =>
      mergePair (bitsPair x.1.1) (bitsPair x.1.2) (coin s.launch.drawKey c.w0 c.w1 (counter2 c.pos 2 c.lvl) ((c.w3 + x.2) % 2 ^ 32))
    let lanes := (halves (out.map fun o => pairBits o.1)).zip (out.flatMap fun o => [flagIf o.2 flDS, 0])
    .next (s.landLanes 6 0 f.vd (VOp.grp f) lanes (act.flatMap fun a => [a, a]) false 0)

/-- The descent of a prefix-sum table, `n` probes left (10 R304). -/
def descend (u : Nat) (total : Num) (table : List Nat) (n idx : Nat) (bad : Bool) : Nat × Bool :=
  match n with
  | 0 => (idx, bad)
  | n + 1 =>
    let p := (ffmt 0).decode (table.getD (idx + 2 ^ n - 1) 0)
    if p.isNan then descend u total table n idx true
    else descend u total table n (if coinLess u total p then idx else idx + 2 ^ n) bad

/-- vdescend (14 R420, 10 R304). -/
def execVdescend (f : VOp) (s : State) : Res :=
  vDraw 0x29 f s fun c s =>
    let t := s.lanes 0 f.va (VOp.grp f)
    let last := t.getD (t.length - 1) 0
    let total := (ffmt 0).decode last
    let (p, bad) : Pair × Bool :=
      if total.isNan || total == .inf false || (total.sign && !total.isZero) then (nilPair, true)
      else if total.isZero then (nilPair, false)
      else
        let u := coin s.launch.drawKey c.w0 c.w1 (counter2 c.pos 4 c.lvl) c.w3
        let (i, bad) := descend u total t (6 + f.g) 0 false
        ((i, last), bad)
    .next (s.landPair 16 f.vd c.ibase p bad)

/-- Value `x` comes before `y` in descending order, -0 below +0. -/
def ranksBefore (x y : Num) : Bool :=
  match Num.cmp x y with
  | some .gt => true
  | some .eq => y.sign && !x.sign
  | _ => false

/-- Insert behind every value that is not less. -/
def rankInsert (e : Nat × Num) (l : List (Nat × Num)) : List (Nat × Num) :=
  match l with
  | [] => [e]
  | a :: r => if ranksBefore e.2 a.2 then e :: a :: r else a :: rankInsert e r

/-- vtop: the largest elements as pairs (14 R421). DEDUCED [log 28]. -/
def execVtop (f : VOp) (s : State) : Res :=
  vChecked 0x2A f s fun s =>
    let a := s.lanes f.fmt f.va (VOp.grp f)
    let act := laneActive (s.th.rQ f.qp) f.fmt a.length
    let xs := (a.zip act).zipIdx.filterMap fun p => if p.1.2 then some (p.2, (ffmt f.fmt).decode p.1.1) else none
    let sorted := (xs.filter fun x => !x.2.isNan).foldl (fun l x => rankInsert x l) []
    let c := min (s.rS f.vb).toNat (32 * (VOp.grp f))
    let pairs := (sorted.take c).map fun x => pairBits (x.1, rneFP32 x.2)
    let all := pairs ++ List.replicate (32 * (VOp.grp f) - pairs.length) (pairBits nilPair)
    let fl := flagIf (xs.any fun x => x.2.isSnan) flNV
    let out := (halves all).map fun h => (h, fl)
    .next (s.landLanes (12 + 2 * f.g) 0 f.vd (VOp.grp f) out (allLanes out.length) false 0)

/-- A random lane: 32 bits of DRAW under the named purpose (14 R422). -/
def randLane (key : BitVec 128) (c : DrawCtl) (i : Nat) : Nat :=
  (drawBits key (counter c.w0 c.w1 (counter2 c.pos c.purp c.lvl) ((c.w3 + i) % 2 ^ 32))).toNat % 2 ^ 32

/-- vrand (14 R422). -/
def execVrand (f : VOp) (s : State) : Res :=
  vDraw 0x2B f s fun c s =>
    let n := perReg f.fmt * (VOp.grp f)
    .next (s.landLanes 6 f.fmt f.vd (VOp.grp f) ((List.range n).map fun i => (randLane s.launch.drawKey c i, 0))
      (laneActive (s.th.rQ f.qp) f.fmt n) false 0)

/-- vrandf: a float in [0, 1) (14 R422). -/
def execVrandf (f : VOp) (s : State) : Res :=
  vDraw 0x2C f s fun c s =>
    let n := perReg f.fmt * (VOp.grp f)
    let one (i : Nat) : Elem := (ffmt f.fmt).round { mode := 1 } (.fin false (randLane s.launch.drawKey c i % 2 ^ 24) (-24)) i
    .next (s.landLanes 6 f.fmt f.vd (VOp.grp f) ((List.range n).map one) (laneActive (s.th.rQ f.qp) f.fmt n) false 0)

/-! Movement (14 R423 to R428). -/

/-- Lanes moved without change: `g i` gives lane i. -/
def vMove (op : Nat) (f : VOp) (lat span : Nat) (qp : BitVec 256) (g : Nat → Nat) (s : State) : Res :=
  vChecked op f s fun s =>
    let n := perReg f.fmt * span
    .next (s.landLanes lat f.fmt f.vd span ((List.range n).map fun i => (g i, 0)) (laneActive qp f.fmt n) false 0)

/-- vperm (14 R423). -/
def execVperm (f : VOp) (s : State) : Res :=
  let a := s.lanes f.fmt f.va (VOp.grp f)
  let b := s.lanes f.fmt f.vb (VOp.grp f)
  vMove 0x2D f 3 (VOp.grp f) (s.th.rQ f.qp) (fun i => a.getD (b.getD i 0 % a.length) 0) s

/-- vshuf (14 R423). -/
def execVshuf (f : VOp) (s : State) : Res :=
  let ab := s.lanes f.fmt f.va (VOp.grp f) ++ s.lanes f.fmt f.vb (VOp.grp f)
  let c := s.lanes f.fmt f.vc (VOp.grp f)
  vMove 0x2E f 3 (VOp.grp f) (s.th.rQ f.qp) (fun i => ab.getD (c.getD i 0 % ab.length) 0) s

/-- Rotation by `r` (14 R424). -/
def vRotate (op : Nat) (f : VOp) (r : Nat) (s : State) : Res :=
  let a := s.lanes f.fmt f.va (VOp.grp f)
  vMove op f 2 (VOp.grp f) (s.th.rQ f.qp) (fun i => a.getD ((i + r) % a.length) 0) s

/-- vrot (14 R424). -/
def execVrot (f : VOp) (s : State) : Res := vRotate 0x2F f (s.rS f.vb).toNat s
/-- vrot by the immediate (14 R424). -/
def execVrotImm (f : VOp) (s : State) : Res := vRotate 0xAF f s.th.xi.toNat s

/-- vslide (14 R424). -/
def execVslide (f : VOp) (s : State) : Res :=
  let ab := s.lanes f.fmt f.va (VOp.grp f) ++ s.lanes f.fmt f.vb (VOp.grp f)
  vMove 0x30 f 2 (VOp.grp f) (s.th.rQ f.qp) (fun i => ab.getD ((i + (s.rS f.vc).toNat) % ab.length) 0) s

/-- vbcast (14 R425). -/
def execVbcast (f : VOp) (s : State) : Res :=
  vMove 0x31 f 2 (VOp.grp f) (s.th.rQ f.qp) (fun _ => (s.rS f.va).toNat % 2 ^ fmtBits f.fmt) s

/-- vbcast of the immediate (14 R425, 12 R345). -/
def execVbcastImm (f : VOp) (s : State) : Res :=
  vChecked 0xB1 f s fun s =>
    if vImmBad f.fmt s.th.xi then illop (.v 0xB1 f) s
    else vMove 0xB1 f 2 (VOp.grp f) (s.th.rQ f.qp) (fun _ => vImm f.fmt false s.th.xi) s

/-- vins: one lane of vd from a scalar (14 R426). -/
def execVins (f : VOp) (s : State) : Res :=
  vChecked 0x32 f s fun s =>
    let n := perReg f.fmt
    let l := (s.rS f.vb).toNat % n
    let act := (laneActive (s.th.rQ f.qp) f.fmt n).zipIdx.map fun p => p.1 && p.2 == l
    .next (s.landLanes 2 f.fmt f.vd 1 (List.replicate n ((s.rS f.va).toNat % 2 ^ fmtBits f.fmt, 0)) act false 0)

/-- vext: one lane into a scalar (14 R426). -/
def execVext (f : VOp) (s : State) : Res :=
  vChecked 0x33 f s fun s =>
    let x := (s.lanes f.fmt f.va 1).getD ((s.rS f.vb).toNat % perReg f.fmt) 0
    .next (s.landS 2 f.vd (if fmtI f.fmt then word (intVal f.fmt x) else BitVec.ofNat 64 x))

/-- vmov (14 R425). -/
def execVmov (f : VOp) (s : State) : Res :=
  let a := s.lanes f.fmt f.va (VOp.grp f)
  vMove 0x34 f 1 (VOp.grp f) (s.th.rQ f.qp) (fun i => a.getD i 0) s

/-- viota (14 R425). -/
def execViota (f : VOp) (s : State) : Res := vMove 0x35 f 2 (VOp.grp f) (s.th.rQ f.qp) (fun i => i % 2 ^ fmtBits f.fmt) s

/-- vcompress: active lanes to the bottom, zero above (14 R427). -/
def execVcompress (f : VOp) (s : State) : Res :=
  let a := s.lanes f.fmt f.va (VOp.grp f)
  let kept := ((a.zip (laneActive (s.th.rQ f.vc) f.fmt a.length)).filter (·.2)).map (·.1)
  vMove 0x36 f 3 (VOp.grp f) (ones 256) (fun i => kept.getD i 0) s

/-- Low lanes spread into active ones, zero elsewhere (14 R427). -/
def spread (a : List Nat) (act : List Bool) : List Nat :=
  match act, a with
  | [], _ => []
  | true :: r, x :: xs => x :: spread xs r
  | true :: r, [] => 0 :: spread [] r
  | false :: r, xs => 0 :: spread xs r

/-- vexpand (14 R427). -/
def execVexpand (f : VOp) (s : State) : Res :=
  let a := s.lanes f.fmt f.va (VOp.grp f)
  let out := spread a (laneActive (s.th.rQ f.vc) f.fmt a.length)
  vMove 0x37 f 3 (VOp.grp f) (ones 256) (fun i => out.getD i 0) s

/-- vzip (14 R428). -/
def execVzip (f : VOp) (s : State) : Res :=
  let a := s.lanes f.fmt f.va (VOp.grp f)
  let b := s.lanes f.fmt f.vb (VOp.grp f)
  vMove 0x38 f 2 (2 * (VOp.grp f)) (ones 256) (fun i => (if i % 2 == 0 then a else b).getD (i / 2) 0) s

/-- vunzip (14 R428). -/
def execVunzip (f : VOp) (s : State) : Res :=
  let ab := s.lanes f.fmt f.va (VOp.grp f) ++ s.lanes f.fmt f.vb (VOp.grp f)
  let n := perReg f.fmt * (VOp.grp f)
  vMove 0x39 f 2 (2 * (VOp.grp f)) (ones 256) (fun i => if i < n then ab.getD (2 * i) 0 else ab.getD (2 * (i - n) + 1) 0) s

/-! Predicates (14 R429 R430). -/

/-- A predicate form on whole registers. -/
def qForm (op : Nat) (f : VOp) (g : BitVec 256 → BitVec 256 → BitVec 256) (s : State) : Res :=
  vChecked op f s fun s => .next (s.landQ 1 f.vd (g (s.th.rQ f.va) (s.th.rQ f.vb)) 0)

/-- qand (14 R429). -/
def execQand (f : VOp) (s : State) : Res := qForm 0x3A f (· &&& ·) s
/-- qor (14 R429). -/
def execQor (f : VOp) (s : State) : Res := qForm 0x3B f (· ||| ·) s
/-- qxor (14 R429). -/
def execQxor (f : VOp) (s : State) : Res := qForm 0x3C f (· ^^^ ·) s
/-- qnot (14 R429). -/
def execQnot (f : VOp) (s : State) : Res := qForm 0x3D f (fun a _ => ~~~a) s

/-- The predicate whose first `c` lanes are set: for E2M1 bit j when 2j < c (14 R430). -/
def firstLanes (fmt c : Nat) : BitVec 256 :=
  if fmtBits fmt < 8 then BitVec.ofNat 256 (2 ^ min 256 ((c + 1) / 2) - 1)
  else BitVec.ofNat 256 (2 ^ min 256 (c * (fmtBits fmt / 8)) - 1)

/-- qset (14 R430). -/
def execQset (f : VOp) (s : State) : Res :=
  vChecked 0x3E f s fun s => .next (s.landQ 1 f.vd (firstLanes f.fmt (s.rS f.va).toNat) 0)

/-- qset of the immediate (14 R430). -/
def execQsetImm (f : VOp) (s : State) : Res :=
  vChecked 0xBE f s fun s => .next (s.landQ 1 f.vd (firstLanes f.fmt s.th.xi.toNat) 0)

/-- Lanes of one register whose governing bit is 1. -/
def governed (fmt : Nat) (q : BitVec 256) : List Bool := laneActive q fmt (perReg fmt)

/-- qcount (14 R430): a set bit counts two E2M1 lanes. -/
def execQcount (f : VOp) (s : State) : Res :=
  vChecked 0x3F f s fun s => .next (s.landS 2 f.vd (BitVec.ofNat 64 ((governed f.fmt (s.th.rQ f.va)).filter id).length))

/-- qfirst (14 R430). -/
def execQfirst (f : VOp) (s : State) : Res :=
  vChecked 0x40 f s fun s =>
    let l := governed f.fmt (s.th.rQ f.va)
    .next (s.landS 2 f.vd (match firstBelow l.length fun i => l.getD i false with
      | some i => BitVec.ofNat 64 i
      | none => ones 64))

end Sys2Proof.Machine
end

