-- ==== Sys2Proof/Machine/SmivyLib.lean ====
section
/-! DEFINITION. Machine/SmivyLib.lean: what Smivy's events share: endpoints, the work of the fabric engine on the
operations of the cores, and fault notifications (03 R70 to R83, 17 R478 to R481). -/
namespace Sys2Proof.Machine

/-- The fabric operations of a core's launch, also of a context that rests there. -/
def CoreSt.fabricOps (k : CoreSt) : List FabricOp :=
  k.ctx.fabricq ++ (match k.resident with | some (_, x) => x.fabricq | none => [])

/-- Every fabric operation of the package. -/
def State.fabricOps (s : State) : List FabricOp :=
  s.cores.flatMap (fun e => e.2.fabricOps) ++
  s.saves.flatMap (fun e => match e.2.bind (·.ctx) with | some x => x.fabricq | none => [])

/-- A packet for a fabric operation of this package is kept until the operation takes it. -/
def State.keepPk (s : State) (p : Pk) : State := { s with sl := { s.sl with rx := s.sl.rx ++ [p] } }

/-- An answer reaches the package of its operation, or the Skidder's load: nothing waits for one whose operation is gone. -/
def State.deliver (s : State) (p : Pk) : State :=
  if s.fabricOps.any fun o => o.running && o.opid == p.opid then s.keepPk p else s.segmentData p

/-- An answer to a packet: it goes to the sender, or, where the sender is this package, straight to its operation. -/
def State.sendAnswer (s : State) (p : Pk) : State :=
  if p.dpkg == s.sl.pkg then s.deliver p
  else match s.routed p with
    | (some s', _) => s'
    | (none, s') => s'

/-- The answer of a kind to a request (03 R70). -/
def Pk.answer (p : Pk) (kind status part : Nat) : Pk :=
  { kind := kind, part := part, status := status, dpkg := p.spkg, spkg := p.dpkg, dmcx := p.smcx, smcx := p.dmcx, opid := p.opid }

/-- A dropped request: its operation completes with `status`; anything else dropped is only dropped (03 R71 R72). -/
def State.failPk (s : State) (p : Pk) (status : Nat) : State :=
  if p.isRequest then s.sendAnswer (p.answer 4 status p.part) else s

/-- A packet of this package or on its way through leaves by its route. -/
def State.forward (s : State) (p : Pk) : State :=
  match s.routed p with
  | (some s', _) => s'
  | (none, s') => s'.failPk p 6

/-! Endpoints (03 R76). -/

/-- Entry `i` of micro-context `m`'s endpoint table: V, package, micro-context and pairing tag. An entry with a non-zero reserved field is
rejected: it counts as not valid (03 R76, 00 R8). -/
def State.endpoint (s : State) (m i : Nat) : Bool × Nat × Nat × Nat :=
  let a := (s.mcb m).epTab + 16 * i
  let w := s.physLe a 2
  let x := s.physLe (a + 2) 2
  let ok := fld w 11 4 == 0 && fld x 13 3 == 0 && s.physLe (a + 8) 8 == 0
  ((s.mcb m).epTab != 0 && bitOf w 15 && ok, fld w 0 11, fld x 0 13, s.physLe (a + 4) 4)

/-- A micro-context has a valid endpoint entry that `f` holds of. -/
def State.anyEndpoint (s : State) (m : Nat) (f : Nat → Nat → Nat → Bool) : Bool :=
  (s.mcb m).epTab != 0 && (List.range 256).any fun i =>
    let e := s.endpoint m i
    e.1 && f e.2.1 e.2.2.1 e.2.2.2

/-- A packet's source is an endpoint of its target, a micro-context that has not ended; `tagged` compares pairing tags. DEDUCED [log 77]. -/
def State.accepts (s : State) (p : Pk) (tagged : Bool) : Bool :=
  let b := s.mcb p.dmcx
  (b.st == 1 || b.st == 2) &&
    s.anyEndpoint p.dmcx fun pkg mcx tag => pkg == p.spkg && mcx == p.smcx && (!tagged || tag == p.arg 28 4)

/-! Arrivals at a target (03 R76 R77 R81). -/

/-- The pieces of bytes of the target's fabric window; none outside it or where it does not translate to memory. -/
def State.windowPieces (s : State) (m off n : Nat) (write : Bool) : Option (List Piece) :=
  let b := s.mcb m
  if b.fwLen < off + n then none
  else match cutAccess s (s.mcxWho m) write (b.fwBase + off) n with
    | .error _ => none
    | .ok ps => if ps.all fun p => p.pa.isSome then some ps else none

/-- Lines of a packet that has arrived set out for their home slices, as accesses of the fabric path (09 R263). -/
def State.sendArriving (s : State) (p : Pk) (op : Option Nat) (ps : List Piece) (bs : List Byte) : State :=
  s.send { core := 700, launch := 2 ^ 20, path := 5, kind := .arriving p op, data := bs, mask := List.replicate bs.length true
           parts := ps.map fun q => { addr := q.x.dest.addr, len := q.len, off := q.off, va := q.va, ok := q.x.ok, cn := q.x.cn, tag := q.x.tag } }

/-- A WRITE at its target: its lines set out, and its answer follows them; or it is answered at once (03 R76, 09 R263). DEDUCED [log 77]. -/
def State.targetWrite (s : State) (p : Pk) : State :=
  let n := min (p.arg 24 4) p.data.length
  let answer (st : Nat) : State := s.sendAnswer (p.answer 4 st (s.mcb p.dmcx).part)
  if !(s.accepts p true) then answer 1
  else match s.windowPieces p.dmcx (p.arg 16 8) n true with
    | none => answer 2
    | some ps => if n == 0 then answer 0 else s.sendArriving p none ps (p.data.take n)

/-- The READRESP packets for `bs` at window offset `off`, 2,048 bytes each. -/
def readAnswers (p : Pk) (part off : Nat) (bs : List Byte) : List Pk :=
  (List.range ((bs.length + 2047) / 2048)).map fun i =>
    let d := slice bs (2048 * i) 2048
    { (((p.answer 3 0 part).setArg 16 8 (off + 2048 * i)).setArg 24 4 d.length) with data := d }

/-- A piece that the export rule keeps in the package: a plaintext line of a private page (05 R135). -/
def State.keptIn (s : State) (q : Piece) : Bool :=
  match q.pa with
  | some a => q.x.tag != 0x3FFF && !(s.line a).cipher
  | none => false

/-- A READ at its target: the state and the answers; it waits where a segment it reads is not yet present (03 R76, 08 R239). -/
def State.targetRead (s : State) (p : Pk) : State × List Pk :=
  let part := (s.mcb p.dmcx).part
  let bad (st : Nat) : State × List Pk := (s, [p.answer 3 st part])
  if !(s.accepts p true) then bad 1
  else match s.windowPieces p.dmcx (p.arg 16 8) (p.arg 24 4) false with
    | none => bad 2
    | some ps =>
      match rowSegments s ps with
      | .error (.wait s') => (s'.keepPk p, [])
      | .error _ => bad 2
      | .ok () =>
        if ps.any s.keptIn then bad 8
        else match readLines ps [] s with
          | .error _ => bad 2
          | .ok s' => (s', readAnswers p part (p.arg 16 8) (s.pieceBytes 0 (fun _ => []) ps))

/-- Key of the receives that a peer has posted for a micro-context. -/
def creditKey (m pkg peer : Nat) : Nat := 2 ^ 24 * m + 2 ^ 13 * pkg + peer

/-- `d` names micro-context `mcx` of package `pkg`, or its whole package. -/
def Dead.covers (d : Dead) (pkg mcx : Nat) : Bool := d.pkg == pkg && (d.mcx.isNone || d.mcx == some mcx)

/-- Micro-context `mcx` of package `pkg` was reported dead. -/
def State.isDead (s : State) (pkg mcx : Nat) : Bool := s.sl.dead.any fun d => d.covers pkg mcx

/-- A source that sends once more, 12 ms or longer after it was reported dead, when nothing that it had sent before is under way any longer
(03 R84), is alive again; what it abandoned before is over. DESIGN CHOICE [log 102]. -/
def State.alive (s : State) (pkg mcx : Nat) : State :=
  let back (d : Dead) : Bool := d.covers pkg mcx && decide (d.at_ + 12000000 ≤ s.time.toNat)
  if s.sl.dead.any back then
    { s with sl := { s.sl with
      dead := s.sl.dead.filter fun d => !(back d)
      rx := s.sl.rx.filter fun q => !(q.kind == 8 && q.spkg == pkg && q.smcx == mcx) } }
  else s

/-- A packet for this package, but TIMESYNC and FAULT, takes effect. -/
def State.arrive (s : State) (p : Pk) : State :=
  let s := if p.kind == 8 then s else s.alive p.spkg p.smcx
  let part := (s.mcb p.dmcx).part
  match p.kind with
  | 1 => s.targetWrite p
  | 2 => let r := s.targetRead p; r.2.foldl (fun s q => s.sendAnswer q) r.1
  | 3 => s.deliver p
  | 4 => s.deliver p
  | 5 => if s.accepts p true then s.keepPk p else s.sendAnswer (p.answer 4 1 part)
  | 6 =>
    if s.accepts p false then
      { s with sl := { s.sl with credits := SMap.upd s.sl.credits (creditKey p.dmcx p.spkg p.smcx) 0 fun c => c + p.arg 16 4 } }
    else s
  | 7 => if s.accepts p true then s.keepPk p else s.sendAnswer (p.answer 4 1 part)
  | 8 => if s.accepts p false then s.keepPk p else s
  | _ => s

/-- A packet of a fabric operation of this package sets out; one for this package itself arrives at once. -/
def State.launchPk (s : State) (p : Pk) : State := if p.dpkg == s.sl.pkg then s.arrive p else s.forward p

/-! The fabric engine's own accesses, on path `fb` (17 R478). The scratchpad window is none of its (08 R209 R225). -/

/-- What a local access of a fabric operation gives: it waits, it ends the operation with a status, or it is done. -/
inductive Local (α : Type) where
  | wait (s : State)
  | ends (status : Nat)
  | done (x : α) (s : State)

/-- Bytes read by the fabric engine for core `c`, under the export rule where they leave the package. -/
def State.fabricRead (s : State) (c va n : Nat) (leaves : Bool) : Local (List Byte) :=
  match rowPieces s (s.engineWho c).outside c false [(va, n)] with
  | .error _ => .ends 2
  | .ok pss =>
    let ps := pss.flatten
    match rowSegments s ps with
    | .error (.wait s') => .wait s'
    | .error _ => .ends 2
    | .ok () =>
      if leaves && ps.any s.keptIn then .ends 8
      else match readLines ps [] s with
        | .error _ => .ends 2
        | .ok s' => .done (s.pieceBytes c (fun _ => []) ps) s'

/-- Bytes written by the fabric engine for core `c`. -/
def State.fabricWrite (s : State) (c va : Nat) (bs : List Byte) : Local Unit :=
  match rowPieces s (s.engineWho c).outside c true [(va, bs.length)] with
  | .error _ => .ends 2
  | .ok pss =>
    match rowDests s pss.flatten with
    | .error (.wait s') => .wait s'
    | .error _ => .ends 2
    | .ok () => .done () (s.writePieces c 0 (fun _ _ s => s) pss.flatten bs)

/-! Fabric operations (17 R479 to R481). -/

/-- The fabric operation `id` of core `c`. -/
def State.fabricOp (s : State) (c id : Nat) : Option FabricOp := (s.core c).ctx.fabricq.find? fun o => o.id == id

/-- A fabric operation of core `c` replaced. -/
def State.setFabric (s : State) (c : Nat) (o : FabricOp) : State :=
  s.modCore c fun k => { k with ctx := { k.ctx with fabricq := k.ctx.fabricq.map fun e => if e.id == o.id then o else e } }

/-- The operation has a result; LEN and MAL beside the status. -/
def FabricOp.ended (o : FabricOp) (status len : Nat) (mal : Bool) : FabricOp := { o with running := true, result := some (status, len, mal) }

/-- The micro-context of launch `n`; none for a house launch. -/
def State.mcxOfLaunch (s : State) (n : Nat) : Option Nat :=
  match s.launchAt n with
  | some l => if l.house then none else some l.mcx
  | none => none

/-- The micro-context whose launch runs on core `c`; none for a house launch. -/
def State.mcxOf (s : State) (c : Nat) : Option Nat := (s.core c).launch.bind s.mcxOfLaunch

/-- Fabric operations changed by `f`, which is given the micro-context of each, also in contexts that rest on a core or in a save area. -/
def State.mapFabric (s : State) (f : Option Nat → FabricOp → FabricOp) : State :=
  let g (m : Option Nat) (x : CoreCtx) : CoreCtx := { x with fabricq := x.fabricq.map (f m) }
  { s with
    cores := s.cores.map fun (e : Nat × CoreSt) => (e.1, { e.2 with
      ctx := g (s.mcxOf e.1) e.2.ctx, resident := e.2.resident.map fun (r : Nat × CoreCtx) => (r.1, g (s.mcxOfLaunch r.1) r.2) })
    saves := s.saves.map fun (e : Nat × Option Save) => (e.1, e.2.map fun (v : Save) => { v with ctx := v.ctx.map (g (s.mcxOfLaunch v.launch)) }) }

/-- Every fabric operation of micro-context `m`. -/
def State.fabricOf (s : State) (m : Nat) : List FabricOp :=
  (s.cores.flatMap fun e => (if s.mcxOf e.1 == some m then e.2.ctx.fabricq else []) ++
    (match e.2.resident with | some (n, x) => if s.mcxOfLaunch n == some m then x.fabricq else [] | none => [])) ++
  s.saves.flatMap fun e => match e.2 with
    | some v => if s.mcxOfLaunch v.launch == some m then (match v.ctx with | some x => x.fabricq | none => []) else []
    | none => []

/-- A request of operation `o` to its peer. -/
def State.requestPk (s : State) (m : Nat) (o : FabricOp) (kind : Nat) : Pk :=
  (({ kind := kind, part := (s.mcb m).part, dpkg := o.peer.1, spkg := s.sl.pkg, dmcx := o.peer.2, smcx := m, opid := o.opid } : Pk)).setArg
    28 4 (if kind == 6 then 0 else o.ptag)

/-- None of this package's packets with an OPID waits in a send queue. -/
def State.allLeft (s : State) (opid : Nat) : Bool :=
  !(s.sl.ports.any fun e => e.2.sendq.any fun q => q.pk.spkg == s.sl.pkg && q.pk.opid == opid && q.pk.kind != 3 && q.pk.kind != 4)

/-- The packets kept for the operation with an OPID, taken away. -/
def State.takeAnswers (s : State) (opid : Nat) : List Pk × State :=
  let mine (p : Pk) : Bool := (p.kind == 3 || p.kind == 4) && p.opid == opid
  (s.sl.rx.filter mine, { s with sl := { s.sl with rx := s.sl.rx.filter fun p => !(mine p) } })

/-- A message or a remote access begins: its endpoint entry is read, and a receive is posted (17 R479, 03 R77). DEDUCED [log 80]. -/
def State.fabricBegin (s : State) (c m : Nat) (o : FabricOp) : State :=
  let e := s.endpoint m o.ep
  if !e.1 then s.setFabric c (o.ended 1 0 false)
  else
    let o : FabricOp :=
      { o with running := true, at_ := s.time.toNat, opid := s.sl.nextOpid, begun := s.sl.begun, peer := (e.2.1, e.2.2.1), ptag := e.2.2.2 }
    let s := { s with sl := { s.sl with nextOpid := (s.sl.nextOpid + 1) % 2 ^ 32, begun := s.sl.begun + 1 } }
    let post := o.op == 7 && !o.rma
    let s := s.setFabric c { o with sent := post }
    if post then s.launchPk ((s.requestPk m o 6).setArg 16 4 1) else s

/-- The packets that carry `n` bytes, at most 2,048 each: offset and length. -/
def pieces2k (n : Nat) : List (Nat × Nat) := (List.range ((n + 2047) / 2048)).map fun i => (2048 * i, min 2048 (n - 2048 * i))

/-- csend, csend.rma and crecv.rma hand their packets to the ports (17 R479). DEDUCED [log 77]. -/
def State.fabricSend (s : State) (c m : Nat) (o : FabricOp) : State :=
  let o := { o with sent := true, at_ := s.time.toNat }
  let cut := pieces2k o.len
  if o.op == 7 then
    let s := s.setFabric c { o with waits := cut.length }
    cut.foldl (fun (s : State) x => s.launchPk (((s.requestPk m o 2).setArg 16 8 (o.off + x.1)).setArg 24 4 x.2)) s
  else match s.fabricRead c o.addr o.len true with
    | .wait s' => s'
    | .ends st => s.setFabric c (o.ended st 0 false)
    | .done bs s =>
      let key := creditKey m o.peer.1 o.peer.2
      let s := if o.rma then s else { s with sl := { s.sl with credits := SMap.upd s.sl.credits key 0 fun k => k - 1 } }
      let s := s.setFabric c { o with waits := cut.length }
      cut.foldl (fun (s : State) x =>
        let d := slice bs x.1 x.2
        let p := if o.rma then ((s.requestPk m o 1).setArg 16 8 (o.off + x.1)).setArg 24 4 x.2
          else ((s.requestPk m o 5).setArg 16 4 o.tag).setArg 24 4 o.len
        s.launchPk { p with data := d }) s

/-- The answers to a remote access or a message are taken: READRESP data is written to the buffer (17 R479). -/
def State.fabricAnswers (s : State) (c : Nat) (o : FabricOp) (ps : List Pk) : State :=
  match ps with
  | [] => s
  | p :: rest =>
    let s := { s with sl := { s.sl with rx := s.sl.rx.erase p } }
    if o.result.isSome then State.fabricAnswers s c o rest
    else if p.status != 0 then State.fabricAnswers (s.setFabric c (o.ended p.status 0 false)) c (o.ended p.status 0 false) rest
    else
      let one (s : State) : State × FabricOp :=
        let o := { o with waits := o.waits - 1 }
        let o := if o.rma && o.waits == 0 then o.ended 0 o.len false else o
        (s.setFabric c o, o)
      if p.kind != 3 then let r := one s; State.fabricAnswers r.1 c r.2 rest
      else match s.fabricWrite c (o.addr + (p.arg 16 8 - o.off)) (p.data.take (p.arg 24 4)) with
        | .wait s' => s'.keepPk p
        | .ends st => State.fabricAnswers (s.setFabric c (o.ended st 0 false)) c (o.ended st 0 false) rest
        | .done _ s' => let r := one s'; State.fabricAnswers r.1 c r.2 rest

/-- A posted receive that has no message yet. -/
def FabricOp.open_ (o : FabricOp) : Bool := o.op == 7 && !o.rma && o.running && o.result.isNone && o.msg.isNone

/-- A receive takes messages of the source and tag of a packet. -/
def FabricOp.matches_ (o : FabricOp) (p : Pk) : Bool :=
  o.peer == (p.spkg, p.smcx) && (o.tag == 0x7FFFFFFF || o.tag == p.arg 16 4)

/-- A packet belongs to a message that a receive of its micro-context has taken. -/
def FabricOp.owns (o : FabricOp) (p : Pk) : Bool :=
  o.op == 7 && o.peer == (p.spkg, p.smcx) && (match o.msg with | some (id, _) => id == p.opid | none => false)

/-- The first packet of the oldest message that receive `o` of micro-context `m` takes: no receive posted before it matches that message too
(03 R77, 17 R479). -/
def State.message (s : State) (m : Nat) (o : FabricOp) : Option Pk :=
  let ops := s.fabricOf m
  s.sl.rx.find? fun p => p.kind == 5 && p.dmcx == m && o.matches_ p && !(ops.any fun q => q.owns p) &&
    !(ops.any fun q => q.open_ && decide (q.begun < o.begun) && q.matches_ p)

/-- Packets of a receive's message are taken in the order of their arrival: their lines set out for the buffer, cut off at its end
(03 R77, 09 R263). -/
def State.takeParts (s : State) (c : Nat) (o : FabricOp) (total : Nat) (ps : List Pk) : State × FabricOp :=
  match ps with
  | [] => (s, o)
  | p :: rest =>
    let bs := (p.data.take (total - o.got)).take (o.len - o.got)
    let o' := { o with got := o.got + min p.data.length (total - o.got) }
    if bs.isEmpty || o.bad then State.takeParts s c o' total rest
    else match rowPieces s (s.engineWho c).outside c true [(o.addr + o.got, bs.length)] with
      | .error _ => State.takeParts s c { o' with bad := true } total rest
      | .ok pss => State.takeParts (s.sendArriving p (some o.opid) pss.flatten bs) c { o' with waits := o'.waits + 1 } total rest

/-- A receive whose message has come and been written is over: both ends see the true length (03 R77, 17 R478). -/
def FabricOp.received (o : FabricOp) : FabricOp :=
  match o.msg with
  | some (_, n) => if n ≤ o.got && o.waits == 0 && o.result.isNone then o.ended (if o.bad then 2 else 0) (if o.bad then 0 else n) false else o
  | none => o

/-- A posted receive finds its message, or goes on with it (03 R77, 17 R479). -/
def State.fabricReceive (s : State) (c m : Nat) (o : FabricOp) : State :=
  let o := match o.msg with
    | some _ => o
    | none => match s.message m o with
      | some p => { o with msg := some (p.opid, p.arg 24 4) }
      | none => o
  match o.msg with
  | none => s
  | some (_, n) =>
    let mine (p : Pk) : Bool := p.kind == 5 && p.dmcx == m && o.owns p
    let ps := s.sl.rx.filter mine
    let r := ({ s with sl := { s.sl with rx := s.sl.rx.filter fun p => !(mine p) } }).takeParts c o n ps
    r.1.setFabric c r.2.received

/-! Collectives (03 R78 to R81, 17 R480 R481). -/

/-- Identifier, operation and ALL of a collective. -/
def FabricOp.collId (o : FabricOp) : Nat := fld o.tag 0 16
/-- Operation: 0 sum, 1 max, 2 min, 3 gather, 4 bcast, 5 draw. -/
def FabricOp.collOp (o : FabricOp) : Nat := fld o.tag 16 3
/-- ALL: every member gets the result. -/
def FabricOp.collAll (o : FabricOp) : Bool := bitOf o.tag 19

/-- Bytes of one element. -/
def FabricOp.elemBytes (o : FabricOp) : Nat :=
  match o.collOp with | 3 => 1 | 4 => 1 | 5 => 8 | _ => fmtBits o.coll.fmt / 8

/-- Bytes that a member contributes. -/
def FabricOp.bytes (o : FabricOp) : Nat := o.coll.count * o.elemBytes
/-- Bytes of a chunk. -/
def chunkBytes : Nat := 65536
/-- Chunks of a contribution. -/
def FabricOp.chunkCount (o : FabricOp) : Nat := (o.bytes + chunkBytes - 1) / chunkBytes
/-- Bytes of chunk `k`. -/
def FabricOp.chunkLen (o : FabricOp) (k : Nat) : Nat := min chunkBytes (o.bytes - chunkBytes * k)

/-- The member receives a result (17 R481). -/
def FabricOp.takesResult (o : FabricOp) : Bool := o.collOp == 3 || o.collOp == 4 || o.collAll || o.coll.rank == o.coll.root

/-- The ranks to which the issuer contributes. -/
def FabricOp.sendsTo (o : FabricOp) : List Nat :=
  let others := without (List.range o.coll.members.length) o.coll.rank
  if o.collOp == 4 then (if o.coll.rank == o.coll.root then others else [])
  else if o.collOp == 3 || o.collAll then others
  else if o.coll.rank == o.coll.root then [] else [o.coll.root]

/-- The ranks whose contributions make up the issuer's result. -/
def FabricOp.needs (o : FabricOp) : List Nat := if o.collOp == 4 then [o.coll.root] else List.range o.coll.members.length

/-- The descriptor's own rules (17 R480). -/
def descriptorOk (op : Nat) (d : List Byte) : Bool :=
  let count := leAt d 16 4
  let n := leAt d 20 2
  let f := leAt d 32 1
  decide (1 ≤ count ∧ count ≤ 2 ^ 28 ∧ 2 ≤ n ∧ n ≤ 2048) && decide (leAt d 22 2 < n) && (d.drop 33).all (· == 0) &&
    (if op == 0 then f ≤ 1 else if op ≤ 2 then f ≤ 1 || f == 11 || f == 12 else f == 0)

/-- The member list: by rank, package and micro-context; none where it is malformed (17 R480 R481). -/
def State.members (s : State) (m : Nat) (list : List Byte) (n : Nat) : Option (List (Nat × Nat) × Nat) :=
  let es := (List.range n).map fun i => leAt list (2 * i) 2
  let ok := es.all fun e => e == 0xFFFF || (e ≤ 0xFF && (s.endpoint m e).1)
  match es.findIdx? (· == 0xFFFF) with
  | some r =>
    if ok && (es.filter (· == 0xFFFF)).length == 1 then
      some (es.map fun e => if e == 0xFFFF then (s.sl.pkg, m) else let p := s.endpoint m e; (p.2.1, p.2.2.1), r)
    else none
  | none => none

/-- The agreement digest (17 R481). -/
def collDigest (members : List (Nat × Nat)) (key : BitVec 128) : List Byte :=
  (sha256 (natLe 2 members.length ++ (members.flatMap fun p => natLe 2 p.1 ++ natLe 2 p.2) ++ natLe 16 key.toNat)).take 4

/-- The pairing tag of the issuer's entry for a member. -/
def State.tagFor (s : State) (m : Nat) (p : Nat × Nat) : Nat :=
  match (List.range 256).find? fun i => let e := s.endpoint m i; e.1 && e.2.1 == p.1 && e.2.2.1 == p.2 with
  | some i => (s.endpoint m i).2.2.2
  | none => 0

/-- The issuer's contributions: digest first, chunk by chunk, to every rank it contributes to but the dead (03 R78 R81, 17 R481). DEDUCED [log 77]. -/
def State.contribute (s : State) (m : Nat) (o : FabricOp) (bs : List Byte) : State :=
  o.sendsTo.foldl (fun (s : State) r =>
    let p := o.coll.members.getD r (0, 0)
    if s.isDead p.1 p.2 then s else
    let o := { o with peer := p, ptag := s.tagFor m p }
    (List.range o.chunkCount).foldl (fun (s : State) k =>
      let d := (if k == 0 then o.coll.digest else []) ++ slice bs (chunkBytes * k) (o.chunkLen k)
      (pieces2k d.length).foldl (fun (s : State) x =>
        let q := ((((s.requestPk m o 7).setArg 16 2 o.collId).setArg 18 2 k).setArg 20 2 o.coll.rank).setArg 24 4 (o.chunkLen k)
        s.launchPk { q with data := slice d x.1 x.2 }) s) s) s

/-- The same identifier runs at the issuer, so a collective waits (17 R481). -/
def State.collRuns (s : State) (m : Nat) (o : FabricOp) : Bool :=
  s.cores.any fun e => s.mcxOf e.1 == some m &&
    e.2.ctx.fabricq.any fun q => q.op == 8 && q.running && q.result.isNone && q.collId == o.collId

/-- The bytes that rank `r` has contributed so far to micro-context `m`'s collective, digest taken off; none before its first packet. -/
def State.contribution (s : State) (m : Nat) (o : FabricOp) (r k : Nat) : Option (List Byte) :=
  let p := o.coll.members.getD r (0, 0)
  let ps := s.sl.rx.filter fun q => q.kind == 7 && q.dmcx == m && q.spkg == p.1 && q.smcx == p.2 && q.arg 16 2 == o.collId && q.arg 18 2 == k
  if ps.isEmpty then none else some ((ps.flatMap (·.data)).drop (if k == 0 then 4 else 0))

/-- A rank's digest differs from the issuer's. -/
def State.digestBad (s : State) (m : Nat) (o : FabricOp) : Bool :=
  o.coll.members.any fun p =>
    match s.sl.rx.find? fun q => q.kind == 7 && q.dmcx == m && q.spkg == p.1 && q.smcx == p.2 && q.arg 16 2 == o.collId && q.arg 18 2 == 0 with
    | some q => q.data.take 4 != o.coll.digest
    | none => false

/-- One element of a tree, by operation: sum, max and min over values (03 R79). -/
def combineElem (op fmt : Nat) (xs : List Nat) : Nat :=
  match treeRoot 20 1 (fun _ _ => combine fmt op) (xs.map fun x => some (leafOf fmt x)) with
  | some r => if fmtI fmt then (r.2.1 % (2 ^ fmtBits fmt : Nat)).toNat else (roundElem fmt rne r.1 0).1
  | none => 0

/-- The result of a chunk: contributions by rank, `first` its first element (03 R79 R80). DEDUCED [log 78]. -/
def FabricOp.combineChunk (o : FabricOp) (key : BitVec 128) (first : Nat) (bss : List (List Byte)) : List Byte × Bool :=
  let w := o.elemBytes
  let n := (bss.headD []).length / w
  if o.collOp == 5 then
    let out := (List.range n).map fun i =>
      drawTree (fun j k => coin key o.collId o.step (counter2 ((first + i) % 65536) 2 (0x40 + j)) k)
        (bss.map fun b => some (bitsPair (leAt b (8 * i) 8)))
    (out.flatMap fun x => natLe 8 (pairBits x.1), out.any (·.2))
  else ((List.range n).flatMap fun i => natLe w (combineElem o.collOp o.coll.fmt (bss.map fun b => leAt b (w * i) w)), false)

/-- Where chunk `k` goes: for a gather each rank's bytes to its own place (17 R481). -/
def FabricOp.chunkWrites (o : FabricOp) (key : BitVec 128) (k : Nat) (bss : List (List Byte)) : List (Nat × List Byte) × Bool :=
  let at_ := o.coll.dst + chunkBytes * k
  if o.collOp == 3 then ((bss.zipIdx.map fun p => (at_ + p.2 * o.coll.count, p.1)), false)
  else if o.collOp == 4 then ([(at_, bss.headD [])], false)
  else
    let r := o.combineChunk key (chunkBytes * k / o.elemBytes) bss
    ([(at_, r.1)], r.2)

/-- Several writes of the fabric engine. -/
def State.fabricWrites (s : State) (c : Nat) (ws : List (Nat × List Byte)) : Local Unit :=
  match ws with
  | [] => .done () s
  | (a, bs) :: r =>
    match s.fabricWrite c a bs with
    | .wait s' => .wait s'
    | .ends st => .ends st
    | .done _ s' => State.fabricWrites s' c r

/-- The contributions to chunk `k` by the ranks that make it up, the issuer's own read from its source; none until all are whole. -/
def State.chunkParts (s : State) (c m : Nat) (o : FabricOp) (k : Nat) (rs : List Nat) : Option (Local (List (List Byte))) :=
  match rs with
  | [] => some (.done [] s)
  | r :: rest =>
    let next (b : List Byte) (s : State) : Option (Local (List (List Byte))) :=
      match State.chunkParts s c m o k rest with
      | some (.done bs s') => some (.done (b :: bs) s')
      | x => x
    if r == o.coll.rank then
      match s.fabricRead c (o.coll.src + chunkBytes * k) (o.chunkLen k) false with
      | .wait s' => some (.wait s')
      | .ends st => some (.ends st)
      | .done b s' => next b s'
    else match s.contribution m o r k with
      | some b => if o.chunkLen k ≤ b.length then next (b.take (o.chunkLen k)) s else none
      | none => none

/-- The packets of a collective that are still kept for micro-context `m` are dropped. -/
def State.dropColl (s : State) (m : Nat) (o : FabricOp) : State :=
  { s with sl := { s.sl with rx := s.sl.rx.filter fun q =>
      !((q.kind == 7 || q.kind == 8) && q.dmcx == m && q.arg 16 2 == o.collId && o.coll.members.contains (q.spkg, q.smcx)) } }

/-- A member has abandoned the collective: by ABANDON, or as a package or domain reported dead (03 R81). -/
def State.abandoned (s : State) (m : Nat) (o : FabricOp) : Bool :=
  (s.sl.rx.any fun q => q.kind == 8 && q.dmcx == m && q.arg 16 2 == o.collId && o.coll.members.contains (q.spkg, q.smcx)) ||
  (without (List.range o.coll.members.length) o.coll.rank).any fun r =>
    let p := o.coll.members.getD r (0, 0)
    s.isDead p.1 p.2

/-- Zero bytes for every chunk that is not finished (03 R81). -/
def FabricOp.zeroWrites (o : FabricOp) : List (Nat × List Byte) :=
  if !o.takesResult then []
  else (List.range (if o.collOp == 3 then o.coll.members.length else 1)).filterMap fun i =>
    let a := chunkBytes * o.chunks
    if a < o.bytes then some (o.coll.dst + i * o.bytes + a, natLe (o.bytes - a) 0) else none

/-- ABANDONED: unfinished chunks read zero (03 R81). DEDUCED [log 78]. -/
def State.collAbandon (s : State) (c m : Nat) (o : FabricOp) : State :=
  match s.fabricWrites c o.zeroWrites with
  | .wait s' => s'
  | .ends _ => (s.setFabric c (o.ended 4 0 false)).dropColl m o
  | .done _ s' => (s'.setFabric c (o.ended 4 0 false)).dropColl m o

/-- A collective begins: its descriptor and list are read, the ranks resolved and its contributions sent; one that a member has
abandoned already is over at once (17 R480 R481, 03 R81). -/
def State.collBegin (s : State) (c m : Nat) (o : FabricOp) (key : BitVec 128) : State :=
  let stop (s : State) (st : Nat) (mal : Bool) : State := s.setFabric c (o.ended st 0 mal)
  if s.collRuns m o then s
  else match s.fabricRead c o.addr 64 false with
    | .wait s' => s'
    | .ends st => stop s st false
    | .done d s =>
      if !(descriptorOk o.collOp d) then stop s 1 true
      else match s.fabricRead c (leAt d 24 8) (2 * leAt d 20 2) false with
        | .wait s' => s'
        | .ends st => stop s st false
        | .done list s =>
          match s.members m list (leAt d 20 2) with
          | none => stop s 1 true
          | some (ms, r) =>
            let o : FabricOp := { o with
              running := true, sent := true, at_ := s.time.toNat, opid := s.sl.nextOpid
              coll := { src := leAt d 0 8, dst := leAt d 8 8, count := leAt d 16 4, root := leAt d 22 2, fmt := leAt d 32 1
                        members := ms, rank := r, digest := collDigest ms key } }
            let s := { s with sl := { s.sl with nextOpid := (s.sl.nextOpid + 1) % 2 ^ 32 } }
            if s.abandoned m o then (s.setFabric c o).collAbandon c m o
            else if o.sendsTo.isEmpty then s.setFabric c o
            else match s.fabricRead c o.coll.src o.bytes true with
              | .wait s' => s'
              | .ends st => s.setFabric c (o.ended st 0 false)
              | .done bs s => (s.setFabric c o).contribute m o bs

/-- A collective goes on by as many chunks as are whole; `n` bounds them (03 R78 to R81). DEDUCED [log 78]. -/
def State.collWork (s : State) (c m : Nat) (key : BitVec 128) (n : Nat) (o : FabricOp) : State :=
  match n with
  | 0 => s
  | n + 1 =>
    if s.digestBad m o then (s.setFabric c (o.ended 7 0 false)).dropColl m o
    else if s.abandoned m o then s.collAbandon c m o
    else if !o.takesResult then
      if s.allLeft o.opid then s.setFabric c (o.ended 0 0 false) else s
    else if o.chunkCount ≤ o.chunks then
      if s.allLeft o.opid then (s.setFabric c (o.ended 0 0 false)).dropColl m o else s
    else match s.chunkParts c m o o.chunks o.needs with
      | none => s
      | some (.wait s') => s'
      | some (.ends st) => (s.setFabric c (o.ended st 0 false)).dropColl m o
      | some (.done bss s') =>
        let w := o.chunkWrites key o.chunks bss
        match s'.fabricWrites c w.1 with
        | .wait s'' => s''
        | .ends st => (s.setFabric c (o.ended st 0 false)).dropColl m o
        | .done _ s'' =>
          let o := { o with chunks := o.chunks + 1, ds := o.ds || w.2 }
          State.collWork (s''.setFabric c o) c m key n o

/-! The engine (17 R469 R478). -/

/-- The fabric engine may begin an operation of core `c`: its launch runs, the class is not stopped for a pre-emption, and no fence
holds path `fb` back (06 R163, 09 R258). The receives of a core are posted in the order of their issue (03 R77). -/
def State.fabricMay (s : State) (c : Nat) (o : FabricOp) : Bool :=
  s.engineOn c && !((s.preempt c).any fun p => p.acks.contains 6) && !(s.heldBack c 5 o.seq true) &&
    !(o.op == 7 && !o.rma && (s.core c).ctx.fabricq.any fun q => q.op == 7 && !q.rma && !q.running && decide (q.seq < o.seq))

/-- The fabric engine works on one operation of core `c`. -/
def State.fabricWork (s : State) (c : Nat) (o : FabricOp) : State :=
  match s.mcxOf c with
  | none => if s.fabricMay c o then s.setFabric c (o.ended 1 0 false) else s
  | some m =>
    let key := (((s.core c).launch.bind fun n => s.launchAt n).getD {}).drawKey
    if o.result.isSome then s
    else if !o.running then
      if !(s.fabricMay c o) then s
      else if o.op == 8 then s.collBegin c m o key else s.fabricBegin c m o
    else if o.op == 8 then
      let failed := s.takeAnswers o.opid
      match failed.1 with
      | p :: _ => (failed.2.setFabric c (o.ended p.status 0 false)).dropColl m o
      | [] => s.collWork c m key (o.chunkCount + 2) o
    else if o.op == 7 && !o.rma then s.fabricReceive c m o
    else if !o.sent then
      if o.op == 6 && !o.rma && SMap.get s.sl.credits (creditKey m o.peer.1 o.peer.2) 0 == 0 then s else s.fabricSend c m o
    else
      let s := s.fabricAnswers c o (s.takeAnswers o.opid).1
      match s.fabricOp c o.id with
      | some o => if o.op == 6 && !o.rma && o.result.isNone && s.allLeft o.opid then s.setFabric c (o.ended 0 o.len false) else s
      | none => s

/-- An operation whose packets have all left says so (09 R258). -/
def State.fabricLeft (s : State) (c id : Nat) : State :=
  match s.fabricOp c id with
  | some o =>
    let v := o.result.isSome || (o.sent && s.allLeft o.opid)
    if o.left_ == v then s else s.setFabric c { o with left_ := v }
  | none => s

/-- Every operation of the cores as core, identifier and request identifier, in order of issue. -/
def State.fabricList (s : State) : List (Nat × Nat × Nat) :=
  (s.cores.flatMap fun e => e.2.ctx.fabricq.map fun o => (e.1, o.id, o.seq)).mergeSort fun a b => decide (a.2.2 ≤ b.2.2)

/-- READs that wait for a segment are tried again. DEDUCED [log 77]. -/
def State.retryReads (s : State) : State :=
  (s.sl.rx.filter fun p => p.kind == 2).foldl (fun (s : State) p => ({ s with sl := { s.sl with rx := s.sl.rx.erase p } }).arrive p) s

/-- The fabric engine works on every operation that is under way, in order of issue. -/
def State.fabricPump (s : State) : State :=
  s.retryReads.fabricList.foldl (fun (s : State) x =>
    match s.fabricOp x.1 x.2.1 with
    | some o => (if o.running then s.fabricWork x.1 o else s).fabricLeft x.1 x.2.1
    | none => s) s.retryReads

/-- A line of a packet that has arrived is performed: with the last one a WRITE is acknowledged, and a receive has one part of its message less
to wait for (09 R263, 17 R478). -/
def State.arrived (s : State) (r : Req) : State :=
  if !r.performed then s.setReq r
  else
    let s := s.dropReq r.id
    match r.kind with
    | .arriving p none => (s.sendAnswer (p.answer 4 (if r.fault.isSome then 2 else 0) (s.mcb p.dmcx).part)).fabricPump
    | .arriving _ (some op) =>
      (s.mapFabric fun _ o =>
        if o.op == 7 && o.running && o.opid == op then ({ o with waits := o.waits - 1, bad := o.bad || r.fault.isSome } : FabricOp).received
        else o).fabricPump
    | _ => s

/-! Fault notifications (03 R69 R81 R83). -/

/-- Ports whose link is up. -/
def State.upPorts (s : State) : List Nat := (List.range 16).filter fun n => (s.slp n).link

/-- A FAULT packet (03 R83). -/
def faultPk (cls port origin mcx seq time : Nat) : Pk :=
  ((((((({ kind := 0x0A } : Pk)).setArg 16 1 cls).setArg 17 1 port).setArg 18 2 origin).setArg 20 2 mcx).setArg 22 2 seq).setArg 24 8 time

/-- A FAULT packet goes to the link peers of ports. -/
def State.flood (s : State) (p : Pk) (ports : List Nat) : State :=
  ports.foldl (fun (s : State) n => s.queueAt n { p with dpkg := (s.slp n).peer, spkg := s.sl.pkg, shares := [] }) s

/-- The peers reached only through a link that has gone down: their members count as having abandoned (03 R81). -/
def State.lastLink (s : State) (origin port : Nat) : Option Nat :=
  if origin == s.sl.pkg && !(s.upPorts.any fun n => (s.slp n).peer == (s.slp port).peer) then some (s.slp port).peer else none

/-- What a notification does here: pending operations towards the dead, begun or still queued, end with PEERDEAD, collectives with it are abandoned, and the host
is told (03 R81 R83, 04 R104). DEDUCED [log 78]. -/
def State.faultEffect (s : State) (p : Pk) : State :=
  let cls := p.arg 16 1
  let origin := fld (p.arg 18 2) 0 11
  let mcx := fld (p.arg 20 2) 0 13
  let gone : Option (Nat × Option Nat) :=
    if cls == 1 then some (origin, some mcx) else if cls == 2 then some (origin, none)
    else (s.lastLink origin (p.arg 17 1)).map fun d => (d, none)
  let s := match gone with
    | none => s
    | some d =>
      if d.1 == s.sl.pkg && d.2.isNone then s
      else
        let d : Dead := { pkg := d.1, mcx := d.2, at_ := s.time.toNat }
        let hit (m : Option Nat) (o : FabricOp) : Bool :=
          let e := s.endpoint (m.getD 0) o.ep
          o.result.isNone && o.op != 8 && m.isSome && (if o.running then d.covers o.peer.1 o.peer.2 else e.1 && d.covers e.2.1 e.2.2.1)
        let s' := s.mapFabric fun m o => if hit m o then o.ended 5 0 false else o
        { s' with sl := { s'.sl with dead := (s.sl.dead.filter fun (e : Dead) => !(e.pkg == d.pkg && e.mcx == d.mcx)) ++ [d] } }
  (s.fabricPump).post 0 0x05 cls 0xFFFFFFFF (leNat (p.karg.take 8))

/-- A notification that this package raises (03 R83). DEDUCED [log 80]. -/
def State.raiseFault (s : State) (cls port mcx : Nat) : State :=
  let p := faultPk cls port s.sl.pkg mcx s.sl.faultSeq s.time.toNat
  let s := { s with sl := { s.sl with
    faultsSeen := s.sl.faultsSeen ++ [(s.sl.pkg, s.sl.faultSeq)], faultSeq := (s.sl.faultSeq + 1) % 2 ^ 16 } }
  (s.flood p s.upPorts).faultEffect p

/-- The parent port: the up port with the fewest hops to the master, the lowest number among equals; none if no hops are known.
DESIGN CHOICE [log 20]. DEDUCED [log 79]. -/
def State.parentPort (s : State) : Option Nat :=
  let best := (s.upPorts.map fun n => (s.slp n).hops).foldl min 0xFF
  if best == 0xFF then none else s.upPorts.find? fun n => (s.slp n).hops == best

/-- HOPS and PARENT as the ports give them: none known is 0xFF, and then TIME is not aligned (03 R82 R86). -/
def State.learnParent (s : State) : State :=
  if s.sl.master then { s with sl := { s.sl with hops := 0 } }
  else match s.parentPort with
    | none => { s with sl := { s.sl with hops := 0xFF, parent := 0, sync := false, syncRun := 0 } }
    | some q => { s with sl := { s.sl with hops := (s.slp q).hops + 1, parent := q } }

/-- A link goes down: what waits to leave is dropped as having no route, the hops known through it are gone, and a LINK notification is
raised (03 R69 R71 R83 R86). What its receive buffer holds stays. -/
def State.linkDown (s : State) (n : Nat) : State :=
  let x := s.slp n
  if !x.link then s
  else
    let s := s.modSlp n fun x => { x with
      link := false, latchedDown := true, sendq := [], used := [], got := [], retry := [], resend := [], replays := 0, hops := 0xFF }
    let s := x.sendq.foldl (fun (s : State) q => (s.countSl n 5 1).failPk q.pk 6) s
    s.learnParent.raiseFault 3 n 0

/-! Termination (05 R139 step 4, 03 R81 R83). -/

/-- Micro-context `m` is killed: ABANDON goes to every other member of its running collectives. -/
def State.abandonAll (s : State) (m : Nat) : State :=
  let ops := (s.fabricOf m).filter fun o => o.op == 8 && o.running && o.result.isNone
  ops.foldl (fun (s : State) o =>
    (without (List.range o.coll.members.length) o.coll.rank).foldl (fun (s : State) r =>
      let p := o.coll.members.getD r (0, 0)
      if s.isDead p.1 p.2 then s else
      let q := ((s.requestPk m { o with peer := p, ptag := 0 } 8).setArg 16 2 o.collId).setArg 18 2 (if o.sent then o.chunkCount else 0)
      s.launchPk q) s) s

/-- TERMINATION of micro-context `m` with its collectives abandoned and its domain's notification (05 R139, 03 R81 R83). -/
def State.terminateMcx (s : State) (m cause : Nat) : State :=
  let endpoints := s.anyEndpoint m fun _ _ _ => true
  let s := (s.abandonAll m).terminate m cause
  let s := s.dropArriving m
  let s := { s with sl := { s.sl with rx := s.sl.rx.filter fun p => p.dmcx != m || (p.kind == 3 || p.kind == 4) } }
  if endpoints then s.raiseFault 1 0 m else s

end Sys2Proof.Machine
end

