-- ==== Sys2Proof/Machine/Smivy.lean ====
section
/-! DEFINITION. Machine/Smivy.lean: what happens at the Smivy ports and in the fabric engine: packets that arrive, the wheel, link-level
retry, timeouts, global time and the completion of fabric operations (03 R68 to R89, 17 R478). -/
namespace Sys2Proof.Machine

/-! Arriving packets (03 R70 R76 R77 R81 R83). -/

/-- Credit that a valid flit returns: `c` flits of share `b` of the peer's buffer are free again (03 R68 R74). -/
def SlPort.credited (x : SlPort) (a : EventArgs) : SlPort :=
  { x with used := if a.c == 0 then x.used else SMap.upd x.used a.b 0 fun k => k - a.c }

/-- Valid flits have come: liveness, the sequence number expected next and the failures of the flit before (03 R68 R69). -/
def SlPort.heard (x : SlPort) (now flits : Nat) : SlPort :=
  { x with lastFlit := now, replays := 0, rxSeq := (x.rxSeq + flits) % 2 ^ 12 }

/-- A packet of kind `kind` arrives at port `a`, in whole flits that carried it over the link, one of which may return credit: a bad one is
dropped and counted, one for another package goes on. Its flits stand in the receive buffer until it is used up or sent on (03 R74). -/
def State.receivePk (s : State) (kind : Nat) (g : Pk → State → State) : State :=
  let n := s.ev.a
  let raw := leAt s.ev.bytes 0 1
  if !(s.slp n).link || (raw != kind && decide (1 ≤ raw ∧ raw ≤ 10)) then s
  else
    let flits := leAt s.ev.bytes 1 1 % 16 + 1
    let s := (s.countSl n 1 flits).modSlp n fun x => (x.heard s.time.toNat flits).credited s.ev
    match readPk s.ev.bytes with
    | none => s.countSl n 4 1
    | some p =>
      let r := (s.slp n).land n p
      let s := s.modSlp n fun _ => r.1
      let p := r.2
      (if kind != 9 && kind != 10 && p.dpkg != s.sl.pkg then s.forward p else g p s).fabricPump

/-- WRITE: a remote write at its target (03 R76). -/
def execFabWrite (s : State) : Res := .next (s.receivePk 1 fun p s => s.arrive p)
/-- READ: a remote read at its target (03 R76). -/
def execFabRead (s : State) : Res := .next (s.receivePk 2 fun p s => s.arrive p)
/-- READRESP: read data for its operation (03 R76, 09 R263). -/
def execFabReadResp (s : State) : Res := .next (s.receivePk 3 fun p s => s.arrive p)
/-- WRITEACK: a remote write is done, or a request has failed (03 R76, 09 R263). -/
def execFabWriteAck (s : State) : Res := .next (s.receivePk 4 fun p s => s.arrive p)
/-- SEND: a piece of a message for a posted receive (03 R77). -/
def execFabSend (s : State) : Res := .next (s.receivePk 5 fun p s => s.arrive p)
/-- RECVCRED: receives posted by a peer (03 R77). -/
def execFabRecvCred (s : State) : Res := .next (s.receivePk 6 fun p s => s.arrive p)
/-- COLL: a piece of a contribution to a collective (03 R78 R79). -/
def execFabColl (s : State) : Res := .next (s.receivePk 7 fun p s => s.arrive p)
/-- ABANDON: a member has left a collective (03 R81). -/
def execFabAbandon (s : State) : Res := .next (s.receivePk 8 fun p s => s.arrive p)

/-- A FAULT notification: one already seen is dropped; a new one is flooded on every other port that is up, and takes effect (03 R83). -/
def execFabFault (s : State) : Res :=
  .next (s.receivePk 10 fun p s =>
    let id := (fld (p.arg 18 2) 0 11, p.arg 22 2)
    if s.sl.faultsSeen.contains id then s
    else
      let s := { s with sl := { s.sl with faultsSeen := s.sl.faultsSeen ++ [id] } }
      (s.flood p (without s.upPorts s.ev.a)).faultEffect p)

/-! Global time (03 R82 R86). -/

/-- A TIMESYNC packet with this package's TIME and the peer's echoed TIME. DEDUCED [log 79]. -/
def State.timePk (s : State) (n echo : Nat) : Pk :=
  (({ kind := 9, dpkg := (s.slp n).peer, spkg := s.sl.pkg } : Pk).setArg 16 8 s.time.toNat).setArg 24 8 echo

/-- TIME is corrected by offset `e` from the master's time (03 R82). DEDUCED [log 79]. -/
def State.correctTime (s : State) (e : Int) : State :=
  let within := decide (-20 ≤ e ∧ e ≤ 20)
  let run := if within then s.sl.syncRun + 1 else 0
  let s := { s with sl := { s.sl with ofs := e, syncRun := run, sync := decide (10 ≤ run) } }
  if e < -1000 then
    { s with time := s.time + BitVec.ofInt 64 (-e), sl := { s.sl with slew := 0, slow := false, slewPhase := 0 } }
  else { s with sl := { s.sl with slew := e, slow := decide (1000 < e), slewPhase := 0 } }

/-- TIMESYNC: an exchange begun by the peer is answered with its TIME echoed; the answer to one of ours gives the link delay, and at the
parent port of a package that is not the master the offset of TIME (03 R82). DESIGN CHOICE [log 20]. DEDUCED [log 79]. -/
def execFabTimesync (s : State) : Res :=
  .next (s.receivePk 9 fun p s =>
    let n := s.ev.a
    let now := s.time.toNat
    let s := (s.modSlp n fun x => { x with hops := Config.peerHops s.free % 256 }).draw
    if p.arg 24 8 == 0 then s.queueAt n (s.timePk n (p.arg 16 8))
    else
      let delay := (now - p.arg 24 8) / 2
      let s := s.modSlp n fun x => { x with delay := delay }
      let s := s.learnParent
      if !s.sl.master && s.parentPort == some n then s.correctTime ((now : Int) - ((p.arg 16 8 + delay : Nat) : Int)) else s)

/-- TIMESYNC_EXCHANGE: port `a` sends its TIME to its link peer (03 R82). -/
def execTimesyncExchange (s : State) : Res :=
  let n := s.ev.a
  .next (if (s.slp n).link then s.queueAt n (s.timePk n 0) else s)

/-! The link (03 R68 R69 R87). -/

/-- A set of four lanes is whole: lanes 0 to 3, or 4 to 7. -/
def lanesWhole (bad : BitVec 8) : Bool := bad.extractLsb' 0 4 == 0 || bad.extractLsb' 4 4 == 0

/-- SL_LINK_UP: port `a` has finished training with package `b`; not before the package is ready, nor in minimal mode (03 R69 R87, 01 R32
R36). -/
def execSlLinkUp (s : State) : Res :=
  let x := s.slp s.ev.a
  .next (if s.ev.a < 16 && s.ready && !s.minimal && x.en && !x.link && !x.latchedDown && lanesWhole x.lanesBad then
    s.modSlp s.ev.a fun x => { x with
      link := true, peer := s.ev.b % 2048, width := x.half || x.lanesBad != 0, lastFlit := s.time.toNat, replays := 0, hops := 0xFF
      txSeq := 0, rxSeq := 0 }
  else s)

/-- LANE_FAILURE: lane `b` of port `a` fails; the port retrains on the whole set of four, or goes down (03 R68). -/
def execLaneFailure (s : State) : Res :=
  let n := s.ev.a
  let s := if n < 16 then s.modSlp n fun x => { x with lanesBad := x.lanesBad ||| BitVec.ofNat 8 (2 ^ (s.ev.b % 8)) } else s
  .next (if !(s.slp n).link then s
    else if lanesWhole (s.slp n).lanesBad then s.modSlp n fun x => { x with width := true }
    else s.linkDown n)

/-- LINK_REPLAY: a flit that failed its CRC is not delivered and its replay is requested, by its sequence number; after the first failure and
eight failed replays the link goes down. With the flag, the peer requests a replay: every flit of the retry buffer from number `b` on is
to leave again (03 R69). DESIGN CHOICE [log 101]. -/
def execLinkReplay (s : State) : Res :=
  let n := s.ev.a
  .next (if !(s.slp n).link then s
    else if s.ev.flag then s.modSlp n fun x => { x with resend := x.retry.dropWhile fun f => f.1 != s.ev.b }
    else
      let s := ((s.countSl n 2 1).countSl n 3 1).modSlp n fun x => { x with replays := x.replays + 1 }
      if 9 ≤ (s.slp n).replays then s.linkDown n else s.emit (.replay n (s.slp n).rxSeq))

/-- LIVENESS_TIMEOUT: port `a` has received no valid flit for 100 µs (03 R69). -/
def execLivenessTimeout (s : State) : Res :=
  let n := s.ev.a
  .next (if (s.slp n).link && decide ((s.slp n).lastFlit + 100000 ≤ s.time.toNat) then s.linkDown n else s)

/-- A write of SL.PCTL: HALF only while EN is 0; clearing EN drops the link, and EN cleared and set lets it train again (03 R69 R87). -/
def State.writeSlPctl (s : State) (n : Nat) (v : Word) : State :=
  let x := s.slp n
  let en := v.getLsbD 0
  let s := if x.en then s else s.modSlp n fun x => { x with half := v.getLsbD 1 }
  let s := if x.en && !en then (s.linkDown n).modSlp n fun x => { x with latchedDown := false } else s
  s.modSlp n fun x => { x with en := en }

/-- SL_PCTL_WRITE: value to SL.PCTL of port `a`; before READY and in minimal mode Smivy stays down (01 R32 R36). -/
def execSlPctlWrite (s : State) : Res := .next (if s.ev.a < 16 && s.ready && !s.minimal then s.writeSlPctl s.ev.a s.ev.value else s)

/-! The wheel and credit (03 R72 to R74). -/

/-- Credit used of a share. -/
def SlPort.usedOf (x : SlPort) (k : Nat) : Nat := SMap.get x.used k 0

/-- The packet goes as the house's: VC 0, or in the house's slot. -/
def SendPkt.ofHouse (q : SendPkt) : Bool := q.pk.vc == 0 || q.house

/-- The share of the peer's receive buffer that the next flit of a packet takes: its own first, then the pool; the house has its own only
(03 R74). The peer's shares are taken to be those of this port's own wheel. DEDUCED [log 76]. DESIGN CHOICE [log 100]. -/
def SlPort.share (x : SlPort) (q : SendPkt) : Option Nat :=
  let p := q.pk
  if q.ofHouse then (if x.usedOf 128 < 64 then some 128 else none)
  else if x.usedOf (4 * p.part + p.vc) < 4 * x.owned p.part then some (4 * p.part + p.vc)
  else if x.usedOf 129 < poolFlits x.wheel then some 129
  else none

/-- The packets at the heads of a port's queues: one for the house, one for each partition and virtual channel, oldest first. -/
def headsOf (seen : List (Nat × Nat)) (i : Nat) (l : List SendPkt) : List (Nat × SendPkt) :=
  match l with
  | [] => []
  | q :: r =>
    let k := if q.ofHouse then (32, 0) else (q.pk.part, q.pk.vc)
    if seen.contains k then headsOf seen (i + 1) r else (i, q) :: headsOf (k :: seen) (i + 1) r

/-- The heads of a port's send queues. -/
def SlPort.heads (x : SlPort) : List (Nat × SendPkt) := headsOf [] 0 x.sendq

/-- The head whose flit goes in the current slot: its place in the queue (03 R73). DEDUCED [log 76]. -/
def SlPort.pick (x : SlPort) : Option (Nat × SendPkt) :=
  let ready := x.heads.filter fun q => (x.share q.2).isSome
  let house := ready.find? fun q => q.2.ofHouse
  let of (p : Nat) := ready.find? fun q => !q.2.ofHouse && q.2.pk.part == p
  let owner := (wheelOwner x.wheel x.slot).bind of
  let best := (List.range 32).findSome? fun i => of ((x.bePtr + i) % 32)
  if x.slot == 0 then house.or best else owner.or (house.or best)

/-- A best-effort flit moves the rotating pointer on past its partition. -/
def SlPort.rotate (x : SlPort) (q : SendPkt) : Nat :=
  if q.ofHouse || wheelOwner x.wheel x.slot == some q.pk.part then x.bePtr else (q.pk.part + 1) % 32

/-- The wheel moves on by one slot; a written assignment takes effect at its next turn (03 R73 R87). -/
def SlPort.turn (x : SlPort) : SlPort :=
  if x.slot == 63 then { x with slot := 0, wheel := x.wheelNext } else { x with slot := x.slot + 1 }

/-- The heads that wait for credit, with the TIME since which they do (03 R72). -/
def SlPort.waiting (x : SlPort) (now : Nat) : List SendPkt :=
  let heads := x.heads
  x.sendq.zipIdx.map fun (p : SendPkt × Nat) =>
    if heads.any fun h => h.1 == p.2 && (x.share h.2).isNone then { p.1 with waitAt := some (p.1.waitAt.getD now) } else { p.1 with waitAt := none }

/-- Flit `i` of a packet (03 R70). -/
def Pk.flit (p : Pk) (i : Nat) : List Byte := slice p.bytes (256 * i) 256

/-- WHEEL_SLOT: at port `a`'s slot one flit is sent, if one is ready and has credit; heads without credit wait. A flit to be replayed goes
before any new one (03 R69 R72 R73). -/
def execWheelSlot (s : State) : Res :=
  let n := s.ev.a
  let x := s.slp n
  .next (if !x.link then s
    else match x.resend with
    | f :: _ => (s.resendFlit n f.2).modSlp n SlPort.turn
    | [] =>
      let waiting := x.waiting s.time.toNat
      match x.pick with
      | none => s.modSlp n fun x => ({ x with sendq := waiting }).turn
      | some (i, q) =>
        let k := (x.share q).getD 129
        let queue := if q.pk.flits ≤ q.sent + 1 then waiting.eraseIdx i else modNth waiting i fun q => { q with sent := q.sent + 1 }
        (((s.sendFlit n (q.pk.flit q.sent)).modSlp n fun x =>
          ({ x with sendq := queue, bePtr := x.rotate q, used := SMap.upd x.used k 0 (· + 1) }).turn).fabricPump))

/-- CREDIT_FLIT: port `a`, with nothing else that it may send, sends a credit flit, which holds no packet; a port that has received no valid
flit for 100 µs goes down instead (03 R69). -/
def execCreditFlit (s : State) : Res :=
  let n := s.ev.a
  .next (if !(s.slp n).link then s
    else if (s.slp n).lastFlit + 100000 ≤ s.time.toNat then s.linkDown n
    else if (s.slp n).resend.isEmpty && (s.slp n).pick.isNone then s.sendFlit n (List.replicate 256 0) else s)

/-- CREDIT_RETURN: `c` flits of share `b` of the peer's buffer are free again, which a valid flit that holds nothing else has told port `a`
(03 R69 R74). -/
def execCreditReturn (s : State) : Res :=
  let n := s.ev.a
  .next (if !(s.slp n).link then s
    else (s.countSl n 1 1).modSlp n fun x => (x.heard s.time.toNat 1).credited s.ev)

/-- STALLDROP_TIMEOUT: a packet that has waited 1 ms at the head of port `a`'s queue for credit is dropped (03 R72). -/
def execStalldropTimeout (s : State) : Res :=
  let n := s.ev.a
  let late (q : SendPkt) : Bool := match q.waitAt with | some t => decide (t + 1000000 ≤ s.time.toNat) | none => false
  .next (match (s.slp n).sendq.zipIdx.find? fun p => late p.1 with
    | none => s
    | some (q, i) =>
      (((s.countSl n 6 1).modSlp n fun x => { x with sendq := x.sendq.eraseIdx i }).failPk q.pk 3).fabricPump)

/-! Fabric operations (03 R75 R77, 17 R478). -/

/-- FABRIC_RESPONSE_TIMEOUT: a remote access of operation `b` of core `a` has had no response for 10 ms (03 R75). -/
def execFabricResponseTimeout (s : State) : Res :=
  .next (match s.fabricOp s.ev.a s.ev.b with
    | some o =>
      if o.rma && o.sent && o.result.isNone && decide (o.at_ + 10000000 ≤ s.time.toNat) then s.setFabric s.ev.a (o.ended 3 0 false) else s
    | none => s)

/-- CSEND_CREDIT_TIMEOUT: csend `b` of core `a` has waited 10 ms for a receive to be posted (03 R77). -/
def execCsendCreditTimeout (s : State) : Res :=
  .next (match s.fabricOp s.ev.a s.ev.b with
    | some o =>
      if o.op == 6 && !o.rma && o.running && !o.sent && o.result.isNone && decide (o.at_ + 10000000 ≤ s.time.toNat) then
        s.setFabric s.ev.a (o.ended 3 0 false)
      else s
    | none => s)

/-- The status word (17 R478). -/
def FabricOp.statusWord (o : FabricOp) (status len : Nat) (mal : Bool) : Nat :=
  status % 256 + b2n o.ds * 2 ^ 8 + b2n mal * 2 ^ 9 + len % 2 ^ 32 * 2 ^ 16

/-- FABRIC_OP_COMPLETE: the fabric engine goes on with operation `b` of core `a`; once it has ended, its status word is written, its event
is signalled and it leaves the queue. A status word whose address does not translate is not written (17 R478). DEDUCED [log 77]. -/
def execFabricOpComplete (s : State) : Res :=
  let c := s.ev.a
  .next (match s.fabricOp c s.ev.b with
    | none => s
    | some o =>
      match o.result with
      | none => (s.fabricWork c o).fabricPump
      | some (st, len, mal) =>
        let gone (s : State) : State :=
          let s := s.modCore c fun k => { k with ctx := { k.ctx with fabricq := k.ctx.fabricq.filter fun e => e.id != o.id } }
          match (s.core c).launch with
          | some n => (s.signal n o.event 1).cleanNet
          | none => s
        if o.status == 0 then gone s
        else match s.fabricWrite c o.status (natLe 8 (o.statusWord st len mal)) with
          | .wait s' => s'
          | .ends _ => gone s
          | .done _ s' => gone s')

end Sys2Proof.Machine
end

