-- ==== Sys2Proof/Machine/Start.lean ====
section
/-! DEFINITION. Machine/Start.lean: cold starts, warm resets, the stages of a start and minimal mode; package power, the sensor sweep and
throttling (01_package_power.md). -/
namespace Sys2Proof.Machine

/-! What a start leaves (01 R30 R31). -/

/-- The package changed. -/
def State.modPkg (s : State) (g : Pkg → Pkg) : State := { s with pkg := g s.pkg }

/-- The machine with nothing kept but the boot flash, host memory and the model's own fields. DEDUCED [log 11]. DESIGN CHOICE [log 19]. -/
def State.fresh (s : State) : State :=
  { flash := s.flash, agenda := s.agenda, ev := s.ev, agent := s.agent, free := s.free, out := s.out
    hif := { fwRunning := s.flash.active }
    prot := { vault := { entropy := s.prot.vault.entropy } }
    mem := { host := s.mem.host, hostBad := s.mem.hostBad } }

/-- The PACKAGE notification leaves on every port that is up, before the ports go down (01 R31, 03 R83). -/
def State.lastWords (s : State) : State :=
  let p := faultPk 2 0 s.sl.pkg 0 s.sl.faultSeq s.time.toNat
  let s := s.upPorts.foldl (fun (s : State) n => s.sendFlit n ({ p with dpkg := (s.slp n).peer, spkg := s.sl.pkg } : Pk).bytes) s
  { s with sl := { s.sl with faultSeq := (s.sl.faultSeq + 1) % 2 ^ 16 } }

/-- A WARM RESET: TIME and EARLY are kept, everything else is as at reset, and stage 0x02 begins (01 R30 R31, 05 R144). DEDUCED [log 67]. -/
def State.warm (s : State) : State :=
  let s := s.lastWords
  let t := s.fresh
  { t with
    time := s.time
    pkg := { t.pkg with held := false, stage := 2, startAt := s.time.toNat, stageAt := s.time.toNat, early := s.pkg.early }
    hif := { t.hif with linkLost := s.hif.link || s.hif.linkLost }
    sl := { t.sl with faultSeq := s.sl.faultSeq } }

/-- The clocks run: neither held, nor tripped, nor stuck in stage 0x01. -/
def State.clocked (s : State) : Bool := !s.pkg.held && !s.pkg.tripped && !s.pkg.stuckPower

/-- RESET_N_RELEASE: the cold start begins with stage 0x01 (01 R30 R32). -/
def execResetNRelease (s : State) : Res :=
  .next (if s.pkg.held then s.modPkg fun p => { p with held := false, stage := 1, mode := 0, early := 0 } else s)

/-- POWER_LOSS: the rails go, or RESET_N is asserted; only the boot flash outlasts it (01 R33). -/
def execPowerLoss (s : State) : Res := .next s.fresh

/-- A request of a warm reset (01 R30). In stage 0x01, before the hub loops have locked, it does nothing: the manual does not say what it
does there. DESIGN CHOICE [log 87]. -/
def State.askReset (s : State) : State := if s.clocked && decide (2 ≤ s.pkg.stage) then s.warm else s

/-- WARM_RESET: the board controller, Proem or the host asks for one (01 R30). DESIGN CHOICE [log 87]. -/
def execWarmReset (s : State) : Res := .next s.askReset

/-- PKG_RESET_WRITE: `value` to PKG.RESET; a KEY of 0x5752 starts a warm reset (01 R37), one in stage 0x01 nothing. DESIGN CHOICE [log 87]. -/
def State.writeReset (s : State) (v : Word) : State := if fld v.toNat 0 16 == 0x5752 then s.askReset else s

/-- PKG_RESET_WRITE (01 R37). -/
def execPkgResetWrite (s : State) : Res := .next (s.writeReset s.ev.value)

/-! The stages (01 R27 to R36). -/

/-- The start in progress is in stage `n`. -/
def State.inStage (s : State) (n : Nat) : Bool := s.clocked && s.pkg.mode == 0 && s.pkg.stage == n

/-- Stage `n` is entered; its time bound runs from here (01 R32). -/
def State.enterStage (s : State) (n : Nat) : State := s.modPkg fun p => { p with stage := n, stageAt := s.time.toNat }

/-- The start fails with reason `c`: the reason is recorded and a warm reset follows (01 R33). -/
def State.failStart (s : State) (c : Nat) : State := (s.writeBlock fun f => { f with lastReason := c }).warm

/-- MINIMAL MODE with reason `c`: only Proem core 0, the physical function and the I3C port run (01 R36). DEDUCED [log 67]. -/
def State.enterMinimal (s : State) (c : Nat) : State :=
  let s := s.lastWords.modPkg fun p => { p with mode := 2, reason := c, alert := true }
  { s with hif := { s.hif with threads := (List.range 96).foldl (fun m t => SMap.upd m (32 + t) {} fun p => { p with halted := true }) s.hif.threads } }

/-- The time-out code of a stage (01 R32). -/
def stageCode (n : Nat) : Nat :=
  match n with
  | 2 => 0x0B | 3 => 0x0C | 4 => 0x0D | 5 => 0x05 | 6 => 0x06 | _ => 0x07

/-- The time bound of a stage in nanoseconds; stage 0x01 has no TIME to measure its own by (01 R32). -/
def stageBound (n : Nat) : Nat :=
  match n with
  | 2 => 5000000 | 3 => 150000000 | 4 => 50000000 | 5 => 20000000 | 6 => 300000000 | _ => 20000000

/-- The stage in progress has exceeded its bound (01 R32). -/
def State.overBound (s : State) : Bool :=
  decide (2 ≤ s.pkg.stage ∧ s.pkg.stage < 8 ∧ s.pkg.stageAt + stageBound s.pkg.stage < s.time.toNat)

/-- The stage in progress times out: the start fails with its code; a time-out of stage 0x01, or of stage 0x02 before the boot ROM has
written FAILS, cannot be recorded there (01 R32 R33). DEDUCED [log 67]. -/
def State.timeOut (s : State) : State :=
  if s.pkg.stage == 1 then s.modPkg fun p => { p with stuckPower := true, alert := true }
  else if s.pkg.stage == 2 && !s.pkg.romWrote then (s.modPkg fun p => { p with early := min 3 (p.early + 1) }).warm
  else s.failStart (stageCode s.pkg.stage)

/-- The work of stage `n` ends, in the stage and within its bound; past the bound the start fails instead (01 R32). -/
def State.endStage (s : State) (n : Nat) (k : State → State) : State :=
  if !(s.inStage n) then s else if s.overBound then s.timeOut else k s

/-- STAGE_POWER: the hub loops have locked, and TIME starts from zero (01 R26 R32). -/
def execStagePower (s : State) : Res :=
  .next (if s.inStage 1 then
    { (s.modPkg fun p => { p with stage := 2, startAt := 0, stageAt := 0 }) with time := 0 }
  else s)

/-- The Vault's secrets of this start: the PUF secret, the identity, the seeded generator, and a new house line key (01 R27, 05 R125). -/
def State.deriveSecrets (s : State) : State :=
  let s := { s with prot := { s.prot with vault := s.prot.vault.seed } }
  let (key, s) := s.random 64
  let v := { s.prot.vault with puf := s.flash.puf, houseKey := key }
  { s with
    prot := { s.prot with vault := v }
    pkg := { s.pkg with devid := sha256 (Config.identityKey v.identitySeeds) } }

/-- STAGE_ROM: the boot ROM reconstructs the PUF from the helper data (it succeeds with the flag), reads the replay-protected block and
checks the fail count (01 R27 R32 R33). The block fails authentication where its HMAC is not that of its data and counter, or where the
flash answers with another block than the last written (`a` = 0). DESIGN CHOICE [log 2]. DEDUCED [log 67]. -/
def execStageRom (s : State) : Res :=
  .next (s.endStage 2 fun s =>
    if s.pkg.romWrote then s
    else if 3 ≤ s.pkg.early then s.enterMinimal 0x0B
    else if !s.ev.flag then s.failStart 0x04
    else
      let s := s.deriveSecrets
      if s.ev.a == 0 || !s.flash.authentic then s.enterMinimal 0x09
      else
        let f := s.flash
        let s := s.modPkg fun p => { p with failsRead := f.fails, reason := f.lastReason }
        if 3 ≤ f.fails then s.enterMinimal (if f.lastReason == 0 then 0x0A else f.lastReason)
        else ((s.writeBlock fun f => { f with fails := f.fails + 1, lastReason := 0x0A }).modPkg fun p =>
          { p with romWrote := true, early := 0 }).enterStage 3)

/-- A firmware image loads into Proem memory, and Proem's threads start it anew (04 R110). What a thread has been sent stays queued.
DESIGN CHOICE [log 61]. -/
def State.loadFirmware (s : State) (image : List Byte) : State :=
  let fill (m : List (Nat × Byte)) : List Host.Cell := m.foldl (fun c x => Memory.writeN c x.1 [x.2]) []
  { s with hif := { s.hif with
    sram := fill (Config.firmwareMemory image false)
    shared := fill (Config.firmwareMemory image true)
    threads := (s.hif.threads.map fun (e : Nat × PThread) =>
      (e.1, ({ packets := e.2.packets, timer := e.2.timer, halted := e.2.halted } : PThread))).filter fun e => e.2 != ({} : PThread) } }

/-- STAGE_FW: the firmware image is read, its signature and its SVN checked, and it runs (01 R29 R32, 04 R110). -/
def execStageFw (s : State) : Res :=
  .next (s.endStage 3 fun s =>
    let s := { s with flash := { s.flash with active := s.flash.next.getD s.flash.active, next := none } }
    let slot := SMap.get s.flash.slots s.flash.active {}
    let svn := Config.firmwareSvn slot.image % 2 ^ 16
    if !slot.valid || !(Config.firmwareSigned slot.image) then s.failStart 0x01
    else if svn < s.flash.fwSvn then s.failStart 0x02
    else
      let s := (s.modPkg fun p => { p with svn := svn, newFwSvn := svn }).enterStage 4
      ({ s with hif := { s.hif with fwRunning := s.flash.active } }).loadFirmware slot.image)

/-- The blob's fields and signature are valid (01 R28). -/
def State.blobOk (s : State) (b : List Byte) : Bool :=
  let key := slice b 32 32
  leAt b 0 4 == 0x42434A46 && leAt b 4 2 == 1 && leAt b 8 4 == 29856 && b.length == 29856 && leAt b 12 4 == 0 && leAt b 22 2 == 0 &&
    leAt b 28 4 == 0 && decide (600 ≤ leAt b 24 2 ∧ leAt b 24 2 ≤ 2600) && decide (leAt b 26 2 ≤ 64) &&
    key == (if s.flash.opKey.all (· == 0) then Config.romKeys 1 else s.flash.opKey) && Config.signed key (b.take 64) (b.drop 64)

/-- STAGE_CFG: the configuration blob is checked and applied; PCIe link training can start (01 R28 R32, 02 R50). DESIGN CHOICE [log 12]. -/
def execStageCfg (s : State) : Res :=
  let b := s.flash.blob
  let image := (SMap.get s.flash.slots s.hif.fwRunning {}).image
  .next (s.endStage 4 fun s =>
    if !(s.blobOk b) then s.failStart 0x03
    else if leAt b 6 2 < s.flash.cfgSvn then s.failStart 0x02
    else
      let s := (s.modPkg fun p => { p with
        pcap := leAt b 24 2, macBase := beAt b 16 6, nVf := leAt b 26 2, newCfgSvn := leAt b 6 2 }).enterStage 5
      { s with prot := { s.prot with vault := { s.prot.vault with measurement := sha256 (image ++ b) } } })

/-- STAGE_CLOCKS: the compute-die loops lock and the SerDes calibrate, with the flag (01 R32). DESIGN CHOICE [log 2]. -/
def execStageClocks (s : State) : Res :=
  .next (s.endStage 5 fun s => if s.ev.flag then s.enterStage 6 else s.failStart 0x05)

/-- STAGE_HBM: the HBM stacks are trained, with the flag (01 R32). DESIGN CHOICE [log 2]. -/
def execStageHbm (s : State) : Res :=
  .next (s.endStage 6 fun s => if s.ev.flag then s.enterStage 7 else s.failStart 0x06)

/-- The start scrub: every unit is zeroed, and every HBM page carries a zero mark (05 R142 R143). DEDUCED [log 82]. -/
def State.startScrub (s : State) : State :=
  let n := s.chipPend
  let s := s.modChip fun c => { c with dirty := [], done := sat48 c.done n, tmLeft := [] }
  { s with
    cores := (s.cores.filter fun e => e.2.failed).map fun e => (e.1, { failed := true })
    mem := { s.mem with bytes := [], lines := [], pageTag := [], zeroMark := { rest := true }, zeroFill := [] } }

/-- STAGE_SCRUB: the start scrub is done, with the flag; READY is entered (01 R29 R32 R33, 05 R144 R145). -/
def execStageScrub (s : State) : Res :=
  .next (s.endStage 7 fun s =>
    if !s.ev.flag || s.prot.chip.failed.any (fun e => !e.2.isEmpty) then s.failStart 0x07
    else
      let s := s.startScrub.writeBlock fun f => { f with
        fails := 0, fwSvn := max f.fwSvn s.pkg.newFwSvn, cfgSvn := max f.cfgSvn s.pkg.newCfgSvn }
      let s := (s.modPkg fun p => { p with mode := 1 }).enterStage 8
      { s with mem := { s.mem with
        mcbBase := some (Config.house 0), houseRoot := some (Config.house 1), saveBase := Config.house 2, saveCount := Config.house 3
        segBase := some (Config.house 4) } })

/-- STAGE_TIMEOUT: the stage in progress exceeds its bound; stage 0x01, in which TIME does not run yet, may do so at any moment
(01 R32 R33). DEDUCED [log 67]. -/
def execStageTimeout (s : State) : Res :=
  .next (if s.clocked && s.pkg.mode == 0 && (s.pkg.stage == 1 || s.overBound) then s.timeOut else s)

/-- START_WATCHDOG: a start that has not reached READY within 2 s of its beginning fails with reason 0x08 (01 R32). -/
def execStartWatchdog (s : State) : Res :=
  .next (if s.clocked && s.pkg.mode == 0 && decide (2 ≤ s.pkg.stage ∧ s.pkg.stage < 8) &&
      decide (s.pkg.startAt + 2000000000 ≤ s.time.toNat) then s.failStart 0x08 else s)

/-! Power (01 R18). -/

/-- The package power level after an estimate with mean `m`. DESIGN CHOICE [log 66]. -/
def powerStep (level m pcap : Nat) : Nat :=
  if pcap < m then min 3 (level + 1) else if 100 * m < 95 * pcap then level - 1 else level

/-- POWER_ESTIMATE: `a` is the mean power of the last 1 ms; the package level changes by at most one step per millisecond (01 R18). -/
def execPowerEstimate (s : State) : Res :=
  let m := s.ev.a % 4096
  .next (if !s.clocked || s.pkg.stage < 2 then s
    else
      let s := s.modPkg fun p => { p with pwr := m }
      if s.time.toNat < s.pkg.powerLevelAt + 1000000 then s
      else
        let l := powerStep s.pkg.powerLevel m s.pkg.pcap
        if l == s.pkg.powerLevel then s else s.modPkg fun p => { p with powerLevel := l, powerLevelAt := s.time.toNat })

/-! The sensor sweep (01 R20 to R24, 06 R161). -/

/-- A thermal level after a sweep, by one step: entered at 95, 100 and 105 degrees, left below 93, 98 and 103 (01 R21).
DESIGN CHOICE [log 66]. -/
def thermalStep (level : Nat) (t : Int) : Nat :=
  if level < 3 && decide (16 * (95 + 5 * (level : Int)) ≤ t) then level + 1
  else if 0 < level && decide (t < 16 * (93 + 5 * ((level : Int) - 1))) then level - 1
  else level

/-- A flag with hysteresis. DEDUCED [log 68]. -/
def hold (on off : Int) (was : Bool) (t : Int) : Bool := if on ≤ t then true else if t < off then false else was

/-- A 12-bit set of stacks by a rule. -/
def stackSet (f : Nat → Bool) : BitVec 12 := BitVec.ofNat 12 (leNatBits ((List.range 12).map f))
where
  /-- Bits, lowest first, as a number. -/
  leNatBits : List Bool → Nat
    | [] => 0
    | b :: r => b2n b + 2 * leNatBits r

/-- A core of a running launch that is not a gang may rotate: the hot core and the cooler free one (06 R161). DEDUCED [log 52]. -/
def State.rotation (s : State) (n : Nat) (l : Launch) : Option (Nat × Nat) :=
  if l.st != .bound || l.record.gang then none
  else
    let free := s.freeCores l.record l.part (some n)
    (sortBy (fun a b => decide (s.allowance a 105 < s.allowance b 105)) l.cores).findSome? fun c =>
      if s.allowance c 105 ≤ 20 then (free.find? fun d => decide (s.allowance c 105 + 16 ≤ s.allowance d 105)).map fun d => (c, d) else none

/-- Every launch's mark for a rotation after a sweep; one that still waits for its core's boundary stands (06 R161). -/
def State.markRotations (s : State) : State :=
  s.circ.launches.foldl (fun (s : State) e =>
    match e.2 with
    | some l =>
      let waits := match l.rotate with | some (hot, _) => l.cores.contains hot | none => false
      if waits then s else s.modLaunch e.1 fun x => { x with rotate := s.rotation e.1 l }
    | none => s) s

/-- SWEEP_END: the 617 readings of a sweep are published; TAR, the thermal levels, the refresh rates and the trip follow
(01 R20 to R24). DESIGN CHOICE [log 2]. DEDUCED [log 68]. -/
def execSweepEnd (s : State) : Res :=
  let r (n : Nat) : Int := (s.ev.readings.getD n 0).toInt
  .next (if !s.clocked || s.pkg.stage < 2 || s.ev.readings.length != 617 then s
    else
      let p := s.pkg
      let level (m : SMap Nat) (k sensor : Nat) : SMap Nat := SMap.upd m k 0 fun l => thermalStep l (r sensor)
      let trip := ([600, 601, 602, 603, 616].any fun n => decide (1840 ≤ r n)) || (List.range 12).any fun k => decide (1680 ≤ r (604 + k))
      let s := { s with pkg := { p with
        temp := s.ev.readings.zipIdx.map fun (x : BitVec 16 × Nat) => (x.2, ({ v := true, t := x.1 } : TempEntry))
        sweep := p.sweep + 1
        thermal := level (level (level (level (level p.thermal 0 600) 1 601) 2 602) 3 603) 4 616
        refreshWant := stackSet fun k => hold 1361 1328 (p.refreshWant.getLsbD k) (r (604 + k))
        tarRfx := p.refreshNow
        halfRate := stackSet fun k => hold 1520 1488 (p.halfRate.getLsbD k) (r (604 + k))
        tripped := trip } }
      let s := s.modPkg fun p => { p with tarLevel := (List.range 4).foldl (fun m d => SMap.set m d (s.dieLevel d) 0) [] }
      s.markRotations)

/-- HBM_REFRESH_BOUNDARY: stack `a` comes to its next refresh-interval boundary (01 R22). -/
def execHbmRefreshBoundary (s : State) : Res :=
  .next (if !s.clocked then s
    else s.modPkg fun p => { p with refreshNow := stackSet fun k => if k == s.ev.a then p.refreshWant.getLsbD k else p.refreshNow.getLsbD k })

end Sys2Proof.Machine
end

