-- ==== Sys2Proof/Machine/Regs.lean ====
section
/-! DEFINITION. Machine/Regs.lean: the register windows: the package, Ethernet, Smivy and HIF windows of PF BAR0 and of the house window, and
the queue windows of the functions (00 R6 R8, 01 R37, 02 R62 to R67, 03 R85 to R89, 04 R91 R106 R107, 05 R127 R146, 06 R176 R177,
19 R504). -/
namespace Sys2Proof.Machine

/-! What registers read as. A word is the eight bytes at an offset that is a multiple of 8; an unimplemented one reads zero (00 R8). -/

/-- PKG.BOOTST (01 R35). -/
def State.bootst (s : State) : Nat :=
  s.pkg.reason % 2 ^ 8 * 2 ^ 40 + s.pkg.svn % 2 ^ 16 * 2 ^ 24 + s.pkg.failsRead % 2 ^ 4 * 2 ^ 20 + s.pkg.mode % 2 ^ 4 * 2 ^ 16 +
    s.pkg.stage % 2 ^ 8 * 2 ^ 8 + s.pkg.early % 2 ^ 2

/-- PKG.TEMP[n] (01 R20). -/
def State.tempWord (s : State) (n : Nat) : Nat :=
  let e := SMap.get s.pkg.temp n {}
  if n ≤ 616 then b2n e.v * 2 ^ 31 + e.t.toNat else 0

/-- CHP.STAT (05 R146). -/
def State.chpStat (s : State) : Nat :=
  b2n (s.chipPhase.isSome) * 2 ^ 63 + b2n s.prot.chip.rst * 2 ^ 62 + (s.chipPhase.getD 0xFF) * 2 ^ 48 + s.chipPend

/-- CHP.CLASS[k] (05 R146). -/
def State.chpClass (s : State) (k : Nat) : Nat :=
  (SMap.get s.prot.chip.failed k []).length * 2 ^ 32 + if k == 6 then 0 else (s.dirtySet k).count (classUnits k)

/-- CHP.TMARK (19 R504). -/
def State.tmark (s : State) : Nat := b2n s.prot.chip.tmBusy * 2 ^ 63 + s.prot.chip.tmLeft.length * 2 ^ 16 + s.prot.chip.tmTag

/-- PKG.PART[p] (05 R146). -/
def State.pkgPart (s : State) (p : Nat) : Nat :=
  (s.part p).st * 2 ^ 16 + ((maskCores (s.part p).cores).filter fun c => !(s.core c).failed).length

/-- CIRC.CORE[n] (06 R176). DEDUCED [log 53]. -/
def State.circCore (s : State) (c : Nat) : Nat :=
  let here := b2n (s.core c).resident.isSome
  let st := match s.owner c with
    | some n =>
      let l := (s.launchAt n).getD {}
      let other := b2n (match (s.core c).resident with | some (m, _) => m != n | none => false)
      (if (s.preempt c).isSome then 2 else 1) * 2 ^ 62 + (1 + other) * 2 ^ 60 + n * 2 ^ 46 + l.tag * 2 ^ 32
    | none => (if s.isDirty 0 c then 3 else 0) * 2 ^ 62 + here * 2 ^ 60 + 0x3FFE * 2 ^ 32
  st + match s.partOfCore c with
    | some p => p
    | none => 2 ^ 7

/-- VAULT.SLOT[k] (05 R127). -/
def State.vaultSlot (s : State) (k : Nat) : Nat :=
  let x := s.keySlotAt k
  if k == 0 then 2 ^ 62
  else x.st * 2 ^ 62 + x.purp * 2 ^ 61 + b2n x.p * 2 ^ 60 + x.part * 2 ^ 55 + x.mcx * 2 ^ 42 + x.binds * 2 ^ 16

/-- A word of the package window; `house` tells the house window from PF BAR0 and I3C. -/
def State.pkgWord (s : State) (house : Bool) (o : Nat) : Nat :=
  if s.pkg.stuckPower && o != 0 then 0
  else if o == 0 then s.bootst
  else if o == 0x8 then s.pkg.pcap
  else if o == 0x10 then s.pkg.pwr
  else if 0x20 ≤ o ∧ o < 0x40 then leAt s.pkg.devid (o - 0x20) 8
  else if 0x1000 ≤ o ∧ o < 0x2000 then s.tempWord ((o - 0x1000) / 4) + 2 ^ 32 * s.tempWord ((o - 0x1000) / 4 + 1)
  else if o == 0x2000 then s.chpStat
  else if o == 0x2008 then s.prot.chip.done
  else if o == 0x2010 then s.prot.chip.fail
  else if o == 0x2018 then (if house then s.tmark else 0)
  else if 0x2040 ≤ o ∧ o < 0x2080 then s.chpClass ((o - 0x2040) / 8)
  else if 0x2100 ≤ o ∧ o < 0x2140 then SMap.get s.prot.chip.err ((o - 0x2100) / 8) 0
  else if 0x2200 ≤ o ∧ o < 0x2300 then s.pkgPart ((o - 0x2200) / 8)
  else if 0x3000 ≤ o ∧ o < 0x3000 + 8 * 600 then s.circCore ((o - 0x3000) / 8)
  else if 0x4400 ≤ o ∧ o < 0x4440 then SMap.get s.circ.cnt ((o - 0x4400) / 8) 0
  else if 0x10000 ≤ o ∧ o < 0x18000 then s.vaultSlot ((o - 0x10000) / 8)
  else 0

/-- An address-table entry's 32 bytes (02 R65). -/
def EthAddr.bytes (e : EthAddr) : List Byte :=
  natBe 16 e.ip.toNat ++ natLe 2 e.vid.toNat ++ natLe 1 e.flags.toNat ++ natLe 1 e.part ++ natLe 1 e.queue ++ List.replicate 11 0

/-- A word of the Ethernet window. -/
def State.ethWord (s : State) (o : Nat) : Nat :=
  if o < 0x400 then
    let p := s.port (o / 0x100)
    if o % 0x100 == 0 then p.mtu * 2 ^ 18 + p.speed * 4 + b2n p.an * 2 + b2n p.en
    else if o % 0x100 == 8 then p.speedNow * 4 + b2n p.al * 2 + b2n p.link
    else 0
  else if o == 0x400 then s.eth.mrpPort
  else if 0x2000 ≤ o ∧ o < 0x2100 then
    let q := s.epool ((o - 0x2000) / 8)
    if q.gone then 0 else q.sessMax * 2 ^ 48 + q.slot * 2 ^ 46 + q.count * 2 ^ 32 + q.base
  else if 0x3000 ≤ o ∧ o < 0x3400 then
    let k := o % 0x100 / 8
    if k < 16 then SMap.get s.eth.portCtr (32 * ((o - 0x3000) / 0x100) + k) 0 else 0
  else if 0x4000 ≤ o ∧ o < 0x5000 then
    let k := o % 0x80 / 8
    if k < 8 then SMap.get s.eth.partCtr (16 * ((o - 0x4000) / 0x80) + k) 0 else 0
  else 0

/-- The 64 bytes of SL.WHEEL[n] as written (03 R87). -/
def SlPort.wheelBytes (x : SlPort) : List Byte :=
  (List.range 64).map fun k => if k == 0 then 0 else BitVec.ofNat 8 (SMap.get x.wheelNext k 0)

/-- A word of the Smivy window. -/
def State.slWord (s : State) (o : Nat) : Nat :=
  if o == 0 then b2n s.sl.master * 2 ^ 16 + s.sl.pkg
  else if o == 8 then
    s.sl.hops * 2 ^ 40 + s.sl.parent * 2 ^ 36 + b2n s.sl.sync * 2 ^ 32 + (BitVec.ofInt 32 s.sl.ofs).toNat
  else if 0x1000 ≤ o ∧ o < 0x2000 then
    let x := s.slp ((o - 0x1000) / 0x100)
    if o % 0x100 == 0 then b2n x.half * 2 + b2n x.en
    else if o % 0x100 == 8 then x.peer * 2 ^ 16 + b2n x.width * 2 + b2n x.link
    else 0
  else if 0x2000 ≤ o ∧ o < 0x3000 then
    let k := o % 0x100 / 8
    if k < 7 then SMap.get s.sl.ctr (32 * ((o - 0x2000) / 0x100) + k) 0 else 0
  else if 0x10000 ≤ o ∧ o < 0x12000 then
    let d := (o - 0x10000) / 4
    (SMap.get s.sl.route d 0).toNat + 2 ^ 32 * (SMap.get s.sl.route (d + 1) 0).toNat
  else 0

/-- The 32 bytes of a stage-2 entry (04 R107). -/
def Stage2.bytes (e : Stage2) : List Byte :=
  natLe 2 (b2n e.v * 2 ^ 15 + b2n e.mq.isSome * 2 ^ 14 + e.mq.getD 0 * 2 ^ 7 + e.fn) ++ natLe 1 (b2n e.kept.isSome * 2 + b2n e.p) ++
    natLe 1 0 ++ natLe 4 e.tail ++ natLe 8 e.qcb ++ natLe 8 e.digest ++ natLe 1 ((e.kept.getD (0, 0)).1) ++ natLe 1 0 ++
    natLe 2 ((e.kept.getD (0, 0)).2) ++ natLe 4 0

/-- A word of the HIF window (04 R107). -/
def State.hifWord (s : State) (o : Nat) : Nat :=
  if o < 8 * 65 then (s.fn (o / 8)).vqCount * 2 ^ 32 + (s.fn (o / 8)).vqBase
  else if 0x1000 ≤ o ∧ o < 0x1000 + 16 * 65 then
    let v := (o - 0x1000) / 16
    if o % 16 == 0 then s.bkDepth v * 2 ^ 32 + s.bkRate v
    else (BitVec.ofInt 48 ((s.fn v).bkWrite.getD (s.bkLevel v))).toNat
  else if o == 0x2000 then s.hif.lostCnt
  else if o == 0x2008 then s.hif.dbDrop
  else if 0x100000 ≤ o ∧ o < 0x300000 then leAt (s.st2 ((o - 0x100000) / 32)).bytes (o % 32) 8
  else 0

/-- A word of function `v`'s queue window (04 R106). -/
def State.fnWord (s : State) (v o : Nat) : Nat :=
  let r := s.fn v
  if o == 0 then r.evBase.toNat * 64
  else if o == 8 then b2n r.evEn * 2 ^ 8 + r.evLog
  else if o == 0x10 then r.evHead
  else if o == 0x18 then r.evTail
  else if o == 0x20 then r.evOvf
  else if o == 0x28 then r.s1Cnt
  else if 0x4000 ≤ o ∧ o < 0x8000 then
    let g := (o - 0x4000) / 4
    (SMap.get r.s1 g 0).toNat + 2 ^ 32 * (SMap.get r.s1 (g + 1) 0).toNat
  else 0

/-! Blocks: what one access reads or writes at once: a word, or a whole entry of a table whose writes count as a whole. -/

/-- A register window: PF BAR0 as the host and the board controller reach it, the same window as the house reaches it, and a function's
queue window. -/
inductive Win where
  | bar0
  | house
  | queue (v : Nat)
deriving DecidableEq, Repr

/-- An offset of BAR0 lies in the Ethernet address table (02 R65). -/
def inAddr (o : Nat) : Bool := decide (0x100800 ≤ o ∧ o < 0x101800)
/-- An offset of BAR0 lies in a wheel (03 R87). -/
def inWheel (o : Nat) : Bool := decide (0x201000 ≤ o ∧ o < 0x202000 ∧ 0x40 ≤ o % 0x100 ∧ o % 0x100 < 0x80)

/-- The size of the block at an offset. -/
def Win.blockSize (w : Win) (o : Nat) : Nat :=
  match w with
  | .queue _ => 8
  | _ => if inAddr o then 32 else if inWheel o then 64 else 8

/-- A block of BAR0; in minimal mode the Ethernet and Smivy windows read zero (04 R91 R112). -/
def State.bar0Block (s : State) (house : Bool) (o : Nat) : List Byte :=
  if o < 0x100000 then natLe 8 (s.pkgWord house o)
  else if o < 0x300000 then
    if s.minimal then List.replicate 64 0
    else if inAddr o then (s.eaddr ((o - 0x100800) / 0x400) (o % 0x400 / 32)).bytes
    else if inWheel o then (s.slp ((o - 0x201000) / 0x100)).wheelBytes
    else if o < 0x200000 then natLe 8 (s.ethWord (o - 0x100000))
    else natLe 8 (s.slWord (o - 0x200000))
  else natLe 8 (s.hifWord (o - 0x300000))

/-- The bytes of the block that begins at an offset. -/
def State.block (s : State) (w : Win) (o : Nat) : List Byte :=
  match w with
  | .bar0 => s.bar0Block false o
  | .house => s.bar0Block true o
  | .queue v => natLe 8 (s.fnWord v o)

/-! Read-clear counters (00 R6, 02 R67, 03 R89, 04 R106 R107, 05 R146, 06 R177). -/

/-- A read of a block of BAR0 clears it where it is a read-clear counter. -/
def State.clearBar0 (s : State) (o : Nat) : State :=
  if s.pkg.stuckPower then s
  else if o == 0x2008 then s.modChip fun c => { c with done := 0 }
  else if o == 0x2010 then s.modChip fun c => { c with fail := 0 }
  else if 0x2100 ≤ o ∧ o < 0x2140 then s.modChip fun c => { c with err := SMap.drop c.err ((o - 0x2100) / 8) }
  else if 0x4400 ≤ o ∧ o < 0x4440 then s.modCirc fun c => { c with cnt := SMap.drop c.cnt ((o - 0x4400) / 8) }
  else if 0x103000 ≤ o ∧ o < 0x103400 ∧ s.minimal = false then
    { s with eth := { s.eth with portCtr := SMap.drop s.eth.portCtr (32 * ((o - 0x103000) / 0x100) + o % 0x100 / 8) } }
  else if 0x104000 ≤ o ∧ o < 0x105000 ∧ s.minimal = false then
    { s with eth := { s.eth with partCtr := SMap.drop s.eth.partCtr (16 * ((o - 0x104000) / 0x80) + o % 0x80 / 8) } }
  else if 0x202000 ≤ o ∧ o < 0x203000 ∧ s.minimal = false then
    { s with sl := { s.sl with ctr := SMap.drop s.sl.ctr (32 * ((o - 0x202000) / 0x100) + o % 0x100 / 8) } }
  else if o == 0x302000 then { s with hif := { s.hif with lostCnt := 0 } }
  else if o == 0x302008 then { s with hif := { s.hif with dbDrop := 0 } }
  else s

/-- A read of a block clears a read-clear counter. -/
def State.clearBlock (s : State) (w : Win) (o : Nat) : State :=
  match w with
  | .queue v => if o == 0x28 then s.modFn v fun r => { r with s1Cnt := 0 } else s
  | _ => s.clearBar0 o

/-- `n` bytes read from a window, block by block. DESIGN CHOICE [log 69]. -/
def State.winRead (w : Win) (fuel o n : Nat) (s : State) : State × List Byte :=
  match fuel with
  | 0 => (s, [])
  | fuel + 1 =>
    if n == 0 then (s, [])
    else
      let size := w.blockSize o
      let here := min n (size - o % size)
      let bs := slice (s.block w (o / size * size)) (o % size) here
      let (s, r) := State.winRead w fuel (o + here) (n - here) (s.clearBlock w (o / size * size))
      (s, bs ++ r)

/-! Writes. -/

/-- An address-table entry from its bytes: reserved bits are ignored (02 R65). DESIGN CHOICE [log 69]. -/
def readAddr (b : List Byte) : EthAddr :=
  { ip := BitVec.ofNat 128 (beAt b 0 16), vid := BitVec.ofNat 12 (leAt b 16 2), flags := BitVec.ofNat 3 (leAt b 18 1)
    part := leAt b 19 1 % 32, queue := leAt b 20 1 % 64 }

/-- A write of ETH.ADDR[n][k]: one that would leave a valid entry with a queue that its partition does not own is ignored (02 R65).
DESIGN CHOICE [log 69]. -/
def State.writeAddr (s : State) (n k : Nat) (b : List Byte) : State :=
  let e := readAddr b
  if e.flags.getLsbD 0 && !((s.part e.part).queues.getLsbD (64 * n + e.queue)) then s
  else { s with eth := { s.eth with addr := SMap.set s.eth.addr (32 * n + k) e {} } }

/-- A write of ETH.PART[p] (02 R66). -/
def State.writePool (s : State) (p v : Nat) : State :=
  let q := s.epool p
  let x : EthPool := { sessMax := fld v 48 16, slot := fld v 46 2, count := fld v 32 12, base := fld v 0 15, held := q.held }
  let first := x.base * 0x10000
  let len := 2 * x.count * x.slotBytes
  let inside := (List.range 1024).all fun b => (s.part p).banks.getLsbD b || first + len ≤ b * 0x200000 || b * 0x200000 + 0x200000 ≤ first
  if x.slot == 3 || (x.count != 0 && (!inside || 2 ^ 31 < first + len)) ||
      (!q.held.isEmpty && (x.base != q.base || x.slot != q.slot || x.count != q.count)) then s
  else { s with eth := { s.eth with pools := SMap.set s.eth.pools p x {} } }

/-- A write of SL.WHEEL[n]: one that leaves the pool fewer than 64 flits is ignored (03 R74 R87). -/
def State.writeWheel (s : State) (n : Nat) (b : List Byte) : State :=
  let m : SMap Nat := (List.range 63).foldl (fun m k =>
    let x := (b.getD (k + 1) 0).toNat
    SMap.set m (k + 1) (fld x 0 5 + b2n (bitOf x 7) * 0x80) 0) []
  if poolFlits m < 64 then s else s.modSlp n fun x => { x with wheelNext := m }

/-- A word written to the package window (01 R37, 19 R504). -/
def State.writePkg (s : State) (house : Bool) (o v : Nat) : State :=
  if o == 8 then
    if s.pkg.stuckPower || fld v 0 12 < 600 || 2600 < fld v 0 12 then s else s.modPkg fun p => { p with pcap := fld v 0 12 }
  else if o == 0x18 then s.writeReset (BitVec.ofNat 64 v)
  else if o == 0x2018 && house then s.writeTmark v
  else s

/-- A word written to the Ethernet window (02 R62 to R66). -/
def State.writeEth (s : State) (o v : Nat) : State :=
  if o < 0x400 then (if o % 0x100 == 0 then s.writeEthPctl (o / 0x100) (BitVec.ofNat 64 v) else s)
  else if o == 0x400 then { s with eth := { s.eth with mrpPort := fld v 0 16 } }
  else if 0x2000 ≤ o ∧ o < 0x2100 then s.writePool ((o - 0x2000) / 8) v
  else s

/-- A word written to the Smivy window (03 R71 R85 R87 R88). -/
def State.writeSl (s : State) (o v : Nat) : State :=
  if o == 0 then
    if s.sl.ports.any fun e => e.2.en then s else ({ s with sl := { s.sl with master := bitOf v 16, pkg := fld v 0 11 } }).learnParent
  else if 0x1000 ≤ o ∧ o < 0x2000 then
    if o % 0x100 == 0 then s.writeSlPctl ((o - 0x1000) / 0x100) (BitVec.ofNat 64 v) else s
  else if 0x10000 ≤ o ∧ o < 0x12000 then
    let d := (o - 0x10000) / 4
    { s with sl := { s.sl with
      route := SMap.set (SMap.set s.sl.route d (BitVec.ofNat 16 v) 0) (d + 1) (BitVec.ofNat 16 (v / 2 ^ 32)) 0 } }
  else s

/-- A word written to the HIF window (04 R107). -/
def State.writeHif (s : State) (o v : Nat) : State :=
  if 0x1000 ≤ o ∧ o < 0x1000 + 16 * 65 then
    let f := (o - 0x1000) / 16
    if o % 16 == 0 then s.modFn f fun r => { r with bkDepth := some (fld v 32 32), bkRate := some (fld v 0 18) }
    else s.modFn f fun r => { r with bkWrite := some (sext v 48) }
  else s

/-- A word written to function `v`'s queue window (04 R106). -/
def State.writeFn (s : State) (v o x : Nat) : State :=
  if o == 0 then s.modFn v fun r => { r with evBase := BitVec.ofNat 58 (x / 64) }
  else if o == 8 then
    let log := fld x 0 5
    let s := s.modFn v fun r => { r with evEn := bitOf x 8, evLog := if r.evEn || log < 4 || 12 < log then r.evLog else log }
    if v == 0 then s.hostLostFirst else s
  else if o == 0x10 then s.writeEvHead v x
  else if 0x4000 ≤ o ∧ o < 0x8000 then
    let g := (o - 0x4000) / 4
    let e (y : Nat) : BitVec 32 := BitVec.ofNat 32 (b2n (bitOf y 31) * 2 ^ 31 + fld y 0 16)
    s.modFn v fun r => { r with s1 := SMap.set (SMap.set r.s1 g (e x) 0) (g + 1) (e (x / 2 ^ 32)) 0 }
  else s

/-- A block written to BAR0; what the window does not implement ignores writes (00 R8). -/
def State.writeBar0 (s : State) (house : Bool) (o : Nat) (b : List Byte) : State :=
  if o < 0x100000 then s.writePkg house o (leNat b)
  else if o < 0x300000 then
    if s.minimal then s
    else if inAddr o then s.writeAddr ((o - 0x100800) / 0x400) (o % 0x400 / 32) b
    else if inWheel o then s.writeWheel ((o - 0x201000) / 0x100) b
    else if o < 0x200000 then s.writeEth (o - 0x100000) (leNat b)
    else s.writeSl (o - 0x200000) (leNat b)
  else s.writeHif (o - 0x300000) (leNat b)

/-- A block written. -/
def State.writeBlockAt (s : State) (w : Win) (o : Nat) (b : List Byte) : State :=
  match w with
  | .bar0 => s.writeBar0 false o b
  | .house => s.writeBar0 true o b
  | .queue v => s.writeFn v o (leNat b)

/-- Bytes written to a window, block by block; the bytes of a block that are not written keep what they read as. DESIGN CHOICE [log 69]. -/
def State.winWrite (w : Win) (fuel o : Nat) (bs : List Byte) (s : State) : State :=
  match fuel with
  | 0 => s
  | fuel + 1 =>
    if bs.isEmpty then s
    else
      let size := w.blockSize o
      let here := min bs.length (size - o % size)
      let old := s.block w (o / size * size)
      State.winWrite w fuel (o + here) (bs.drop here) (s.writeBlockAt w (o / size * size) (splice old (o % size) (bs.take here)))

/-! The house and host windows of the physical map (08 R210). -/

/-- `n` bytes read through a device window: registers, or host memory of function 0 (free bytes where that read fails). -/
def State.busRead (s : State) (t : Target) (n : Nat) : State × List Byte :=
  match t with
  | .house o => s.winRead .house n o n
  | .host a =>
    match s.hostRead 0 a n with
    | some b => (s, b)
    | none => ({ s with free := s.free + n }, (List.range n).map fun i => Config.hostFail (s.free + i))
  | _ => (s, List.replicate n 0)

/-- Bytes written through a device window. -/
def State.busWrite (s : State) (t : Target) (bs : List Byte) : State :=
  match t with
  | .house o => s.winWrite .house bs.length o bs
  | .host a => s.hostWrite 0 a bs
  | _ => s

/-! The events. -/

/-- The window that access space `a` names: 0 PF BAR0, 1 + v the queue window of function v. DEDUCED [log 70]. -/
def winOf (a : Nat) : Win := match a with | 0 => .bar0 | v + 1 => .queue v

/-- A window answers: the package window whenever the part is not held in reset, the others once the host is served, and a queue window
while its function is offered and enabled (01 R32 R36 R37, 04 R90 R91). DEDUCED [log 70]. -/
def State.winUp (s : State) (w : Win) (o : Nat) : Bool :=
  match w with
  | .queue v => s.hostServed && s.fnUp v
  | _ => if o < 0x100000 then !s.pkg.held && !s.pkg.tripped else s.hostServed

/-- COUNTER_READ: a read of the eight bytes at offset `b` of space `a`: the value goes out, and a read-clear counter clears (00 R6). -/
def execCounterRead (s : State) : Res :=
  let w := winOf s.ev.a
  .next (if s.winUp w s.ev.b then
    let (t, bs) := s.winRead w 8 (s.ev.b / 8 * 8) 8
    t.emit (.read (BitVec.ofNat 64 (leNat bs)))
  else s)

/-- REGISTER_WRITE: `bytes` written at offset `b` of space `a` (00 R6 R8). -/
def execRegisterWrite (s : State) : Res :=
  let w := winOf s.ev.a
  .next (if s.winUp w s.ev.b then s.winWrite w s.ev.bytes.length s.ev.b s.ev.bytes else s)

end Sys2Proof.Machine
end

