-- ==== Sys2Proof/Machine/CopyRows.lean ====
section
/-! DEFINITION. Machine/CopyRows.lean: what the copy engine and the matrix fetcher do, row by row: copies with their stages, gathers,
scatters, streams, prefetches and streaming lists (17 R470 to R477 R482, 08 R227 R233, 11 R321). -/
namespace Sys2Proof.Machine

/-! The stages (17 R473). -/

/-- Source elements of a row: `n` of them, element 0 at bit `bit` of the bytes read. -/
def rowElems (mw n bit : Nat) (bs : List Byte) : List Nat :=
  let x := leNat bs
  let sh := if mwUNP mw then 8 * fld mw 28 4 else 0
  (List.range n).map fun i => x / 2 ^ (bit + mwStep mw * i + sh) % 2 ^ mwSrcBits mw

/-- CV of one row: its elements and, into a block format, its scale image (17 R473, 14 R411 R412, 10 R277 R278 R285). -/
def rowConvert (mw : Nat) (image : BitVec 528) (xs : List Nat) : List Nat × BitVec 528 :=
  if !(mwCV mw) then (xs, 0)
  else if fmtB (mwDst mw) then
    let q := quantReg (mwDst mw) rne 0 (xs.map (decodeElem (mwSrc mw)))
    (q.1.map (·.1), q.2.1)
  else if fmtB (mwSrc mw) then
    (xs.zipIdx.map fun p => ((ffmt (mwDst mw)).round rne (scaledElem (mwSrc mw) p.1 image p.2) 0).1, 0)
  else (xs.map fun x => (cvtElem (mwSrc mw) (mwDst mw) rne x 0).1, 0)

/-- Elements packed at the destination width into `n` bytes. -/
def packBytes (mw n : Nat) (xs : List Nat) : List Byte :=
  natLe n (xs.foldr (fun x acc => x % 2 ^ mwDstBits mw + acc * 2 ^ mwDstBits mw) 0)

/-- DEC: a row from its mask and its granules (17 R473). -/
def decompress (mask : Nat) (granules : List Byte) (n i : Nat) : List Byte :=
  match n with
  | 0 => []
  | n + 1 =>
    if bitOf mask i then granules.take 16 ++ decompress mask (granules.drop 16) n (i + 1)
    else List.replicate 16 0 ++ decompress mask granules n (i + 1)

/-- TR: the rows of an n x n block of elements, transposed (17 R473). -/
def transpose (n : Nat) (rows : List (List Nat)) : List (List Nat) :=
  (List.range n).map fun r => (List.range n).map fun c => (rows.getD c []).getD r 0

/-! The runs of a copy: one for cpy, one for each table entry of a gather or scatter (17 R471 R477). -/

/-- A contiguous run of output bytes. -/
structure Run where
  src : Nat := 0
  dst : Nat := 0
  len : Nat := 0
  /-- images read from here on, and written from here on by row of the whole operation -/
  isrc : Nat := 0
  idst : Nat := 0
  /-- its first row -/
  row : Nat := 0
  /-- table entry, and whether it is well formed -/
  entry : Nat := 0
  ok : Bool := true
deriving DecidableEq, Repr

/-- Rows of a run; a malformed entry counts as one. -/
def Run.rows (r : Run) : Nat := if r.ok then rowsOf r.len else 1

/-- Window address of an operation's slot. -/
def CoreCtx.slotVa (x : CoreCtx) (h i : Nat) : Nat := 0x7FFE00000000 + x.slotOff h i

/-- The runs of a table from entry `k` on, with the slot's bytes used so far and the rows so far; it ends at a malformed entry.
DEDUCED [log 48]. -/
def tableRuns (o : CopyOp) (slotVa size n k used row : Nat) : List Run :=
  match n with
  | 0 => []
  | n + 1 =>
    let mw := o.mw.toNat
    let addr := (o.b + leAt o.kept (16 * k) 8) % 2 ^ 64
    let len := leAt o.kept (16 * k + 8) 4
    let rows := row + rowsOf len
    let here := if o.op == 4 then len else mwSrcBytes mw len
    let images := if mwImagesOut mw then 66 * rows else 0
    let ok := len != 0 && leAt o.kept (16 * k + 12) 4 == 0 && decide (used + here + images ≤ size) && len % mwUnit mw == 0 &&
      !(mwST mw && (addr % 128 != 0 || len % 128 != 0))
    let r : Run :=
      { src := if o.op == 4 then addr else slotVa + used, dst := if o.op == 4 then slotVa + used else addr, len := len
        isrc := addr + mwSrcBytes mw len, row := row, entry := o.a + 16 * k, ok := ok }
    if ok then r :: tableRuns o slotVa size n (k + 1) (used + here) rows else [r]

/-- The runs of a copy operation. -/
def CopyOp.runs (o : CopyOp) (x : CoreCtx) : List Run :=
  let mw := o.mw.toNat
  let va := x.slotVa o.f (o.slot.getD 0)
  if o.op == 1 then
    let src := if bitOf mw 1 then va + o.b else o.b
    let dst := if bitOf mw 0 then va + o.a else o.a
    [{ src := src, dst := dst, len := o.n, isrc := src + mwSrcBytes mw o.n, idst := dst + o.n }]
  else
    let rs := tableRuns o va (hSize (x.setupOf o.f)) o.n 0 0 0
    let total := (rs.map fun r => if r.ok then r.len else 0).sum
    rs.map fun r => { r with idst := va + total }

/-- The run that holds a row. -/
def runOf (rs : List Run) (row : Nat) : Option Run := rs.find? fun r => r.row ≤ row && row < r.row + r.rows

/-- Source bytes of output bytes [off, off + n) of a run, with the bit of the first element in them. -/
def Run.source (r : Run) (mw off n : Nat) : Nat × Nat × Nat :=
  let j0 := 8 * off / mwDstBits mw
  let j1 := (8 * (off + n) + mwDstBits mw - 1) / mwDstBits mw
  let b0 := mwStep mw * j0
  (r.src + b0 / 8, (mwStep mw * j1 + 7) / 8 - b0 / 8, b0 % 8)

/-- One row's output before TR, from its source bytes and its image: output elements and image. -/
def Run.convert (r : Run) (mw k : Nat) (bs img : List Byte) : List Nat × BitVec 528 :=
  let off := 256 * k
  let n := min 256 (r.len - off)
  rowConvert mw (bytesBv 528 img) (rowElems mw (mwElems mw n) (r.source mw off n).2.2 bs)

/-- Images as bytes. -/
def imageBytes (i : BitVec 528) : List Byte := natLe 66 i.toNat

/-! One row (17 R470). -/

/-- A read of ranges as a row makes it: pieces and checks, then the lines; the bytes of each range and the state after, in which the
translations used are kept (08 R214). DEDUCED [log 48]. -/
def rowRead (s : State) (w : Who) (c : Nat) (keeps : Piece → Bool) (rs : List (Nat × Nat)) (dests : List Piece) :
    RowM (List (List Byte) × State) :=
  match rowPieces s w c false rs with
  | .error e => .error e
  | .ok pss =>
    let ps := pss.flatten
    match rowSegments s ps with
    | .error e => .error e
    | .ok () =>
      match rowForms s ps keeps with
      | .error e => .error e
      | .ok () =>
        match rowDests s dests with
        | .error e => .error e
        | .ok () =>
          match readLines ps [] s with
          | .error e => .error e
          | .ok s' =>
            let win (s : State) : State := (ps.filter fun p => match p.x.dest with | .house _ => true | .host _ => true | _ => false).foldl
              (fun s p => (s.busRead p.x.dest p.len).1) s
            let kept := (ps ++ dests).foldl (fun (s : State) p => if p.pa.isSome then s.tlbFill w p.va else s) (win s')
            .ok (pss.map (s.pieceBytes c fun p => (s.busRead p.x.dest p.len).2), kept)

/-- The destination pieces of ranges, all of them consumable where the stamp stage is on (17 R473). -/
def rowDestPieces (s : State) (w : Who) (c mw : Nat) (rs : List (Nat × Nat)) : RowM (List (List Piece)) :=
  match rowPieces s w c true rs with
  | .error e => .error e
  | .ok pss =>
    match (if mwST mw then pss.flatten.find? (fun p => !p.x.cn) else none) with
    | some p => .error (.fault ACCESS (2 ^ 15 + p.x.lvl) p.va s)
    | none => .ok pss

/-- Write a row's ranges. -/
def rowWrite (s : State) (c stamp : Nat) (pss : List (List Piece)) (data : List (List Byte)) : State :=
  (pss.zip data).foldl (fun s p => s.writePieces c stamp (fun q b s => s.busWrite q.x.dest b) p.1 p.2) s

/-- A ciphertext source line that a plain copy moves whole keeps its form and integrity value (05 R133). -/
def moveForms (old new : State) (src dst : List Piece) : State :=
  dst.foldl (fun (s : State) d =>
    match d.pa, src.find? fun p => p.off == d.off with
    | some da, some p =>
      (match p.pa with
        | some sa => if (old.line sa).cipher then s.setLine da { s.line da with cipher := true, icv := (old.line sa).icv } else s
        | none => s)
    | _, _ => s) new

/-- A copy that runs no stage over its lines but ST and CONS, from memory to memory. -/
def CopyOp.plain (o : CopyOp) : Bool :=
  let mw := o.mw.toNat
  o.op == 1 && !(mwUNP mw || mwCV mw || mwTR mw || mwDEC mw || mwSCA mw) && mw % 4 == 0

/-- Where the row `row` of a DEC copy begins in its source: after the masks and granules of the rows before (17 R473). -/
def decPos (s : State) (w : Who) (c src : Nat) (n pos : Nat) : Nat :=
  match n with
  | 0 => pos
  | n + 1 =>
    let m := leNat ((s.peek w c (src + pos) 2).getD [])
    decPos s w c src n (pos + 2 + 16 * popN 16 m)

/-- A row of a DEC copy: its bytes, with the offset of the next row. DEDUCED [log 48]. -/
def decRow (s : State) (w : Who) (c limit pos : Nat) (r : Run) (dests : List Piece) : RowM (List Byte × Nat × State) :=
  match rowPieces s w c false [(r.src + pos, 2)] with
  | .error e => .error e
  | .ok _ =>
    let m := leNat ((s.peek w c (r.src + pos) 2).getD [])
    let n := 2 + 16 * popN 16 m
    if limit < pos + n then .error (.fault ACCESS 4 (r.src + pos) s)
    else match rowRead s w c (fun _ => false) [(r.src + pos, n)] dests with
      | .error e => .error e
      | .ok (bs, s') =>
        let b := bs.headD []
        .ok (decompress (leNat (b.take 2)) (b.drop 2) 16 0, pos + n, s')

/-- Source ranges of row `k` of a run: elements, and the image it reads. -/
def Run.reads (r : Run) (mw k : Nat) : List (Nat × Nat) :=
  let x := r.source mw (256 * k) (min 256 (r.len - 256 * k))
  (x.1, x.2.1) :: if mwImagesIn mw then [(r.isrc + 66 * k, 66)] else []

/-- The rows of a transposed block, kept by the operation: the transposed rows, then the images (17 R473 R474). -/
def blockBytes (r : Run) (mw first n : Nat) (bss : List (List Byte)) : List Byte :=
  let per := if mwImagesIn mw then 2 else 1
  let rows := (List.range n).map fun i => r.convert mw (first + i) (bss.getD (per * i) []) (bss.getD (per * i + 1) [])
  ((transpose n (rows.map (·.1))).flatMap (packBytes mw 256)) ++ rows.flatMap fun x => imageBytes x.2

/-- The output of row `row` of an operation: its bytes and image, the operation and the state after the reads. DEDUCED [log 48]. -/
def rowOutput (s : State) (w : Who) (c : Nat) (o : CopyOp) (r : Run) (dst : List Piece) (dests : List Piece) :
    RowM (List Byte × List Byte × CopyOp × State) :=
  let mw := o.mw.toNat
  let k := o.row - r.row
  let n := min 256 (r.len - 256 * k)
  if mwDEC mw then
    let pos := if o.mark == o.row + 1 then o.pos else decPos s w c r.src o.row 0
    let limit := if bitOf mw 1 then hSize ((s.core c).ctx.setupOf o.f) - o.b else 2 ^ 64
    match decRow s w c limit pos r dests with
    | .error e => .error e
    | .ok (bs, next, s') => .ok (bs, [], { o with pos := next, mark := o.row + 2 }, s')
  else if mwTR mw then
    let m := 2048 / mwDstBits mw
    let block := k / m
    let take (o : CopyOp) (s : State) : RowM (List Byte × List Byte × CopyOp × State) :=
      .ok (slice o.kept (256 * (k % m)) 256, slice o.kept (256 * m + 66 * (k % m)) 66, o, s)
    if o.mark == block + 1 then
      match rowDests s dests with
      | .error e => .error e
      | .ok () => take o s
    else match rowRead s w c (fun _ => false) ((List.range m).flatMap fun i => r.reads mw (block * m + i)) dests with
      | .error e => .error e
      | .ok (bss, s') => take { o with kept := blockBytes r mw (block * m) m bss, mark := block + 1 } s'
  else
    let keeps (p : Piece) : Bool := o.plain && p.len == 128 && dst.any fun d => d.off == p.off && d.len == 128 && d.pa.isSome
    match rowRead s w c keeps (r.reads mw k) dests with
    | .error e => .error e
    | .ok (bss, s') =>
      if mwSrcBits mw == 8 && !(mwUNP mw || mwCV mw) then .ok (bss.headD [], [], o, s')
      else
        let x := r.convert mw k (bss.headD []) (bss.getD 1 [])
        .ok (packBytes mw n x.1, imageBytes x.2, o, s')

/-- One row of a copy, gather or scatter read in full and written: the operation and the state after (17 R470 R471).
DESIGN CHOICE [log 46]. -/
def copyRow (s : State) (w : Who) (c : Nat) (o : CopyOp) (r : Run) : RowM (CopyOp × State) :=
  if !r.ok then .error (.fault ACCESS 4 r.entry s)
  else
    let mw := o.mw.toNat
    let k := o.row - r.row
    let n := min 256 (r.len - 256 * k)
    let ranges := (r.dst + 256 * k, n) :: if mwImagesOut mw then [(r.idst + 66 * o.row, 66)] else []
    let first : RowM Unit :=
      if mwDEC mw || (mwTR mw && o.mark == k / (2048 / mwDstBits mw) + 1) then .ok ()
      else match rowPieces s w c false (r.reads mw k) with | .error e => .error e | .ok _ => .ok ()
    match first with
    | .error e => .error e
    | .ok () =>
      match rowDestPieces s w c mw ranges with
      | .error e => .error e
      | .ok pss =>
        match rowOutput s w c o r (pss.headD []) pss.flatten with
        | .error e => .error e
        | .ok (bs, img, o', s') =>
          let stamp := if mwST mw then fld mw 4 4 else 0
          let s'' := rowWrite s' c stamp pss [bs, img]
          let s'' := if o.plain then
              (match rowPieces s w c false (r.reads mw k) with
                | .ok src => moveForms s s'' src.flatten (pss.headD [])
                | .error _ => s'')
            else s''
          .ok ({ o' with row := o.row + 1 }, s'')

/-! Operations in their queue (17 R469 R470, 11 R320 R321). -/

/-- Core `c` has acknowledged a pre-emption for an engine class: its operations stand still (06 R163, 11 R323). DEDUCED [log 57]. -/
def State.classStopped (s : State) (c k : Nat) : Bool :=
  match SMap.get s.circ.preempts c none with
  | some p => p.acks.contains k
  | none => false

/-! Order within an engine's path (09 R248). -/

/-- Ranges as an engine of core `c` would touch them now: first address, length, and whether the page is strongly ordered; scratchpad by
window address from 2^60 on, outside every order kind. What does not translate touches nothing. -/
def State.touched (s : State) (c : Nat) (rs : List (Nat × Nat)) : List (Nat × Nat × Bool) :=
  rs.flatMap fun r => match enginePieces s (s.engineWho c) false r.1 r.2 with
    | .ok ps => ps.map fun p => match p.x.dest with
        | .spad o => (2 ^ 60 + o, p.len, false)
        | .mem a => (a, p.len, p.x.ok == 0)
        | .house o => (0xF000000000 + o, p.len, p.x.ok == 0)
        | .host a => (0x10000000000 + a, p.len, p.x.ok == 0)
    | .error _ => []

/-- Accesses still to come of an earlier operation of a path hold a later one's back: to the same byte, or both to strongly ordered
pages (09 R248). -/
def pathMeets (earlier later : List (Nat × Nat × Bool)) : Bool :=
  earlier.any fun a => later.any fun b => overlap a.1 a.2.1 b.1 b.2.1 || (a.2.2 && b.2.2)

/-- Ranges of one row of a copy operation; a row of DEC reads at most a mask and 16 granules, from a place its masks give. -/
def CopyOp.rowRanges (o : CopyOp) (rs : List Run) (row : Nat) : List (Nat × Nat) :=
  let mw := o.mw.toNat
  match runOf rs row with
  | none => []
  | some r =>
    let k := row - r.row
    let m := 2048 / mwDstBits mw
    (if mwDEC mw then [(r.src, 258 * r.rows)]
      else if mwTR mw then (List.range m).flatMap fun i => r.reads mw (k / m * m + i)
      else r.reads mw k) ++
    (r.dst + 256 * k, min 256 (r.len - 256 * k)) :: (if mwImagesOut mw then [(r.idst + 66 * row, 66)] else [])

/-- The ranges that a copy operation still has to touch, or only those of its next row. A table not yet read stands as it is in memory;
a prefetch reads nothing (17 R476). -/
def State.copyAhead (s : State) (c : Nat) (next : Bool) (o : CopyOp) : List (Nat × Nat) :=
  if o.op == 3 then []
  else if o.op == 9 then [(o.a, 8 * o.n)]
  else
    let unread := (o.op == 4 || o.op == 5) && o.mark == 0
    let o := if unread then { o with kept := (s.peek (s.engineWho c) c o.a (16 * o.n)).getD [] } else o
    let rs := o.runs (s.core c).ctx
    let rows := (rs.map Run.rows).sum
    (if unread then [(o.a, 16 * o.n)] else []) ++
      ((List.range (if next then min 1 (rows - o.row) else rows - o.row)).flatMap fun i => o.rowRanges rs (o.row + i))

/-- Operation `o` of the copy queue must wait for accesses of those before it (09 R248). -/
def State.copyOrdered (s : State) (c : Nat) (before : List CopyOp) (o : CopyOp) : Bool :=
  before.isEmpty || !(pathMeets (s.touched c (before.flatMap (s.copyAhead c false))) (s.touched c (s.copyAhead c true o)))

/-- Ranges of row `row` of a stream: its source, and its place in the slot that it fills or would fill (17 R475). -/
def CoreCtx.streamRow (x : CoreCtx) (o : StreamOp) (row : Nat) : List (Nat × Nat) :=
  let size := hSize (x.setupOf o.f)
  [((o.base + row * o.stride) % 2 ^ 64, o.len),
   (x.slotVa o.f (o.slot.getD (x.handle o.f).pp) + row % (size / o.len) * o.len, if row + 1 == o.rows then size - row % (size / o.len) * o.len else o.len)]

/-- A stream must wait for accesses of those before it (09 R248). -/
def State.streamOrdered (s : State) (c : Nat) (before : List StreamOp) (o : StreamOp) : Bool :=
  let x := (s.core c).ctx
  before.isEmpty || o.rows ≤ o.row ||
    !(pathMeets (s.touched c (before.flatMap fun e => (List.range (e.rows - e.row)).flatMap fun i => x.streamRow e (e.row + i)))
      (s.touched c (x.streamRow o o.row)))

/-- Copy operation replaced. -/
def CoreCtx.setCopy (x : CoreCtx) (o : CopyOp) : CoreCtx := { x with copyq := x.copyq.map fun e => if e.id == o.id then o else e }

/-- A copy operation may work: those before it have started, none before it is stopped, at most four run, no pfence holds it, and its next
row meets no access that an earlier one still has to make (17 R469, 09 R248 R258). -/
def State.copyMay (s : State) (c : Nat) (o : CopyOp) : Bool :=
  let q := (s.core c).ctx.copyq
  let before := q.takeWhile fun e => e.id != o.id
  o.fault.isNone && s.engineOn c && !(s.classStopped c 2) && !(s.heldBack c 2 o.seq true) &&
  !(before.any fun e => e.fault.isSome) && (o.running || (before.all (·.running) && (q.filter (·.running)).length < 4)) &&
  s.copyOrdered c before o

/-- An operation stops at a late fault, unless another of its queue stands stopped: then its row is only not done (17 R470).
DEDUCED [log 47]. -/
def State.copyStop (s : State) (c : Nat) (o : CopyOp) (cause detail tva : Nat) : State :=
  if (s.core c).ctx.copyq.any fun e => e.fault.isSome then s
  else
    let t : TrapInfo := { cause := cause, slot := 6, late := true, path := 2, detail := detail, tva := tva, origin := o.pc
                          handle := o.handleNo, row := o.row, owner := some o.strand }
    (s.modCore c fun k => { k with ctx := k.ctx.setCopy { o with running := true, fault := some (t, true) } }).reportLate c t

/-- A copy operation is over: a consuming read of its slot ends, and it leaves the queue (17 R472, 08 R230). -/
def State.copyOver (s : State) (c : Nat) (o : CopyOp) : State :=
  s.modCore c fun k =>
    let x := { k.ctx with copyq := k.ctx.copyq.filter fun e => e.id != o.id }
    let consumes := bitOf o.mw.toNat 2 && (o.op == 5 || (o.op == 1 && bitOf o.mw.toNat 1))
    match o.slot with
    | some i => { k with ctx := if consumes then x.setHandle o.f ((x.handle o.f).consumed (hSlots (x.setupOf o.f)) i) else x }
    | none => { k with ctx := x }

/-- The slot a copy needs, before its first row: written slots must be its own to fill, read ones are waited for at CP
(17 R471 R477, 08 R230 R231). -/
def copySlot (s : State) (c : Nat) (o : CopyOp) : RowM (CopyOp × State) :=
  let x := (s.core c).ctx
  let d := x.handle o.f
  let reads := o.op == 5 || (o.op == 1 && bitOf o.mw.toNat 1)
  if o.produces o.f then
    let i := o.slot.getD 0
    if d.writable i || d.filling.any (fun f => f.1 == i && f.2.2.2.contains o.id) then
      .ok (o, s.modCore c fun k => { k with ctx := k.ctx.setHandle o.f (d.claim i) })
    else .error (.wait s)
  else if reads && o.slot.isNone then
    match d.atCp with
    | none => .error (.wait s)
    | some false => .error (.fault RCOVER 0 (Config.overReadTva s.free) s.draw)
    | some true => .ok ({ o with slot := some d.cp }, s.modCore c fun k => { k with ctx := k.ctx.setHandle o.f (d.drainAt d.cp) })
  else .ok (o, s)

/-- The table of a gather or scatter, read whole before its first row (17 R477). -/
def copyTable (s : State) (w : Who) (c : Nat) (o : CopyOp) : RowM (CopyOp × State) :=
  if (o.op == 4 || o.op == 5) && o.mark == 0 then
    match rowRead s w c (fun _ => false) [(o.a, 16 * o.n)] [] with
    | .error e => .error e
    | .ok (bs, s') => .ok ({ o with kept := bs.headD [], mark := 1 }, s')
  else .ok (o, s)

/-- Work of a copy, gather or scatter: slot, table, then the row; its last row ends it. DESIGN CHOICE [log 46]. DEDUCED [log 48]. -/
def State.copyWork (s : State) (c : Nat) (o : CopyOp) : State :=
  let w := s.engineWho c
  let stop (o : CopyOp) (e : RowStop) : State := match e with
    | .wait s' => s'.modCore c fun k => { k with ctx := k.ctx.setCopy { o with running := true } }
    | .fault cause detail tva s' => s'.copyStop c o cause detail tva
  match copySlot s c o with
  | .error e => stop o e
  | .ok (o, s) =>
    match copyTable s w c o with
    | .error e => stop o e
    | .ok (o, s) =>
      let rs := o.runs (s.core c).ctx
      let rows := (rs.map Run.rows).sum
      if rows ≤ o.row then s.copyOver c o
      else match copyRow s w c o ((runOf rs o.row).getD {}) with
        | .error e => stop o e
        | .ok (o, s) =>
          if rows ≤ o.row then s.copyOver c o
          else s.modCore c fun k => { k with ctx := k.ctx.setCopy { o with running := true } }

/-! Prefetches and streaming lists (17 R476 R482, 08 R240). -/

/-- Pages of 2 MiB, or lines, that a range touches, first address of each inside the range. -/
def stepsOf (unit va n : Nat) : List Nat :=
  (List.range ((va + n + unit - 1) / unit - va / unit)).map fun i => if i == 0 then va else (va / unit + i) * unit

/-- A prefetch: parts that would fault are skipped (17 R476). -/
def State.prefetch (s : State) (c : Nat) (o : CopyOp) : State :=
  let w := s.engineWho c
  let at_ (va : Nat) : Option Xlat := match translate s w (va % 2 ^ 64) false with | .ok x => some x | .error _ => none
  match o.mw.toNat with
  | 0 => (stepsOf 0x1000 o.a o.n).foldl (fun (s : State) va => if (at_ va).isSome then s.tlbFill w (va % 2 ^ 64) else s) s
  | 1 => (stepsOf 128 o.a (min o.n 0x10000)).foldl (fun (s : State) va =>
      match at_ va with
      | some x => (match x.dest with
        | .mem pa =>
          if x.cn || x.ok == 0 || ((s.line pa).readFault false).isSome || (s.segWaits pa).isSome then s else s.cacheFill c pa
        | _ => s)
      | none => s) s
  | 2 => (stepsOf 0x200000 o.a o.n).foldl (fun (s : State) va =>
      match at_ va with
      | some x => (match x.dest with | .mem pa => s.hurry pa | _ => s)
      | none => s) s
  | _ => s

/-- Some leaf of the tables from level `lvl` on names a page with the shared tag: the micro-context maps it (08 R213 R238). -/
def tablesName (s : State) (page : Nat) (n lvl table : Nat) : Bool :=
  match n with
  | 0 => false
  | n + 1 => (List.range 512).any fun i =>
      let d := s.physLe (table + 8 * i) 8
      if d % 4 == 2 then
        lvl != 0 && fld d 50 14 == 0x3FFF && decide (fld d 7 31 * 0x1000 ≤ page ∧ page < fld d 7 31 * 0x1000 + levelSize lvl)
      else d % 4 == 1 && tablesName s page n (lvl + 1) (fld d 7 31 * 0x1000)

/-- The launch of core `c` may hand segment `i` to the Skidder: its micro-context maps it (17 R482). -/
def State.mapsSegment (s : State) (w : Who) (i : Nat) : Bool :=
  let page := (s.seg i).page
  page != 0 && (w.house || (match w.root with | some r => tablesName s page 3 0 r | none => false))

/-- A streaming list is read whole and handed to the Skidder (17 R482, 08 R240). DEDUCED [log 48]. -/
def State.skidWork (s : State) (c : Nat) (o : CopyOp) : State :=
  let w := s.engineWho c
  match rowRead s w c (fun _ => false) [(o.a, 8 * o.n)] [] with
  | .error (.wait s') => s'.modCore c fun k => { k with ctx := k.ctx.setCopy { o with running := true } }
  | .error (.fault cause detail tva s') => s'.copyStop c o cause detail tva
  | .ok (bs, s') =>
    let b := bs.headD []
    let list := ((List.range o.n).map fun i => leAt b (8 * i) 8).filter fun e => e < 65536 && s.mapsSegment w e
    (({ s' with mem := { s'.mem with skid := s'.mem.skid ++ list } }).skidder).copyOver c o

/-! Streams (17 R475). -/

/-- Stream replaced. -/
def CoreCtx.setStream (x : CoreCtx) (o : StreamOp) : CoreCtx :=
  { x with streamq := x.streamq.map fun e => if e.id == o.id then o else e }

/-- A stream may work: at most eight run, started in order, one for a handle at a time; none before it is stopped. -/
def State.streamMay (s : State) (c : Nat) (o : StreamOp) : Bool :=
  let q := (s.core c).ctx.streamq
  let before := q.takeWhile fun e => e.id != o.id
  o.fault.isNone && s.engineOn c && !(s.classStopped c 1) && !(s.heldBack c 3 o.seq true) &&
  !(before.any fun e => e.fault.isSome || e.f == o.f) &&
  (o.running || (before.all (·.running) && (q.filter (·.running)).length < 8)) && s.streamOrdered c before o

/-- A stream stops at a late fault, unless another stands stopped. DEDUCED [log 47]. -/
def State.streamStop (s : State) (c : Nat) (o : StreamOp) (cause detail tva : Nat) : State :=
  if (s.core c).ctx.streamq.any fun e => e.fault.isSome then s
  else
    let t : TrapInfo := { cause := cause, slot := 6, late := true, path := 3, detail := detail, tva := tva, origin := o.pc
                          handle := o.f, row := o.row, owner := some o.strand }
    (s.modCore c fun k => { k with ctx := k.ctx.setStream { o with running := true, fault := some (t, true) } }).reportLate c t

/-- A stream is over: CLOSE closes the handle as cbrel does (17 R475). -/
def State.streamOver (s : State) (c : Nat) (o : StreamOp) : State :=
  s.modCore c fun k =>
    let x := { k.ctx with streamq := k.ctx.streamq.filter fun e => e.id != o.id }
    let d := x.handle o.f
    { k with ctx := if o.close && !d.closed then x.setHandle o.f ({ d with closing := true }).settleClose else x }

/-- One row of a stream into its slot; after the last row the rest of the slot is zeros (17 R475). DESIGN CHOICE [log 46]. -/
def State.streamWork (s : State) (c : Nat) (o : StreamOp) : State :=
  let w := s.engineWho c
  let x := (s.core c).ctx
  let d := x.handle o.f
  let size := hSize (x.setupOf o.f)
  let put (s : State) (o : StreamOp) : State := s.modCore c fun k => { k with ctx := k.ctx.setStream { o with running := true } }
  if o.advance then s
  else if o.rows ≤ o.row then s.streamOver c o
  else
    let claimed : Option (StreamOp × State) :=
      match o.slot with
      | some _ => some (o, s)
      | none =>
        if d.state d.pp == 0 then
          some ({ o with slot := some d.pp }, s.modCore c fun k => { k with ctx := k.ctx.setHandle o.f (d.claim d.pp) })
        else none
    match claimed with
    | none => put s o
    | some (o, s) =>
      let i := o.slot.getD 0
      let q := size / o.len
      let src := (o.base + o.row * o.stride) % 2 ^ 64
      let dst := x.slotVa o.f i + o.row % q * o.len
      let last := o.row + 1 == o.rows
      let fill := if last then size - (o.row % q + 1) * o.len else 0
      let done : RowM State :=
        match rowPieces s w c false [(src, o.len)] with
        | .error e => .error e
        | .ok _ => match rowPieces s w c true [(dst, o.len + fill)] with
          | .error e => .error e
          | .ok pss => match rowRead s w c (fun _ => false) [(src, o.len)] [] with
            | .error e => .error e
            | .ok (bs, s') => .ok (rowWrite s' c 0 pss [bs.headD [] ++ List.replicate fill 0])
      match done with
      | .error (.wait s') => put s' o
      | .error (.fault cause detail tva s') => (put s' o).streamStop c o cause detail tva
      | .ok s' => put s' { o with row := o.row + 1, advance := last || (o.row + 1) % q == 0 }

/-- COPY_ROW: one row of operation `b` of core `a`, of its stream queue with the flag (17 R470). -/
def execCopyRow (s : State) : Res :=
  let c := s.ev.a
  let x := (s.core c).ctx
  .next (if s.ev.flag then
    match x.streamq.find? fun o => o.id == s.ev.b with
    | some o => if s.streamMay c o then s.streamWork c o else s
    | none => s
  else
    match x.copyq.find? fun o => o.id == s.ev.b with
    | some o =>
      if !(s.copyMay c o) then s
      else if o.op == 3 then (s.prefetch c o).copyOver c o
      else if o.op == 9 then s.skidWork c o
      else s.copyWork c o
    | none => s)

/-- STREAM_SLOT_ADVANCE: the slot a stream has filled advances as by a producer cbadv; after its last row the stream ends
(17 R475). -/
def execStreamSlotAdvance (s : State) : Res :=
  let c := s.ev.a
  .next (match (s.core c).ctx.streamq.find? fun o => o.id == s.ev.b && o.advance && o.fault.isNone with
    | none => s
    | some o =>
      let finished := decide (o.rows ≤ o.row)
      let o' := { o with advance := false, slot := none }
      let s' := (s.modCore c fun k => { k with ctx := k.ctx.setStream o' }).advanceHandle (s.engineWho c) c o.f o.cnt []
      if finished then s'.streamOver c o' else s')

/-- SLOT_FULL: the slots of handle `b` of core `a` whose writes are all made become FULL (17 R486). -/
def execSlotFull (s : State) : Res := .next (s.fillSlots s.ev.a s.ev.b)

/-- BANK_OWN_CLEAR: bank `b` of core `a` is released once its operations are done (07 R195). -/
def execBankOwnClear (s : State) : Res :=
  let c := s.ev.a
  .next (match (s.core c).ctx.rp.find? fun r => r.1 == s.ev.b with
    | some r => if s.bankDone c r then s.modCore c fun k => k.clearOwn s.ev.b else s
    | none => s)

/-- ACC_BANKS_FREE: freed accumulator banks of core `a` whose operations are done become free (07 R201). -/
def execAccBanksFree (s : State) : Res := .next (s.modCore s.ev.a CoreSt.freeAcc)

end Sys2Proof.Machine
end

