-- ==== Sys2Proof/Machine/CipherRows.lean ====
section
/-! DEFINITION. Machine/CipherRows.lean: what the cipher unit does, block by block: seal, open, shablk, kbind and kzero
(17 R493 to R497, 05 R129 R134). -/
namespace Sys2Proof.Machine

/-- An `open` whose integrity value does not verify. -/
def INTEGRITY : Nat := 0x0302

/-- Cipher operation replaced. -/
def CoreCtx.setCipher (x : CoreCtx) (o : CipherOp) : CoreCtx :=
  { x with cipherq := x.cipherq.map fun e => if e.id == o.id then o else e }

/-- A cipher operation stops at a late fault. DEDUCED [log 47]. -/
def State.cipherStop (s : State) (c : Nat) (o : CipherOp) (cause detail tva : Nat) : State :=
  let t : TrapInfo := { cause := cause, slot := 8, late := true, path := 4, detail := detail, tva := tva, origin := o.pc
                        handle := o.handleNo, row := o.row, owner := some o.strand }
  (s.modCore c fun k => { k with ctx := k.ctx.setCipher { o with fault := some (t, true) } }).reportLate c t

/-- A cipher operation is over: seal's read of its slot was consuming (17 R493). -/
def State.cipherOver (s : State) (c : Nat) (o : CipherOp) : State :=
  s.modCore c fun k =>
    let x := { k.ctx with cipherq := k.ctx.cipherq.filter fun e => e.id != o.id }
    match o.slot with
    | some i => { k with ctx := if o.op == 1 then x.setHandle o.f ((x.handle o.f).consumed (hSlots (x.setupOf o.f)) i) else x }
    | none => { k with ctx := x }

/-- The slot a cipher operation needs: written for open, waited for at CP by seal and shablk (17 R493). -/
def cipherSlot (s : State) (c : Nat) (o : CipherOp) : RowM (CipherOp × State) :=
  let d := (s.core c).ctx.handle o.f
  if !o.buf then .ok (o, s)
  else if o.op == 2 then
    let i := o.slot.getD 0
    if d.writable i || d.filling.any (fun f => f.1 == i && f.2.2.2.contains o.id) then
      .ok (o, s.modCore c fun k => { k with ctx := k.ctx.setHandle o.f (d.claim i) })
    else .error (.wait s)
  else if o.slot.isSome then .ok (o, s)
  else match d.atCp with
    | none => .error (.wait s)
    | some false => .error (.fault RCOVER 0 (Config.overReadTva s.free) s.draw)
    | some true => .ok ({ o with slot := some d.cp }, s.modCore c fun k => { k with ctx := k.ctx.setHandle o.f (d.drainAt d.cp) })

/-- Address of byte `i` of an operation's plaintext side: an address, or an offset in its slot. -/
def CipherOp.plainVa (o : CipherOp) (x : CoreCtx) (i : Nat) : Nat :=
  let a := (if o.op == 2 then o.dst else o.src) + i
  if o.buf then x.slotVa o.f (o.slot.getD 0) + a else a % 2 ^ 64

/-- What seal and open check of their two sides beside translation: the ciphertext side is memory, the pages' KEY agrees with the
slot, and the slot holds a line key (17 R493 R494, 08 R213). -/
def cipherChecks (s : State) (key cva : Nat) (write : Bool) (cs ps : List Piece) : RowM (List Byte) :=
  if cs.any fun p => p.pa.isNone then .error (.fault ACCESS (b2n write * 2 ^ 15 + 4) cva s)
  else match (cs ++ ps).find? fun p => p.x.key != 0 && p.x.key != key with
    | some p => .error (.fault FORM 0 p.va s)
    | none =>
      match s.lineKey key with
      | none => .error (.fault ACCESS (b2n write * 2 ^ 15 + 4) cva s)
      | some k => .ok k

/-- A line of ciphertext is written: its form and integrity value (17 R494). -/
def State.putCipher (s : State) (ps : List Piece) (icv : BitVec 32) : State :=
  ps.foldl (fun (s : State) p => match p.pa with
    | some a => s.setLine a { s.line a with cipher := true, icv := icv }
    | none => s) s

/-- One block of seal or open (17 R494). -/
def cipherBlock (s : State) (w : Who) (c : Nat) (o : CipherOp) : RowM State :=
  let enc := o.op == 1
  let cva := ((if enc then o.dst else o.src) + 128 * o.row) % 2 ^ 64
  let pva := o.plainVa (s.core c).ctx (128 * o.row)
  let t := (o.tile.toNat + o.row) % 2 ^ 128
  match rowPieces s w c enc [(cva, 128)] with
  | .error e => .error e
  | .ok css =>
    match rowPieces s w c (!enc) [(pva, 128)] with
    | .error e => .error e
    | .ok pss =>
      match cipherChecks s o.key cva enc css.flatten pss.flatten with
      | .error e => .error e
      | .ok key =>
        if enc then
          match rowRead s w c (fun _ => false) [(pva, 128)] css.flatten with
          | .error e => .error e
          | .ok (bs, s') =>
            let line := xtsLine true key t (bs.headD [])
            .ok ((rowWrite s' c 0 css [line]).putCipher css.flatten (lineIcv key t line))
        else
          match css.flatten.find? fun p => match p.pa with | some a => !(s.line a).cipher | none => false with
          | some p => .error (.fault FORM 0 p.va s)
          | none =>
            let icv := ((css.flatten.head?.bind fun p => p.pa).map fun a => (s.line a).icv).getD 0
            match rowRead s w c (fun _ => true) [(cva, 128)] pss.flatten with
            | .error e => .error e
            | .ok (bs, s') =>
              let line := bs.headD []
              if lineIcv key t line != icv then .error (.fault INTEGRITY 0 cva s')
              else .ok (rowWrite s' c 0 pss [xtsLine false key t line])

/-- Blocks of 128 bytes an operation goes through; shablk of nothing still writes its state. -/
def CipherOp.rows (o : CipherOp) : Nat := max 1 ((o.len + 127) / 128)

/-- One block of shablk: with INIT from the initial value, else from the state in memory; the last block writes it back (17 R496). -/
def shaRow (s : State) (w : Who) (c : Nat) (o : CipherOp) : RowM (CipherOp × State) :=
  let n := min 128 (o.len - 128 * o.row)
  let last := decide (o.rows ≤ o.row + 1)
  let begin : RowM (List Byte × State) :=
    if !o.sha.isEmpty then .ok (o.sha, s)
    else if o.init then .ok (shaBytes shaInit, s)
    else match rowRead s w c (fun _ => false) [(o.dst, 32)] [] with
      | .error e => .error e
      | .ok (bs, s') => .ok (bs.headD [], s')
  match (if last then rowPieces s w c true [(o.dst, 32)] else .ok []) with
  | .error e => .error e
  | .ok dss =>
    match begin with
    | .error e => .error e
    | .ok (h, s) =>
      match rowRead s w c (fun _ => false) [(o.plainVa (s.core c).ctx (128 * o.row), n)] dss.flatten with
      | .error e => .error e
      | .ok (bs, s') =>
        let h' := shaBytes (shaBlocks (n / 64) (shaState h) (bs.headD []))
        .ok ({ o with sha := h' }, if last then rowWrite s' c 0 dss [h'] else s')

/-- kbind: the handle is read and imported; whatever fails leaves the slot as it was (17 R497, 05 R126). -/
def kbindRow (s : State) (w : Who) (c : Nat) (o : CipherOp) : RowM State :=
  match rowRead s w c (fun _ => false) [(o.src, 32)] [] with
  | .error e => .error e
  | .ok (bs, s') =>
    let h := bs.headD []
    let p := hdPart h
    if (h.drop 8).all (· == 0) || (SMap.get s.prot.parts p {}).st == 0 || s'.importStatus o.key h p false != 0 then
      .error (.fault ACCESS 4 o.src s')
    else .ok (s'.loadKey o.key h)

/-- Work on the operation at the head of the cipher unit. DESIGN CHOICE [log 46]. -/
def State.cipherWork (s : State) (c : Nat) (o : CipherOp) : State :=
  let w := s.engineWho c
  let stop (o : CipherOp) (e : RowStop) : State := match e with
    | .wait s' => s'.modCore c fun k => { k with ctx := k.ctx.setCipher o }
    | .fault cause detail tva s' => s'.cipherStop c o cause detail tva
  let step_ (o : CipherOp) (s : State) : State :=
    let o := { o with row := o.row + 1 }
    if o.rows ≤ o.row then s.cipherOver c o else s.modCore c fun k => { k with ctx := k.ctx.setCipher o }
  if o.op == 5 then
    let x := s.keySlotAt o.key
    if o.row == 0 then
      if x.binds != 0 then s.cipherStop c o ACCESS 4 0
      else (if x.st == 1 then s.zeroiseSlot o.key else s).modCore c fun k => { k with ctx := k.ctx.setCipher { o with row := 1 } }
    else if x.st == 2 then s else s.cipherOver c o
  else match cipherSlot s c o with
    | .error e => stop o e
    | .ok (o, s) =>
      if o.rows ≤ o.row then s.cipherOver c o
      else if o.op == 3 then
        match shaRow s w c o with
        | .error e => stop o e
        | .ok (o, s) => step_ o s
      else match (if o.op == 4 then kbindRow s w c o else cipherBlock s w c o) with
        | .error e => stop o e
        | .ok s => step_ o s

/-- CIPHER_BLOCK: the cipher unit of core `a` takes one block of the operation at its head (17 R494). -/
def execCipherBlock (s : State) : Res :=
  let c := s.ev.a
  .next (match (s.core c).ctx.cipherq with
    | o :: _ =>
      if o.fault.isNone && s.engineOn c && !(s.classStopped c 3) && !(s.heldBack c 4 o.seq true) then s.cipherWork c o else s
    | [] => s)

end Sys2Proof.Machine
end

