-- ==== Sys2Proof/Machine/MemEvents.lean ====
section
/-! DEFINITION. Machine/MemEvents.lean: requests performed at home slices and filled, late traps taken, zero fills and segment loads
(08 R216 to R241, 09 R245 to R262, 11 R316, 16 R453 R462 to R466, 05 R143). -/
namespace Sys2Proof.Machine

/-! One part of a request performed (09 R245 R246, 16 R453). -/

/-- Part `i` of a request is performed. -/
def Req.donePart (r : Req) (i : Nat) : Req := { r with parts := modNth r.parts i fun p => { p with done := true } }

/-- Every part is performed. -/
def Req.doneAll (r : Req) : Req := { r with parts := r.parts.map fun p => { p with done := true } }

/-- A late fault of a part: the lowest faulting line's first byte is reported (16 R453). -/
def Req.faultAt (r : Req) (cause va : Nat) : Req :=
  { r with fault := match r.fault with
    | some f => if va < f.2 then some (cause, va) else some f
    | none => some (cause, va) }

/-- The trap of a request's late fault. -/
def Req.trapInfo (r : Req) (cause va : Nat) : TrapInfo :=
  { cause := cause, slot := r.slot, late := true, path := r.path, tva := va, origin := r.pc }

/-- A request whose parts are all performed: a late fault is reported and clears its pending register; a result waits to be
filled; anything else is over (11 R308, 16 R453). -/
def State.settleReq (s : State) (r : Req) : State :=
  if !r.performed then s.setReq r
  else match r.fault with
    | some (cause, va) =>
      let s := (s.dropReq r.id).modCore r.core fun k => { k with th := k.th.clearPending r.id }
      s.reportLate r.core (r.trapInfo cause va)
    | none => if r.pend.isSome then s.setReq { r with ready := true } else s.dropReq r.id

/-- A load of a line (08 R234 R239 R241, 16 R453). -/
def performLoad (s : State) (r : Req) (i : Nat) (p : Part) (pa : Nat) : State :=
  match s.segWaits pa with
  | some false => s.hurry pa
  | some true => s.settleReq ((r.donePart i).faultAt SEGBAD p.va)
  | none =>
    match (s.line pa).readFault false with
    | some c => s.settleReq ((r.donePart i).faultAt c p.va)
    | none =>
      let data := splice r.data p.off (s.phys pa p.len)
      let s := if r.cacheable then s.cacheFill r.core pa else s
      (s.consume pa p.cn).settleReq { r.donePart i with data := data }

/-- A store to a line (05 R133 R143, 08 R233). -/
def performStore (s : State) (r : Req) (i : Nat) (p : Part) (pa : Nat) : State :=
  let mask := slice r.mask p.off p.len
  let bs := slice r.data p.off p.len
  if s.pageDirty pa p.tag then s
  else if s.zeroMarked pa then s.fillStart pa
  else match (s.line pa).writeFault (p.len == 128 && mask.all id) with
    | some c => s.settleReq ((r.donePart i).faultAt c p.va)
    | none =>
      let s := cacheStore r.core pa bs mask (s.putLine pa bs mask r.stamp p.tag)
      (if ((s.launchAt r.launch).getD {}).house then (s.mcbStore pa bs mask).segStore pa bs.length else s).settleReq (r.donePart i)

/-- A read-modify-write or list or cell operation: the result and the state after (08 R220 to R222, 16 R462 to R465). -/
def bankPerform (s : State) (r : Req) (op ty : Nat) (p : Part) (pa : Nat) : State × Nat :=
  if op == 9 then (s.bankWrite pa (addLanes ty (s.phys pa p.len) r.data r.mask) p.tag, 0)
  else if op == 18 then
    let (s, v, report) := listPush s pa r.opA.toNat p.tag
    (if report then { s with circ := { s.circ with reports := s.circ.reports ++ [pa] } } else s, v)
  else if op == 19 then listPop s pa p.tag
  else if op == 20 then drawCell s pa r.opA.toNat r.opB.toNat r.key p.tag
  else
    let n := bankBytes op ty
    let m := 2 ^ (8 * n)
    let old := s.physLe pa n
    let new := atomicNew op ty old (r.opA.toNat % m) (r.opB.toNat % m)
    (if op == 16 && old != r.opB.toNat % m then s else s.bankWrite pa (natLe n new) p.tag,
     if ty == 0 then old else (tyExtend ty old).toNat)

/-- The line that a bank operation may not touch, of its own lines and of the entry's: cause and virtual address (05 R133, 08 R220 R235). -/
def State.bankFault (s : State) (r : Req) (op : Nat) (p : Part) (pa : Nat) : Option (Nat × Nat) :=
  match r.parts.findSome? fun q => ((s.line q.addr).readFault false).map fun c => (c, q.va) with
  | some f => some f
  | none => (s.entryFault op pa).map fun f => (f.1, p.va / 0x200000 * 0x200000 + f.2)

/-- A bank-unit operation: every line of it at once (16 R466); its lines leave the issuing core's scalar data cache (09 R250). -/
def performBank (s : State) (r : Req) (op ty : Nat) (p : Part) (pa : Nat) : State :=
  match s.bankFault r op p pa with
  | some (c, va) => s.settleReq (r.doneAll.faultAt c va)
  | none =>
    if s.pageDirty pa p.tag then s
    else if s.zeroMarked pa then s.fillStart pa
    else
      let (s, v) := bankPerform s r op ty p pa
      (cacheDrop r.core (r.parts.map fun q => q.addr / 128) s).settleReq { r.doneAll with data := natLe 8 v }

/-- A scratchpad access held behind accesses of its own bundle is performed (09 R249 R252, 16 R467). DESIGN CHOICE [log 81]. -/
def performHeld (s : State) (r : Req) (i : Nat) (p : Part) : State :=
  let off := p.addr % 2 ^ 21
  match r.kind with
  | .load => s.settleReq { r.donePart i with data := splice r.data p.off ((s.core r.core).spadRead off p.len) }
  | _ =>
    (s.modCore r.core fun k =>
      let k := { k with spad := Memory.writeMask k.spad off r.data r.mask }
      if r.stamp != 0 then k.setFull (granules off r.data.length) true else k).settleReq r.doneAll

/-- A part that lies in a device window (08 R210): a read or write of registers or of host memory.
DEDUCED [log 39]. DESIGN CHOICE [log 81]. -/
def performWindow (s : State) (r : Req) (i : Nat) (p : Part) (t : Target) : State :=
  match r.kind with
  | .load =>
    let (s, bs) := s.busRead t p.len
    s.settleReq { r.donePart i with data := splice r.data p.off bs }
  | .bank _ _ => s.draw.settleReq { r.doneAll with data := natLe 8 (Config.windowAtomic s.free) }
  | _ => (s.busWrite t ((slice r.data p.off p.len))).settleReq (r.donePart i)

/-- A counted line is released: an under-read drops it (08 R236). -/
def performRelease (s : State) (r : Req) (i : Nat) (pa : Nat) : State :=
  let l := s.line pa
  let s := if l.tomb || l.count == 0 then s
    else
      let s := s.setLine pa { l with count := 0, tomb := true }
      { s with mem := { s.mem with bytes := Memory.zero s.mem.bytes (pa / 128 * 128) 128 } }.underRead r.launch
  s.settleReq (r.donePart i)

/-- A line of a WRITE or SEND that has arrived is performed at its home slice (09 R263, 03 R76). A WRITE is acknowledged, and a message's
part is done, once every line is; a line that may not be written gives the status WINDOW. -/
def performArriving (s : State) (r : Req) (i : Nat) (p : Part) (pa : Nat) : State :=
  if s.pageDirty pa p.tag then s
  else if s.zeroMarked pa then s.fillStart pa
  else match (s.line pa).writeFault (p.len == 128) with
    | some c => s.arrived ((r.donePart i).faultAt c p.va)
    | none => (s.putLine pa (slice r.data p.off p.len) (List.replicate p.len true) 0 p.tag).arrived (r.donePart i)

/-- Part `i` of a request, by kind and place. -/
def performPart (s : State) (r : Req) (i : Nat) (p : Part) : State :=
  if 2 ^ 50 ≤ p.addr then performHeld s r i p
  else match placeOf p.addr with
    | .house o => performWindow s r i p (.house o)
    | .host a => performWindow s r i p (.host a)
    | _ =>
      match r.kind with
      | .load => performLoad s r i p p.addr
      | .store => performStore s r i p p.addr
      | .bank op ty => performBank s r op ty p p.addr
      | .release => performRelease s r i p.addr
      | .arriving _ _ => performArriving s r i p p.addr
      | _ => s

/-- A held scratchpad access may be made: a release once the accesses of its core before it are performed, the scratchpad part of an
acquire once its other parts are (09 R249 R252, 16 R467). -/
def State.heldMay (s : State) (r : Req) (p : Part) : Bool :=
  decide (p.addr < 2 ^ 50) ||
  (!(r.rel && s.lsbuBefore r.core r.id) && !(r.open_.any fun q => decide (q.addr < 2 ^ 50)))

/-- An acquire that has been performed empties the scalar data cache once more: a line that came in while it was on its way is older than
it (09 R250 R252). -/
def State.acquired (s : State) (r : Req) : State :=
  if r.acq && (r.parts.any fun p => p.ok != 2) && (match s.req r.id with | some q => q.performed | none => true) then
    s.invalidate r.core
  else s

/-- The translation a request's part used is kept in the caches of its core and die (08 R214). -/
def State.keepXlat (s : State) (r : Req) (p : Part) : State :=
  match s.launchAt r.launch with
  | some l => if p.addr < 2 ^ 50 then s.tlbFill { s.who l with core := some r.core } p.va else s
  | none => s

/-- An evsig that core `c` issued before request `id` has not reached Circulation (18 R501). -/
def State.signalBefore (s : State) (c id : Nat) : Bool := { s with mem := { s.mem with net := s.mem.net.filter fun r => r.id < id } }.signalOpen c

/-- HOME_SLICE_ACCEPT: part `b` of request `a` is performed, if the order rules allow; a signal reaches Circulation once the
accesses it releases are performed, behind the core's earlier ones (08 R219, 09 R245 to R262, 18 R501). -/
def execHomeSliceAccept (s : State) : Res :=
  .next (match s.req s.ev.a with
    | none => s
    | some r =>
      match r.kind with
      | .signal e n => if s.releaseOpen r.core r.id || s.signalBefore r.core r.id then s else ((s.dropReq r.id).signal r.launch e n).cleanNet
      | _ =>
        match r.parts[s.ev.b]? with
        | some p => if s.mayPerform r s.ev.b && s.heldMay r p then (((performPart s r s.ev.b p).acquired r).keepXlat r p).cleanNet else s
        | none => s)

/-- LOAD_FILL: request `a`'s result fills its pending registers, under the active lanes (16 R453). -/
def execLoadFill (s : State) : Res :=
  .next (match s.req s.ev.a with
    | none => s
    | some r =>
      if !r.ready || (s.core r.core).freeze != 0 then s
      else
        let regs := match (s.core r.core).th.pend.find? fun p => p.id == r.id with | some p => p.regs | none => []
        let ty := match r.kind with | .bank _ _ => 7 | _ => r.ty
        let fill (th : Thread) : Thread :=
          if ty == 8 then
            let span := regs.length
            ((regs.zip (pieces 256 span r.data)).zip (laneMasks r.mask span)).foldl
              (fun (th : Thread) p => th.putReg p.1.1 (bytesBv 2048 p.1.2) p.2) th
          else if ty == 9 then regs.foldl (fun (th : Thread) x => th.putReg x (bytesBv 2048 (r.data.take 32)) (lowMask 256)) th
          else regs.foldl (fun (th : Thread) x => th.putReg x ((tyExtend ty (leNat r.data)).setWidth 2048) (lowMask 64)) th
        ((s.dropReq r.id).modCore r.core fun k => { k with th := (fill k.th).clearPending r.id }).cleanNet)

/-! Late traps (11 R316 R320). -/

/-- The operations whose fault this is have had it taken. -/
def CoreCtx.faultTaken (x : CoreCtx) (t : TrapInfo) : CoreCtx :=
  let took (f : Option (TrapInfo × Bool)) : Option (TrapInfo × Bool) := if f == some (t.held, true) then some (t.held, false) else f
  { x with
    copyq := x.copyq.map fun o => { o with fault := took o.fault }
    streamq := x.streamq.map fun o => { o with fault := took o.fault }
    cipherq := x.cipherq.map fun o => { o with fault := took o.fault } }

/-- A late fault can be taken on core `c`: one is reported, and no handler runs (11 R316 R317). -/
def CoreSt.lateReady (k : CoreSt) : Bool := k.strand.isSome && !k.th.late.isEmpty && !k.th.th

/-- The first late fault reported to core `c` is taken, at the bundle that would issue next (11 R316 R320). -/
def State.takeLate (s : State) (c : Nat) : State :=
  let k := s.core c
  match k.th.late with
  | t :: rest =>
    let mine := match t.owner with | some i => k.strand == some i | none => true
    let s := s.setCore c { k with ctx := k.ctx.faultTaken t, th := { k.th with late := rest } }
    let s' := takeTrap { t with foreign := !mine } k.th.pc k.th.slotRes { s with cur := c }
    { (s'.modCore c fun k => { k with th := { k.th with trapped := false } }) with cur := s.cur }
  | [] => s

/-- LATE_TRAP: core `a` takes a late fault before its next bundle (11 R316). -/
def execLateTrap (s : State) : Res :=
  .next (match (s.core s.ev.a).th.drain with
    | .leave _ => s
    | .preempt => s
    | _ => if s.engineOn s.ev.a && (s.core s.ev.a).lateReady then s.takeLate s.ev.a else s)

/-! Zero fills and segment loads (05 R143, 08 R240 R241). -/

/-- ZERO_FILL_DONE: the zero fill of page `a` that a waiting write began is done (05 R143). -/
def execZeroFillDone (s : State) : Res :=
  .next (if s.mem.zeroFill.contains s.ev.a then s.fillDone s.ev.a else s)

/-- SEGMENT_LOAD_DONE: segment `a` has been read: `bytes` is what flash gave, or with the flag the Read ended in error; from a peer its page
holds what came. A content whose hash is the entry's becomes PRESENT; else the page is zero-marked and the load retried from the other
source, or from the same if it has only one; the second mismatch makes it BAD (08 R240 to R242). DEDUCED [log 83]. -/
def execSegmentLoadDone (s : State) : Res :=
  let i := s.ev.a
  let e := s.seg i
  .next (if e.st != 1 || (e.fromPeer && !e.failed && decide (e.got < 0x200000)) then s
    else
      let content := if e.fromPeer then s.phys e.page 0x200000 else s.ev.bytes
      let whole := if e.fromPeer then !e.failed else !s.ev.flag && s.ev.bytes.length == 0x200000
      let s := { s with mem := { s.mem with nvme := s.mem.nvme.filter fun r => r.seg != i } }
      if whole && sha256 content == e.hash then
        let s := { s with mem := { s.mem with bytes := Memory.writeN (Memory.zero s.mem.bytes e.page 0x200000) e.page content } }
        ((s.fillDone (e.page / 0x200000)).setSeg i { e with st := 2, retried := false }).skidder
      else
        let s := { s with mem := { s.mem with
          bytes := Memory.zero s.mem.bytes e.page 0x200000, zeroMark := s.mem.zeroMark.put (e.page / 0x200000) true } }
        if e.retried then (s.setSeg i { e with st := 3, retried := false }).skidder
        else s.segLoad i (if e.sources % 4 == 3 then !e.fromPeer else e.fromPeer) true)

end Sys2Proof.Machine
end

