-- ==== Sys2Proof/Machine/SaveArea.lean ====
section
/-! DEFINITION. Machine/SaveArea.lean: what a save writes to a save area and what a restore reads back from it, at the offsets of
11 R324 and 13 R394 (11 R323 to R327, 07 R178). The engine and bank state whose layout is internal to the house stays in `Save`. -/
namespace Sys2Proof.Machine

/-! What a save writes (11 R323 R324). -/

/-- The per-strand control registers in the order of their numbers (13 R394). -/
def Thread.csrs (th : Thread) : List Word :=
  [th.fcr, th.ffl, th.dsc, th.dsk, th.swd, th.tva, th.trs, th.rot, th.occ, th.dlen, th.gmk, th.mab.setWidth 64, (th.mab >>> 64).setWidth 64]

/-- What the class of the scalar and vector engines saves, by offset, after the continuation record (11 R323 to R325, 13 R394). -/
def Thread.pieces (th : Thread) (record : List Byte) : List (Nat × List Byte) :=
  [(0, record), (0x40, th.trapRecord ++ natLe 16 th.mab.toNat ++ natLe 8 0 ++ th.csrs.flatMap fun w => natLe 8 w.toNat),
   (0x100, (List.range 64).flatMap fun k => natLe 8 (th.rS k).toNat), (0x300, (List.range 16).flatMap fun k => natLe 32 (th.rQ k).toNat)] ++
  (th.z.map fun e => (0x500 + 128 * e.1, natLe 66 e.2.toNat)) ++
  ((th.v.filter fun e => th.mab.getLsbD (e.1 / 16)).map fun e => (0x20000 + 256 * e.1, vBytes e.2))

/-- A handle's dynamic state: PP, CP, CLOSED, then the slots' states in two bits and counts in four bits each (11 R324). DEDUCED [log 54]. -/
def Handle.bytes (d : Handle) : List Byte :=
  natLe 1 d.pp ++ natLe 1 d.cp ++ natLe 1 (b2n d.closed) ++ natLe 64 (d.st.map fun e => e.2 * 4 ^ e.1).sum ++
    natLe 128 (d.cnt.map fun e => e.2 * 16 ^ e.1).sum

/-- A Grader's nodes in rank order, eight bytes each, then their number, C and D (11 R323 R324). DEDUCED [log 54]. -/
def CoreCtx.graderBytes (x : CoreCtx) : List (Nat × List Byte) :=
  [(0, x.gnodes.flatMap fun n => natLe 2 n.id.toNat ++ natLe 2 n.parent.toNat ++ natLe 4 n.prio.toNat),
   (0x2000, natLe 2 x.gnodes.length ++ natLe 2 x.gcap ++ natLe 1 (b2n x.gdir))]

/-- What the other classes save at places that R324 gives: handles, weight banks, the Grader. -/
def CoreCtx.pieces (x : CoreCtx) : List (Nat × List Byte) :=
  (x.handles.map fun e => (0x2000 + 256 * e.1, e.2.bytes)) ++ (x.matrix.wb.map fun e => (0x8000 + 256 * e.1, vBytes e.2)) ++
  (x.graderBytes.map fun p => (0x18000 + p.1, p.2))

/-- A save area begins to be used by a victim's domain: its two pages carry its tag (11 R324). -/
def State.tagArea (s : State) (tag area : Nat) : State :=
  [area / 0x200000, area / 0x200000 + 1].foldl (fun (s : State) p =>
    { s with mem := { s.mem with pageTag := SMap.set s.mem.pageTag p tag 0x3FFE } }) s

/-- Pieces written to a save area. -/
def State.putPieces (s : State) (tag area : Nat) (ps : List (Nat × List Byte)) : State :=
  ps.foldl (fun s p => s.putArea tag (area + p.1) p.2) s

/-- THE SAVE of core `c` of launch `n` into area `area`: the strand's record with P = 1, its registers and the engines' state
(11 R323 R324, 07 R178). An idle core's area has no record. -/
def State.writeSave (s : State) (n area : Nat) (th : Option (Nat × Thread)) (x : CoreCtx) : State :=
  let l := (s.launchAt n).getD {}
  let s := s.tagArea l.tag area
  let s := match th with
    | some (i, t) =>
      let r := { l.strand i with st := .ready, pc := t.pc, slotRes := t.slotRes, th := t.th, save := some 0 }
      s.putPieces l.tag area (t.pieces (r.bytes l n area))
    | none => s
  s.putPieces l.tag area x.pieces

/-! What a restore reads (11 R327). -/

/-- The listed bytes of `n` from physical address `a` on, by offset. -/
def State.areaCells (s : State) (a n : Nat) : List Host.Cell :=
  (s.mem.bytes.filter fun p => a ≤ p.1 && p.1 < a + n).map fun p => (p.1 - a, p.2)

/-- A part of such a list. -/
def cellsAt (m : List Host.Cell) (a n : Nat) : List Host.Cell := (m.filter fun p => a ≤ p.1 && p.1 < a + n).map fun p => (p.1 - a, p.2)

/-- A table of `n` registers of `w` bytes each, `step` apart, read from an area; what is zero is not listed. -/
def readRegs (b w step n : Nat) (m : List Host.Cell) : SMap (BitVec b) :=
  (List.range n).foldl (fun (r : SMap (BitVec b)) k =>
    let c := cellsAt m (step * k) w
    if c.isEmpty then r else SMap.set r k (bytesBv b (Memory.readN c 0 w)) 0) []

/-- A thread as a save area gives it back: what the area does not hold stays as it was saved (11 R324 R327, 13 R394). -/
def Thread.fromArea (th : Thread) (m : List Host.Cell) : Thread :=
  let h := cellsAt m 0 0x100
  let w (o : Nat) : Word := bytesBv 64 (Memory.readN h o 8)
  let csr (i : Nat) : Word := w (0x98 + 8 * i)
  let mask := bytesBv 128 (Memory.readN h 0x80 16)
  { th with
    pc := fld (w 0).toNat 0 48, slotRes := fld (w 0).toNat 48 4, th := bitOf (w 0).toNat 56
    s := readRegs 64 8 8 64 (cellsAt m 0x100 0x200)
    q := SMap.drop (readRegs 256 32 32 16 (cellsAt m 0x300 0x200)) 0
    z := readRegs 528 66 128 32 (cellsAt m 0x500 0x1000)
    v := (List.range 128).flatMap fun g =>
      if mask.getLsbD g then (readRegs 2048 256 256 16 (cellsAt m (0x20000 + 0x1000 * g) 0x1000)).map fun e => (16 * g + e.1, e.2) else []
    fcr := csr 0, ffl := csr 1, dsc := csr 2, dsk := csr 3, swd := csr 4, tva := csr 5, trs := csr 6, rot := csr 7, occ := csr 8, dlen := csr 9
    gmk := csr 10, mab := (csr 12).setWidth 128 <<< 64 ||| (csr 11).setWidth 128
    recTime := (w 0x58).toNat, recOrigin := w 0x60, recEngine := w 0x68 }

/-- A handle as a save area gives it back. DEDUCED [log 54]. -/
def Handle.fromArea (d : Handle) (m : List Host.Cell) : Handle :=
  let st := leNat (Memory.readN m 3 64)
  let cnt := leNat (Memory.readN m 67 128)
  { d with
    pp := leNat (Memory.readN m 0 1), cp := leNat (Memory.readN m 1 1), closed := leNat (Memory.readN m 2 1) == 1
    st := (List.range 256).foldl (fun (r : SMap Nat) i => SMap.set r i (st / 4 ^ i % 4) 0) []
    cnt := (List.range 256).foldl (fun (r : SMap Nat) i => SMap.set r i (cnt / 16 ^ i % 16) 0) [] }

/-- A launch's state on a core as a save area gives it back: handles, weight banks and Grader; what is internal to the house stays as it
was saved (11 R324 R327). DEDUCED [log 54]. -/
def CoreCtx.fromArea (x : CoreCtx) (m : List Host.Cell) : CoreCtx :=
  let g := cellsAt m 0x18000 0x4000
  let n := leNat (Memory.readN g 0x2000 2)
  { x with
    handles := x.handles.map fun e => (e.1, e.2.fromArea (cellsAt m (0x2000 + 256 * e.1) 256))
    matrix := { x.matrix with wb := readRegs 2048 256 256 256 (cellsAt m 0x8000 0x10000) }
    gnodes := (List.range n).map fun i =>
      { id := bytesBv 16 (Memory.readN g (8 * i) 2), parent := bytesBv 16 (Memory.readN g (8 * i + 2) 2), prio := bytesBv 32 (Memory.readN g (8 * i + 4) 4) }
    gcap := leNat (Memory.readN g 0x2002 2), gdir := leNat (Memory.readN g 0x2004 1) == 1 }

end Sys2Proof.Machine
end

