-- ==== Sys2Proof/Machine/CircEvents.lean ====
section
/-! DEFINITION. Machine/CircEvents.lean: the loader, strands leaving and taking cores, pre-emption, parking and rotation
(06 R158 R161 to R164 R170 R174, 07 R183 to R199, 11 R315 R320 R322 to R327). -/
namespace Sys2Proof.Machine

/-! The loader (06 R158, 07 R197 R198). -/

/-- Line `i` of window `w` as the loader finds it for a launch: its bytes and a read of it, or cause and walk level. -/
def State.loadLine (s : State) (who : Who) (w i : Nat) : Except (Nat × Nat) (List Host.Cell × Nat × Bool) :=
  match translate s who.outside (w * 0x10000 + 128 * i) false with
  | .error e => .error e
  | .ok x =>
    match x.dest with
    | .mem a =>
      (match s.loadFault a with
        | some c => .error (c, 0)
        | none => .ok (((s.mem.bytes.filter fun p => a ≤ p.1 && p.1 < a + 128).map fun p => (128 * i + (p.1 - a), p.2)), a, x.cn))
    | _ => .error (ACCESS, 4)

/-- Lines `is` of a plane's window are fetched: those that fail are kept as bad (07 R198). -/
def State.loadLines (s : State) (who : Who) (w : Nat) (is : List Nat) (p : Plane) : State × Plane :=
  is.foldl (fun (r : State × Plane) i =>
    match r.1.loadLine who w i with
    | .ok (cells, a, cn) =>
      (r.1.consume a cn, { r.2 with
        text := (r.2.text.filter fun q => q.1 < 128 * i) ++ cells ++ (r.2.text.filter fun q => 128 * (i + 1) ≤ q.1)
        lines := withElem r.2.lines i })
    | .error (c, l) => (r.1, { r.2 with bad := r.2.bad ++ [(i, c, l)] })) (s, p)

/-- A plane filled whole with window `w`. DEDUCED [log 33]. -/
def State.fillPlane (s : State) (who : Who) (w : Nat) : State × Plane :=
  let (s, p) := s.loadLines who w (List.range 512) { window := some w }
  (s, { p with full := true })

/-- The bytes of a bucket table, 64 + 8 N of them (06 R171). -/
def parseTable (b : List Byte) : Option BucketTab :=
  let n := leAt b 0 1
  let t := (List.range 7).map fun k => leAt b (16 + 2 * k) 2
  let d := (List.range 3).map fun k => leAt b (30 + k) 1
  let map := (List.range 32).map fun k => fld (leAt b (48 + k / 2) 1) (k % 2 * 4) 4
  let entries := (List.range n).map fun j => leAt b (64 + 8 * j) 6
  let rising (l : List Nat) : Bool := (l.zip (l.drop 1)).all fun p => decide (p.1 < p.2)
  if n == 0 || 16 < n || leAt b 1 7 != 0 || leAt b 14 2 != 0 || leAt b 33 15 != 0 || !(rising (0 :: t)) || !(rising (0 :: d)) ||
      map.any (fun m => n ≤ m) || leAt b 8 6 % 4 != 0 || entries.any (fun e => e % 4 != 0) ||
      (List.range n).any (fun j => leAt b (64 + 8 * j + 6) 2 != 0) then none
  else some { finish := leAt b 8 6, t := t, d := d, map := map, entries := entries }

/-- Bytes that the loader reads for a launch, with the state after the reads, or a cause (06 R158, 08 R234). -/
def State.loadBytes (s : State) (who : Who) (va n : Nat) : Except Nat (List Byte × State) :=
  match cutAccess s who.outside false va n with
  | .error (c, _, _) => .error c
  | .ok ps =>
    match ps.findSome? fun p => match p.pa with | some a => s.loadFault a | none => some ACCESS with
    | some c => .error c
    | none => .ok (ps.flatMap fun p => s.phys (p.pa.getD 0) p.len, ps.foldl (fun s p => s.consume (p.pa.getD 0) p.x.cn) s)

/-- The bucket table of a launch, as the loader reads it, with the state after; the cause where the launch ends (06 R158 R171). A head and
entries that share a line are two reads of it. -/
def State.loadTable (s : State) (l : Launch) : Except Nat (Option BucketTab × State) :=
  if !l.record.bkt then .ok (none, s)
  else match s.loadBytes (s.who l) l.record.btab 64 with
    | .error c => .error c
    | .ok (head, s) =>
      let n := min 16 (leAt head 0 1)
      match s.loadBytes (s.who l) (l.record.btab + 64) (8 * n) with
      | .error c => .error c
      | .ok (tail, s) => (match parseTable (head ++ tail) with | some t => .ok (some t, s) | none => .error 0x0406)

/-- Where the bucket table of a launch lies. -/
def State.tableRanges (s : State) (l : Launch) : List (Nat × Nat) :=
  if !l.record.bkt then []
  else (l.record.btab, 64) :: (match s.loadBytes (s.who l) l.record.btab 64 with
    | .ok (head, _) => [(l.record.btab + 64, 8 * min 16 (leAt head 0 1))]
    | .error _ => [])

/-- The launch's state on a core at dispatch: its banks mapped, everything else at the value of dispatch (07 R194, 15 R431). -/
def State.freshCtx (s : State) (c : Nat) (r : LaunchRec) : CoreCtx :=
  let clean (b : Nat) : Bool := !(s.isDirty 1 (128 * c + b))
  let fb := s.freeBanks c
  { banks := (fb.filter clean ++ fb.filter fun b => !(clean b)).take r.spb }

/-- The units that a launch on core `c` uses are clean (05 R143). DEDUCED [log 56]. -/
def State.coreClean (s : State) (c : Nat) (x : CoreCtx) : Bool :=
  !(s.isDirty 0 c) && !(s.isDirty 3 c) && !(x.banks.any fun b => s.isDirty 1 (128 * c + b)) &&
  !((List.range 256).any fun b => s.isDirty 2 (256 * c + b))

/-- The lines that hold the first 256 bytes at and after a PC. -/
def firstLines (pc : Nat) : List Nat :=
  ((List.range 3).map fun i => pc % 0x10000 / 128 + i).filter fun i => decide (i < 512 ∧ 128 * i < pc % 0x10000 + 256)

/-- DISPATCH on core `c` of launch `n`: bucket table and first 256 bytes at ENTRY; the first window's other lines follow (06 R158). It waits
for the segments they lie in (07 R198, 08 R239). DEDUCED [log 56]. -/
def State.dispatch (s : State) (n c : Nat) (l : Launch) : State :=
  let fresh := s.freshCtx c l.record
  let code := (firstLines l.record.entry).map fun i => (l.record.entry / 0x10000 * 0x10000 + 128 * i, 128)
  if !(s.coreClean c fresh) then s
  else match s.waitsOn (s.who l).outside (s.tableRanges l ++ code) with
  | some a => s.hurry a
  | none =>
  match s.loadTable l with
    | .error cause => endLaunch n cause none s
    | .ok (tab, s) =>
      let w := l.record.entry / 0x10000
      let (s, p) := s.loadLines (s.who l) w (firstLines l.record.entry) { window := some w }
      match p.bad with
      | (_, cause, _) :: _ => endLaunch n cause none s
      | [] =>
        let resident := match (s.core c).resident with | some (m, x) => if m == n then some x else none | none => none
        (s.modLaunch n fun l => { l with table := tab, visited := withElem l.visited c }).modCore c fun k => { k with
          loaded := true, active := p, shadow := {}, table := tab
          th := { cycle := k.th.cycle, bundles := k.th.bundles }
          ctx := resident.getD fresh
          resident := if resident.isSome then none else k.resident }

/-- The window that the shadow plane is to hold: the one a flip waits for, else the one after the active; a swaptok into the active
window starts no fill (07 R198 R199). DEDUCED [log 33]. -/
def CoreSt.shadowWants (k : CoreSt) : Nat :=
  let next := (k.active.window.getD 0 + 1) % 2 ^ 32
  match k.th.drain with
  | .flip => if k.active.window == some (k.th.pc / 0x10000) then next else k.th.pc / 0x10000
  | _ => next

/-- A fill of window `w` for a launch runs as `fill` gives, once the segments it reads are there (07 R198, 08 R239). -/
def State.whenLoaded (s : State) (who : Who) (w : Nat) (fill : State) : State :=
  match s.waitsOn who.outside [(w * 0x10000, 0x10000)] with
  | some a => s.hurry a
  | none => fill

/-- PLANE_FILL_DONE: the loader's next fill on core `a` ends: the dispatch, the rest of the active window, then the shadow
(06 R158, 07 R198). -/
def execPlaneFillDone (s : State) : Res :=
  let c := s.ev.a
  let k := s.core c
  .next (match k.launch with
    | none => s
    | some n =>
      match s.launchAt n with
      | none => s
      | some l =>
        if l.st != .bound || s.owner c != some n || k.freeze != 0 then s
        else if !k.loaded then s.dispatch n c l
        else if !k.active.full then
          let w := k.active.window.getD 0
          let r := s.loadLines (s.who l) w ((List.range 512).filter fun i => !(k.active.lines.contains i)) k.active
          s.whenLoaded (s.who l) w (r.1.modCore c fun k => { k with active := { r.2 with full := true } })
        else if k.shadow.window == some k.shadowWants && k.shadow.full then s
        else
          let r := s.fillPlane (s.who l) k.shadowWants
          s.whenLoaded (s.who l) k.shadowWants (r.1.modCore c fun k => { k with shadow := r.2 }))

/-! Rotation (06 R161). -/

/-- The launch's resources on core `c` are free: no bank owned, no accumulator bank held, no slot in use, no operation queued. -/
def CoreCtx.idle (x : CoreCtx) : Bool :=
  x.own.isEmpty && !(x.held.any fun p => p.2 != 0) && x.freeing.isEmpty && !(x.handles.any fun h => h.2.st.any fun e => e.2 != 0) &&
  x.copyq.isEmpty && x.streamq.isEmpty && x.fabricq.isEmpty && x.cipherq.isEmpty

/-- A marked core of launch `n` is given up at a strand boundary, and the cooler one joins; where that has been taken meanwhile, another
that is cooler by as much. A core whose resources are not free waits for the next boundary at which they are (06 R161). DEDUCED [log 52]. -/
def State.rotateAt (s : State) (n c : Nat) : State :=
  match s.launchAt n with
  | none => s
  | some l =>
    match l.rotate with
    | some (hot, cool) =>
      let target := if s.freeTo l.record l.part (some n) cool then some cool
        else (s.freeCores l.record l.part (some n)).find? fun d => decide (s.allowance c 105 + 16 ≤ s.allowance d 105)
      match target with
      | some d =>
        if hot == c && (s.core c).ctx.idle && !(l.strands.any fun e => e.2.tie == some c) && (s.preempt c).isNone then
          let s := s.modLaunch n fun l => { l with rotate := none, cores := without l.cores c }
          ((s.dropCore c).joinCore n d).countCirc 5
        else s
      | none => s
    | none => s

/-! Strands leave (07 R183). -/

/-- Park: launch `n` gives up every core; the header's physical address is kept where it lies in the Stacks (06 R174). DEDUCED [log 57]. -/
def State.park (s : State) (n a : Nat) : State :=
  match s.launchAt n with
  | none => s
  | some l =>
    let pa := match translate s (s.who l).outside a false with
      | .ok x => (match x.dest with | .mem p => if p < 0x80000000 then some p else none | _ => none)
      | .error _ => none
    let s := s.modCirc fun c => { c with parks := c.parks + 1 }
    let s := s.modLaunch n fun l => { l with parkAddr := pa, parkAt := s.time.toNat, parkNo := s.circ.parks, rotate := none }
    (s.askPreempt (l.cores.filter fun c => (s.preempt c).isNone) none).countCirc 4

/-- The bindings a strand made on its core are cleared at a voluntary suspension (15 R431). -/
def Matrix.clearBy (m : Matrix) (i : Nat) : Matrix :=
  { m with tile := m.tile.filter fun p => SMap.get m.tileBy p.1 0 != i, binding := m.binding.filter fun b => SMap.get m.tileBy b.1 0 != i }

/-- THE STRAND LEAVES core `c` at the end of a voluntary suspension `x`, when its results have landed (07 R183 to R188, 06 R172). -/
def State.leave (s : State) (c : Nat) (x : Xfer) : State :=
  let k := (s.core c).settleAcc
  match k.launch, k.strand with
  | some n, some i =>
    let th := k.th
    let gang := ((s.launchAt n).getD {}).record.gang
    let k := { k with
      strand := none
      th := { th with drain := .none, late := [], barWait := [], busy := [], arrived := false }
      ctx := { k.ctx with matrix := if gang then k.ctx.matrix else k.ctx.matrix.clearBy i } }
    let s := (s.setCore c k).takeSeqWrites c
    let s := s.modLaunch n fun l => l.modStrand i fun r => { r with
      pc := th.pc, slotRes := 0, th := false, c1 := th.rS 1, c2 := th.rS 2, c3 := th.rS 3, c4 := th.rS 4
      wkind := 0, evt := 0, arg := 0, save := none, late := r.late ++ th.late, tie := if gang then some c else none }
    let s := match x with
      | .suspend kind e a => s.modLaunch n fun l =>
          if wakeMet l s.time.toNat kind e a then (l.modStrand i fun r => { r with wkind := kind }).makeReady i
          else l.modStrand i fun r => { r with st := .waiting, wkind := kind, evt := e, arg := a }
      | .yieldTo a =>
          if a == 0 then s.modLaunch n fun l => l.makeReady i
          else (s.modLaunch n fun l => l.modStrand i fun r => { r with st := .waiting, wkind := 3, arg := a }).park n a
      | .seqnext => s.modLaunch n fun l => (l.modStrand i fun r => { r with st := .held }).sequence
      | _ => s.modLaunch n fun l =>
          (((l.leaveAll i).modStrand i fun r => { r with st := .exited, gsum := 0 })).sequence
    s.rotateAt n c
  | _, _ => s

/-! Pick-up (06 R170, 07 R184, 11 R315 R327). -/

/-- The record core `c` takes: the oldest ready one not tied elsewhere, else the unstarted strand of lowest index; a gang core takes
the strand that holds it (06 R164 R168 R170). -/
def Launch.nextRecord (l : Launch) (c : Nat) : Option Nat :=
  let mine (i : Nat) : Bool := (l.strand i).tie == some c
  let fresh := firstBelow l.record.strands fun i => (l.strand i).st == .unstarted
  if l.record.gang && (List.range l.record.strands).any mine then l.ready.find? mine
  else match l.ready.find? fun i => mine i || (l.strand i).tie.isNone with
    | some i => some i
    | none => fresh

/-- Spilled bank contents come back from a save area, whose bytes are `m`, to core `k` under the banks of context `x`: accumulator
banks where the extents have bit 0, scratchpad banks where they have bit 1 (11 R324 R326 R327). -/
def CoreSt.unspill (k : CoreSt) (m : List Host.Cell) (full : List Nat) (x : CoreCtx) : CoreSt :=
  let at_ (a : Nat) : Nat := x.banks.getD (a / 0x4000) 0 * 0x4000 + a % 0x4000
  let ext := leNat (Memory.readN m 0x90 8)
  let acc := if bitOf ext 0 then (cellsAt m 0xA0000 0x80000).filter fun p => SMap.get x.held (p.1 / 0x800) 0 != 0 else []
  let spad := if bitOf ext 1 then (cellsAt m 0x120000 0x200000).filter fun p => decide (p.1 / 0x4000 < x.banks.length) else []
  { k with
    ctx := x
    spad := spad.foldl (fun m p => Memory.write m (at_ p.1) p.2) k.spad
    full := full.foldl (fun m g => withElem m (x.banks.getD (g / 1024) 0 * 1024 + g % 1024)) k.full
    acc := acc.foldl (fun m p => Memory.write m p.1 p.2) k.acc }

/-- The context of a save area is restored on core `c`: spilled banks come back, resident ones have never left; then the handles, the
weight banks and the Grader (11 R327). -/
def State.restoreCtx (s : State) (c : Nat) (v : Save) : State :=
  let m := s.areaCells v.area 0x400000
  let s := match v.ctx with
    | some x => s.modCore c fun k => k.unspill m v.full { x with banks := k.ctx.banks }
    | none => s
  s.modCore c fun k => { k with ctx := k.ctx.fromArea m }

/-- A thread as a pick-up with P = 0 sets it up (07 R184, 13 R394). DEDUCED [log 31]. -/
def Thread.pickup (th : Thread) (r : Strand) (i : Nat) (occ dlen : Word) : Thread :=
  let set (m : SMap Word) (k : Nat) (v : Word) : SMap Word := SMap.set m k v 0
  { th with
    s := set (set (set (set (set (set th.s 1 r.c1) 2 r.c2) 3 r.c3) 4 r.c4) 62 (BitVec.ofNat 64 i)) 63 0
    pc := r.pc, slotRes := r.slotRes, fcr := 0, ffl := 0, dsc := 0, dsk := 0, swd := 0, tva := 0, trs := 0, rot := 0
    occ := occ, dlen := dlen, gmk := r.gsum.setWidth 64, th := false, recTime := 0, recOrigin := 0, recEngine := 0 }

/-- What a save and a restore leave of the vector registers: the groups whose save-mask bit is set; the others read zero (11 R325). -/
def Thread.masked (th : Thread) : Thread := { th with v := th.v.filter fun e => th.mab.getLsbD (e.1 / 16) }

/-- Core `c` takes record `i` of launch `n` (07 R184, 11 R327). A strand whose suspension an event has ended begins with an acquire
(09 R262). -/
def State.take (s : State) (n c i : Nat) (l : Launch) : State :=
  let r0 := l.strand i
  let r := if r0.st == .unstarted then { r0 with pc := l.record.entry, c1 := BitVec.ofNat 64 i } else r0
  let saved := r.save.bind fun k => SMap.get s.saves k none
  -- an idle core's saved state comes back before the first pick-up there (06 R157)
  let s := match SMap.get l.coreSaves c none with
    | some k =>
      let s := match SMap.get s.saves k none with | some v => s.restoreCtx c v | none => s
      ((s.moveFences n (600 + k) c).freeSave k).modLaunch n fun l => { l with coreSaves := SMap.drop l.coreSaves c }
    | none => s
  let s := match saved with
    | some v => (s.restoreCtx c v).modCore c fun k => { k with th :=
        { ((v.th.getD {}).fromArea (s.areaCells v.area 0x400000)).masked with
          cycle := k.th.cycle, bundles := k.th.bundles, gmk := r.gsum.setWidth 64 } }
    | none => s.modCore c fun k => { k with th := k.th.pickup r i (l.occ.setWidth 64) (l.dlen.setWidth 64) }
  let s := match r.save with | some k => (s.moveFences n (600 + k) c).freeSave k | none => s
  let s := s.modCore c fun k => { k with
    strand := some i
    th := { k.th with
      pc := if saved.isSome then k.th.pc else r.pc, drain := .none, busy := [], arrived := true, stalled := false, trapped := false
      late := (r.late ++ k.ctx.heldLate).foldl insertLate k.th.late }
    ctx := { k.ctx with heldLate := [] }
    dcache := if r.wake == 1 then [] else k.dcache }
  let taken : Strand := { r with
    st := .running, started := true, save := none, late := [], wkind := 0, evt := 0, arg := 0, wake := 0, tie := if l.record.gang then some c else none }
  s.modLaunch n fun l => { (l.modStrand i fun _ => taken) with ready := without l.ready i }

/-- Core `c` may take work: loaded, idle, not in a pre-emption, and the carrel has started (06 R163 R166). -/
def State.mayTake (s : State) (n c : Nat) (l : Launch) : Bool :=
  let k := s.core c
  l.st == .bound && k.loaded && k.strand.isNone && s.owner c == some n && (s.preempt c).isNone && l.parkNo == 0 &&
  (l.firstAt.isSome || decide (l.record.cmin ≤ l.cores.length)) &&
  !(s.mem.net.any fun r => r.core == c && r.lsbu && !r.performed) && k.freeze == 0

/-- Every `ls` and `bu` access that strand `i` of launch `n` has issued, on any core, is performed: it may resume (09 R260). -/
def State.strandQuiet (s : State) (n i : Nat) : Bool :=
  !(s.mem.net.any fun r => r.launch == n && r.strand == i && r.lsbu && !r.performed)

/-- What a save area holds may be restored: the fabric class has acknowledged the pre-emption (06 R163). -/
def State.saveReady (s : State) (k : Option Nat) : Bool :=
  match k.bind fun i => SMap.get s.saves i none with
  | some v => !v.fabWait
  | none => true

/-- Record `i` can be taken by core `c` now. -/
def State.mayResume (s : State) (n c i : Nat) (l : Launch) : Bool :=
  s.strandQuiet n i && s.saveReady (l.strand i).save && s.saveReady (SMap.get l.coreSaves c none)

/-- A line of save area `k` is poisoned (05 R140, 11 R327). DEDUCED [log 54]. -/
def State.savePoisoned (s : State) (k : Option Nat) : Bool :=
  match k.bind fun i => SMap.get s.saves i none with
  | some v => s.mem.lines.any fun e => e.2.poison && decide (v.area ≤ 128 * e.1 ∧ 128 * e.1 < v.area + 0x400000)
  | none => false

/-- HARDWARE ends launch `n`: a house launch alone, a tenant's with its whole micro-context (05 R139 R141). -/
def State.hardwareEnds (s : State) (n : Nat) : State :=
  match s.launchAt n with
  | some l => if l.house then s.endAny n 0x0501 5 else s.terminateMcx l.mcx 0x0501
  | none => s

/-- STRAND_PICKUP: idle core `a` takes a ready record or an unstarted strand; a restore that meets poison ends the micro-context
(06 R170, 07 R184, 11 R327). -/
def execStrandPickup (s : State) : Res :=
  let c := s.ev.a
  .next (match (s.core c).launch with
    | none => s
    | some n =>
      match s.launchAt n with
      | none => s
      | some l =>
        if s.mayTake n c l then
          match l.nextRecord c with
          | some i =>
            if !(s.mayResume n c i l) then s
            else if s.savePoisoned (l.strand i).save || s.savePoisoned (SMap.get l.coreSaves c none) then s.hardwareEnds n else s.take n c i l
          | none => s
        else s)

/-- TIME_WAKE: strand `b` of launch slot `a` waits for a time that has come (07 R185). -/
def execTimeWake (s : State) : Res :=
  .next (s.modLaunch s.ev.a fun l =>
    let r := l.strand s.ev.b
    if r.st == .waiting && r.wkind == 2 && timeMet s.time.toNat r.arg then l.makeReady s.ev.b else l)

/-! Pre-emption (06 R163 R164, 11 R322 to R326). -/

/-- CORE_PREEMPT_REQUEST: the Collector's request reaches core `a`: issue stops and what is in flight lands (11 R322). -/
def execCorePreemptRequest (s : State) : Res :=
  let c := s.ev.a
  .next (match s.preempt c with
    | none => s
    | some p =>
      if p.asked then s
      else
        let s := s.setPreempt c (some { p with asked := true })
        s.modCore c fun k => match k.strand, k.th.drain with
          | some _, .leave _ => k
          | some _, _ => { k with th := { k.th with drain := .preempt } }
          | none, _ => k)

/-- The scalar and vector class has stopped: no strand, or everything has landed (11 R322). -/
def CoreSt.stopped (k : CoreSt) : Bool :=
  match k.strand, k.th.drain with
  | none, _ => true
  | some _, .preempt => k.th.inflight.isEmpty && k.th.pend.isEmpty
  | some _, _ => false

/-- The accesses of core `c` that a save must not leave behind are performed, those of its `ls` and `bu` paths (09 R260 R265, 11 R323), and
its signals have reached Circulation (18 R501). -/
def State.coreQuiet (s : State) (c : Nat) : Bool := !(s.mem.net.any fun r => r.core == c && r.lsbu && !r.performed) && !(s.signalOpen c)

/-- Fields that count issued cycles, as a save leaves them: all in the past (15 R435 R441); a bank's release goes on to wait for the same
operand passes (07 R195). -/
def CoreCtx.settled (x : CoreCtx) : CoreCtx :=
  let ids := (x.matrix.run.filterMap fun p => p.2.map fun r => (passId p.1 r, passId p.1 { r with since := 0 })) ++
    (x.matrix.feed.filterMap fun p => p.2.map fun r => (passId (2 + p.1) r, passId (2 + p.1) { r with since := 0 }))
  let renamed (i : Nat) : Nat := match ids.find? fun p => p.1 == i with | some p => p.2 | none => i
  { x with
    rp := x.rp.map fun r => (r.1, r.2.1, r.2.2.map renamed)
    freeing := x.freeing.map fun p => (p.1, 0)
    matrix := { (x.matrix.bindDue (x.matrix.binding.foldl (fun m b => max m b.2.2) 0)) with
      feed := x.matrix.feed.map fun p => (p.1, p.2.map fun q => { q with since := 0 })
      run := x.matrix.run.map fun p => (p.1, p.2.map fun q => { q with since := 0 }) } }

/-- The victim's state on core `c` goes into save area `i`; its banks stay resident (11 R323 R324 R326, 06 R157).
Its OCC and DLEN writes have reached the sequencer (06 R173). DEDUCED [log 54]. -/
def State.saveCore (s : State) (c v i : Nat) (fab : Bool) : State :=
  let s := s.takeSeqWrites c
  let k := (s.core c).settleAcc
  let save : Save := { area := s.mem.saveBase + 0x400000 * i, launch := v, core := c, th := k.strand.map fun _ => k.th, fabWait := fab }
  let s := (if (s.core c).resident.isSome then s.spill c else s)
  let s := s.writeSave v save.area (k.strand.map fun i => (i, k.th)) k.ctx
  let s := ((s.setSave i (some save)).moveFences v c (600 + i)).modCore c fun _ => { k with
    resident := some (v, k.ctx.settled), ctx := {}, strand := none, th := { cycle := k.th.cycle, bundles := k.th.bundles } }
  match k.strand with
  | some st => s.modLaunch v fun l =>
      { (l.modStrand st fun r => { r with
          st := .ready, pc := k.th.pc, slotRes := k.th.slotRes, th := k.th.th, save := some i, tie := some c }) with
        ready := without l.ready st ++ [st] }
  | none => s.modLaunch v fun l => { l with coreSaves := SMap.set l.coreSaves c (some i) none }

/-- A carrel without cores waits, or is parked (06 R164 R174). -/
def State.carrelEmpty (s : State) (v : Nat) : State :=
  match s.launchAt v with
  | some l =>
    if !l.cores.isEmpty || l.st != .bound then s
    else if l.parkNo != 0 then s.setLaunch v (some { l with st := .parked })
    else (s.setLaunch v (some { l with st := .preempted })).enterWait v
  | none => s

/-- COLLECTOR_RELEASE: every class but fabric collective has acknowledged: the state is saved, the core leaves the victim and passes to
the incoming launch, or is free (06 R163 R164 R174). It waits while no save area is free. DEDUCED [log 53]. -/
def State.release (s : State) (c : Nat) (p : Preempt) : State :=
  match s.freeSaves with
  | [] => s
  | i :: _ =>
    let s := (s.saveCore c p.victim i (!(p.acks.contains 6))).setPreempt c none
    let s := (s.modLaunch p.victim fun l => { l with cores := without l.cores c }).countCirc 3
    let s := (s.setOwner c none).modCore c fun k => { k with launch := none, loaded := false }
    let s := s.carrelEmpty p.victim
    match p.incoming with
    | some m =>
      let s := match s.launchAt m with
        | some l => if s.fits l.record c then s else s.spill c
        | none => s
      if (s.launchAt m).isSome then s.joinCore m c else s.markDirty 0 [c]
    | none => s.markDirty 0 [c]

/-- Engine class `b` of core `c` can acknowledge: the scalar class once its results have landed and its accesses are performed, the bank
unit once its operations are (06 R163, 09 R260 R265, 11 R322 R323). -/
def State.mayAck (s : State) (c b : Nat) : Bool :=
  match b with
  | 0 => (s.core c).stopped && s.coreQuiet c
  | 4 => s.coreQuiet c
  | _ => true

/-- The fabric class acknowledges after the release: what was saved of core `c` may resume (06 R163). -/
def State.fabricAck (s : State) (c : Nat) : State :=
  { s with saves := s.saves.map fun e => (e.1, e.2.map fun (v : Save) => if v.core == c then { v with fabWait := false } else v) }

/-- COLLECTOR_ACK: engine class `b` of core `a` has stopped at its unit and acknowledges; with the first six the core is released, then
or, where no save area was free, at a later request. The fabric class's acknowledgement gates only the victim's resumption
(06 R163). A launch that ends meanwhile has its state discarded. DEDUCED [log 57]. -/
def execCollectorAck (s : State) : Res :=
  let c := s.ev.a
  let b := s.ev.b
  .next (match s.preempt c with
    | none => if b == 6 then s.fabricAck c else s
    | some p =>
      if !p.asked || 6 < b || !(s.mayAck c b) || ((s.launchAt p.victim).map (·.st)) == some .retiring then s
      else
        let p := { p with acks := withElem p.acks b }
        let s := s.setPreempt c (some p)
        if (List.range 6).all p.acks.contains then s.release c p else s)

/-! Parking (06 R174). -/

/-- A parked launch wakes: its records that wait for the list are ready, and it joins the wait list at its base priority. -/
def State.unpark (s : State) (n : Nat) : State :=
  match s.launchAt n with
  | none => s
  | some l =>
    let mine := (List.range l.record.strands).filter fun i => (l.strand i).st == .waiting && (l.strand i).wkind == 3
    let l := mine.foldl Launch.makeReady l
    (s.setLaunch n (some { l with
      st := .preempted, parkAddr := none, parkNo := 0, deadlineFrom := l.deadlineFrom + (s.time.toNat - l.parkAt) })).enterWait n

/-- The launches parked on a physical address, in the order in which they parked. -/
def State.parkedOn (s : State) (a : Nat) : List Nat :=
  let l (n : Nat) : Launch := (s.launchAt n).getD {}
  sortBy (fun x y => decide ((l x).parkNo < (l y).parkNo))
    ((s.circ.launches.filter fun e => match e.2 with | some v => v.parkAddr == some a && v.parkNo != 0 | none => false).map (·.1))

/-- PARK_WAKE: the oldest report of a list become non-empty wakes the first launch parked on it; it waits until that launch has given
up its cores (06 R174). -/
def execParkWake (s : State) : Res :=
  .next (match s.circ.reports with
    | [] => s
    | a :: r =>
      match s.parkedOn a with
      | [] => s.modCirc fun c => { c with reports := r }
      | n :: _ =>
        if ((s.launchAt n).getD {}).st == .parked then (s.modCirc fun c => { c with reports := r }).unpark n else s)

/-- PARK_TIMEOUT: launch slot `a` has been parked for 1 ms (06 R174). -/
def execParkTimeout (s : State) : Res :=
  .next (match s.launchAt s.ev.a with
    | some l => if l.st == .parked && l.parkAt + 1000000 ≤ s.time.toNat then s.unpark s.ev.a else s
    | none => s)

end Sys2Proof.Machine
end

