-- ==== Sys2Proof/Machine/HostCmds.lean ====
section
/-! DEFINITION. Machine/HostCmds.lean: the host's commands (04 R94 R95 R102 R107 R110 R111, 02 R55, 05 R115 to R117 R119 to R122 R126
R132 R135, 06 R153). Statuses are those of R97. -/
namespace Sys2Proof.Machine

/-- LAUNCH: the launch record goes to Circulation, and the command completes when the launch retires (04 R94 R96 R509). -/
def execLaunch (s : State) : Res :=
  runCmd s.ev.a (isOp 0x01) (fun _ => false) (fun s x c =>
    if !(x.mcxOk (leAt c.packet 32 2)) then s.complete c 2 0
    else match s.hostRead c.fn (leAt c.packet 40 8) 128 with
      | none => s.completeNowhere c 8
      | some b =>
        let r := parseRecord b
        if r.crec % 64 != 0 || r.sigAddr % 8 != 0 then (s.countCirc 2).completeNowhere c 10
        else
          let c' := { c with crec := r.crec, sigAddr := r.sigAddr, sigVal := r.sigVal }
          let s := { s with hif := { s.hif with cmds := s.hif.cmds.map fun (d : Cmd) => if d.id == c.id then c' else d } }
          s.modCirc fun q => { q with hostLane := q.hostLane ++
            [{ record := r, malformed := !(recordReservedOk b), mcx := leAt c.packet 32 2, cmd := some c.id }] }) s

/-! The Catalog (02 R55, 05 R121). -/

/-- CATALOG_SET: replaces a matching entry or inserts into a free way (04 R94 R95, 05 R121). DEDUCED [log 59]. -/
def execCatalogSet (s : State) : Res :=
  runCmd s.ev.a (isOp 0x02) entryBad (fun s x c =>
    let e := packetEntry c.packet
    let old := s.catLookup e.bind e.func
    let free := ((List.range 4).map (4 * catalogSet e.bind e.func + ·)).find? fun i => !(s.catEntry i).v
    let b := s.mcb e.mcx
    if !(x.mcxOk e.mcx) || e.part != x.part || (match old with | some i => (s.catEntry i).part != x.part | none => false) then s.complete c 2 0
    else if b.st == 0 || (b.backLink.isSome && b.backLink != old) then s.complete c 2 0
    else match old.or free with
      | none => s.complete c 6 0
      | some i =>
        let s := match old with
          | some j => if (s.catEntry j).mcx != e.mcx then s.modMcb (s.catEntry j).mcx fun b => { b with backLink := none } else s
          | none => s
        (((s.setCat i e).modMcb e.mcx fun b => { b with backLink := some i })).complete c 0 0) s

/-- CATALOG_DEL: clears the matching entry and the back-link (04 R94 R95, 05 R121). -/
def execCatalogDel (s : State) : Res :=
  runCmd s.ev.a (isOp 0x03) (fun _ => false) (fun s x c =>
    match s.catLookup (leAt c.packet 32 2) (leAt c.packet 36 4) with
    | none => s.complete c 7 0
    | some i =>
      if (s.catEntry i).part != x.part then s.complete c 2 0
      else ((s.setCat i {}).modMcb (s.catEntry i).mcx fun b => { b with backLink := none }).complete c 0 0) s

/-! MCB_WRITE (05 R119 R122, 06 R153). -/

/-- The MCB in 256 bytes of host memory, on top of the device's own fields. -/
def parseMcb (b : List Byte) (old : Mcb) : Mcb :=
  { old with
    part := leAt b 3 1, prio := leAt b 4 1, bucket := leAt b 5 1, keySlot := leAt b 6 2, ptRoot := leAt b 8 8, vqn := leAt b 16 4
    handle := slice b 24 32, bind := leAt b 56 2, epTab := leAt b 64 8, fwBase := leAt b 72 8, fwLen := leAt b 80 8
    reqLr := leAt b 88 8, dumpBase := leAt b 96 8, dumpMax := leAt b 104 4 }

/-- The BAD_PACKET checks of an MCB (05 R122). -/
def mcbBad (b : List Byte) (m : Nat) : Bool :=
  leAt b 0 2 != m || 32 ≤ leAt b 3 1 || 16 ≤ leAt b 4 1 || 4096 ≤ leAt b 6 2 || leAt b 20 4 != 0 ||
  4096 ≤ leAt b 56 2 || leAt b 58 6 != 0 || leAt b 108 20 != 0 || leAt b 128 128 != 0 ||
  leAt b 8 8 % 0x1000 != 0 || leAt b 64 8 % 0x1000 != 0 || leAt b 72 8 % 0x200000 != 0 || leAt b 80 8 % 0x200000 != 0 ||
  leAt b 96 8 % 128 != 0 || leAt b 104 4 % 128 != 0

/-- The permitted changes of state (05 R122). -/
def mcbChange (old new : Nat) : Bool :=
  old == new || (new == 1 && (old == 0 || old == 3)) || (new == 2 && (old == 1 || old == 3)) || (new == 3 && old == 1)

/-- The DENIED checks (05 R122). DEDUCED [log 59]. -/
def State.mcbDenied (s : State) (x : Mq) (m want : Nat) (new : Mcb) : Bool :=
  let old := s.mcb m
  let p := s.part x.part
  !(mcbChange old.st want) ||
  (old.st != 0 && (new.part != old.part || new.keySlot != old.keySlot || new.ptRoot != old.ptRoot || new.handle != padTo old.handle 32)) ||
  new.part != x.part || new.keySlot < p.keyBase || p.keyBase + p.keyCount ≤ new.keySlot || x.ceiling < new.prio || new.bucket != x.fn

/-- The template an MCB_WRITE that leaves the micro-context READY reads: a status, or what is kept, with the state after the read
(06 R153, 08 R234). -/
def State.readTemplate (s : State) (m : Nat) (new : Mcb) : Except Nat (Option LaunchRec × State) :=
  if new.reqLr == 0 then .ok (none, s)
  else
    let who : Who := { mcx := m, part := some new.part, root := some new.ptRoot, windows := false }
    match cutAccess s who false new.reqLr 128 with
    | .error _ => .error 9
    | .ok ps =>
      if ps.any fun p => match p.pa with | some a => (s.loadFault a).isSome | none => true then .error 9
      else
        let b := ps.flatMap fun p => s.phys (p.pa.getD 0) p.len
        let r := parseRecord b
        if recordReservedOk b && r.ok && r.kind == 1 then .ok (some r, ps.foldl (fun s p => s.consume (p.pa.getD 0) p.x.cn) s) else .error 1

/-- Entering DEAD through MCB_WRITE ends the micro-context's launches with class 6 (05 R122 R139). -/
def State.applyMcb (s : State) (m want : Nat) (new : Mcb) (t : Option LaunchRec) : State :=
  let was := (s.mcb m).st
  let s := s.tlbFlush m
  let s := s.modMcb m fun _ => { new with st := want, terminations := if want == 1 && was != 1 then 0 else new.terminations }
  let s := s.modCirc fun c => { c with templates := if want == 1 then SMap.set c.templates m t none else c.templates }
  if want == 3 && was == 1 then s.terminateMcx m 0x0601
  else if want == 2 then s.teardown m else s

/-- MCB_WRITE: writes an MCB and asks for a change of state (05 R119 R122). -/
def execMcbWrite (s : State) : Res :=
  runCmd s.ev.a (isOp 0x04) (fun _ => false) (fun s x c =>
    let m := leAt c.packet 32 2
    if !(x.mcxOk m) then s.complete c 2 0
    else match s.hostRead c.fn (leAt c.packet 40 8) 256 with
      | none => s.complete c 8 0
      | some b =>
        let want := leAt b 2 1
        let new := parseMcb b (s.mcb m)
        if mcbBad b m || 8192 ≤ m then s.complete c 1 0
        else if s.mcbDenied x m want new then s.complete c 2 0
        else if want == 1 then
          match s.readTemplate m new with
          | .error e => s.complete c e 0
          | .ok (t, s) => (s.applyMcb m want new t).complete c 0 0
        else (s.applyMcb m want new none).complete c 0 0) s

/-! COPY_IN and COPY_OUT (04 R94, 05 R132 R135). -/

/-- A protected launch of micro-context `m` runs: it has cores, or has had them; one that waits and has never run does not (05 R130 R132). -/
def State.protectedRuns (s : State) (m : Nat) : Bool :=
  (s.launchesOf m).any fun n => match s.launchAt n with
    | some l => l.record.prot && !(l.st == .waiting && !l.hasRun)
    | none => false

/-- A copy whose length R94 refuses. -/
def copyBad (b : List Byte) : Bool := leAt b 36 4 == 0 || 2 ^ 31 < leAt b 36 4

/-- COPY_IN: host memory into a micro-context's address space; every line is checked before any byte moves (05 R135). -/
def execCopyIn (s : State) : Res :=
  runCmd s.ev.a (isOp 0x05) copyBad (fun s x c =>
    let m := leAt c.packet 32 2
    let n := leAt c.packet 36 4
    if !(x.mcxOk m) || s.protectedRuns m then s.complete c 2 0
    else match s.hostRead c.fn (leAt c.packet 40 8) n with
      | none => s.complete c 8 0
      | some b =>
        match cutAccess s (s.mcxWho m) true (leAt c.packet 48 8) n with
        | .error _ => s.complete c 9 0
        | .ok ps =>
          if ps.any fun p => match p.pa with | some a => ((s.line a).writeFault (p.len == 128)).isSome | none => true then s.complete c 9 0
          else (s.writeLines ps b none).complete c 0 0) s

/-- The bytes of a COPY_OUT up to the first poisoned line or tombstone, and whether one stopped it; counted lines fall. -/
def copyOutLines (ps : List Piece) (s : State) : State × List Byte × Bool :=
  match ps with
  | [] => (s, [], true)
  | p :: r =>
    let a := p.pa.getD 0
    if (s.line a).poison || (s.line a).tomb then (s, [], false)
    else
      let b := s.phys a p.len
      let (s, bs, ok) := copyOutLines r (s.consume a p.x.cn)
      (s, b ++ bs, ok)

/-- The first byte that the COPY_OUT at the head of a queue would read from a segment that is EMPTY or LOADING (08 R239). -/
def State.copyOutWaits (s : State) (m : Nat) : Option Nat :=
  match s.takePacket m (isOp 0x06) with
  | .error _ => none
  | .ok (t, c) =>
    let b := c.packet
    let x := leAt b 32 2
    match cutAccess t (t.mcxWho x) false (leAt b 48 8) (leAt b 36 4) with
    | .error _ => none
    | .ok ps =>
      if !(packetAligned b) || !(packetReservedOk b) || copyBad b || t.minimal || !(classOk (t.mq m) 6) || !((t.mq m).mcxOk x) ||
          t.protectedRuns x then none
      else if ps.any fun p => match p.pa with | some a => s.segWaits a == some true | none => true then none
      else ps.findSome? fun p => match p.pa with | some a => if s.segWaits a == some false then some a else none | none => none

/-- COPY_OUT: device memory to the host under the export rule (05 R135). A segment that is not present is waited for (08 R239).
DEDUCED [log 59]. -/
def execCopyOut (s : State) : Res :=
  match s.copyOutWaits s.ev.a with
  | some a => .next (s.hurry a)
  | none => runCmd s.ev.a (isOp 0x06) copyBad (fun s x c =>
    let m := leAt c.packet 32 2
    let n := leAt c.packet 36 4
    if !(x.mcxOk m) || s.protectedRuns m then s.complete c 2 0
    else match cutAccess s (s.mcxWho m) false (leAt c.packet 48 8) n with
      | .error _ => s.complete c 9 0
      | .ok ps =>
        if ps.any fun p => match p.pa with | some a => s.segWaits a == some true | none => true then s.complete c 9 0
        else if ps.any fun p => p.x.tag != 0x3FFF && !(s.line (p.pa.getD 0)).cipher then s.complete c 2 0
        else if !(s.hostWriteOk c.fn (leAt c.packet 40 8) n) then s.complete c 8 0
        else
          let (s, b, ok) := copyOutLines ps s
          (s.hostWrite c.fn (leAt c.packet 40 8) b).complete c (if ok then 0 else 9) 0) s

/-! KEY_IMPORT (05 R126). -/

/-- KEY_IMPORT: mints or imports a sealed key handle; a request in which the Vault was struck fails with AUTH (05 R126 R141). -/
def execKeyImport (s : State) : Res :=
  runCmd s.ev.a (isOp 0x07) (fun _ => false) (fun s x c =>
    let k := leAt c.packet 32 2
    match s.hostRead c.fn (leAt c.packet 40 8) 32 with
    | none => s.complete c 8 0
    | some h =>
      let mint := (h.drop 8).all (· == 0)
      let (struck, s) := s.vaultDone
      let st := s.importStatus k h x.part mint
      if struck then s.complete c 11 0
      else if st != 0 then s.complete c st 0
      else if !mint then (s.loadKey k h).complete c 0 0
      else if !(s.hostWriteOk c.fn (leAt c.packet 40 8) 32) then s.complete c 8 0
      else
        let (nonce, s) := s.random 8
        let h := h.take 8 ++ nonce
        let h := h ++ s.prot.vault.handleTag h
        (((s.loadKey k h).hostWrite c.fn (leAt c.packet 40 8) h)).complete c 0 0) s

/-! Queues and functions (04 R102 R107). -/

/-- The privileged bytes of a QUEUE_BIND break the ranges of R99. The manual names no status for one out of its range: BAD_PACKET, as for a
reserved field. DESIGN CHOICE [log 90]. -/
def privBad (b : List Byte) : Bool :=
  64 < leAt b 48 2 || 32 ≤ leAt b 50 1 || 64 < leAt b 51 1 || 16 ≤ leAt b 52 1 || 64 ≤ leAt b 53 1 || leAt b 58 6 != 0

/-- QUEUE_BIND: the privileged bytes go into the QCB, and the stage-2 entry becomes valid (04 R102). -/
def execQueueBind (s : State) : Res :=
  runCmd s.ev.a (isOp 0x20) privBad (fun s _ c =>
    let q := leAt c.packet 32 4
    let priv := slice c.packet 48 16
    let fn := leAt priv 0 2
    let r := s.fn fn
    let qcb := leAt c.packet 40 8
    if q < r.vqBase || r.vqBase + r.vqCount ≤ q || (s.st2 q).v then s.complete c 2 0
    else if !(s.hostWriteOk fn (qcb + 32) 16) then s.complete c 8 0
    else ((s.hostWrite fn (qcb + 32) priv).modSt2 q fun e =>
      { v := true, fn := fn, qcb := qcb, digest := qcbDigest q priv, kept := e.kept }).complete c 0 0) s

/-- QUEUE_UNBIND: the queue stops taking packets and the entry clears when its commands have completed (04 R102). DEDUCED [log 59]. -/
def execQueueUnbind (s : State) : Res :=
  runCmd s.ev.a (isOp 0x21) (fun _ => false) (fun s _ c =>
    let q := leAt c.packet 32 4
    (s.modSt2 q fun e => { e with stopping := true }).settleUnbind s.hif.cmds.length) s

/-- VF_SETUP: a function's VQN range (04 R107). DEDUCED [log 59]. -/
def execVfSetup (s : State) : Res :=
  runCmd s.ev.a (isOp 0x22) (fun b => 64 < leAt b 32 2) (fun s _ c =>
    let v := leAt c.packet 32 2
    let base := leAt c.packet 36 2
    let count := leAt c.packet 38 4
    let r := s.fn v
    if 65536 < base + count || (List.range 65).any (fun w => w != v && overlap base count (s.fn w).vqBase (s.fn w).vqCount) ||
        s.hif.stage2.any (fun e => e.2.v && decide (r.vqBase ≤ e.1 ∧ e.1 < r.vqBase + r.vqCount)) then s.complete c 2 0
    else (s.modFn v fun r => { r with vqBase := base, vqCount := count }).complete c 0 0) s

/-! PARTITION_SET (05 R115 to R117). -/

/-- The descriptor's fields. -/
def parsePart (b : List Byte) : Partition :=
  { cores := BitVec.ofNat 640 (leAt b 0 80), banks := BitVec.ofNat 1024 (leAt b 80 128), hbm := BitVec.ofNat 768 (leAt b 208 96)
    queues := BitVec.ofNat 256 (leAt b 304 32), noc := leAt b 336 1, d2d := leAt b 337 1, mcxBase := leAt b 340 2
    mcxCount := leAt b 342 2, keyBase := leAt b 344 2, keyCount := leAt b 346 2 }

/-- Check 3 of R116: what breaks it. -/
def partBad (b : List Byte) : Bool :=
  let d := parsePart b
  leAt b 338 2 != 0 || leAt b 348 164 != 0 || fld d.cores.toNat 600 40 != 0 || d.cores == 0 || 56 < d.noc || 56 < d.d2d ||
  d.mcxCount == 0 || 8192 < d.mcxBase + d.mcxCount || d.keyBase == 0 || d.keyCount == 0 || 4096 < d.keyBase + d.keyCount

/-- The defined partitions. -/
def State.defined (s : State) : List Nat := (List.range 32).filter fun p => (s.part p).st != 0

/-- Check 4 of R116: an overlap with a defined partition, or too many wheel slots. -/
def State.partClash (s : State) (d : Partition) : Bool :=
  s.defined.any (fun p =>
    let e := s.part p
    d.cores &&& e.cores != 0 || d.banks &&& e.banks != 0 || d.hbm &&& e.hbm != 0 || d.queues &&& e.queues != 0 ||
    overlap d.mcxBase d.mcxCount e.mcxBase e.mcxCount || overlap d.keyBase d.keyCount e.keyBase e.keyCount) ||
  decide (63 < d.noc + (s.defined.map fun p => (s.part p).noc).sum) || decide (63 < d.d2d + (s.defined.map fun p => (s.part p).d2d).sum)

/-- A PARTITION_SET packet whose action is not one of the two, or whose number is not a partition. -/
def actionBad (b : List Byte) : Bool := 32 ≤ leAt b 32 1 || 1 < leAt b 33 1 || (leAt b 33 1 == 1 && leAt b 40 8 != 0)

/-- PARTITION_SET action 0: defines a partition; completes when its resources are scrubbed. An action above 1 is refused here
(05 R115 R116). -/
def execPartitionDefine (s : State) : Res :=
  runCmd s.ev.a (fun b => isOp 0x23 b && leAt b 33 1 != 1) actionBad (fun s _ c =>
    let p := leAt c.packet 32 1
    if (s.part p).st != 0 then s.complete c 13 0
    else match s.hostRead c.fn (leAt c.packet 40 8) 512 with
      | none => s.complete c 8 0
      | some b =>
        let d := parsePart b
        if partBad b then s.complete c 1 0
        else if s.partClash d then s.complete c 2 0
        else if (maskCores d.cores).all fun k => (s.core k).failed then s.complete c 3 0
        else (s.modPart p fun _ => { d with st := 1, cmd := some c.id }).settlePart p) s

/-- PARTITION_SET action 1: withdraws a partition (05 R117). -/
def execPartitionWithdraw (s : State) : Res :=
  runCmd s.ev.a (fun b => isOp 0x23 b && leAt b 33 1 == 1) actionBad (fun s _ c =>
    let p := leAt c.packet 32 1
    let d := s.part p
    if d.st == 0 then s.complete c 7 0
    else if d.st != 2 || s.prot.mcbs.any (fun e => decide (d.mcxBase ≤ e.1 ∧ e.1 < d.mcxBase + d.mcxCount) && e.2.st != 0) then s.complete c 13 0
    else
      let wheels := s.sl.ports.map fun (e : Nat × SlPort) => (e.1, { e.2 with
        wheel := e.2.wheel.filter fun w => !(bitOf w.2 7 && w.2 % 32 == p), wheelNext := e.2.wheelNext.filter fun w => !(bitOf w.2 7 && w.2 % 32 == p) })
      let qs := (s.eth.queues.filter fun e => !(d.queues.getLsbD e.1))
      let s := { s with
        sl := { s.sl with ports := wheels }
        eth := { s.eth with
          addr := s.eth.addr.filter fun e => !(e.2.part == p && e.2.flags.getLsbD 0)
          pools := SMap.upd s.eth.pools p {} fun q => { q with sessMax := 0, gone := true }
          queues := qs } }
      let s := ((s.eth.sessions.filter fun e => e.2.part == p).map (·.1)).foldl (fun s i =>
        if (s.sess i).st == .half then { s with eth := { s.eth with sessions := SMap.drop s.eth.sessions i } } else s.lapse i) s
      let s := ((List.range d.keyCount).map (d.keyBase + ·)).foldl (fun s k =>
        if (s.keySlotAt k).st == 1 && (s.keySlotAt k).binds == 0 then s.zeroiseSlot k else s) s
      ((s.dirtyPart p).modPart p fun d => { d with st := 3, cmd := some c.id }).settlePart p) s

/-! Firmware, recovery, enrolment (04 R110 R111). -/

/-- A firmware slot. -/
def State.fwSlot (s : State) (i : Nat) : FwSlot := SMap.get s.flash.slots i {}

/-- A FW_STAGE whose length is no multiple of 4,096, or that passes the end of the slot (04 R94 R110). DESIGN CHOICE [log 91]. -/
def stageBad (b : List Byte) : Bool := leAt b 36 4 % 4096 != 0 || 2 ^ 24 < leAt b 32 4 + leAt b 36 4

/-- FW_STAGE: firmware into the slot that is not running; BUSY while an activation is in progress (04 R110). A stretch that passes the end
of the 16 MiB slot has no status in the manual: BAD_PACKET. DESIGN CHOICE [log 91]. -/
def execFwStage (s : State) : Res :=
  runCmd s.ev.a (isOp 0x24) stageBad (fun s _ c =>
    if s.hif.fwPhase != .idle then s.complete c 13 0
    else match s.hostRead c.fn (leAt c.packet 40 8) (leAt c.packet 36 4) with
      | none => s.complete c 8 0
      | some b =>
        let i := 1 - s.hif.fwRunning
        let img := splice (padTo (s.fwSlot i).image (leAt c.packet 32 4)) (leAt c.packet 32 4) b
        ({ s with flash := { s.flash with slots := SMap.set s.flash.slots i { valid := true, image := img } {} } }).complete c 0 0) s

/-- The staged image passes its signature and SVN checks (04 R110). DESIGN CHOICE [log 61]. -/
def State.stagedOk (s : State) : Bool :=
  let f := s.fwSlot (1 - s.hif.fwRunning)
  f.valid && Config.firmwareSigned f.image && decide (s.flash.fwSvn ≤ Config.firmwareSvn f.image)

/-- The functions that exist: the PF and the virtual functions in force. -/
def State.functions (s : State) : List Nat := List.range (s.hif.numVfs + 1)

/-- An event posted to every function. -/
def State.postAll (s : State) (ty detail arg : Nat) : State := s.functions.foldl (fun s v => s.post v ty detail 0xFFFFFFFF arg) s

/-- FW_ACTIVATE mode 0: the staged image is checked; QUIESCE and PAUSE are posted, the threads halt and the new image loads into Proem
memory (04 R110). A mode above 1 is refused here. -/
def execFwActivateLive (s : State) : Res :=
  runCmd s.ev.a (fun b => isOp 0x25 b && leAt b 32 1 != 1) (fun b => leAt b 32 1 != 0) (fun s _ c =>
    if !s.stagedOk then s.complete c 11 0
    else
      let image := (s.fwSlot (1 - s.hif.fwRunning)).image
      let s := (s.postAll 0x06 0 (Config.firmwareSvn image)).postAll 0x07 0 (Config.firmwareSvn image)
      let s := s.loadFirmware image
      { s with hif := { s.hif with
        fwPhase := .paused, fwPauseAt := s.time.toNat, fwCmd := some c.id
        threads := (List.range 128).map fun t => (t, { s.thread t with halted := true }) } }) s

/-- FW_ACTIVATE mode 1: the staged image is checked and marked for the next start (04 R110). DESIGN CHOICE [log 61]. -/
def execFwActivateNextStart (s : State) : Res :=
  runCmd s.ev.a (fun b => isOp 0x25 b && leAt b 32 1 == 1) (fun _ => false) (fun s _ c =>
    if !s.stagedOk then s.complete c 11 0
    else ({ s with flash := { s.flash with next := some (1 - s.hif.fwRunning) } }).complete c 0 0) s

/-- The measurement of the running image and the blob (02 R50). DESIGN CHOICE [log 61]. -/
def State.measure (s : State) (i : Nat) : State :=
  { s with prot := { s.prot with vault := { s.prot.vault with measurement := sha256 ((s.fwSlot i).image ++ s.flash.blob) } } }

/-- The activation is over: the threads run on, RESUME is posted, and FW_ACTIVATE completes (04 R110). -/
def State.resumeFw (s : State) (detail status : Nat) : State :=
  let s := { s with hif := { s.hif with
    fwPhase := .idle
    threads := (s.hif.threads.map fun (e : Nat × PThread) => (e.1, { e.2 with halted := false })).filter fun e => e.2 != ({} : PThread) } }
  let s := s.postAll 0x08 detail s.pkg.svn
  let s' := match s.hif.fwCmd.bind s.cmdOf with
    | some c => s.complete c status 0
    | none => s
  { s' with hif := { s'.hif with fwCmd := none } }

/-- FW_NEW_IMAGE_START: the new image starts within 50 ms of PAUSE (04 R110). -/
def execFwNewImageStart (s : State) : Res :=
  .next (if s.hif.fwPhase != .paused || s.hif.fwPauseAt + 50000000 < s.time.toNat then s
    else
      let i := 1 - s.hif.fwRunning
      let s := ({ s with hif := { s.hif with fwRunning := i }, pkg := { s.pkg with svn := Config.firmwareSvn (s.fwSlot i).image } }).measure i
      s.resumeFw 0 0)

/-- FW_ACTIVATE_WATCHDOG: no RESUME within 50 ms of PAUSE: the old image is loaded again and restarts (04 R110). -/
def execFwActivateWatchdog (s : State) : Res :=
  .next (if s.hif.fwPhase != .paused || s.time.toNat < s.hif.fwPauseAt + 50000000 then s
    else (s.loadFirmware (s.fwSlot s.hif.fwRunning).image).resumeFw 1 11)

/-- A token of `n` signed bytes with its key hash at `off` is authentic (04 R111). -/
def State.tokenOk (s : State) (b : List Byte) (magic off n : Nat) : Bool :=
  leAt b 0 4 == magic && leAt b 4 4 == s.flash.writes + 1 && slice b 8 32 == s.pkg.devid &&
  slice b off 32 == (if s.flash.opKey.all (· == 0) then Config.romKeys 1 else s.flash.opKey) &&
  Config.signed (slice b off 32) (b.take n) (b.drop n)

/-- RECOVER: a recovery token clears FAILS and LASTREASON (04 R111). -/
def execRecover (s : State) : Res :=
  runCmd s.ev.a (isOp 0x26) (fun _ => false) (fun s _ c =>
    match s.hostRead c.fn (leAt c.packet 40 8) 29864 with
    | none => s.complete c 8 0
    | some b =>
      if !(s.tokenOk b 0x56524A46 40 72) then s.complete c 11 0
      else (s.writeBlock fun f => { f with fails := 0, lastReason := 0 }).complete c 0 0) s

/-- OPKEY_ENROL: an enrolment token writes OPKEY (04 R111). -/
def execOpkeyEnrol (s : State) : Res :=
  runCmd s.ev.a (isOp 0x27) (fun _ => false) (fun s _ c =>
    match s.hostRead c.fn (leAt c.packet 40 8) 29896 with
    | none => s.complete c 8 0
    | some b =>
      if !(s.tokenOk b 0x4B4F4A46 72 104) then s.complete c 11 0
      else (s.writeBlock fun f => { f with opKey := slice b 40 32 }).complete c 0 0) s

end Sys2Proof.Machine
end

