-- ==== Sys2Proof/Machine/Errors.lean ====
section
/-! DEFINITION. Machine/Errors.lean: correctable and uncorrectable errors, and the restart of house blocks (05 R137 R138 R140 R141,
11 R327 to R329). -/
namespace Sys2Proof.Machine

/-- A physical address lies in the Stacks. -/
def inStacks (pa : Nat) : Bool := decide (pa < 0x80000000)

/-- A core freezes for 24 more cycles (11 R328). DESIGN CHOICE [log 65]. -/
def State.freezeCore (s : State) (c : Nat) : State := (s.modCore c fun k => { k with freeze := k.freeze + 24 }).countErr 0

/-- CORRECTABLE_ERROR: the error is corrected; on a core it costs a freeze of 24 cycles. Only errors on a core, in the Stacks and in HBM
have a counter (05 R138 R146, 11 R328). DESIGN CHOICE [log 2]. DEDUCED [log 64]. -/
def execCorrectableError (s : State) : Res :=
  .next (match s.ev.struck with
    | .coreClean c => s.freezeCore c
    | .coreOwned c => s.freezeCore c
    | .coreResident c => s.freezeCore c
    | .line a => s.countErr (if inStacks a then 1 else 2)
    | .segment i => s.countErr (if inStacks (s.seg i).page then 1 else 2)
    | .clean => s
    | .keySlot _ => s
    | .house _ _ => s
    | .strand _ _ => s
    | .intake _ _ => s
    | .fabricOp _ _ => s
    | .flit _ _ => s)

/-- FREEZE_END: the freeze of core `a` that is running ends; a further one follows it (11 R328). DESIGN CHOICE [log 65]. -/
def execFreezeEnd (s : State) : Res :=
  .next (s.modCore s.ev.a fun k => { k with freeze := k.freeze - 24 })

/-! House blocks (05 R141). -/

/-- Proem thread `t` restarts; its mapped queue is evicted, and pends again while packets wait in it. -/
def State.restartThread (s : State) (t : Nat) : State :=
  let h := (s.thread t).halted
  let s := s.modThread t fun _ => { halted := h }
  match (s.mq t).vqn with
  | some q =>
    let more := (s.mq t).head != (s.st2 q).tail
    (s.evict t).modSt2 q fun e => { e with p := e.p || more }
  | none => s

/-- The binding at the head of the Ethernet lane (item 0) or of the host lane is refused with cause 7. -/
def State.refuseHead (s : State) (item : Nat) : State :=
  if item == 0 then
    match s.circ.ethLane with
    | x :: r => (s.modCirc fun c => { c with ethLane := r }).refuse x 7
    | [] => s
  else
    match s.circ.hostLane with
    | x :: r => (s.modCirc fun c => { c with hostLane := r }).refuse x 7
    | [] => s

/-- Pre-emptions in progress begin again. -/
def State.restartPreempts (s : State) : State :=
  s.modCirc fun c => { c with preempts := c.preempts.map fun (e : Nat × Option Preempt) =>
    (e.1, e.2.map fun (p : Preempt) => { p with asked := false, acks := [] }) }

/-- Segment loads in progress begin again. -/
def State.restartLoads (s : State) : State :=
  ((s.mem.segs.filter fun e => e.2.st == 1).map (·.1)).foldl (fun s i => s.segLoad i (s.seg i).fromPeer (s.seg i).retried) s

/-- House block 0x2000 + `block` restarts; `item` names what was struck in it: a Proem thread, an intake lane, a Catalog entry, a session
slot or 16,384 + a request, a mapped queue, a house launch; for the Vault, whether a request is in progress (1), which then fails at its
end. The Chipper has nothing half done between two events. DEDUCED [log 64]. -/
def State.restartBlock (s : State) (block item : Nat) : State :=
  match block with
  | 0 => s.restartThread item
  | 1 => s.refuseHead item
  | 2 => s.setCat item { s.catEntry item with v := false }
  | 3 => s.restartPreempts
  | 5 => s.restartLoads
  | 6 => if item == 1 then { s with prot := { s.prot with vault := { s.prot.vault with struck := true } } } else s
  | 7 => if item < 16384 then s.lapse item else s.failEreq (item - 16384) 2 0
  | 8 => s.mapFabric fun _ o => if o.running && o.result.isNone then o.ended 3 0 false else o
  | 9 => match (s.mq item).vqn with | some q => s.unmap q | none => s
  | 10 => match s.launchAt item with | some l => if l.house then s.endAny item 0x0501 5 else s | none => s
  | _ => s

/-! Uncorrectable errors (05 R138, 11 R329). -/

/-- The segment's present bit clears, and the Skidder reloads it before the rest of its list (05 R138, 08 R241). A load in progress begins
again. Only the house returns a BAD entry to EMPTY. -/
def State.reloadSegment (s : State) (i : Nat) : State :=
  let e := s.seg i
  if e.page == 0 || e.st == 3 then s
  else if e.st == 1 then s.segLoad i e.fromPeer e.retried
  else
    let s := s.setSeg i { e with st := 0 }
    ({ s with mem := { s.mem with skid := i :: without s.mem.skid i } }).skidder

/-- A line is poisoned. -/
def State.poisonLine (s : State) (pa : Nat) : State := s.setLine pa { s.line pa with poison := true }

/-- The save area in use that holds a physical address. DEDUCED [log 54]. -/
def State.saveAt (s : State) (pa : Nat) : Bool :=
  s.saves.any fun e => match e.2 with | some v => decide (v.area ≤ pa ∧ pa < v.area + 0x400000) | none => false

/-- An entry with domain tag `tag` is struck at a line: the house block of the tag restarts, with `item`, or the micro-context ends and
the line is poisoned. DEDUCED [log 64]. -/
def State.strikeTag (s : State) (pa tag item : Nat) : State :=
  if tag < 0x2000 then ((s.poisonLine pa).terminateMcx tag 0x0501).countErr 4
  else (s.restartBlock (tag - 0x2000) item).countErr 5

/-- A Stacks or HBM line is struck; `item` is what a house block's entry there is. DEDUCED [log 64]. -/
def State.strikeLine (s : State) (pa item : Nat) : State :=
  let l := s.line pa
  match placeOf pa with
  | .stacks _ =>
    if s.lineTag pa == 0x3FFE then
      ({ (s.setLine pa {}) with mem := { (s.setLine pa {}).mem with bytes := Memory.zero s.mem.bytes (pa / 128 * 128) 128 } }).countErr 3
    else match s.segOf pa with
      | some i => (s.reloadSegment i).countErr 6
      | none => s.strikeTag pa l.tag item
  | .hbm _ _ =>
    if s.saveAt pa then (s.poisonLine pa).countErr 4
    else match s.segOf pa with
      | some i => (s.reloadSegment i).countErr 6
      | none =>
        match SMap.get s.mem.pageTag (pa / 0x200000) 0x3FFE with
        | 0x3FFE => (s.markDirty (pageUnit (pa / 0x200000)).1 [(pageUnit (pa / 0x200000)).2]).countErr 7
        | tag => s.strikeTag pa tag item
  | _ => s

/-- The unit of core `c` that a free-tagged error marks dirty: of class 0 to 3, by class and index. -/
def coreUnit (c k i : Nat) : Nat × Nat :=
  match k with
  | 1 => (1, 128 * c + i % 128)
  | 2 => (2, 256 * c + i % 256)
  | 3 => (3, c)
  | _ => (0, c)

/-- Scalar register `n`, or predicate register n - 64, of core `c` was struck: it reads zero in the dump (11 R329). DEDUCED [log 64]. -/
def State.strikeReg (s : State) (c n : Nat) : State :=
  s.modCore c fun k => { k with th := { k.th with
    s := if n < 64 then SMap.drop k.th.s n else k.th.s
    q := if 64 ≤ n then SMap.drop k.th.q (n - 64) else k.th.q } }

/-- A line of core `c`'s active plane, or of its scalar data cache, is dropped and fetched again (11 R329). -/
def State.refetch (s : State) (c line : Nat) (plane : Bool) : State :=
  s.modCore c fun k =>
    if plane then { k with active := { k.active with lines := without k.active.lines line, full := false } }
    else { k with dcache := SMap.drop k.dcache line }

/-- The launch that owns a struck entry ends: a house launch alone, a tenant's with its micro-context (05 R138 R139 R141). -/
def State.strikeLaunch (s : State) (n : Nat) : State :=
  match s.launchAt n with
  | some l => (s.hardwareEnds n).countErr (if l.house then 5 else 4)
  | none => s

/-- A launch record in flight is struck: its micro-context ends, or the house launch that it starts does, with class 5
(05 R138 R139 R141). DEDUCED [log 64]. -/
def State.strikeIntake (s : State) (lane index : Nat) : State :=
  let l := if lane == 0 then s.circ.ethLane else s.circ.hostLane
  match l[index]? with
  | none => s
  | some x =>
    if !x.house then (s.terminateMcx x.mcx 0x0501).countErr 4
    else
      let s := s.modCirc fun c =>
        if lane == 0 then { c with ethLane := c.ethLane.eraseIdx index } else { c with hostLane := c.hostLane.eraseIdx index }
      (s.reportLaunch x.record x.cmd true x.mcx 4 5 { start := s.time.toNat }).countErr 5

/-- A key slot's storage is struck: a tenant's key ends its micro-context and is zeroised, a partition-wide one or slot 0 is the house's,
an EMPTY slot is free (05 R129 R137 R138). -/
def State.strikeKey (s : State) (k : Nat) : State :=
  let x := s.keySlotAt k
  if k == 0 || (x.st == 1 && x.p) then (s.restartBlock 6 1).countErr 5
  else if x.st == 1 then ((s.terminateMcx x.mcx 0x0501).zeroiseSlot k).countErr 4
  else (s.markDirty 7 [k]).countErr 7

/-- A flit is struck: its domain ends, its block restarts, or the shared line it carries is sent again (05 R137 R138). DEDUCED [log 64]. -/
def State.strikeFlit (s : State) (tag item : Nat) : State :=
  if tag < 0x2000 then (s.terminateMcx tag 0x0501).countErr 4
  else if tag == 0x3FFF then s.countErr 6
  else if tag ≤ 0x200A then (s.restartBlock (tag - 0x2000) item).countErr 5
  else s

/-- UNCORRECTABLE_ERROR at `struck`. `c` names the item of a house block or the struck register; for a core's memory without a launch `a`
and `b` name the unit, and for a clean entry of a core `a` is the line and the flag tells a plane from the cache (05 R138 R141,
11 R329). DEDUCED [log 64]. -/
def execUncorrectableError (s : State) : Res :=
  let free (c : Nat) : State := let u := coreUnit c s.ev.a s.ev.b; (s.markDirty u.1 [u.2]).countErr 7
  .next (match s.ev.struck with
    | .line pa => s.strikeLine pa s.ev.c
    | .clean => s.countErr 3
    | .coreClean c =>
      if (s.core c).launch.isNone then free c else (s.refetch c s.ev.a s.ev.flag).countErr 3
    | .coreOwned c =>
      (match (s.core c).launch with
        | none => free c
        | some n =>
          let house := ((s.launchAt n).getD {}).house
          ((s.strikeReg c s.ev.c).hardwareEnds n).countErr (if house then 5 else 4))
    | .coreResident c =>
      (match (s.core c).resident with
        | none => s
        | some (n, _) => (s.hardwareEnds n).countErr (if ((s.launchAt n).getD {}).house then 5 else 4))
    | .segment i => (s.reloadSegment i).countErr 6
    | .keySlot k => s.strikeKey k
    | .strand n _ => s.strikeLaunch n
    | .intake lane index => s.strikeIntake lane index
    | .fabricOp c _ => (match (s.core c).launch with | some n => s.strikeLaunch n | none => s)
    | .flit tag item => s.strikeFlit tag item
    | .house block item => (s.restartBlock block item).countErr 5)

end Sys2Proof.Machine
end

