-- ==== Sys2Proof/WellFormed.lean ====
section
/-! DEFINITION. WellFormed.lean: an instruction is well formed when its fields fit its format and its encoding raises no ILLOP by
itself (12_bundles_encoding.md R341 to R362); an event always is. -/
namespace Sys2Proof

/-- Two rows of the opcode table share an op value; a field tells them apart (12 R353 R358 R360 R362). -/
def variantOk (i : Instr) : Bool :=
  match i with
  | .cbwaitFree f => f.mode == 0
  | .cbwaitFull f => f.mode == 1
  | .cbadvProd f => f.mode == 0
  | .cbadvCons f => f.mode == 1
  | .cbrel f => f.mode == 0
  | .cbrelLine f => f.mode == 1
  | .mwswap f => f.bank == 1
  | .mwswapHome f => f.bank == 0
  | .csend f => f.hi < 2 ^ 31
  | .csendRma f => f.hi == 2 ^ 31
  | .crecv f => f.hi < 2 ^ 31
  | .crecvRma f => f.hi == 2 ^ 31
  | .zgenG f => f.off < 65536
  | .zgenB f => 65536 ≤ f.off
  | _ => true

/-- Well-formedness as a computation. -/
def wellFormed (i : Instr) : Bool :=
  variantOk i &&
  (match Machine.syllOf i with
    | some y => y.fits && y.legal
    | none => true)

/-- An instruction is well formed. -/
abbrev WellFormed (i : Instr) : Prop := wellFormed i = true

end Sys2Proof
end

