-- ==== Sys2Proof/Decode.lean ====
section
/-! DEFINITION. Decode.lean: from bits to instructions and back (12_bundles_encoding.md R330 to R362, 04 R109).
A bundle is decoded slot by slot, each syllable in its own slot's opcode space; the decoder is total and rejects by name. -/
namespace Sys2Proof

open Sys2Proof.Machine

/-- The bit field of width `w` that begins at bit `lo`. -/
def bits (x lo w : Nat) : Nat := x / 2 ^ lo % 2 ^ w

/-- The ten slots in their fixed order (12 R330, 07 R179). -/
inductive Slot where
  | s | va | vb | m | l | w | c | y | k | z
deriving DecidableEq, Repr

/-- A slot's number in the order of R179. -/
def Slot.num (t : Slot) : Nat :=
  match t with
  | .s => 0 | .va => 1 | .vb => 2 | .m => 3 | .l => 4 | .w => 5 | .c => 6 | .y => 7 | .k => 8 | .z => 9

/-- The slots in order. -/
def Slot.all : List Slot := [.s, .va, .vb, .m, .l, .w, .c, .y, .k, .z]

/-- Bytes of a slot's syllable: S, VA, VB, L, W and C are 64 bits long, the others 32 (12 R330). -/
def Slot.size (t : Slot) : Nat :=
  match t with
  | .s | .va | .vb | .l | .w | .c => 8
  | .m | .y | .k | .z => 4

/-- Why a word is not an instruction. -/
inductive Reject where
  | unassigned (slot op : Nat)   -- no row of the slot's opcode map has this op value
  | illegal (slot op : Nat)      -- the op is assigned, but a field holds what the encoding does not admit
deriving DecidableEq, Repr

/-- Fields of format SA (12 R347). -/
def readSA (x : Nat) : SA :=
  { sd := bits x 8 6, sa := bits x 14 6, sb := bits x 20 6, i := bits x 26 1, x := bits x 27 1, cw := bits x 28 4, imm := bits x 32 32 }
/-- Fields of format SB (12 R347). -/
def readSB (x : Nat) : SB :=
  { sa := bits x 8 6, sb := bits x 14 6, cc := bits x 20 4, hi := bits x 24 8, disp := bits x 32 32 }
/-- Fields of format SC (12 R347). -/
def readSC (x : Nat) : SC := { sd := bits x 8 6, sa := bits x 14 6, csr := bits x 20 12, imm := bits x 32 32 }
/-- Fields of a V syllable (12 R350). -/
def readV (x : Nat) : VOp :=
  { fmt := bits x 8 4, vd := bits x 12 11, va := bits x 23 11, vb := bits x 34 11, vc := bits x 45 11, qp := bits x 56 4,
    g := bits x 60 2, rm := bits x 62 2 }
/-- Fields of an M syllable (12 R353). -/
def readM (x : Nat) : MOp :=
  { fmt := bits x 4 4, cellop := bits x 8 2, f := bits x 10 6, z := bits x 16 5, row := bits x 21 7, plane := bits x 28 1,
    bank := bits x 29 1, top := bits x 30 2 }
/-- Fields of an L or W syllable (12 R354). -/
def readLW (x : Nat) : LW :=
  { ty := bits x 5 3, d := bits x 8 11, base := bits x 19 6, idx := bits x 25 6, x := bits x 31 1, ord := bits x 32 2,
    scope := bits x 34 2, fe := bits x 36 2, qp := bits x 38 4, rsv := bits x 42 1, off := bits x 43 21 }
/-- Fields of a C syllable (12 R358). -/
def readC (x : Nat) : COp :=
  { f := bits x 8 6, sa := bits x 14 6, sb := bits x 20 6, sc := bits x 26 6, hi := bits x 32 32 }
/-- Fields of layout YF (12 R359). -/
def readYF (x : Nat) : YF := { scope := bits x 6 2, kind := bits x 8 2, hi := bits x 10 22 }
/-- Fields of layout YP. -/
def readYP (x : Nat) : YP := { scope := bits x 6 2, before := bits x 8 6, after := bits x 14 6, hi := bits x 20 12 }
/-- Fields of layout YH. -/
def readYH (x : Nat) : YH := { h := bits x 6 6, sa := bits x 12 6, mode := bits x 18 2, hi := bits x 20 12 }
/-- Fields of layout YB. -/
def readYB (x : Nat) : YB := { bank := bits x 6 7, hi := bits x 13 19 }
/-- Fields of layout YG. -/
def readYG (x : Nat) : YG := { group := bits x 6 4, hi := bits x 10 22 }
/-- Fields of layout YA. -/
def readYA (x : Nat) : YA := { sd := bits x 6 6, sa := bits x 12 6, choice := bits x 18 2, hi := bits x 20 12 }
/-- Fields of layout YE. -/
def readYE (x : Nat) : YE := { event := bits x 6 8, sa := bits x 14 6, hi := bits x 20 12 }
/-- Fields of layout YR. -/
def readYR (x : Nat) : YR := { sd := bits x 6 6, sa := bits x 12 6, sb := bits x 18 6, hi := bits x 24 8 }
/-- Fields of a K syllable (12 R361). -/
def readK (x : Nat) : KOp := { f := bits x 4 6, sa := bits x 10 6, key := bits x 16 12, top := bits x 28 4 }
/-- Fields of a Z syllable (12 R362). -/
def readZ (x : Nat) : ZOp := { z := bits x 4 5, sa := bits x 9 6, off := bits x 15 17 }
/-- Fields of a Proem extension instruction (04 R109). -/
def readRV (x : Nat) : RV := { rd := bits x 7 5, rs1 := bits x 15 5, rs2 := bits x 20 5, funct7 := bits x 25 7 }

/-- The op field of a syllable in its slot. -/
def opField (t : Slot) (x : Nat) : Nat :=
  match t with
  | .s | .va | .vb | .c => bits x 0 8
  | .l | .w => bits x 0 5
  | .y => bits x 0 6
  | .m | .k | .z => bits x 0 4

/-- The opcode field that SWD.DETAIL reports (11 R309): op [7:0] of the 64-bit slots, the op of the 32-bit ones. -/
def opDetail (t : Slot) (x : Nat) : Nat :=
  match t with
  | .l | .w => bits x 0 8
  | t => opField t x

/-- The instruction of an assigned op, whatever its other fields hold; none for an unassigned op (12 R339). -/
def decodeRaw (t : Slot) (x : Nat) : Option Instr :=
  let op := opField t x
  match t with
  | .s =>
    match opSA op (readSA x) with
    | some i => some i
    | none => match opSB op (readSB x) with
      | some i => some i
      | none => opSC op (readSC x)
  | .va | .vb => opV op (readV x)
  | .m => opM op (readM x)
  | .l => opL op (readLW x)
  | .w => opW op (readLW x)
  | .c => opC op (readC x)
  | .y =>
    if op == 1 then opYF op (readYF x) else if op == 2 then opYP op (readYP x)
    else if op ≤ 6 then opYH op (readYH x) else if op ≤ 8 then opYB op (readYB x)
    else if op ≤ 11 then opYG op (readYG x) else if op ≤ 13 then opYA op (readYA x)
    else if op ≤ 15 then opYE op (readYE x) else opYR op (readYR x)
  | .k => opK op (readK x)
  | .z => opZ op (readZ x)

/-- The instruction a syllable's bits are, or why they are none. -/
def decodeSyll (t : Slot) (x : Nat) : Except Reject Instr :=
  match decodeRaw t x with
  | none => .error (.unassigned t.num (opField t x))
  | some i => if WellFormed i then .ok i else .error (.illegal t.num (opField t x))

/-- The Proem extension instruction a 32-bit word is (04 R109), whatever its must-be-zero fields hold. -/
def decodeRV (x : Nat) : Option Instr :=
  if bits x 0 7 != 0x0B then none
  else match bits x 12 3 with
    | 0 => some (.pwait (readRV x))
    | 1 => some (.ppost (readRV x))
    | 2 => some (.ptid (readRV x))
    | _ => none

/-- The value of a list of fields laid out from bit 0 up: (width, value) pairs. -/
def pack (fs : List (Nat × Nat)) : Nat :=
  match fs with
  | [] => 0
  | (w, v) :: r => v + 2 ^ w * pack r

/-- The bits of a syllable (12 R347 to R362, 04 R109). -/
def encodeSyll (y : Syll) : Nat :=
  match y with
  | .sa op f => pack [(8, op), (6, f.sd), (6, f.sa), (6, f.sb), (1, f.i), (1, f.x), (4, f.cw), (32, f.imm)]
  | .sb op f => pack [(8, op), (6, f.sa), (6, f.sb), (4, f.cc), (8, f.hi), (32, f.disp)]
  | .sc op f => pack [(8, op), (6, f.sd), (6, f.sa), (12, f.csr), (32, f.imm)]
  | .v op f => pack [(8, op), (4, f.fmt), (11, f.vd), (11, f.va), (11, f.vb), (11, f.vc), (4, f.qp), (2, f.g), (2, f.rm)]
  | .m op f => pack [(4, op), (4, f.fmt), (2, f.cellop), (6, f.f), (5, f.z), (7, f.row), (1, f.plane), (1, f.bank), (2, f.top)]
  | .l op f | .w op f =>
    pack [(5, op), (3, f.ty), (11, f.d), (6, f.base), (6, f.idx), (1, f.x), (2, f.ord), (2, f.scope), (2, f.fe), (4, f.qp),
      (1, f.rsv), (21, f.off)]
  | .c op f => pack [(8, op), (6, f.f), (6, f.sa), (6, f.sb), (6, f.sc), (32, f.hi)]
  | .yf op f => pack [(6, op), (2, f.scope), (2, f.kind), (22, f.hi)]
  | .yp op f => pack [(6, op), (2, f.scope), (6, f.before), (6, f.after), (12, f.hi)]
  | .yh op f => pack [(6, op), (6, f.h), (6, f.sa), (2, f.mode), (12, f.hi)]
  | .yb op f => pack [(6, op), (7, f.bank), (19, f.hi)]
  | .yg op f => pack [(6, op), (4, f.group), (22, f.hi)]
  | .ya op f => pack [(6, op), (6, f.sd), (6, f.sa), (2, f.choice), (12, f.hi)]
  | .ye op f => pack [(6, op), (8, f.event), (6, f.sa), (12, f.hi)]
  | .yr op f => pack [(6, op), (6, f.sd), (6, f.sa), (6, f.sb), (8, f.hi)]
  | .k op f => pack [(4, op), (6, f.f), (6, f.sa), (12, f.key), (4, f.top)]
  | .z op f => pack [(4, op), (5, f.z), (6, f.sa), (17, f.off)]
  | .rv op f => pack [(7, 0x0B), (5, f.rd), (3, op), (5, f.rs1), (5, f.rs2), (7, f.funct7)]

/-- The slot a syllable stands in; a vector form stands in VA (12 R365: VB holds only forms VA may hold too). -/
def syllSlot (y : Syll) : Option Slot :=
  match y with
  | .sa _ _ | .sb _ _ | .sc _ _ => some .s
  | .v _ _ => some .va
  | .m _ _ => some .m
  | .l _ _ => some .l
  | .w _ _ => some .w
  | .c _ _ => some .c
  | .k _ _ => some .k
  | .z _ _ => some .z
  | .rv _ _ => none
  | _ => some .y

/-- The bits of an instruction; 0 for an event, which has no encoding. -/
def encode (i : Instr) : Nat :=
  match syllOf i with
  | some y => encodeSyll y
  | none => 0

/-- The slot an instruction's syllable stands in; none for a Proem instruction or an event. -/
def slotOf (i : Instr) : Option Slot :=
  match syllOf i with
  | some y => syllSlot y
  | none => none

/-- Decode what `encode` wrote: in its slot, or as a Proem instruction. -/
def decodeIn (t : Option Slot) (x : Nat) : Option Instr :=
  match t with
  | some t => (decodeSyll t x).toOption
  | none => decodeRV x

/-- A decoded bundle header (12 R330). -/
structure Header where
  xi : Nat
  kind : Nat
  bad : Bool
  settle : Bool
  presence : Nat
deriving DecidableEq, Repr

/-- Fields of a header word (12 R330). -/
def readHeader (x : Nat) : Header :=
  { xi := bits x 16 16, kind := bits x 12 4, bad := bits x 11 1 == 1, settle := bits x 10 1 == 1, presence := bits x 0 10 }

/-- Slot `t` is present. -/
def Header.has (h : Header) (t : Slot) : Bool := bits h.presence t.num 1 == 1

/-- The present slots in order with the byte offset of each syllable from the header (12 R330 R333). -/
def Header.layout (h : Header) : List (Slot × Nat) :=
  (Slot.all.foldl (fun (acc : List (Slot × Nat) × Nat) t =>
    if h.has t then (acc.1 ++ [(t, acc.2)], acc.2 + t.size) else acc) ([], 4)).1

/-- Bytes of the whole bundle (12 R330). -/
def Header.bytes (h : Header) : Nat := 4 + ((Slot.all.filter h.has).map Slot.size).sum

/-- A bundle's header word for one syllable in slot `t`, nothing else. -/
def oneSlotHeader (t : Slot) : Nat := 2 ^ t.num

/-- The slots a bare 32-bit word is tried in. The same word is an instruction in several slots (0x00000001 is fence, mpushw,
seal and zld), and the opcode table does not say which is meant: Y first, then a Proem word, then M, K and Z [log 9]. -/
def tableWordSlot (w : Nat) : Option (Option Slot) :=
  if (decodeSyll .y w).isOk then some (some .y)
  else if (decodeRV w).isSome && (match decodeRV w with | some i => decide (WellFormed i) | none => false) then some none
  else if (decodeSyll .m w).isOk then some (some .m)
  else if (decodeSyll .k w).isOk then some (some .k)
  else if (decodeSyll .z w).isOk then some (some .z)
  else none

/-- The slots a 64-bit word is tried in, by the same reasoning: S, VA, L, W, C. -/
def tableLongSlot (w : Nat) : Option (Option Slot) :=
  if (decodeSyll .s w).isOk then some (some .s)
  else if (decodeSyll .va w).isOk then some (some .va)
  else if (decodeSyll .l w).isOk then some (some .l)
  else if (decodeSyll .w w).isOk then some (some .w)
  else if (decodeSyll .c w).isOk then some (some .c)
  else none

/-- The slot in which an opcode-table word of `nbits` bits stands. -/
def tableSlot (nbits w : Nat) : Option (Option Slot) := if nbits ≤ 32 then tableWordSlot w else tableLongSlot w

/-- The instruction the decoder reads from an opcode-table word of `nbits` bits. DEDUCED [log 9]. -/
def decodeTableWord (nbits w : Nat) : Option Instr :=
  match tableSlot nbits w with
  | some t => decodeIn t w
  | none => none

end Sys2Proof
end

