-- ==== Sys2Proof/Machine/Fetch.lean ====
section
/-! DEFINITION. Machine/Fetch.lean: fetching a bundle from the active plane, the registers its slots read and write, the cross-slot
rule and the pending-register interlock (07 R198 R199, 12 R330 R331 R335 R339). -/
namespace Sys2Proof.Machine

/-! Planes (07 R197 R198). -/

/-- What a plane holds of a line: it, a failed fill with cause and walk level, or not yet anything. -/
inductive LineFill where
  | there
  | failed (cause level : Nat)
  | missing
deriving DecidableEq, Repr

/-- Line `i` of a plane. -/
def Plane.fill (p : Plane) (i : Nat) : LineFill :=
  match p.bad.find? fun b => b.1 == i with
  | some (_, c, l) => .failed c l
  | none => if p.lines.contains i then .there else .missing

/-- `n` bytes of a plane's code from offset `off`, as a little-endian number. -/
def Plane.code (p : Plane) (off n : Nat) : Nat := leNat (Memory.readN p.text off n)

/-- The first line from `i`, of `n`, that is not there; none when all are. -/
def Plane.firstGap (p : Plane) (i n : Nat) : Option (Nat × LineFill) :=
  match n with
  | 0 => none
  | n + 1 => match p.fill i with
    | .there => Plane.firstGap p (i + 1) n
    | g => some (i, g)

/-- The first line that bytes `off` to `off + n - 1` need and that is not there. -/
def Plane.gap (p : Plane) (off n : Nat) : Option (Nat × LineFill) := p.firstGap (off / 128) ((off + n - 1) / 128 + 1 - off / 128)

/-- The plane that holds the window of address `a`: the active one, or the shadow when it is full. -/
def CoreSt.planeAt (k : CoreSt) (a : Nat) : Option Plane :=
  if k.active.window == some (a / 0x10000) then some k.active
  else if k.shadow.window == some (a / 0x10000) && k.shadow.full then some k.shadow
  else none

/-- The header fetch issues next from address `a` on: past padding words (12 R331); none while that is not loaded. -/
def CoreSt.nextHeader (k : CoreSt) (fuel a : Nat) : Option Nat :=
  match fuel with
  | 0 => some a
  | fuel + 1 =>
    match k.planeAt a with
    | none => none
    | some p =>
      match p.fill (a % 0x10000 / 128) with
      | .missing => none
      | .failed _ _ => some a
      | .there => if (readHeader (p.code (a % 0x10000) 4)).kind == 0xF then CoreSt.nextHeader k fuel (a + 4) else some a

/-! Registers of a syllable (12 R339): taken from the field values of an assigned op, whatever else is wrong with it. -/

/-- A scalar register named by a field; a field above 63 names none. -/
def regS (n : Nat) : List Reg := if n < 64 then [.s n] else []
/-- A predicate. -/
def regQ (n : Nat) : List Reg := if n < 16 then [.q n] else []
/-- Consecutive scale registers. -/
def regZ (n span : Nat) : List Reg := ((List.range span).map (n + ·)).flatMap fun i => if i < 32 then [.z i] else []
/-- A group of vector names under the window mapping. -/
def regV (rot : Word) (n span : Nat) : List Reg := (vnames n span).flatMap fun x => match vphys rot x with | some p => [.v p] | none => []

/-- The registers a V field names by its kind. -/
def vFieldRegs (rot : Word) (k : VKind) (span x : Nat) : List Reg :=
  match k with
  | .vg => regV rot x span
  | .v1 => regV rot x 1
  | .q => regQ x
  | .s => regS x
  | .z => regZ x span
  | _ => []

/-- What a syllable writes, its implicit writes with it; s0 and q0 do not count (12 R339). DEDUCED [log 25]. -/
def Syll.writes (rot : Word) (y : Syll) : List Reg :=
  (match y with
  | .sa op f =>
    if op ≤ 0x1F || op == 0x30 || op == 0x37 then regS f.sd else if op == 0x25 then [.s 63] else []
  | .sb op f => if op == 0x24 then [.s 63] else if op == 0x27 then regS f.sa else []
  | .sc _ f => regS f.sd
  | .v op f =>
    let b := vBase op
    vFieldRegs rot (vRow b).vd (vSpans op f).1 f.vd ++ (if b == 0x1A && fmtB f.fmt then regZ f.vc (VOp.grp f) else [])
  | .l op f =>
    if op == 1 || op == 4 then regS f.d
    else if op == 7 then regQ f.d
    else regV rot f.d (if op == 3 then 2 ^ f.ty else 1)
  | .w op f => if op == 20 then regS (f.d % 64) else if op == 8 || 10 ≤ op then regS f.d else []
  | .ya op f => if op == 0x0C then regS f.sd else []
  | .yr op f => if op == 0x13 || op == 0x14 || op == 0x16 then regS f.sd else []
  | .z _ f => regZ f.z 1
  | _ => []).filter fun r => r != Reg.s 0 && r != Reg.q 0

/-- What a syllable reads, its implicit reads with it (12 R339). DEDUCED [log 25]. -/
def Syll.reads (rot : Word) (y : Syll) : List Reg :=
  match y with
  | .sa op f =>
    let a := regS f.sa
    let b := if f.i == 1 then [] else regS f.sb
    if op ≤ 0x15 || op == 0x1F then a ++ b
    else if op ≤ 0x1A then a
    else if op == 0x1B then a ++ regS f.sd
    else if op == 0x1C then a ++ regS f.sb
    else if op == 0x1E then a ++ b ++ regS f.sd
    else if op == 0x23 || op == 0x25 || op == 0x32 then a
    else if op == 0x26 then [.s 63]
    else if op == 0x30 || op == 0x31 then a ++ regS f.sb
    else []
  | .sb op f => if op == 0x20 then regS f.sa ++ regS f.sb else if op == 0x21 || op == 0x27 then regS f.sa else []
  | .sc op f => if op == 0x38 then [] else regS f.sa
  | .v op f =>
    let b := vBase op
    let r := vRow b
    let sp := vSpans op f
    let imm := decide (0x80 ≤ op)
    let immA := b == 0x31 || b == 0x3E
    (if imm && immA then [] else vFieldRegs rot r.va sp.2.1 f.va) ++
    (if imm && !immA then [] else vFieldRegs rot r.vb sp.2.2.1 f.vb) ++
    (if b == 0x1A then [] else vFieldRegs rot r.vc (max 1 sp.2.2.2) f.vc) ++
    (if b == 0x32 then regV rot f.vd 1 else []) ++ (if noPred b then [] else regQ f.qp)
  | .m op f => if (op == 1 || op == 2) && fmtB f.fmt then regZ f.z 1 else []
  | .l op f =>
    (if op == 5 then [] else regS f.base) ++ (if op == 4 then regS f.idx else []) ++
    (if op == 2 || op == 3 || op == 5 || op == 6 then regQ f.qp else [])
  | .w op f =>
    (if op == 5 then [] else regS f.base) ++
    (if op == 1 || op == 4 || op == 16 then regS f.d
     else if op == 7 then regQ f.d
     else if op ≤ 6 || op == 9 then regV rot f.d (if op == 3 then 2 ^ f.ty else 1) else []) ++
    (if op == 4 || op == 8 || (10 ≤ op && op ≤ 16) || op == 18 || op == 20 then regS f.idx else []) ++
    (if op == 2 || op == 3 || op == 5 || op == 6 || op == 9 then regQ f.qp else [])
  | .c op f => regS f.sa ++ regS f.sb ++ (if op == 3 || op == 9 then [] else regS f.sc)
  | .yh op f => if op == 3 || (op == 5 && f.mode == 0) || (op == 6 && f.mode == 1) then regS f.sa else []
  | .ya op f => regS f.sa ++ (if op == 0x0D then regS f.sd else [])
  | .ye _ f => regS f.sa
  | .yr op f =>
    (if op == 0x13 then [] else regS f.sa) ++ (if op == 0x11 || op == 0x12 || op == 0x17 then regS f.sb else [])
  | .k op f => if op ≤ 3 then (List.range 4).flatMap fun i => regS (f.sa + i) else if op == 4 then regS f.sa else []
  | .z op f => if op == 4 then regZ (f.sa % 32) 1 else regS f.sa ++ (if op == 5 then regZ f.z 1 else [])
  | _ => []

/-! The syllables of a bundle. -/

/-- A present slot with its bits. -/
structure SlotBits where
  slot : Slot
  bits : Nat
deriving DecidableEq, Repr

/-- The syllable of an assigned op; none for an unassigned one. -/
def SlotBits.syll (p : SlotBits) : Option Syll := (decodeRaw p.slot p.bits).bind syllOf

/-- The present slots of the bundle at offset `off` of a plane, in order. -/
def Plane.sylls (p : Plane) (h : Header) (off : Nat) : List SlotBits :=
  h.layout.map fun x => { slot := x.1, bits := p.code (off + x.2) x.1.size }

/-- The lowest slot that reads a register an earlier slot of the bundle writes; `seen` is what the slots before wrote (12 R339).
DEDUCED [log 25]. -/
def crossRead (rot : Word) (ps : List SlotBits) (seen : List Reg) : Option SlotBits :=
  match ps with
  | [] => none
  | p :: r =>
    match p.syll with
    | none => crossRead rot r seen
    | some y => if (y.reads rot).any seen.contains then some p else crossRead rot r (seen ++ y.writes rot)

/-- A slot of the bundle reads or writes a pending register (12 R335). -/
def Thread.interlocked (th : Thread) (ps : List SlotBits) : Bool :=
  !th.pend.isEmpty && ps.any fun p =>
    match p.syll with
    | none => false
    | some y => (y.reads th.rot ++ y.writes th.rot).any th.isPending

/-! Traps before any slot issues. -/

/-- ILLBUNDLE (11 R307). -/
def ILLBUNDLE : Nat := 0x0002
/-- SLOTREAD (11 R307). -/
def SLOTREAD : Nat := 0x0003

/-- A precise trap before issue: TRS names the header with the given slot, SWD.SLOT is `slot` (12 R332 R339, 07 R198). DEDUCED [log 25]. -/
def State.trapEarly (s : State) (cause detail tva slot slotRes : Nat) : State :=
  let pc := s.th.pc
  (takeTrap { cause := cause, slot := slot, detail := detail, tva := tva, origin := pc } pc slotRes s).modTh fun th =>
    { th with trapped := false }

/-- A fetch of a failed line: a translation fault has DETAIL [14]; TVA is the first address of the line that the fetch needs
(07 R198, 11 R309). DEDUCED [log 24]. -/
def State.fetchTrap (s : State) (line cause level : Nat) : State :=
  let pc := s.th.pc
  let va := max pc (pc / 0x10000 * 0x10000 + 128 * line)
  let detail := if cause == XLATE || cause == ACCESS then 2 ^ 14 + level else 0
  s.trapEarly cause detail va s.th.slotRes s.th.slotRes

end Sys2Proof.Machine
end

