-- ==== Sys2Proof/Machine/Issue.lean ====
section
/-! DEFINITION. Machine/Issue.lean: issuing a bundle, its completion, drains, what an agent does at a step, and what happens by
itself while it waits (12 R330 to R340, 11 R313 to R316, 13 R381, 07 R199). The meaning of an instruction is a parameter here:
Machine/Step.lean supplies `exec`. -/
namespace Sys2Proof.Machine

/-- A meaning for every instruction. -/
abbrev Exec := Instr → State → Res

/-! Ends of cycles. -/

/-- A cycle of a drain: exposed results move nearer and land, no bundle issues (12 R336). -/
def CoreSt.drainCycle (k : CoreSt) : CoreSt :=
  let c := k.th.cycle
  let k := k.advance
  { k with ctx := { k.ctx with matrix := k.ctx.matrix.bindDue (c + 1) } }

/-- A core drains: results are in flight and no bundle may issue before them. -/
def CoreSt.draining (k : CoreSt) : Bool := k.th.drain != .none && !k.th.inflight.isEmpty

/-- EXPOSED_RESULT_LANDING: core `a`, which drains, lets its exposed results move on by a cycle (12 R335 R336). -/
def execExposedResultLanding (s : State) : Res :=
  .next (if (s.core s.ev.a).draining && (s.core s.ev.a).freeze == 0 then s.modCore s.ev.a CoreSt.drainCycle else s)

/-- The positions a bundle's syllables took advance DSK.POS (10 R281). DEDUCED [log 34]. -/
def Thread.takePos (th : Thread) : Thread :=
  { th with posTaken := 0, dsk :=
      if th.posTaken == 0 then th.dsk
      else BitVec.ofNat 64 (th.dsk.toNat / 2 ^ 16 * 2 ^ 16 + (th.dsk.toNat + th.posTaken) % 2 ^ 16) }

/-- The drain a settle bit asks for: results of the bundle, or of every bundle where the drain is for all (12 R340). DEDUCED [log 32]. -/
def Thread.settle (th : Thread) (all : Bool) : Thread :=
  { th with drain := .settle th.bundles,
            inflight := if all then th.inflight.map fun l => { l with bundle := th.bundles } else th.inflight }

/-- The bundle-end latch emptied. -/
def Thread.unlatch (th : Thread) : Thread := { th with latchCsr := none, latchRot := none, latchX := none }

/-- What the bundle's transfer, suspension or rett does when the bundle completes; without one the next bundle follows
(12 R337, 13 R381 R387, 07 R183 R199). -/
def CoreSt.leaveBundle (k : CoreSt) (x : Option Xfer) (settle : Bool) : CoreSt :=
  let go (k : CoreSt) (pc : Nat) (arrived : Bool) : CoreSt := { k with th := { k.th with pc := pc, slotRes := 0, arrived := arrived } }
  let hold (k : CoreSt) : CoreSt := if settle then { k with th := k.th.settle false } else k
  match x with
  | none => hold (go k k.th.fall false)
  | some (.jump t) => hold (go k t true).endCycle
  | some (.flip t) =>
    let k := go k t true
    if settle then { k with th := k.th.settle true } else { k with th := { k.th with drain := .flip } }
  | some .rett => hold k.returnTrap.endCycle
  | some x => let k := go k k.th.fall false; { k with th := { k.th with drain := .leave x } }

/-- THE BUNDLE COMPLETES: positions, control-register writes, the end of its cycle when it issued in one, ROT, then its transfer
(13 R381, 10 R281 R283). DEDUCED [log 34]. -/
def CoreSt.finish (cycle settle : Bool) (k : CoreSt) : CoreSt :=
  let th := k.th
  let k := { k with th := th.takePos.unlatch }
  let k := match th.latchCsr with | some (n, v) => k.csrWrite n v | none => k
  let k := if cycle then k.endCycle else k
  let k := match th.latchRot with | some r => { k with th := { k.th with rot := r } } | none => k
  k.leaveBundle th.latchX settle

/-- EMPTY_BUNDLE: a header without syllables issues in one cycle and does nothing (12 R330). -/
def execEmptyBundle (s : State) : Res := .next (s.modCore s.cur (CoreSt.finish true false))

/-- ILLBUNDLE: the header at the next PC breaks R330, with kind `a`; nothing of the bundle issues (12 R332 R333). -/
def execIllbundle (s : State) : Res := .next (s.trapEarly ILLBUNDLE s.ev.a 0 0 0)

/-! Waiting. -/

/-- The first of some events that changes the machine; none when none does. -/
def tryEvents (ex : Exec) (es : List (Instr × EventArgs)) (s : State) : Option State :=
  match es with
  | [] => none
  | (i, a) :: r =>
    match ex i { s with ev := a } with
    | .next t => let t := { t with ev := s.ev }; if t = s then tryEvents ex r s else some t
    | _ => tryEvents ex r s

/-- An event with its arguments. -/
def happen (i : Instr) (a b : Nat) (flag : Bool) : Instr × EventArgs := (i, { a := a, b := b, flag := flag })

/-- The unit whose scrub core `c` waits for next at its dispatch (05 R143). -/
def State.unitWanted (s : State) (c : Nat) : List (Instr × EventArgs) :=
  match s.coreScrub c with
  | some (k, u) => [happen .unitScrubDone k u true]
  | none => []

/-- Events of a core's engines and of its launch that could let it go on. -/
def State.coreEvents (s : State) (c : Nat) : List (Instr × EventArgs) :=
  let k := s.core c
  let x := k.ctx
  [happen .freezeEnd c 0 false, happen .lateTrap c 0 false, happen .strandPickup c 0 false, happen .planeFillDone c 0 false] ++
  x.copyq.map (fun o => happen .copyRow c o.id false) ++
  x.streamq.flatMap (fun o => [happen .streamSlotAdvance c o.id false, happen .copyRow c o.id true]) ++
  [happen .cipherBlock c 0 false] ++
  x.fabricq.map (fun o => happen .fabricOpComplete c o.id false) ++
  x.handles.map (fun h => happen .slotFull c h.1 false) ++
  x.rp.map (fun r => happen .bankOwnClear c r.1 false) ++
  [happen .accBanksFree c 0 false, happen .corePreemptRequest c 0 false] ++
  (if (s.preempt c).isSome then (List.range 7).map (fun b => happen .collectorAck c b false) else []) ++
  (if k.launch.isSome && !k.loaded then s.unitWanted c else [])

/-- Strands of launch `n` that wait for a time. -/
def timeWaits (n : Nat) (l : Option Launch) : List (Instr × EventArgs) :=
  match l with
  | some l => ((List.range l.record.strands).filter fun i => (l.strand i).wkind == 2).map fun i => happen .timeWake n i false
  | none => []

/-- What can happen by itself while agent `c` waits: requests in issue order, its engines, then Circulation and the Chipper.
DESIGN CHOICE [log 1]. -/
def State.candidates (s : State) (c : Nat) : List (Instr × EventArgs) :=
  s.mem.net.flatMap (fun r => (List.range (max 1 r.parts.length)).map (fun i => happen .homeSliceAccept r.id i false)) ++
  (s.mem.net.filter fun r => r.ready).map (fun r => happen .loadFill r.id 0 false) ++
  s.coreEvents c ++
  s.mem.zeroFill.map (fun p => happen .zeroFillDone p 0 false) ++
  [happen .binding 0 0 true, happen .binding 0 0 false, happen .parkWake 0 0 false, happen .coreFree c 0 false] ++
  s.circ.launches.flatMap (fun e => happen .launchRetire e.1 0 false :: timeWaits e.1 e.2)

/-- The next agent with work after `c`: a core that has a launch; else `c` itself. DESIGN CHOICE [log 1]. -/
def State.nextAgent (s : State) (c : Nat) : Nat :=
  let busy := (s.cores.filter fun e => e.2.launch.isSome).map (·.1)
  match busy.find? fun d => decide (c < d) with
  | some d => d
  | none => busy.headD c

/-- Agent `c` waits: something happens by itself, or the turn passes on. DESIGN CHOICE [log 1]. DESIGN CHOICE [log 21]. -/
def idle (ex : Exec) (s : State) : Res :=
  .next (match tryEvents ex (s.candidates s.agent) s with
    | some t => t
    | none => { s with agent := s.nextAgent s.agent })

/-! Issue. -/

/-- Cycles for which a syllable occupies its slot: its group size, the wide span of a conversion (12 R338, 14 R398, 16 R453). -/
def Syll.occupancy (y : Syll) : Nat :=
  match y with
  | .v op f =>
    let b := vBase op
    let sp := vSpans op f
    if b == 0x17 || b == 0x1A || b == 0x1B then max sp.1 sp.2.1 else if b == 0x18 || b == 0x19 then 2 * VOp.grp f else VOp.grp f
  | .l op f => if op == 3 then 2 ^ f.ty else 1
  | .w op f => if op == 3 then 2 ^ f.ty else 1
  | _ => 1

/-- That of an instruction. -/
def Instr.occupancy (i : Instr) : Nat := ((syllOf i).map Syll.occupancy).getD 1

/-- A slot that the bundle uses is still occupied (12 R338). -/
def Thread.occupied (th : Thread) (ps : List SlotBits) : Bool := ps.any fun p => SMap.get th.busy p.slot.num 0 != 0

/-- The present slots from SLOTRES on run in slot order; the first that stalls or traps ends the run (11 R313).
DEDUCED [log 23]. DEDUCED [log 30]. -/
def runSlots (ex : Exec) (ps : List SlotBits) (s : State) : Res :=
  match ps with
  | [] => .next s
  | p :: r =>
    let s := s.modTh fun th => { th with slot := p.slot.num }
    let out := match decodeRaw p.slot p.bits with
      | none => trap 0x0001 (opDetail p.slot p.bits) 0 15 s
      | some i => ex i s
    match out with
    | .next s =>
      if s.th.stalled || s.th.trapped then .next s
      else runSlots ex r (s.modTh fun th => th.occupy p.slot.num (((decodeRaw p.slot p.bits).map Instr.occupancy).getD 1))
    | o => o

/-- A fence that is issued and waits for the operand passes of the core whose turn it is (09 R258). -/
def State.passesAwaited (s : State) : Bool :=
  s.mem.net.any fun f => f.core == s.cur && (match f.kind with | .pfence b _ => bitOf b 3 | _ => false)

/-- A cycle in which nothing issues: drain writes go on, and operand passes where a fence waits for them (12 R336, 09 R258). -/
def State.stallMove (s : State) (fetch : Bool) : State :=
  let s := s.modCore s.cur CoreSt.stallCycle
  if fetch || s.passesAwaited then s.modCore s.cur CoreSt.fetchOn else s

/-- A bundle that stalled leaves the machine as it was before it, but for barrier arrivals, which stay (12 R336, 07 R193).
DEDUCED [log 23]. DEDUCED [log 45]. -/
def stalledAt (s t : State) : State :=
  let s := if t.th.barWait == s.th.barWait then s
    else (s.modLaunch s.slotNo fun l => { l with groups := t.launch.groups }).modTh fun th => { th with barWait := t.th.barWait }
  s.stallMove t.th.fetchOn

/-- A bundle split by a trap: the slots before it have committed; their results land in the drain before the handler (11 R313 R314).
DEDUCED [log 23]. DEDUCED [log 34]. -/
def splitAt (s : State) : State :=
  s.modCore s.cur fun k => CoreSt.endCycle { k with th := { k.th.takePos with trapped := false } }

/-- The thread as an issuing bundle finds it. -/
def Thread.begin (th : Thread) (h : Header) (req fall : Nat) : Thread :=
  { th with bpc := th.pc, reqStart := req, xi := BitVec.ofNat 16 h.xi, fall := fall, trapped := false, stalled := false, fetchOn := false, posTaken := 0,
            bundles := th.bundles + 1 }

/-- The launch's first bundle is noted with its TIME (04 R97, 06 R175). -/
def State.markFirst (s : State) : State :=
  s.modLaunch s.slotNo fun l => if l.firstAt.isSome then l else { l with firstAt := some s.time.toNat }

/-- THE BUNDLE with header `h` and slots `ps` issues, stalls or traps; `fall` is the header after it (12 R334 to R340). -/
def issueBundle (ex : Exec) (h : Header) (ps : List SlotBits) (fall : Nat) (s : State) : Res :=
  let live := ps.filter fun p => s.th.slotRes ≤ p.slot.num
  let t := (s.modTh fun th => th.begin h s.mem.nextReq fall)
  if live.isEmpty && !ps.isEmpty then .next (t.modCore s.cur (CoreSt.finish false h.settle))
  else if s.th.interlocked live || s.th.occupied live then idle ex (s.stallMove false)
  else if ps.isEmpty then ex .emptyBundle t.markFirst
  else
    match runSlots ex live t.markFirst with
    | .next t =>
      if t.th.stalled then idle ex (stalledAt s t)
      else if t.th.trapped then .next (splitAt t)
      else .next (t.modCore t.cur (CoreSt.finish true h.settle))
    | o => o

/-- Words of padding that fetch passes over at most: two planes. -/
def padFuel : Nat := 32768

/-- A wait that holds the lockstep pipeline (12 R336). -/
def stallHere (ex : Exec) (s : State) : Res := idle ex (s.stallMove false)

/-- FETCH at the next PC: out of the active window the plane flips; a failed line traps; a line not yet there stalls; the header
and the cross-slot rule are checked before any slot issues (07 R198 R199, 12 R331 to R333 R339). -/
def fetchIssue (ex : Exec) (s : State) : Res :=
  let k := s.core s.cur
  let pc := k.th.pc
  let off := pc % 0x10000
  if k.active.window != some (pc / 0x10000) then .next (s.modTh fun th => { th with drain := .flip })
  else match k.active.gap off 4 with
  | some (l, .failed c lvl) => .next (s.fetchTrap l c lvl)
  | some _ => stallHere ex s
  | none =>
    let h := readHeader (k.active.code off 4)
    if h.kind == 0xF && !k.th.arrived then
      match k.nextHeader padFuel (pc + 4) with
      | some a => .next (s.modTh fun th => { th with pc := a })
      | none => stallHere ex s
    else if h.kind != 0 || h.bad || decide (0x10000 < off + h.bytes) then ex .illbundle { s with ev := { s.ev with a := h.kind } }
    else match k.active.gap off h.bytes with
    | some (l, .failed c lvl) => .next (s.fetchTrap l c lvl)
    | some _ => stallHere ex s
    | none =>
      let ps := k.active.sylls h off
      match crossRead k.th.rot ps [] with
      | some p => .next (s.trapEarly SLOTREAD (opDetail p.slot p.bits) 0 p.slot.num 0)
      | none =>
        match k.nextHeader padFuel (pc + h.bytes) with
        | some fall => issueBundle ex h ps fall s
        | none => stallHere ex s

/-! Drains (12 R336 R340). -/

/-- No drain is left. -/
def State.drained (s : State) : State := s.modTh fun th => { th with drain := .none }

/-- Results or fills that a drain waits for are still to come. DEDUCED [log 32]. -/
def waitDrain (ex : Exec) (s : State) : Res :=
  if (s.core s.cur).th.inflight.isEmpty then idle ex (if s.passesAwaited then s.modCore s.cur CoreSt.fetchOn else s) else ex .exposedResultLanding { s with ev := { s.ev with a := s.cur } }

/-- A drain goes on or ends; a strand leaves behind its signals (18 R501). DEDUCED [log 32]. DEDUCED [log 33]. -/
def drainStep (ex : Exec) (d : Drain) (s : State) : Res :=
  let k := s.core s.cur
  let th := k.th
  let open_ := !th.inflight.isEmpty || !th.pend.isEmpty
  match d with
  | .none => fetchIssue ex s
  | .settle b => if th.inflight.any (fun l => l.bundle == b) || th.pend.any (fun p => p.bundle == b) then waitDrain ex s else .next s.drained
  | .handler => if open_ then waitDrain ex s else .next s.drained
  | .leave x => if open_ || s.signalOpen s.cur then waitDrain ex s else .next (s.leave s.cur x)
  | .preempt => if open_ then waitDrain ex s else idle ex s
  | .flip =>
    let w := th.pc / 0x10000
    if !th.inflight.isEmpty then waitDrain ex s
    else if k.active.window == some w then .next s.drained
    else if k.shadow.window == some w && k.shadow.full then
      .next (s.drained.modCore s.cur fun k => { k with active := k.shadow, shadow := {} })
    else idle ex s

/-- CORE `s.cur` MOVES: one OCC or DLEN write goes to the sequencer, then a late trap is taken, a drain goes on or a bundle is
fetched and issues (12 R334, 11 R316, 06 R173, 18 R501). -/
def coreMove (ex : Exec) (s : State) : Res :=
  let s := if s.signalOpen s.cur then s else s.takeSeqWrite s.cur
  let k := s.core s.cur
  if k.strand.isNone || !(s.engineOn s.cur) || !s.ready || k.freeze != 0 then idle ex s
  else if k.th.drain == .none && k.lateReady then .next (s.takeLate s.cur)
  else drainStep ex k.th.drain s

end Sys2Proof.Machine
end

