-- ==== Sys2Proof/Machine/Rv64.lean ====
section
/-! DEFINITION. Machine/Rv64.lean: Proem's RV64IMAC threads: memory, exceptions, control registers, and the base instruction set with its
compressed forms (04 R108). The manual names RV64IMAC in machine mode and gives no more: everything the RISC-V standard gives is
PRESUMED [log 17]; so is the place of the SRAMs in a thread's address space [log 18]. -/
namespace Sys2Proof.Machine

/-- The thread that runs: agents from 600 on are Proem threads. -/
def State.proemNo (s : State) : Nat := s.agent - 600

/-- x[n]; x0 reads 0. -/
def PThread.rX (p : PThread) (n : Nat) : Word := if n = 0 then 0 else SMap.get p.x n 0

/-- x[n] written; a write to x0 is discarded. -/
def PThread.setX (p : PThread) (n : Nat) (v : Word) : PThread := if n = 0 then p else { p with x := SMap.set p.x n v 0 }

/-! Memory (04 R108). -/

/-- Where an address of a thread leads: the SRAMs, the timer of a thread, its mailbox word, TIME, or the house window. -/
inductive ProemPlace where
  | own (key : Nat)
  | shared (off : Nat)
  | timer (thread : Nat)
  | mail (thread : Nat)
  | time
  | window (off : Nat)
  | nowhere
deriving DecidableEq, Repr

/-- The place of `n` bytes at an address of thread `t`: the private SRAM of its core at 0, the shared SRAM above it, timers and mailboxes
where RISC-V's core-local interruptor has them, and the house window at its physical address (01 R30, 04 R108 R109, 08 R210).
PRESUMED [log 18]. -/
def proemPlace (t a n : Nat) : ProemPlace :=
  if a + n ≤ 0x40000 then .own (t / 32 * 2 ^ 18 + a)
  else if 0x40000 ≤ a && a + n ≤ 0x840000 then .shared (a - 0x40000)
  else if 0x2000000 ≤ a && a < 0x2000200 && n == 4 then .mail ((a - 0x2000000) / 4)
  else if 0x2004000 ≤ a && a < 0x2004400 && n == 8 then .timer ((a - 0x2004000) / 8)
  else if a == 0x200BFF8 && n == 8 then .time
  else if 0xF000000000 ≤ a && a + n ≤ 0xF000800000 && decide (n ≤ 8) then .window (a - 0xF000000000)
  else .nowhere

/-- A place in the SRAMs: what a thread can fetch from, post from and change atomically. -/
def ProemPlace.sram (p : ProemPlace) : Bool := match p with | .own _ => true | .shared _ => true | _ => false

/-- `n` bytes of the SRAMs as thread `t` reads them; none elsewhere. PRESUMED [log 18]. -/
def State.proemRead (s : State) (t a n : Nat) : Option (List Byte) :=
  match proemPlace t a n with
  | .own k => some (Memory.readN s.hif.sram k n)
  | .shared o => some (Memory.readN s.hif.shared o n)
  | _ => none

/-- `n` bytes as a load of thread `t` reads them, with what the read of a register changes; none where nothing answers. A timer that is
not set reads all ones, and a mailbox word 0. PRESUMED [log 18]. -/
def State.proemLoad (s : State) (t a n : Nat) : Option (State × List Byte) :=
  match proemPlace t a n with
  | .timer u => some (s, natLe 8 ((s.thread u).timer.getD (2 ^ 64 - 1)))
  | .mail _ => some (s, natLe 4 0)
  | .time => some (s, natLe 8 s.time.toNat)
  | .window o => some (s.busRead (.house o) n)
  | _ => (s.proemRead t a n).map fun b => (s, b)

/-- One number for each place: the private SRAMs first, the shared one above them. -/
def ProemPlace.key (p : ProemPlace) : Nat :=
  match p with
  | .own k => k
  | .shared o => 2 ^ 20 + o
  | _ => 0

/-- The other threads' reservations of what a store of thread `t` touches end. -/
def State.endReservations (s : State) (t : Nat) (place : ProemPlace) : State :=
  let hit (r : Option Nat) : Bool := match r with | some g => place.key / 8 == g | none => false
  { s with hif := { s.hif with
    threads := s.hif.threads.map fun e => if e.1 != t && hit e.2.resv then (e.1, { e.2 with resv := none }) else e } }

/-- Bytes stored by thread `t`: into the SRAMs, a timer (all ones unset it), the mailbox of a thread, which sends it a wait packet, or a
register of the house window. PRESUMED [log 18]. -/
def State.proemWrite (s : State) (t a : Nat) (bs : List Byte) : State :=
  match proemPlace t a bs.length with
  | .own k => { s with hif := { s.hif with sram := Memory.writeN s.hif.sram k bs } }.endReservations t (.own k)
  | .shared o => { s with hif := { s.hif with shared := Memory.writeN s.hif.shared o bs } }.endReservations t (.shared o)
  | .timer u => s.modThread u fun p => { p with timer := if leNat bs == 2 ^ 64 - 1 then none else some (leNat bs) }
  | .mail u => if leNat bs == 0 then s else s.waitPacket u 3
  | .window o => s.busWrite (.house o) bs
  | _ => s

/-! Exceptions. -/

/-- mstatus as an exception leaves it: MPIE := MIE, MIE := 0, MPP := machine mode. -/
def mstatusTrap (m : Word) : Word :=
  let mie := m.toNat / 8 % 2
  (m &&& ~~~(BitVec.ofNat 64 0x1888)) ||| BitVec.ofNat 64 (mie * 0x80 + 0x1800)

/-- mstatus as mret leaves it: MIE := MPIE, MPIE := 1, MPP := machine mode. -/
def mstatusReturn (m : Word) : Word :=
  let mpie := m.toNat / 0x80 % 2
  (m &&& ~~~(BitVec.ofNat 64 0x1888)) ||| BitVec.ofNat 64 (mpie * 8 + 0x1880)

/-- AN EXCEPTION of thread `t` is taken: mepc, mcause, mtval and mstatus, then the handler at mtvec (RISC-V machine mode).
PRESUMED [log 17]. -/
def State.proemTrap (s : State) (t cause : Nat) (tval : Word) : State :=
  s.modThread t fun p => { p with
    mepc := p.pc, mcause := BitVec.ofNat 64 cause, mtval := tval, mstatus := mstatusTrap p.mstatus
    pc := p.mtvec &&& ~~~(3 : Word), waiting := none }

/-- Illegal-instruction exception of the running thread. -/
def proemIllegal (w : Nat) (s : State) : Res := .next (s.proemTrap s.proemNo 2 (BitVec.ofNat 64 w))

/-! Control registers of machine mode. -/

/-- What a control register reads; none where the thread has none of that number. The cycle counter is a free value. PRESUMED [log 17]. -/
def State.rvCsr (s : State) (t n : Nat) : Option Word :=
  let p := s.thread t
  match n with
  | 0x300 => some ((p.mstatus &&& 0x88) ||| 0x1800)
  | 0x301 => some 0x8000000000001105
  | 0x304 => some p.mie
  | 0x305 => some p.mtvec
  | 0x340 => some p.mscratch
  | 0x341 => some p.mepc
  | 0x342 => some p.mcause
  | 0x343 => some p.mtval
  | 0x344 => some 0
  | 0xB00 => some (BitVec.ofNat 64 (Config.proemCycles s.free))
  | 0xB02 => some p.minstret
  | 0xF11 | 0xF12 | 0xF13 => some 0
  | 0xF14 => some (BitVec.ofNat 64 t)
  | _ => none

/-- A control register written under its field rules; the others ignore the write. PRESUMED [log 17]. -/
def PThread.rvCsrWrite (p : PThread) (n : Nat) (v : Word) : PThread :=
  match n with
  | 0x300 => { p with mstatus := (v &&& 0x88) ||| 0x1800 }
  | 0x304 => { p with mie := v &&& 0x888 }
  | 0x305 => { p with mtvec := v &&& ~~~(2 : Word) }
  | 0x340 => { p with mscratch := v }
  | 0x341 => { p with mepc := v &&& ~~~(1 : Word) }
  | 0x342 => { p with mcause := v }
  | 0x343 => { p with mtval := v }
  | 0xB02 => { p with minstret := v }
  | _ => p

/-! Arithmetic. -/

/-- A quotient with the standard's corners. -/
def rvDiv {w : Nat} (signed : Bool) (a b : BitVec w) : BitVec w :=
  if b == 0 then BitVec.allOnes w else if signed then a.sdiv b else a / b

/-- The 64-bit register operations of RV64I and M, by funct7 and funct3. -/
def rvOp (f7 f3 : Nat) (a b : Word) : Option Word :=
  match f7, f3 with
  | 0, 0 => some (a + b)
  | 0, 1 => some (a <<< (b.toNat % 64))
  | 0, 2 => some (if a.slt b then 1 else 0)
  | 0, 3 => some (if a.ult b then 1 else 0)
  | 0, 4 => some (a ^^^ b)
  | 0, 5 => some (a >>> (b.toNat % 64))
  | 0, 6 => some (a ||| b)
  | 0, 7 => some (a &&& b)
  | 0x20, 0 => some (a - b)
  | 0x20, 5 => some (a.sshiftRight (b.toNat % 64))
  | 1, 0 => some (a * b)
  | 1, 1 => some (word (a.toInt * b.toInt / (2 ^ 64 : Nat)))
  | 1, 2 => some (word (a.toInt * (b.toNat : Int) / (2 ^ 64 : Nat)))
  | 1, 3 => some (BitVec.ofNat 64 (a.toNat * b.toNat / 2 ^ 64))
  | 1, 4 => some (rvDiv true a b)
  | 1, 5 => some (rvDiv false a b)
  | 1, 6 => some (a.srem b)
  | 1, 7 => some (a % b)
  | _, _ => none

/-- The 32-bit register operations of RV64I and M. -/
def rvOp32 (f7 f3 : Nat) (x y : Word) : Option Word :=
  let a := x.setWidth 32
  let b := y.setWidth 32
  (match f7, f3 with
  | 0, 0 => some (a + b)
  | 0, 1 => some (a <<< (b.toNat % 32))
  | 0, 5 => some (a >>> (b.toNat % 32))
  | 0x20, 0 => some (a - b)
  | 0x20, 5 => some (a.sshiftRight (b.toNat % 32))
  | 1, 0 => some (a * b)
  | 1, 4 => some (rvDiv true a b)
  | 1, 5 => some (rvDiv false a b)
  | 1, 6 => some (a.srem b)
  | 1, 7 => some (a % b)
  | _, _ => none).map fun (r : BitVec 32) => r.signExtend 64

/-- The immediate operations. -/
def rvImm (f3 imm : Nat) (a : Word) : Option Word :=
  if f3 == 1 then (if imm / 64 == 0 then some (a <<< (imm % 64)) else none)
  else if f3 == 5 then
    (if imm / 64 == 0 then some (a >>> (imm % 64)) else if imm / 64 == 0x10 then some (a.sshiftRight (imm % 64)) else none)
  else rvOp 0 f3 a (word (sext imm 12))

/-- The 32-bit immediate operations. -/
def rvImm32 (f3 imm : Nat) (a : Word) : Option Word :=
  if f3 == 0 then rvOp32 0 0 a (word (sext imm 12))
  else if f3 == 1 || f3 == 5 then (if f3 == 1 && imm / 32 != 0 then none else rvOp32 (imm / 32) f3 a (BitVec.ofNat 64 (imm % 32)))
  else none

/-- A branch is taken. -/
def rvTaken (f3 : Nat) (a b : Word) : Option Bool :=
  match f3 with
  | 0 => some (a == b)
  | 1 => some (a != b)
  | 4 => some (a.slt b)
  | 5 => some (!(a.slt b))
  | 6 => some (a.ult b)
  | 7 => some (!(a.ult b))
  | _ => none

/-- What an atomic operation writes, by funct5, at a width. -/
def rvAmo {w : Nat} (f5 : Nat) (m v : BitVec w) : Option (BitVec w) :=
  match f5 with
  | 0x00 => some (m + v)
  | 0x01 => some v
  | 0x04 => some (m ^^^ v)
  | 0x08 => some (m ||| v)
  | 0x0C => some (m &&& v)
  | 0x10 => some (if v.slt m then v else m)
  | 0x14 => some (if m.slt v then v else m)
  | 0x18 => some (if v.ult m then v else m)
  | 0x1C => some (if m.ult v then v else m)
  | _ => none

/-! Immediates of the 32-bit formats. -/

/-- S-type. -/
def immS (w : Nat) : Int := sext (bits w 25 7 * 32 + bits w 7 5) 12
/-- B-type. -/
def immB (w : Nat) : Int := sext (bits w 31 1 * 4096 + bits w 7 1 * 2048 + bits w 25 6 * 32 + bits w 8 4 * 2) 13
/-- J-type. -/
def immJ (w : Nat) : Int := sext (bits w 31 1 * 2 ^ 20 + bits w 12 8 * 4096 + bits w 20 1 * 2048 + bits w 21 10 * 2) 21

/-! The compressed forms, each as the 32-bit instruction it stands for. -/

/-- An I-type word. -/
def mkI (op f3 rd rs1 imm : Nat) : Nat := op + 2 ^ 7 * rd + 2 ^ 12 * f3 + 2 ^ 15 * rs1 + 2 ^ 20 * (imm % 4096)
/-- An R-type word. -/
def mkR (op f7 f3 rd rs1 rs2 : Nat) : Nat := op + 2 ^ 7 * rd + 2 ^ 12 * f3 + 2 ^ 15 * rs1 + 2 ^ 20 * rs2 + 2 ^ 25 * f7
/-- An S-type store of funct3. -/
def mkS (f3 rs1 rs2 imm : Nat) : Nat := 0x23 + 2 ^ 7 * (imm % 32) + 2 ^ 12 * f3 + 2 ^ 15 * rs1 + 2 ^ 20 * rs2 + 2 ^ 25 * (imm / 32 % 128)
/-- A branch against x0. -/
def mkB (f3 rs1 imm : Nat) : Nat :=
  0x63 + 2 ^ 7 * bits imm 11 1 + 2 ^ 8 * bits imm 1 4 + 2 ^ 12 * f3 + 2 ^ 15 * rs1 + 2 ^ 25 * bits imm 5 6 + 2 ^ 31 * bits imm 12 1
/-- A jal. -/
def mkJ (rd imm : Nat) : Nat :=
  0x6F + 2 ^ 7 * rd + 2 ^ 12 * bits imm 12 8 + 2 ^ 20 * bits imm 11 1 + 2 ^ 21 * bits imm 1 10 + 2 ^ 31 * bits imm 20 1

/-- A field sign-extended into `n` bits. -/
def stretch (x w n : Nat) : Nat := (sext x w % (2 ^ n : Nat)).toNat

/-- Quadrant 0. -/
def rvc0 (w : Nat) : Option Nat :=
  let d := bits w 2 3 + 8
  let a := bits w 7 3 + 8
  let iw := bits w 10 3 * 8 + bits w 6 1 * 4 + bits w 5 1 * 64
  let id := bits w 10 3 * 8 + bits w 5 2 * 64
  match bits w 13 3 with
  | 0 =>
    let imm := bits w 11 2 * 16 + bits w 7 4 * 64 + bits w 6 1 * 4 + bits w 5 1 * 8
    if imm == 0 then none else some (mkI 0x13 0 d 2 imm)
  | 2 => some (mkI 0x03 2 d a iw)
  | 3 => some (mkI 0x03 3 d a id)
  | 6 => some (mkS 2 a d iw)
  | 7 => some (mkS 3 a d id)
  | _ => none

/-- Quadrant 1. -/
def rvc1 (w : Nat) : Option Nat :=
  let r := bits w 7 5
  let a := bits w 7 3 + 8
  let b := bits w 2 3 + 8
  let u6 := bits w 12 1 * 32 + bits w 2 5
  let i6 := stretch u6 6 12
  let j := stretch (bits w 12 1 * 2048 + bits w 11 1 * 16 + bits w 9 2 * 256 + bits w 8 1 * 1024 + bits w 7 1 * 64 + bits w 6 1 * 128 +
    bits w 3 3 * 2 + bits w 2 1 * 32) 12 21
  let br := stretch (bits w 12 1 * 256 + bits w 10 2 * 8 + bits w 5 2 * 64 + bits w 3 2 * 2 + bits w 2 1 * 32) 9 13
  match bits w 13 3 with
  | 0 => some (mkI 0x13 0 r r i6)
  | 1 => if r == 0 then none else some (mkI 0x1B 0 r r i6)
  | 2 => some (mkI 0x13 0 r 0 i6)
  | 3 =>
    if u6 == 0 then none
    else if r == 2 then
      some (mkI 0x13 0 2 2 (stretch (bits w 12 1 * 512 + bits w 6 1 * 16 + bits w 5 1 * 64 + bits w 3 2 * 128 + bits w 2 1 * 32) 10 12))
    else some (0x37 + 2 ^ 7 * r + 2 ^ 12 * stretch u6 6 20)
  | 4 =>
    match bits w 10 2 with
    | 0 => some (mkI 0x13 5 a a u6)
    | 1 => some (mkI 0x13 5 a a (0x400 + u6))
    | 2 => some (mkI 0x13 7 a a i6)
    | _ =>
      match bits w 12 1, bits w 5 2 with
      | 0, 0 => some (mkR 0x33 0x20 0 a a b)
      | 0, 1 => some (mkR 0x33 0 4 a a b)
      | 0, 2 => some (mkR 0x33 0 6 a a b)
      | 0, _ => some (mkR 0x33 0 7 a a b)
      | _, 0 => some (mkR 0x3B 0x20 0 a a b)
      | _, 1 => some (mkR 0x3B 0 0 a a b)
      | _, _ => none
  | 5 => some (mkJ 0 j)
  | 6 => some (mkB 0 a br)
  | _ => some (mkB 1 a br)

/-- Quadrant 2. -/
def rvc2 (w : Nat) : Option Nat :=
  let r := bits w 7 5
  let b := bits w 2 5
  match bits w 13 3 with
  | 0 => some (mkI 0x13 1 r r (bits w 12 1 * 32 + b))
  | 2 => if r == 0 then none else some (mkI 0x03 2 r 2 (bits w 12 1 * 32 + bits w 4 3 * 4 + bits w 2 2 * 64))
  | 3 => if r == 0 then none else some (mkI 0x03 3 r 2 (bits w 12 1 * 32 + bits w 5 2 * 8 + bits w 2 3 * 64))
  | 4 =>
    if bits w 12 1 == 0 then
      (if b != 0 then some (mkR 0x33 0 0 r 0 b) else if r == 0 then none else some (mkI 0x67 0 0 r 0))
    else if b != 0 then some (mkR 0x33 0 0 r r b)
    else if r == 0 then some 0x00100073
    else some (mkI 0x67 0 1 r 0)
  | 6 => some (mkS 2 2 b (bits w 9 4 * 4 + bits w 7 2 * 64))
  | 7 => some (mkS 3 2 b (bits w 10 3 * 8 + bits w 7 3 * 64))
  | _ => none

/-- The 32-bit instruction that a compressed one stands for; none for a reserved or an absent one. -/
def rvExpand (w : Nat) : Option Nat := match bits w 0 2 with | 0 => rvc0 w | 1 => rvc1 w | _ => rvc2 w

/-! Execution. -/

/-- Thread `t` retires an instruction: rd written, the next pc. -/
def State.rvRetire (s : State) (t rd : Nat) (v : Word) (next : Word) : State :=
  s.modThread t fun p => { (p.setX rd v) with pc := next, minstret := p.minstret + 1 }

/-- A load of `n` bytes: ALIGN traps first, then what lies nowhere (mcause 4 and 5). -/
def rvLoad (t a n : Nat) (s : State) (k : State → Nat → State) : State :=
  if a % n != 0 then s.proemTrap t 4 (BitVec.ofNat 64 a)
  else match s.proemLoad t a n with
    | none => s.proemTrap t 5 (BitVec.ofNat 64 a)
    | some (s, b) => k s (leNat b)

/-- A store's checks (mcause 6 and 7). -/
def rvStoreOk (t a n : Nat) (s : State) (k : State) : State :=
  if a % n != 0 then s.proemTrap t 6 (BitVec.ofNat 64 a)
  else if proemPlace t a n == .nowhere then s.proemTrap t 7 (BitVec.ofNat 64 a)
  else k

/-- The A extension: lr, sc and the atomic operations on 4 or 8 bytes of the SRAMs; elsewhere they have no place to act (mcause 5 and 7).
PRESUMED [log 18]. -/
def rvAtomic (t w : Nat) (next : Word) (illegal : State) (s : State) : State :=
  let p := s.thread t
  let f5 := bits w 27 5
  let n := 2 ^ bits w 12 3
  let a := (p.rX (bits w 15 5)).toNat
  let v := p.rX (bits w 20 5)
  let g := (proemPlace t a n).key / 8
  let out (x : Nat) : Word := if n == 4 then word (sext x 32) else BitVec.ofNat 64 x
  if !(n == 4 || n == 8) then illegal
  else if a % n == 0 && !(proemPlace t a n).sram then s.proemTrap t (if f5 == 0x02 then 5 else 7) (BitVec.ofNat 64 a)
  else if f5 == 0x02 then
    if bits w 20 5 != 0 then illegal
    else rvLoad t a n s fun s x => (s.modThread t fun p => { p with resv := some g }).rvRetire t (bits w 7 5) (out x) next
  else if f5 == 0x03 then
    let done (s : State) (r : Word) : State := (s.modThread t fun p => { p with resv := none }).rvRetire t (bits w 7 5) r next
    rvStoreOk t a n s (if p.resv == some g then done (s.proemWrite t a (natLe n v.toNat)) 0 else done s 1)
  else
    let m := leNat ((s.proemRead t a n).getD [])
    let new := if n == 4 then (rvAmo f5 (BitVec.ofNat 32 m) (v.setWidth 32)).map BitVec.toNat else (rvAmo f5 (BitVec.ofNat 64 m) v).map BitVec.toNat
    match new with
    | none => illegal
    | some x => rvStoreOk t a n s ((s.proemWrite t a (natLe n x)).rvRetire t (bits w 7 5) (out m) next)

/-- A control-register instruction: funct3 1 to 3 with x[rs1], 5 to 7 with the immediate. -/
def rvCsrOp (t w : Nat) (next : Word) (illegal : State) (s : State) : State :=
  let f3 := bits w 12 3
  let n := bits w 20 12
  let rs1 := bits w 15 5
  let v := if 4 ≤ f3 then BitVec.ofNat 64 rs1 else (s.thread t).rX rs1
  let writes := f3 % 4 == 1 || rs1 != 0
  match s.rvCsr t n with
  | none => illegal
  | some old =>
    if writes && n / 1024 == 3 then illegal
    else
      let new := match f3 % 4 with | 1 => v | 2 => old ||| v | _ => old &&& ~~~v
      let s := s.rvRetire t (bits w 7 5) old next
      (if writes then s.modThread t fun p => p.rvCsrWrite n new else s).draw

/-- The system instructions: ecall, ebreak, mret, wfi (which may end at once) and the control-register forms. PRESUMED [log 17]. -/
def rvSystem (t w : Nat) (next : Word) (illegal : State) (s : State) : State :=
  let f3 := bits w 12 3
  if f3 == 0 then
    (if w == 0x00000073 then s.proemTrap t 11 0
    else if w == 0x00100073 then s.proemTrap t 3 (s.thread t).pc
    else if w == 0x30200073 then s.modThread t fun p => { p with pc := p.mepc, mstatus := mstatusReturn p.mstatus, minstret := p.minstret + 1 }
    else if w == 0x10500073 then s.rvRetire t 0 0 next
    else illegal)
  else if f3 == 4 then illegal
  else rvCsrOp t w next illegal s

/-- THE BASE SET: the 32-bit instruction `w` of thread `t`, `len` bytes long as it stood in memory with the bits `raw`.
PRESUMED [log 17]. -/
def rvExec (t w len raw : Nat) (s : State) : State :=
  let p := s.thread t
  let rd := bits w 7 5
  let f3 := bits w 12 3
  let a := p.rX (bits w 15 5)
  let b := p.rX (bits w 20 5)
  let next := p.pc + BitVec.ofNat 64 len
  let illegal := s.proemTrap t 2 (BitVec.ofNat 64 raw)
  let give (r : Option Word) : State := match r with | some v => s.rvRetire t rd v next | none => illegal
  match bits w 0 7 with
  | 0x37 => s.rvRetire t rd (word (sext (bits w 12 20 * 4096) 32)) next
  | 0x17 => s.rvRetire t rd (p.pc + word (sext (bits w 12 20 * 4096) 32)) next
  | 0x6F => s.rvRetire t rd next (p.pc + word (immJ w))
  | 0x67 => if f3 == 0 then s.rvRetire t rd next ((a + word (sext (bits w 20 12) 12)) &&& ~~~(1 : Word)) else illegal
  | 0x63 =>
    match rvTaken f3 a b with
    | some k => s.rvRetire t 0 0 (if k then p.pc + word (immB w) else next)
    | none => illegal
  | 0x03 =>
    let ea := (a + word (sext (bits w 20 12) 12)).toNat
    if f3 == 7 then illegal
    else
      let n := 2 ^ (f3 % 4)
      rvLoad t ea n s fun s x => s.rvRetire t rd (if f3 < 4 then word (sext x (8 * n)) else BitVec.ofNat 64 x) next
  | 0x23 =>
    let ea := (a + word (immS w)).toNat
    if 4 ≤ f3 then illegal else rvStoreOk t ea (2 ^ f3) s ((s.rvRetire t 0 0 next).proemWrite t ea (natLe (2 ^ f3) b.toNat))
  | 0x13 => give (rvImm f3 (bits w 20 12) a)
  | 0x1B => give (rvImm32 f3 (bits w 20 12) a)
  | 0x33 => give (rvOp (bits w 25 7) f3 a b)
  | 0x3B => give (rvOp32 (bits w 25 7) f3 a b)
  | 0x0F => if f3 ≤ 1 then s.rvRetire t 0 0 next else illegal
  | 0x2F => rvAtomic t w next illegal s
  | 0x73 => rvSystem t w next illegal s
  | _ => illegal

end Sys2Proof.Machine
end

