-- ==== Sys2Proof/Machine/Proem.lean ====
section
/-! DEFINITION. Machine/Proem.lean: the Fjaroon extensions of Proem's RV64IMAC threads, and a thread's fetch (04 R108 R109). The RISC-V
standard's side of it stands in Machine/Rv64.lean. -/
namespace Sys2Proof.Machine

/-- The running thread goes on past a 32-bit instruction. -/
def PThread.past (p : PThread) : PThread := { p with pc := p.pc + 4, minstret := p.minstret + 1, waiting := none, posting := none }

/-- The first queued packet whose source is in a mask, and the queue without it (04 R109). -/
def takeFirst (mask : Nat) (ps : List Word) : Option (Word × List Word) :=
  match ps with
  | [] => none
  | p :: r =>
    if bitOf mask (fld p.toNat 0 4) then some (p, r)
    else match takeFirst mask r with
      | some (q, r) => some (q, p :: r)
      | none => none

/-- pwait rd, rs1: blocks until a packet from a source in the mask is queued, then rd receives it (04 R109). PRESUMED [log 17]. -/
def execPwait (f : RV) (s : State) : Res :=
  let p := s.thread s.proemNo
  let m := (p.rX f.rs1).toNat
  if !((Syll.rv 0 f).fits && (Syll.rv 0 f).legal) || m == 0 || 32 ≤ m then proemIllegal (encodeSyll (.rv 0 f)) s
  else .next (s.modThread s.proemNo fun p =>
    match takeFirst m p.packets with
    | some (w, r) => ({ p with packets := r }.setX f.rd w).past
    | none => { p with waiting := some (f.rd, BitVec.ofNat 5 m) })

/-- A launch handed to the Circulation launch port: a house launch at the host lane (04 R109, 06 R153). -/
def State.launchPort (s : State) (b : List Byte) : State :=
  let r := Config.postedLaunch b
  s.modCirc fun c => { c with
    hostLane := c.hostLane ++ [{ record := parseRecord r, malformed := !(recordReservedOk r && (parseRecord r).ok), house := true }] }

/-- A completion handed to the completion engine: the oldest command in progress of that queue and TAG completes (04 R97 R109).
DESIGN CHOICE [log 60]. -/
def State.completionPort (s : State) (b : List Byte) : State :=
  let (q, tag, status, detail) := Config.postedCompletion b
  match s.hif.cmds.find? fun c => c.vqn == q && c.tag == tag with
  | some c => s.complete c (status % 14) (detail % 2 ^ 16)
  | none => s

/-- A sink accepts a record of 64 bytes: 0 the host event ring, 1 the Circulation launch port, 2 the Vault, 3 the completion engine. The
manual gives the records no layout and does not say what the Vault does with its own (04 R109). DESIGN CHOICE [log 60]. -/
def State.postTo (s : State) (sink : Nat) (b : List Byte) : State :=
  match sink with
  | 0 =>
    let (v, ty, detail, q, arg) := Config.postedEvent b
    s.post (v % 65) (ty % 2 ^ 8) (detail % 2 ^ 16) (q % 2 ^ 32) (arg % 2 ^ 64)
  | 1 => s.launchPort b
  | 3 => s.completionPort b
  | _ => s

/-- ppost rs1, rs2: the 64-byte record at x[rs1] is handed to sink x[rs2], and the thread blocks until the sink accepts it, which is when
the thread moves again (04 R109). PRESUMED [log 17]. DESIGN CHOICE [log 60]. -/
def execPpost (f : RV) (s : State) : Res :=
  let p := s.thread s.proemNo
  let sink := (p.rX f.rs2).toNat
  let a := (p.rX f.rs1).toNat
  if !((Syll.rv 1 f).fits && (Syll.rv 1 f).legal) || 3 < sink then proemIllegal (encodeSyll (.rv 1 f)) s
  else if a % 64 != 0 then .next (s.proemTrap s.proemNo 4 (BitVec.ofNat 64 a))
  else match p.posting with
    | some (k, b) => .next ((s.modThread s.proemNo PThread.past).postTo k b)
    | none =>
      match s.proemRead s.proemNo a 64 with
      | none => .next (s.proemTrap s.proemNo 5 (BitVec.ofNat 64 a))
      | some b => .next (s.modThread s.proemNo fun p => { p with posting := some (sink, b) })

/-- ptid rd: the thread's number (04 R109). -/
def execPtid (f : RV) (s : State) : Res :=
  if !((Syll.rv 2 f).fits && (Syll.rv 2 f).legal) then proemIllegal (encodeSyll (.rv 2 f)) s
  else .next (s.modThread s.proemNo fun p => (p.setX f.rd (BitVec.ofNat 64 s.proemNo)).past)

/-- PROEM_TIMER: the timer of thread `a` fires: a wait packet of source 2 (04 R109). -/
def execProemTimer (s : State) : Res :=
  .next (match (s.thread s.ev.a).timer with
    | some t => if t ≤ s.time.toNat then (s.modThread s.ev.a fun p => { p with timer := none }).waitPacket s.ev.a 2 else s
    | none => s)

/-- Proem runs firmware: from stage 0x03 on; in minimal mode only the threads of its core 0 (01 R36, 04 R108). -/
def State.proemRuns (s : State) : Bool :=
  !s.pkg.held && !s.pkg.tripped && !s.pkg.stuckPower && (if s.pkg.mode == 2 then decide (s.proemNo < 32) else decide (3 ≤ s.pkg.stage))

/-- THREAD MOVES: it fetches at its pc, a compressed instruction or a 32-bit one; an extension of custom-0 runs, custom-0 with funct3
011 to 111 and custom-1 to custom-3 are illegal instructions, and the rest is the base set (04 R108 R109). -/
def proemMove (ex : Exec) (s : State) : Res :=
  let t := s.proemNo
  let p := s.thread t
  if !s.proemRuns || p.halted || 128 ≤ t then idle ex s
  else match s.proemRead t p.pc.toNat 2 with
    | none => .next (s.proemTrap t 1 p.pc)
    | some b =>
      let c := leNat b
      if bits c 0 2 != 3 then
        .next (match rvExpand c with
          | some w => rvExec t w 2 c s
          | none => s.proemTrap t 2 (BitVec.ofNat 64 c))
      else match s.proemRead t (p.pc.toNat + 2) 2 with
        | none => .next (s.proemTrap t 1 (p.pc + 2))
        | some b2 =>
          let w := leNat (b ++ b2)
          match decodeRV w with
          | some i => ex i s
          | none => .next (rvExec t w 4 w s)

end Sys2Proof.Machine
end

