-- ==== Sys2Proof/Machine/Scalar.lean ====
section
/-! DEFINITION. Machine/Scalar.lean: the scalar slot: integer arithmetic, control transfer, strands and control registers
(13_scalar_instructions.md). -/
namespace Sys2Proof.Machine

/-! Shared operations. -/

/-- An arithmetic form: operands at the width of CW, `g` on their unsigned readings, the result reduced and extended (13 R369). -/
def scalarArith (op lat : Nat) (f : SA) (g : Nat → Nat → Nat → Int) (s : State) : Res :=
  checked (.sa op f) s fun s =>
    let w := cwWidth f.cw
    let a := (s.rS f.sa).toNat % 2 ^ w
    let b := (saSecond f false s).toNat % 2 ^ w
    .next (s.landS lat f.sd (saResult f.cw (g w a b)))

/-- A logical form on 64 bits: CW 1 zero-extends the immediate (12 R345, 13 R370). -/
def scalarLogic (op : Nat) (f : SA) (g : Word → Word → Word) (s : State) : Res :=
  checked (.sa op f) s fun s => .next (s.landS 1 f.sd (g (s.rS f.sa) (saSecond f (f.cw == 1) s)))

/-- A form with one source on 64 bits (13 R373). -/
def scalarUnary (op lat : Nat) (f : SA) (g : Word → Word) (s : State) : Res :=
  checked (.sa op f) s fun s => .next (s.landS lat f.sd (g (s.rS f.sa)))

/-- Division truncated towards zero with its defined corners (13 R371). -/
def divide (w : Nat) (signed : Bool) (a b : Nat) : Int :=
  if b == 0 then -1
  else if signed then Int.tdiv (sext a w) (sext b w)
  else ((a / b : Nat) : Int)

/-- The remainder, with the sign of the dividend (13 R371). -/
def remainder (w : Nat) (signed : Bool) (a b : Nat) : Int :=
  if b == 0 then (a : Int)
  else if signed then Int.tmod (sext a w) (sext b w)
  else ((a % b : Nat) : Int)

/-- Position and length of a bit field: 0 stands for 64 (13 R374). -/
def bfFields (imm : Nat) : Nat × Nat := (fld imm 0 6, if fld imm 8 6 == 0 then 64 else fld imm 8 6)

/-- The bundle transfers to `t` when it completes (12 R337, 13 R381). -/
def transfer (t : Nat) (s : State) : State := s.modTh fun th => { th with latchX := some (.jump t) }

/-- The bundle ends with `x` (13 R381). -/
def latchEnd (x : Xfer) (s : State) : State := s.modTh fun th => { th with latchX := some x }

/-- The issuing strand holds accumulator banks (07 R202). -/
def State.holdsAcc (s : State) : Bool := s.ctx.held.any fun p => p.2 == s.strandNo + 1

/-- The checks of suspend, yield and seqnext at issue (13 R382): ILLOP in a handler, ACCHELD for a non-gang strand that holds
accumulator banks. -/
def suspendCheck (y : Syll) (s : State) (k : State → Res) : Res :=
  if s.th.th then illop y s
  else if !s.launch.record.gang && s.holdsAcc then trap 0x0401 0 0 15 s
  else k s

/-- A register target: ILLOP where bits [1:0] or [63:48] are not zero (13 R377). -/
def toRegister (y : Syll) (t : Nat) (s : State) (k : State → Res) : Res := if targetOk t then k s else illop y s

/-- A control-register form: `g` computes the new value from the old one and v; RO registers ignore it (13 R388). -/
def csrForm (op : Nat) (f : SC) (g : Word → Word → Word) (mabClears : Bool) (s : State) : Res :=
  checked (.sc op f) s fun s =>
    let old := s.csrRead f.csr
    let v := s.rS f.sa + word (sext f.imm 32)
    let isMab := f.csr == 0x060 || f.csr == 0x061
    let w := if isMab then (if mabClears then v else 0) else g old v
    .next ((s.modTh fun th => { th with latchCsr := some (f.csr, w) }).landS 1 f.sd old)

/-! Arithmetic and logic (13 R369 to R376). -/

/-- add: a + b modulo 2^w (13 R370). -/
def execAdd (f : SA) (s : State) : Res := scalarArith 0x01 1 f (fun _ a b => (a : Int) + b) s

/-- sub: a - b modulo 2^w (13 R370). -/
def execSub (f : SA) (s : State) : Res := scalarArith 0x02 1 f (fun _ a b => (a : Int) - b) s

/-- mul: a x b modulo 2^w (13 R370). -/
def execMul (f : SA) (s : State) : Res := scalarArith 0x03 3 f (fun _ a b => (a : Int) * b) s

/-- mulh.i: bits [127:64] of the signed product (13 R370). -/
def execMulhI (f : SA) (s : State) : Res := scalarArith 0x04 3 f (fun _ a b => sext a 64 * sext b 64 / (2 ^ 64 : Nat)) s

/-- mulh.n: bits [127:64] of the unsigned product (13 R370). -/
def execMulhN (f : SA) (s : State) : Res := scalarArith 0x05 3 f (fun _ a b => ((a * b / 2 ^ 64 : Nat) : Int)) s

/-- div.i (13 R371). -/
def execDivI (f : SA) (s : State) : Res := scalarArith 0x06 36 f (fun w a b => divide w true a b) s

/-- div.n (13 R371). -/
def execDivN (f : SA) (s : State) : Res := scalarArith 0x07 36 f (fun w a b => divide w false a b) s

/-- rem.i (13 R371). -/
def execRemI (f : SA) (s : State) : Res := scalarArith 0x08 36 f (fun w a b => remainder w true a b) s

/-- rem.n (13 R371). -/
def execRemN (f : SA) (s : State) : Res := scalarArith 0x09 36 f (fun w a b => remainder w false a b) s

/-- and (13 R370). -/
def execSAnd (f : SA) (s : State) : Res := scalarLogic 0x0A f (fun a b => a &&& b) s

/-- or (13 R370). -/
def execSOr (f : SA) (s : State) : Res := scalarLogic 0x0B f (fun a b => a ||| b) s

/-- xor (13 R370). -/
def execSXor (f : SA) (s : State) : Res := scalarLogic 0x0C f (fun a b => a ^^^ b) s

/-- andn (13 R370). -/
def execSAndn (f : SA) (s : State) : Res := scalarLogic 0x0D f (fun a b => a &&& ~~~b) s

/-- shl: count modulo the width (13 R372). -/
def execShl (f : SA) (s : State) : Res := scalarArith 0x0E 1 f (fun w a b => ((a * 2 ^ (b % w) : Nat) : Int)) s

/-- shr (13 R372). -/
def execShr (f : SA) (s : State) : Res := scalarArith 0x0F 1 f (fun w a b => ((a / 2 ^ (b % w) : Nat) : Int)) s

/-- sar: floor of the signed quotient (13 R372). -/
def execSar (f : SA) (s : State) : Res := scalarArith 0x10 1 f (fun w a b => sext a w / (2 ^ (b % w) : Nat)) s

/-- rol (13 R372). -/
def execRol (f : SA) (s : State) : Res := scalarArith 0x11 1 f (fun w a b => ((a * 2 ^ (b % w) + a / 2 ^ (w - b % w) : Nat) : Int)) s

/-- min.i (13 R370). -/
def execMinI (f : SA) (s : State) : Res := scalarArith 0x12 1 f (fun w a b => min (sext a w) (sext b w)) s

/-- min.n (13 R370). -/
def execMinN (f : SA) (s : State) : Res := scalarArith 0x13 1 f (fun _ a b => ((min a b : Nat) : Int)) s

/-- max.i (13 R370). -/
def execMaxI (f : SA) (s : State) : Res := scalarArith 0x14 1 f (fun w a b => max (sext a w) (sext b w)) s

/-- max.n (13 R370). -/
def execMaxN (f : SA) (s : State) : Res := scalarArith 0x15 1 f (fun _ a b => ((max a b : Nat) : Int)) s

/-- clz: 64 for zero (13 R373). -/
def execClz (f : SA) (s : State) : Res := scalarUnary 0x16 1 f (fun a => BitVec.ofNat 64 (clzN 64 a.toNat)) s

/-- ctz: 64 for zero (13 R373). -/
def execCtz (f : SA) (s : State) : Res := scalarUnary 0x17 1 f (fun a => BitVec.ofNat 64 (ctzN 64 a.toNat)) s

/-- popc (13 R373). -/
def execPopc (f : SA) (s : State) : Res := scalarUnary 0x18 1 f (fun a => BitVec.ofNat 64 (popN 64 a.toNat)) s

/-- bfx.i: extract with sign extension (13 R374). -/
def execBfxI (f : SA) (s : State) : Res :=
  scalarUnary 0x19 2 f (fun a => let (p, n) := bfFields f.imm; word (sext (a.toNat / 2 ^ p) n)) s

/-- bfx.n: extract with zero extension (13 R374). -/
def execBfxN (f : SA) (s : State) : Res :=
  scalarUnary 0x1A 2 f (fun a => let (p, n) := bfFields f.imm; BitVec.ofNat 64 (fld a.toNat p n)) s

/-- bfi: insert into sd; its other bits keep their value (13 R374). -/
def execBfi (f : SA) (s : State) : Res :=
  checked (.sa 0x1B f) s fun s =>
    let (p, n) := bfFields f.imm
    let mask : Word := BitVec.ofNat 64 ((2 ^ n - 1) * 2 ^ p)
    .next (s.landS 2 f.sd ((s.rS f.sd &&& ~~~mask) ||| ((s.rS f.sa <<< p) &&& mask)))

/-- lea: S[sa] + S[sb] x 2^CW + IMM (13 R375). -/
def execLea (f : SA) (s : State) : Res :=
  checked (.sa 0x1C f) s fun s =>
    .next (s.landS 1 f.sd (s.rS f.sa + s.rS f.sb * BitVec.ofNat 64 (2 ^ f.cw) + saImmediate f s.th.xi false))

/-- li: IMM (13 R375). -/
def execLi (f : SA) (s : State) : Res :=
  checked (.sa 0x1D f) s fun s => .next (s.landS 1 f.sd (saImmediate f s.th.xi false))

/-- sel: b to sd when S[sa] is not zero; sd keeps its value otherwise (13 R376). -/
def execSel (f : SA) (s : State) : Res :=
  checked (.sa 0x1E f) s fun s =>
    .next (if s.rS f.sa == 0 then s else s.landS 1 f.sd (saSecond f false s))

/-- cmp: 1 or 0 by a condition on 64 bits (13 R376). -/
def execCmp (f : SA) (s : State) : Res :=
  checked (.sa 0x1F f) s fun s =>
    .next (s.landS 1 f.sd (if cond f.cw (s.rS f.sa) (saSecond f false s) then 1 else 0))

/-! Control transfer (13 R377 to R380). -/

/-- br (13 R377). -/
def execBr (f : SB) (s : State) : Res :=
  checked (.sb 0x20 f) s fun s =>
    .next (if cond f.cc (s.rS f.sa) (s.rS f.sb) then transfer (sbTarget f s) s else s)

/-- brz (13 R377). -/
def execBrz (f : SB) (s : State) : Res :=
  checked (.sb 0x21 f) s fun s =>
    .next (if (s.rS f.sa == 0) == (f.cc == 0) then transfer (sbTarget f s) s else s)

/-- jmp (13 R377). -/
def execJmp (f : SB) (s : State) : Res := checked (.sb 0x22 f) s fun s => .next (transfer (sbTarget f s) s)

/-- jmpr (13 R377). -/
def execJmpr (f : SA) (s : State) : Res :=
  checked (.sa 0x23 f) s fun s =>
    toRegister (.sa 0x23 f) (saTarget f s) s fun s => .next (transfer (saTarget f s) s)

/-- call: the return address, the fall-through header past padding, goes to s63 (13 R378). -/
def execCall (f : SB) (s : State) : Res :=
  checked (.sb 0x24 f) s fun s => .next ((transfer (sbTarget f s) s).landS 1 63 (BitVec.ofNat 64 s.th.fall))

/-- callr (13 R377 R378). -/
def execCallr (f : SA) (s : State) : Res :=
  checked (.sa 0x25 f) s fun s =>
    toRegister (.sa 0x25 f) (saTarget f s) s fun s =>
      .next ((transfer (saTarget f s) s).landS 1 63 (BitVec.ofNat 64 s.th.fall))

/-- ret: to S[s63] (13 R377). -/
def execRet (f : SA) (s : State) : Res :=
  checked (.sa 0x26 f) s fun s =>
    toRegister (.sa 0x26 f) (s.rS 63).toNat s fun s => .next (transfer (s.rS 63).toNat s)

/-- ROT after a rotation by `k`; none when the region is empty (12 R342, 13 R379). -/
def rotateBy (rot : Word) (k : Nat) : Option Word :=
  if rotSize rot == 0 then none
  else some (rotWord (rotSize rot) (((rotBase rot : Int) - k) % (rotSize rot : Int)).toNat)

/-- loop: decrement, rotate, and branch while the counter is not zero (13 R379). -/
def execLoop (f : SB) (s : State) : Res :=
  checked (.sb 0x27 f) s fun s =>
    let c := s.rS f.sa - 1
    let t := sbTarget f s
    let s := (s.modTh fun th => { th with latchRot := (rotateBy th.rot f.cc).or th.latchRot }).landS 1 f.sa c
    .next (if c == 0 then s else transfer t s)

/-- rotset: SIZE from the immediate, BASE 0, from the next bundle (13 R380). -/
def execRotset (f : SA) (s : State) : Res :=
  checked (.sa 0x28 f) s fun s => .next (s.modTh fun th => { th with latchRot := some (rotWord f.imm 0) })

/-! Strands (13 R382 to R387). -/

/-- The record `spawn` takes: the exited record of lowest index (07 R187). -/
def freeRecord (l : Launch) : Option Nat := firstBelow l.record.strands fun i => (l.strand i).st == .exited

/-- A result that memory or Circulation returns at once: it waits for LOAD_FILL under a pending register (12 R335, 16 R453).
DEDUCED [log 44]. -/
def State.returnLater (s : State) (rd : Nat) (v : Nat) : State :=
  let id := s.mem.nextReq
  let r : Req := { id := id, core := s.cur, launch := s.slotNo, strand := s.strandNo, kind := .load, ty := 7
                   data := natLe 8 v, pend := some id, pc := s.th.bpc, slot := s.th.slot, ready := true }
  ({ s with mem := { s.mem with net := s.mem.net ++ [r], nextReq := id + 1 } }).modTh fun th => th.setPending id [.s rd]

/-- spawn: a new strand in the exited record of lowest index; sd is filled with its index, or all ones (13 R385, 07 R187).
DEDUCED [log 44]. -/
def execSpawn (f : SA) (s : State) : Res :=
  checked (.sa 0x30 f) s fun s =>
    toRegister (.sa 0x30 f) (s.rS f.sa).toNat s fun s =>
      circPass s fun s => match freeRecord s.launch with
      | none => .next (s.returnLater f.sd (2 ^ 64 - 1))
      | some i =>
        let pc := (s.rS f.sa).toNat
        let arg := s.rS f.sb
        let me := s.strandNo
        let start (r : Strand) : Strand :=
          { st := .ready, pc := pc, c1 := arg, c2 := BitVec.ofNat 64 me, started := true, tie := r.tie, late := r.late }
        .next ((s.modLaunch s.slotNo fun l => { l.modStrand i start with ready := l.ready ++ [i] }).returnLater f.sd i)

/-- The wake condition of suspend in S[sa] and S[sb] (13 R383): WKIND, EVT and ARG. -/
def wakeCondition (a b : Nat) : Option (Nat × Nat × Nat) :=
  if a % 256 == 1 && a < 2 ^ 16 && b < 2 ^ 32 then some (1, a / 256, b)
  else if a == 2 && b < 2 ^ 48 then some (2, 0, b)
  else none

/-- suspend: the strand waits for an event or a time (13 R383). -/
def execSuspend (f : SA) (s : State) : Res :=
  checked (.sa 0x31 f) s fun s => suspendCheck (.sa 0x31 f) s fun s =>
    match wakeCondition (s.rS f.sa).toNat (s.rS f.sb).toNat with
    | some (k, e, a) => .next (latchEnd (.suspend k e a) s)
    | none => illop (.sa 0x31 f) s

/-- yield: ready at once, or the launch parks on a free list (13 R384). -/
def execYield (f : SA) (s : State) : Res :=
  checked (.sa 0x32 f) s fun s => suspendCheck (.sa 0x32 f) s fun s =>
    let a := (s.rS f.sa).toNat
    if a % 16 == 0 && a < 2 ^ 48 then .next (latchEnd (.yieldTo a) s) else illop (.sa 0x32 f) s

/-- exit: the strand ends; ACCHELD when it holds accumulator banks, gang or not (13 R382, 07 R188). -/
def execExitStrand (f : SA) (s : State) : Res :=
  checked (.sa 0x33 f) s fun s =>
    if s.th.th then illop (.sa 0x33 f) s
    else if s.holdsAcc then trap 0x0401 0 0 15 s
    else .next (latchEnd .exitS s)

/-- seqnext: hold for the step sequencer; ILLOP without BKT (13 R382, 06 R172). -/
def execSeqnext (f : SA) (s : State) : Res :=
  checked (.sa 0x34 f) s fun s => suspendCheck (.sa 0x34 f) s fun s =>
    if s.launch.record.bkt then .next (latchEnd .seqnext s) else illop (.sa 0x34 f) s

/-- trap n: cause TRAPI, DETAIL n, in slot 0 (13 R386). -/
def execTrap (f : SA) (s : State) : Res := checked (.sa 0x35 f) s fun s => trap 0x0008 f.imm 0 15 s

/-- rett: ILLOP outside a handler; otherwise the return happens when the bundle completes (13 R387). -/
def execRett (f : SA) (s : State) : Res :=
  checked (.sa 0x36 f) s fun s => if s.th.th then .next (latchEnd .rett s) else illop (.sa 0x36 f) s

/-- stamp: TIME at issue (13 R389). -/
def execStamp (f : SA) (s : State) : Res := checked (.sa 0x37 f) s fun s => .next (s.landS 1 f.sd s.time)

/-! Control-register access (13 R388). -/

/-- csrr: the old value, nothing written (13 R388). -/
def execCsrr (f : SC) (s : State) : Res := checked (.sc 0x38 f) s fun s => .next (s.landS 1 f.sd (s.csrRead f.csr))

/-- csrw (13 R388). -/
def execCsrw (f : SC) (s : State) : Res := csrForm 0x39 f (fun _ v => v) true s

/-- csrs (13 R388): MAB is W1C, so setting changes nothing there. -/
def execCsrs (f : SC) (s : State) : Res := csrForm 0x3A f (fun old v => old ||| v) false s

/-- csrc (13 R388). -/
def execCsrc (f : SC) (s : State) : Res := csrForm 0x3B f (fun old v => old &&& ~~~v) true s

end Sys2Proof.Machine
end

