-- ==== Sys2Proof/Machine/Scale.lean ====
section
/-! DEFINITION. Machine/Scale.lean: the scale slot (15_matrix_scale_instructions.md R446 to R449). -/
namespace Sys2Proof.Machine

/-- A scale load of `n` bytes from scratchpad: landed at latency 6 as bits from `lo` up, the others kept (15 R447). -/
def scaleLoad (op : Nat) (f : ZOp) (n lo : Nat) (s : State) : Res :=
  checked (.z op f) s fun s =>
    let ea := (s.rS f.sa + word (sext f.off 17)).toNat
    if ea < 0x7FFE00000000 ∨ 0x7FFE00200000 ≤ ea then trap ACCESS (faultDetail false 4) ea 0 s
    else if ea % 2 != 0 || crossesBank ea n then trap 0x0103 0 ea 0 s
    else
      let off := ea - 0x7FFE00000000
      match s.ctx.spadPhys off with
      | none => trap 0x0104 (off / 0x4000 % 256) (bankTva (off / 0x4000)) 0 s
      | some p =>
        if s.spadHeld false then stall s
        else
          let v := leNat ((s.core s.cur).spadRead p n)
          .next (s.modTh fun th => th.land 6 (some (.z f.z)) (BitVec.ofNat 2048 (v * 2 ^ lo)) (lowMask (8 * n) <<< lo) 0)

/-- zld: a 66-byte scale image (15 R447). -/
def execZld (f : ZOp) (s : State) : Res := scaleLoad 1 f 66 0 s

/-- zldg: the two group exponents alone (15 R447). -/
def execZldg (f : ZOp) (s : State) : Res := scaleLoad 2 f 2 512 s

/-- The 528 bits of a scale register from its 66 bytes. -/
def scaleBits (bs : List Nat) : BitVec 528 := bytesBv 528 (bs.map fun b => BitVec.ofNat 8 b)

/-- zset: one micro-scale for all, two group exponents, from S[sa] (15 R448). -/
def execZset (f : ZOp) (s : State) : Res :=
  checked (.z 3 f) s fun s =>
    let a := (s.rS f.sa).toNat
    .next (s.landZ 1 f.z (scaleBits (List.replicate 64 (fld a 0 8) ++ [fld a 8 8, fld a 16 8])))

/-- zmov: Z[j], with j in the sa field (15 R448). -/
def execZmov (f : ZOp) (s : State) : Res := checked (.z 4 f) s fun s => .next (s.landZ 1 f.z (s.th.rZ f.sa))

/-- One exponent adjusted by `d`: 0xFF stays, others clamp to 0 to 254; whether it was clamped (15 R449). -/
def adjustScale (d : Int) (b : Nat) : Nat × Bool :=
  if b == 255 then (255, false)
  else
    let v := (b : Int) + d
    (if v < 0 then 0 else if 254 < v then 254 else v.toNat, decide (v < 0 ∨ 254 < v))

/-- zgen on bytes `lo` up to `hi` of Z[z], at latency 4, with SA when a byte is clamped (15 R449). -/
def scaleGen (f : ZOp) (lo hi : Nat) (s : State) : Res :=
  checked (.z 5 f) s fun s =>
    let d := (s.rS f.sa).toInt + sext f.off 16
    let z := s.th.rZ f.z
    let out := (List.range 66).map fun i =>
      let b := (z.extractLsb' (8 * i) 8).toNat
      if lo ≤ i ∧ i < hi then adjustScale d b else (b, false)
    let fl := flagIf (out.any (·.2)) flSA
    .next (s.modTh fun th => th.land 4 (some (.z f.z)) ((scaleBits (out.map (·.1))).setWidth 2048) (lowMask 528) fl)

/-- zgen.g: both group exponents (15 R449). -/
def execZgenG (f : ZOp) (s : State) : Res := scaleGen f 64 66 s

/-- zgen.b: the 64 block scales (15 R449). -/
def execZgenB (f : ZOp) (s : State) : Res := scaleGen f 0 64 s

end Sys2Proof.Machine
end

