-- ==== Sys2Proof/Machine/Spdm.lean ====
section
/-! DEFINITION. Machine/Spdm.lean: the DOE mailbox: DOE Discovery, the SPDM 1.3 responder and IDE_KM (04 R90 R92). The message formats are
those of outside standards: what the spec says of a response stands in its fields, and the encoding is `Config.spdmResponse` [log 75].
A message of a secured session is given as the session identifier, 4 bytes, and the message in plaintext. -/
namespace Sys2Proof.Machine

/-- The mailbox answers: the host is served and the link is up. -/
def State.doeUp (s : State) : Bool := s.hostServed && s.hif.link

/-- DOE_DISCOVERY: the index in `bytes` names one of the three protocols of the mailbox (04 R90). PRESUMED [log 75]. -/
def execDoeDiscovery (s : State) : Res :=
  let i := leAt s.ev.bytes 0 1
  .next (if !s.doeUp then s
    else s.emit (.doe (if i < 3 then natLe 2 1 ++ natLe 1 i ++ natLe 1 ((i + 1) % 3) else natLe 2 0xFFFF ++ natLe 1 0xFF ++ natLe 1 0)))

/-- The host interface changed. -/
def State.modHif (s : State) (g : Hif → Hif) : State := { s with hif := g s.hif }

/-- An SPDM response leaves; one above the transfer size is kept for CHUNK_GET (04 R92). -/
def State.spdmSend (s : State) (bs : List Byte) : State :=
  if 4096 < bs.length then (s.modHif fun h => { h with spdmOut := some bs }).emit (.spdm (Config.spdmResponse 0x7F [natLe 1 0x0F]))
  else s.emit (.spdm bs)

/-- A response of a code with its fields; request and response join the transcript. PRESUMED [log 75]. -/
def State.respond (s : State) (code : Nat) (fields : List (List Byte)) : State :=
  let bs := Config.spdmResponse code fields
  (s.modHif fun h => { h with spdmLog := h.spdmLog ++ s.ev.bytes ++ bs }).spdmSend bs

/-- An ERROR response (04 R92). -/
def State.spdmError (s : State) (e : Nat) : State := s.emit (.spdm (Config.spdmResponse 0x7F [natLe 1 e]))

/-- A request with code `code` at connection state `least` or later: handled, or answered with ERROR "unexpected request". One above the
transfer size is answered with ERROR "request too large", unless its chunks have been put together (04 R92). PRESUMED [log 75]. -/
def spdmRequest (code least : Nat) (k : State → State) (s : State) : Res :=
  .next (if !s.doeUp || leAt s.ev.bytes 1 1 != code then s
    else if 4096 < s.ev.bytes.length && s.hif.spdmIn != some s.ev.bytes then s.spdmError 0x0E
    else if s.hif.spdmState < least then s.spdmError 0x04
    else k s)

/-- GET_VERSION: version 1.3; the connection begins anew (04 R92). -/
def execGetVersion (s : State) : Res :=
  spdmRequest 0x84 0 (fun s =>
    (s.modHif fun h => { h with spdmState := 1, spdmExt := false, spdmLog := [], spdmIn := none, spdmOut := none }).respond 0x04 [natLe 2 0x1300]) s

/-- GET_CAPABILITIES: the transfer sizes (04 R92). -/
def execGetCapabilities (s : State) : Res :=
  spdmRequest 0xE1 1 (fun s => (s.modHif fun h => { h with spdmState := max 2 h.spdmState }).respond 0x61 [natLe 4 4096, natLe 4 131072]) s

/-- NEGOTIATE_ALGORITHMS: SHA-256, and the extended algorithms where the requester offers them (04 R92). -/
def execNegotiateAlgorithms (s : State) : Res :=
  spdmRequest 0xE3 2 (fun s =>
    let ext := !(Config.spdmField 0 s.ev.bytes).isEmpty
    (s.modHif fun h => { h with spdmState := 3, spdmExt := ext }).respond 0x63 [[BitVec.ofNat 8 (b2n ext)]]) s

/-- The chain of certificate slot 0 (04 R92, 01 R27). -/
def State.chain (s : State) : List Byte := Config.certChain (Config.identityKey s.prot.vault.identitySeeds)

/-- A signature by the device identity key over the transcript. -/
def State.spdmSign (s : State) (more : List Byte) : List Byte :=
  Config.sign s.prot.vault.identitySeeds (s.hif.spdmLog ++ s.ev.bytes ++ more)

/-- GET_DIGESTS: only slot 0 is provisioned (04 R92). -/
def execGetDigests (s : State) : Res := spdmRequest 0x81 3 (fun s => s.respond 0x01 [natLe 1 1, sha256 s.chain]) s

/-- GET_CERTIFICATE: a part of slot 0's chain (04 R92). -/
def execGetCertificate (s : State) : Res :=
  spdmRequest 0x82 3 (fun s =>
    if leAt s.ev.bytes 2 1 % 16 != 0 then s.spdmError 0x01
    else
      let off := leAt s.ev.bytes 4 2
      let part := slice s.chain off (leAt s.ev.bytes 6 2)
      s.respond 0x02 [part, natLe 2 (s.chain.length - off - part.length)]) s

/-- CHALLENGE: a signature by the identity key, which needs the extended algorithms (04 R92). -/
def execChallenge (s : State) : Res :=
  spdmRequest 0x83 3 (fun s =>
    if leAt s.ev.bytes 2 1 % 16 != 0 || !s.hif.spdmExt then s.spdmError 0x01
    else
      let (nonce, s) := s.random 32
      s.respond 0x03 [sha256 s.chain, nonce, s.spdmSign nonce]) s

/-- Measurement `i`, 1 to 4 (04 R92). -/
def State.measurement (s : State) (i : Nat) : List Byte :=
  match i with
  | 1 => sha256 (SMap.get s.flash.slots s.hif.fwRunning {}).image
  | 2 => sha256 s.flash.blob
  | 3 => s.pkg.devid
  | _ => natLe 2 s.pkg.svn

/-- GET_MEASUREMENTS: the number of measurements, one of them or all; a signature needs the extended algorithms (04 R92). -/
def execGetMeasurements (s : State) : Res :=
  spdmRequest 0xE0 3 (fun s =>
    let signed := bitOf (leAt s.ev.bytes 2 1) 0
    let i := leAt s.ev.bytes 3 1
    if (signed && !s.hif.spdmExt) || (4 < i && i != 0xFF) then s.spdmError 0x01
    else
      let which := if i == 0 then [] else if i == 0xFF then [1, 2, 3, 4] else [i]
      let values := which.map s.measurement
      if !signed then s.respond 0x60 ([natLe 1 4, natLe 1 which.length] ++ values)
      else
        let (nonce, s) := s.random 32
        s.respond 0x60 ([natLe 1 4, natLe 1 which.length] ++ values ++ [nonce, s.spdmSign (values.flatten ++ nonce)])) s

/-! Secured sessions (04 R92). -/

/-- KEY_EXCHANGE: a session begins, at most four at once, with ML-KEM-1024 (04 R92). -/
def execKeyExchange (s : State) : Res :=
  spdmRequest 0xE4 3 (fun s =>
    if !s.hif.spdmExt then s.spdmError 0x01
    else if 4 ≤ s.hif.spdm.length then s.spdmError 0x0A
    else
      let used (n : Nat) : Bool := s.hif.spdm.any fun x => x.sid / 2 ^ 16 == n
      let mine := (firstBelow 5 fun n => !(used (n + 1))).getD 0 + 1
      let sid := leAt s.ev.bytes 4 2 + mine * 2 ^ 16
      let (m, s) := s.random 32
      let (ss, ct) := Config.kemEncaps (Config.spdmField 1 s.ev.bytes) m
      let (nonce, s) := s.random 32
      let secret := Config.spdmSecret ss (s.hif.spdmLog ++ s.ev.bytes ++ ct ++ nonce) 0
      let s := s.modHif fun h => { h with spdm := h.spdm ++ [{ sid := sid, secret := secret }] }
      s.respond 0x64 [natLe 4 sid, nonce, ct, s.spdmSign (ct ++ nonce)]) s

/-- A message of a secured session: its identifier, then a request with code `code`. `est` is whether the session must be established.
PRESUMED [log 75]. -/
def sessionRequest (code : Nat) (est : Bool) (k : SpdmSession → List Byte → State → State) (s : State) : Res :=
  let msg := s.ev.bytes.drop 4
  .next (if !s.doeUp || leAt msg 1 1 != code then s
    else match s.hif.spdm.find? fun x => x.sid == leAt s.ev.bytes 0 4 with
      | none => s.spdmError 0x04
      | some x => if x.established == est then k x msg s else s.spdmError 0x04)

/-- A session replaced. -/
def State.setSpdm (s : State) (x : SpdmSession) : State :=
  s.modHif fun h => { h with spdm := h.spdm.map fun y => if y.sid == x.sid then x else y }

/-- A session gone. -/
def State.dropSpdm (s : State) (sid : Nat) : State := s.modHif fun h => { h with spdm := h.spdm.filter fun y => y.sid != sid }

/-- FINISH: the handshake completes, or the session is dropped (04 R92). -/
def execFinish (s : State) : Res :=
  sessionRequest 0xE5 false (fun x msg s =>
    if Config.spdmFinish x.secret msg then (s.setSpdm { x with established := true }).respond 0x65 []
    else (s.dropSpdm x.sid).spdmError 0x06) s

/-- HEARTBEAT of an SPDM session (04 R92). -/
def execSpdmHeartbeat (s : State) : Res := sessionRequest 0xE8 true (fun _ _ s => s.respond 0x68 []) s

/-- KEY_UPDATE: the session keys move on, or the new ones are verified (04 R92). -/
def execKeyUpdate (s : State) : Res :=
  sessionRequest 0xE9 true (fun x msg s =>
    let op := leAt msg 2 1
    if op == 1 || op == 2 then
      (s.setSpdm { x with updates := x.updates + 1, secret := Config.spdmSecret x.secret [] (x.updates + 1) }).respond 0x69 [natLe 1 op]
    else if op == 3 then s.respond 0x69 [natLe 1 op]
    else s.spdmError 0x01) s

/-- END_SESSION (04 R92). -/
def execEndSession (s : State) : Res := sessionRequest 0xEC true (fun x _ s => (s.respond 0x6C []).dropSpdm x.sid) s

/-! Large messages (04 R92). -/

/-- A whole large request is handled as its own kind says (04 R92). -/
def largeRequest (s : State) : State :=
  let r := match leAt s.ev.bytes 1 1 with
    | 0xE1 => execGetCapabilities s
    | 0xE3 => execNegotiateAlgorithms s
    | 0x81 => execGetDigests s
    | 0x82 => execGetCertificate s
    | 0x83 => execChallenge s
    | 0xE0 => execGetMeasurements s
    | 0xE4 => execKeyExchange s
    | _ => .next (s.spdmError 0x04)
  match r with
  | .next t => t
  | _ => s

/-- The SPDM message sent last. -/
def lastSpdm (out : List Output) : List Byte :=
  match out with
  | .spdm b :: _ => b
  | _ :: r => lastSpdm r
  | [] => []

/-- The last chunk has come: the request `all` is handled, and its response goes out inside the acknowledgement (04 R92).
PRESUMED [log 75]. -/
def State.handleLarge (s : State) (all : List Byte) : State :=
  let t := largeRequest { (s.modHif fun h => { h with spdmIn := some all }) with ev := { s.ev with bytes := all }, out := [] }
  ({ (t.modHif fun h => { h with spdmIn := none }) with ev := s.ev, out := s.out }).emit (.spdm (Config.spdmResponse 0x05 [lastSpdm t.out]))

/-- CHUNK_SEND: a chunk of a large request is collected, up to the largest message; the whole request is then handled as its own kind
says (04 R92). PRESUMED [log 75]. -/
def execChunkSend (s : State) : Res :=
  spdmRequest 0x85 1 (fun s =>
    let all := s.hif.spdmIn.getD [] ++ Config.spdmField 2 s.ev.bytes
    if 131072 < all.length then (s.modHif fun h => { h with spdmIn := none }).spdmError 0x01
    else if bitOf (leAt s.ev.bytes 2 1) 0 then s.handleLarge all
    else (s.modHif fun h => { h with spdmIn := some all }).emit (.spdm (Config.spdmResponse 0x05 []))) s

/-- CHUNK_GET: the next chunk of a large response (04 R92). PRESUMED [log 75]. -/
def execChunkGet (s : State) : Res :=
  spdmRequest 0x86 1 (fun s =>
    match s.hif.spdmOut with
    | none => s.spdmError 0x04
    | some bs =>
      let n := 4096 - 16
      let rest := bs.drop n
      (s.modHif fun h => { h with spdmOut := if rest.isEmpty then none else some rest }).emit
        (.spdm (Config.spdmResponse 0x06 [natLe 1 (b2n rest.isEmpty), bs.take n]))) s

/-! IDE (04 R90). -/

/-- IDE_KM in a secured session: a key is programmed into a stream, or a stream's keys are started or stopped; the link stream is 0, the
selective streams are 1 to 4 (04 R90). PRESUMED [log 75]. -/
def execIdeKm (s : State) : Res :=
  let msg := s.ev.bytes.drop 4
  let obj := leAt msg 1 1
  let stream := leAt msg 4 1
  let set := leAt msg 6 1 % 16
  .next (if !s.doeUp then s
    else match s.hif.spdm.find? fun x => x.sid == leAt s.ev.bytes 0 4 with
      | none => s.spdmError 0x04
      | some x =>
        let answer (s : State) (code status : Nat) : State := s.emit (.spdm (Config.spdmResponse code [natLe 1 status, natLe 1 stream]))
        if !x.established then s.spdmError 0x04
        else if obj == 0 then answer s 1 0
        else if obj == 2 then
          if 4 < stream then answer s 3 1
          else answer (s.modHif fun h => { h with ideKeys := SMap.set h.ideKeys (16 * stream + set) (Config.spdmField 3 msg) [] }) 3 0
        else if obj == 4 then answer (s.modHif fun h => { h with ideOn := if stream ≤ 4 then withElem h.ideOn stream else h.ideOn }) 6 0
        else if obj == 5 then answer (s.modHif fun h => { h with ideOn := without h.ideOn stream }) 6 0
        else s.spdmError 0x01)

end Sys2Proof.Machine
end

