-- ==== Sys2Proof/Machine/Dispatch.lean ====
section
/-! DEFINITION. Machine/Dispatch.lean: the meaning of every instruction, one arm per constructor. -/
namespace Sys2Proof.Machine
def exec (i : Instr) (s : State) : Host.Outcome State Fault Refusal :=
  match i with
  | .resetNRelease => Sys2Proof.Machine.execResetNRelease s
  | .powerLoss => Sys2Proof.Machine.execPowerLoss s
  | .stagePower => Sys2Proof.Machine.execStagePower s
  | .stageRom => Sys2Proof.Machine.execStageRom s
  | .stageFw => Sys2Proof.Machine.execStageFw s
  | .stageCfg => Sys2Proof.Machine.execStageCfg s
  | .stageClocks => Sys2Proof.Machine.execStageClocks s
  | .stageHbm => Sys2Proof.Machine.execStageHbm s
  | .stageScrub => Sys2Proof.Machine.execStageScrub s
  | .stageTimeout => Sys2Proof.Machine.execStageTimeout s
  | .startWatchdog => Sys2Proof.Machine.execStartWatchdog s
  | .warmReset => Sys2Proof.Machine.execWarmReset s
  | .pkgResetWrite => Sys2Proof.Machine.execPkgResetWrite s
  | .powerEstimate => Sys2Proof.Machine.execPowerEstimate s
  | .sweepEnd => Sys2Proof.Machine.execSweepEnd s
  | .hbmRefreshBoundary => Sys2Proof.Machine.execHbmRefreshBoundary s
  | .correctableError => Sys2Proof.Machine.execCorrectableError s
  | .freezeEnd => Sys2Proof.Machine.execFreezeEnd s
  | .uncorrectableError => Sys2Proof.Machine.execUncorrectableError s
  | .pcieConfigRequest => Sys2Proof.Machine.execPcieConfigRequest s
  | .pcieHotReset => Sys2Proof.Machine.execPcieHotReset s
  | .vfFlr => Sys2Proof.Machine.execVfFlr s
  | .pcieLinkUp => Sys2Proof.Machine.execPcieLinkUp s
  | .doeDiscovery => Sys2Proof.Machine.execDoeDiscovery s
  | .getVersion => Sys2Proof.Machine.execGetVersion s
  | .getCapabilities => Sys2Proof.Machine.execGetCapabilities s
  | .negotiateAlgorithms => Sys2Proof.Machine.execNegotiateAlgorithms s
  | .getDigests => Sys2Proof.Machine.execGetDigests s
  | .getCertificate => Sys2Proof.Machine.execGetCertificate s
  | .challenge => Sys2Proof.Machine.execChallenge s
  | .getMeasurements => Sys2Proof.Machine.execGetMeasurements s
  | .keyExchange => Sys2Proof.Machine.execKeyExchange s
  | .finish => Sys2Proof.Machine.execFinish s
  | .spdmHeartbeat => Sys2Proof.Machine.execSpdmHeartbeat s
  | .keyUpdate => Sys2Proof.Machine.execKeyUpdate s
  | .endSession => Sys2Proof.Machine.execEndSession s
  | .chunkSend => Sys2Proof.Machine.execChunkSend s
  | .chunkGet => Sys2Proof.Machine.execChunkGet s
  | .doorbell => Sys2Proof.Machine.execDoorbell s
  | .queueLoad => Sys2Proof.Machine.execQueueLoad s
  | .launch => Sys2Proof.Machine.execLaunch s
  | .catalogSet => Sys2Proof.Machine.execCatalogSet s
  | .catalogDel => Sys2Proof.Machine.execCatalogDel s
  | .mcbWrite => Sys2Proof.Machine.execMcbWrite s
  | .copyIn => Sys2Proof.Machine.execCopyIn s
  | .copyOut => Sys2Proof.Machine.execCopyOut s
  | .keyImport => Sys2Proof.Machine.execKeyImport s
  | .nop => Sys2Proof.Machine.execNop s
  | .queueBind => Sys2Proof.Machine.execQueueBind s
  | .queueUnbind => Sys2Proof.Machine.execQueueUnbind s
  | .vfSetup => Sys2Proof.Machine.execVfSetup s
  | .partitionDefine => Sys2Proof.Machine.execPartitionDefine s
  | .partitionWithdraw => Sys2Proof.Machine.execPartitionWithdraw s
  | .fwStage => Sys2Proof.Machine.execFwStage s
  | .fwActivateLive => Sys2Proof.Machine.execFwActivateLive s
  | .fwActivateNextStart => Sys2Proof.Machine.execFwActivateNextStart s
  | .fwNewImageStart => Sys2Proof.Machine.execFwNewImageStart s
  | .fwActivateWatchdog => Sys2Proof.Machine.execFwActivateWatchdog s
  | .recover => Sys2Proof.Machine.execRecover s
  | .opkeyEnrol => Sys2Proof.Machine.execOpkeyEnrol s
  | .interruptWindowExpiry => Sys2Proof.Machine.execInterruptWindowExpiry s
  | .bucketTick => Sys2Proof.Machine.execBucketTick s
  | .fnEvheadWrite => Sys2Proof.Machine.execFnEvheadWrite s
  | .counterRead => Sys2Proof.Machine.execCounterRead s
  | .ethPctlWrite => Sys2Proof.Machine.execEthPctlWrite s
  | .slPctlWrite => Sys2Proof.Machine.execSlPctlWrite s
  | .chpTmarkWrite => Sys2Proof.Machine.execChpTmarkWrite s
  | .registerWrite => Sys2Proof.Machine.execRegisterWrite s
  | .ethLinkChange => Sys2Proof.Machine.execEthLinkChange s
  | .frameReceive => Sys2Proof.Machine.execFrameReceive s
  | .slowPathFrame => Sys2Proof.Machine.execSlowPathFrame s
  | .hello => Sys2Proof.Machine.execHello s
  | .confirm => Sys2Proof.Machine.execConfirm s
  | .request => Sys2Proof.Machine.execRequest s
  | .heartbeat => Sys2Proof.Machine.execHeartbeat s
  | .close => Sys2Proof.Machine.execClose s
  | .certreq => Sys2Proof.Machine.execCertreq s
  | .sessionLapseTimeout => Sys2Proof.Machine.execSessionLapseTimeout s
  | .halfTimeout => Sys2Proof.Machine.execHalfTimeout s
  | .reassemblyTimeout => Sys2Proof.Machine.execReassemblyTimeout s
  | .laneFailure => Sys2Proof.Machine.execLaneFailure s
  | .linkReplay => Sys2Proof.Machine.execLinkReplay s
  | .livenessTimeout => Sys2Proof.Machine.execLivenessTimeout s
  | .creditFlit => Sys2Proof.Machine.execCreditFlit s
  | .stalldropTimeout => Sys2Proof.Machine.execStalldropTimeout s
  | .fabricResponseTimeout => Sys2Proof.Machine.execFabricResponseTimeout s
  | .csendCreditTimeout => Sys2Proof.Machine.execCsendCreditTimeout s
  | .fabWrite => Sys2Proof.Machine.execFabWrite s
  | .fabRead => Sys2Proof.Machine.execFabRead s
  | .fabReadResp => Sys2Proof.Machine.execFabReadResp s
  | .fabWriteAck => Sys2Proof.Machine.execFabWriteAck s
  | .fabSend => Sys2Proof.Machine.execFabSend s
  | .fabRecvCred => Sys2Proof.Machine.execFabRecvCred s
  | .fabColl => Sys2Proof.Machine.execFabColl s
  | .fabAbandon => Sys2Proof.Machine.execFabAbandon s
  | .fabTimesync => Sys2Proof.Machine.execFabTimesync s
  | .timesyncExchange => Sys2Proof.Machine.execTimesyncExchange s
  | .fabFault => Sys2Proof.Machine.execFabFault s
  | .binding => Sys2Proof.Machine.execBinding s
  | .corePreemptRequest => Sys2Proof.Machine.execCorePreemptRequest s
  | .collectorAck => Sys2Proof.Machine.execCollectorAck s
  | .coreFree => Sys2Proof.Machine.execCoreFree s
  | .waitListAging => Sys2Proof.Machine.execWaitListAging s
  | .strandPickup => Sys2Proof.Machine.execStrandPickup s
  | .timeWake => Sys2Proof.Machine.execTimeWake s
  | .parkWake => Sys2Proof.Machine.execParkWake s
  | .parkTimeout => Sys2Proof.Machine.execParkTimeout s
  | .deadlineExpiry => Sys2Proof.Machine.execDeadlineExpiry s
  | .launchRetire => Sys2Proof.Machine.execLaunchRetire s
  | .planeFillDone => Sys2Proof.Machine.execPlaneFillDone s
  | .unitScrubDone => Sys2Proof.Machine.execUnitScrubDone s
  | .zeroFillDone => Sys2Proof.Machine.execZeroFillDone s
  | .keyZeroiseDone => Sys2Proof.Machine.execKeyZeroiseDone s
  | .segmentLoadDone => Sys2Proof.Machine.execSegmentLoadDone s
  | .homeSliceAccept => Sys2Proof.Machine.execHomeSliceAccept s
  | .loadFill => Sys2Proof.Machine.execLoadFill s
  | .lateTrap => Sys2Proof.Machine.execLateTrap s
  | .copyRow => Sys2Proof.Machine.execCopyRow s
  | .streamSlotAdvance => Sys2Proof.Machine.execStreamSlotAdvance s
  | .cipherBlock => Sys2Proof.Machine.execCipherBlock s
  | .fabricOpComplete => Sys2Proof.Machine.execFabricOpComplete s
  | .slotFull => Sys2Proof.Machine.execSlotFull s
  | .bankOwnClear => Sys2Proof.Machine.execBankOwnClear s
  | .accBanksFree => Sys2Proof.Machine.execAccBanksFree s
  | .pwait f => Sys2Proof.Machine.execPwait f s
  | .ppost f => Sys2Proof.Machine.execPpost f s
  | .ptid f => Sys2Proof.Machine.execPtid f s
  | .proemTimer => Sys2Proof.Machine.execProemTimer s
  | .add f => Sys2Proof.Machine.execAdd f s
  | .sub f => Sys2Proof.Machine.execSub f s
  | .mul f => Sys2Proof.Machine.execMul f s
  | .mulhI f => Sys2Proof.Machine.execMulhI f s
  | .mulhN f => Sys2Proof.Machine.execMulhN f s
  | .divI f => Sys2Proof.Machine.execDivI f s
  | .divN f => Sys2Proof.Machine.execDivN f s
  | .remI f => Sys2Proof.Machine.execRemI f s
  | .remN f => Sys2Proof.Machine.execRemN f s
  | .sAnd f => Sys2Proof.Machine.execSAnd f s
  | .sOr f => Sys2Proof.Machine.execSOr f s
  | .sXor f => Sys2Proof.Machine.execSXor f s
  | .sAndn f => Sys2Proof.Machine.execSAndn f s
  | .shl f => Sys2Proof.Machine.execShl f s
  | .shr f => Sys2Proof.Machine.execShr f s
  | .sar f => Sys2Proof.Machine.execSar f s
  | .rol f => Sys2Proof.Machine.execRol f s
  | .minI f => Sys2Proof.Machine.execMinI f s
  | .minN f => Sys2Proof.Machine.execMinN f s
  | .maxI f => Sys2Proof.Machine.execMaxI f s
  | .maxN f => Sys2Proof.Machine.execMaxN f s
  | .clz f => Sys2Proof.Machine.execClz f s
  | .ctz f => Sys2Proof.Machine.execCtz f s
  | .popc f => Sys2Proof.Machine.execPopc f s
  | .bfxI f => Sys2Proof.Machine.execBfxI f s
  | .bfxN f => Sys2Proof.Machine.execBfxN f s
  | .bfi f => Sys2Proof.Machine.execBfi f s
  | .lea f => Sys2Proof.Machine.execLea f s
  | .li f => Sys2Proof.Machine.execLi f s
  | .sel f => Sys2Proof.Machine.execSel f s
  | .cmp f => Sys2Proof.Machine.execCmp f s
  | .br f => Sys2Proof.Machine.execBr f s
  | .brz f => Sys2Proof.Machine.execBrz f s
  | .jmp f => Sys2Proof.Machine.execJmp f s
  | .jmpr f => Sys2Proof.Machine.execJmpr f s
  | .call f => Sys2Proof.Machine.execCall f s
  | .callr f => Sys2Proof.Machine.execCallr f s
  | .ret f => Sys2Proof.Machine.execRet f s
  | .loop f => Sys2Proof.Machine.execLoop f s
  | .rotset f => Sys2Proof.Machine.execRotset f s
  | .spawn f => Sys2Proof.Machine.execSpawn f s
  | .suspend f => Sys2Proof.Machine.execSuspend f s
  | .yield f => Sys2Proof.Machine.execYield f s
  | .exitStrand f => Sys2Proof.Machine.execExitStrand f s
  | .seqnext f => Sys2Proof.Machine.execSeqnext f s
  | .trap f => Sys2Proof.Machine.execTrap f s
  | .rett f => Sys2Proof.Machine.execRett f s
  | .stamp f => Sys2Proof.Machine.execStamp f s
  | .csrr f => Sys2Proof.Machine.execCsrr f s
  | .csrw f => Sys2Proof.Machine.execCsrw f s
  | .csrs f => Sys2Proof.Machine.execCsrs f s
  | .csrc f => Sys2Proof.Machine.execCsrc f s
  | .vadd f => Sys2Proof.Machine.execVadd f s
  | .vaddImm f => Sys2Proof.Machine.execVaddImm f s
  | .vsub f => Sys2Proof.Machine.execVsub f s
  | .vsubImm f => Sys2Proof.Machine.execVsubImm f s
  | .vmul f => Sys2Proof.Machine.execVmul f s
  | .vmulImm f => Sys2Proof.Machine.execVmulImm f s
  | .vfma f => Sys2Proof.Machine.execVfma f s
  | .vfms f => Sys2Proof.Machine.execVfms f s
  | .vfnma f => Sys2Proof.Machine.execVfnma f s
  | .vmin f => Sys2Proof.Machine.execVmin f s
  | .vminImm f => Sys2Proof.Machine.execVminImm f s
  | .vmax f => Sys2Proof.Machine.execVmax f s
  | .vmaxImm f => Sys2Proof.Machine.execVmaxImm f s
  | .vabs f => Sys2Proof.Machine.execVabs f s
  | .vneg f => Sys2Proof.Machine.execVneg f s
  | .vcpysgn f => Sys2Proof.Machine.execVcpysgn f s
  | .vclass f => Sys2Proof.Machine.execVclass f s
  | .vand f => Sys2Proof.Machine.execVand f s
  | .vandImm f => Sys2Proof.Machine.execVandImm f s
  | .vor f => Sys2Proof.Machine.execVor f s
  | .vorImm f => Sys2Proof.Machine.execVorImm f s
  | .vxor f => Sys2Proof.Machine.execVxor f s
  | .vxorImm f => Sys2Proof.Machine.execVxorImm f s
  | .vnot f => Sys2Proof.Machine.execVnot f s
  | .vshl f => Sys2Proof.Machine.execVshl f s
  | .vshlImm f => Sys2Proof.Machine.execVshlImm f s
  | .vshr f => Sys2Proof.Machine.execVshr f s
  | .vshrImm f => Sys2Proof.Machine.execVshrImm f s
  | .vsar f => Sys2Proof.Machine.execVsar f s
  | .vsarImm f => Sys2Proof.Machine.execVsarImm f s
  | .vmulh f => Sys2Proof.Machine.execVmulh f s
  | .vcmp f => Sys2Proof.Machine.execVcmp f s
  | .vcmpImm f => Sys2Proof.Machine.execVcmpImm f s
  | .vsel f => Sys2Proof.Machine.execVsel f s
  | .vcvt f => Sys2Proof.Machine.execVcvt f s
  | .vpack f => Sys2Proof.Machine.execVpack f s
  | .vunpack f => Sys2Proof.Machine.execVunpack f s
  | .vquant f => Sys2Proof.Machine.execVquant f s
  | .vdequant f => Sys2Proof.Machine.execVdequant f s
  | .vexp2 f => Sys2Proof.Machine.execVexp2 f s
  | .vlog2 f => Sys2Proof.Machine.execVlog2 f s
  | .vrcp f => Sys2Proof.Machine.execVrcp f s
  | .vrsq f => Sys2Proof.Machine.execVrsq f s
  | .vsqrt f => Sys2Proof.Machine.execVsqrt f s
  | .vexpd f => Sys2Proof.Machine.execVexpd f s
  | .vsum f => Sys2Proof.Machine.execVsum f s
  | .vmaxr f => Sys2Proof.Machine.execVmaxr f s
  | .vminr f => Sys2Proof.Machine.execVminr f s
  | .vscan f => Sys2Proof.Machine.execVscan f s
  | .vdraw f => Sys2Proof.Machine.execVdraw f s
  | .vdrawl f => Sys2Proof.Machine.execVdrawl f s
  | .vdmerge f => Sys2Proof.Machine.execVdmerge f s
  | .vdescend f => Sys2Proof.Machine.execVdescend f s
  | .vtop f => Sys2Proof.Machine.execVtop f s
  | .vrand f => Sys2Proof.Machine.execVrand f s
  | .vrandf f => Sys2Proof.Machine.execVrandf f s
  | .vperm f => Sys2Proof.Machine.execVperm f s
  | .vshuf f => Sys2Proof.Machine.execVshuf f s
  | .vrot f => Sys2Proof.Machine.execVrot f s
  | .vrotImm f => Sys2Proof.Machine.execVrotImm f s
  | .vslide f => Sys2Proof.Machine.execVslide f s
  | .vbcast f => Sys2Proof.Machine.execVbcast f s
  | .vbcastImm f => Sys2Proof.Machine.execVbcastImm f s
  | .vins f => Sys2Proof.Machine.execVins f s
  | .vext f => Sys2Proof.Machine.execVext f s
  | .vmov f => Sys2Proof.Machine.execVmov f s
  | .viota f => Sys2Proof.Machine.execViota f s
  | .vcompress f => Sys2Proof.Machine.execVcompress f s
  | .vexpand f => Sys2Proof.Machine.execVexpand f s
  | .vzip f => Sys2Proof.Machine.execVzip f s
  | .vunzip f => Sys2Proof.Machine.execVunzip f s
  | .qand f => Sys2Proof.Machine.execQand f s
  | .qor f => Sys2Proof.Machine.execQor f s
  | .qxor f => Sys2Proof.Machine.execQxor f s
  | .qnot f => Sys2Proof.Machine.execQnot f s
  | .qset f => Sys2Proof.Machine.execQset f s
  | .qsetImm f => Sys2Proof.Machine.execQsetImm f s
  | .qcount f => Sys2Proof.Machine.execQcount f s
  | .qfirst f => Sys2Proof.Machine.execQfirst f s
  | .mpushw f => Sys2Proof.Machine.execMpushw f s
  | .mpusha f => Sys2Proof.Machine.execMpusha f s
  | .mshift f => Sys2Proof.Machine.execMshift f s
  | .macc f => Sys2Proof.Machine.execMacc f s
  | .mdrain f => Sys2Proof.Machine.execMdrain f s
  | .mclr f => Sys2Proof.Machine.execMclr f s
  | .mplane f => Sys2Proof.Machine.execMplane f s
  | .mwswap f => Sys2Proof.Machine.execMwswap f s
  | .mwswapHome f => Sys2Proof.Machine.execMwswapHome f s
  | .lds f => Sys2Proof.Machine.execLds f s
  | .ldv f => Sys2Proof.Machine.execLdv f s
  | .ldvg f => Sys2Proof.Machine.execLdvg f s
  | .ldx f => Sys2Proof.Machine.execLdx f s
  | .ldcb f => Sys2Proof.Machine.execLdcb f s
  | .ldacc f => Sys2Proof.Machine.execLdacc f s
  | .ldq f => Sys2Proof.Machine.execLdq f s
  | .sts f => Sys2Proof.Machine.execSts f s
  | .stv f => Sys2Proof.Machine.execStv f s
  | .stvg f => Sys2Proof.Machine.execStvg f s
  | .stx f => Sys2Proof.Machine.execStx f s
  | .stcb f => Sys2Proof.Machine.execStcb f s
  | .stacc f => Sys2Proof.Machine.execStacc f s
  | .stq f => Sys2Proof.Machine.execStq f s
  | .aadd f => Sys2Proof.Machine.execAadd f s
  | .aaddf f => Sys2Proof.Machine.execAaddf f s
  | .aand f => Sys2Proof.Machine.execAand f s
  | .aor f => Sys2Proof.Machine.execAor f s
  | .axor f => Sys2Proof.Machine.execAxor f s
  | .amin f => Sys2Proof.Machine.execAmin f s
  | .amax f => Sys2Proof.Machine.execAmax f s
  | .aswp f => Sys2Proof.Machine.execAswp f s
  | .acas f => Sys2Proof.Machine.execAcas f s
  | .adec f => Sys2Proof.Machine.execAdec f s
  | .alpush f => Sys2Proof.Machine.execAlpush f s
  | .alpop f => Sys2Proof.Machine.execAlpop f s
  | .adraw f => Sys2Proof.Machine.execAdraw f s
  | .cpy f => Sys2Proof.Machine.execCpy f s
  | .cstream f => Sys2Proof.Machine.execCstream f s
  | .cprefetch f => Sys2Proof.Machine.execCprefetch f s
  | .cgather f => Sys2Proof.Machine.execCgather f s
  | .cscatter f => Sys2Proof.Machine.execCscatter f s
  | .csend f => Sys2Proof.Machine.execCsend f s
  | .csendRma f => Sys2Proof.Machine.execCsendRma f s
  | .crecv f => Sys2Proof.Machine.execCrecv f s
  | .crecvRma f => Sys2Proof.Machine.execCrecvRma f s
  | .ccoll f => Sys2Proof.Machine.execCcoll f s
  | .cskid f => Sys2Proof.Machine.execCskid f s
  | .fence f => Sys2Proof.Machine.execFence f s
  | .pfence f => Sys2Proof.Machine.execPfence f s
  | .cbinit f => Sys2Proof.Machine.execCbinit f s
  | .cbwaitFree f => Sys2Proof.Machine.execCbwaitFree f s
  | .cbwaitFull f => Sys2Proof.Machine.execCbwaitFull f s
  | .cbadvProd f => Sys2Proof.Machine.execCbadvProd f s
  | .cbadvCons f => Sys2Proof.Machine.execCbadvCons f s
  | .cbrel f => Sys2Proof.Machine.execCbrel f s
  | .cbrelLine f => Sys2Proof.Machine.execCbrelLine f s
  | .bkrel f => Sys2Proof.Machine.execBkrel f s
  | .bkacq f => Sys2Proof.Machine.execBkacq f s
  | .join f => Sys2Proof.Machine.execJoin f s
  | .leave f => Sys2Proof.Machine.execLeave f s
  | .bar f => Sys2Proof.Machine.execBar f s
  | .aballoc f => Sys2Proof.Machine.execAballoc f s
  | .abfree f => Sys2Proof.Machine.execAbfree f s
  | .evwait f => Sys2Proof.Machine.execEvwait f s
  | .evsig f => Sys2Proof.Machine.execEvsig f s
  | .swaptok f => Sys2Proof.Machine.execSwaptok f s
  | .grinit f => Sys2Proof.Machine.execGrinit f s
  | .grpush f => Sys2Proof.Machine.execGrpush f s
  | .grpop f => Sys2Proof.Machine.execGrpop f s
  | .grbud f => Sys2Proof.Machine.execGrbud f s
  | .grprune f => Sys2Proof.Machine.execGrprune f s
  | .rowsave f => Sys2Proof.Machine.execRowsave f s
  | .rowrest f => Sys2Proof.Machine.execRowrest f s
  | .seqwait f => Sys2Proof.Machine.execSeqwait f s
  | .cipherSeal f => Sys2Proof.Machine.execCipherSeal f s
  | .cipherOpen f => Sys2Proof.Machine.execCipherOpen f s
  | .shablk f => Sys2Proof.Machine.execShablk f s
  | .kbind f => Sys2Proof.Machine.execKbind f s
  | .kzero f => Sys2Proof.Machine.execKzero f s
  | .zld f => Sys2Proof.Machine.execZld f s
  | .zldg f => Sys2Proof.Machine.execZldg f s
  | .zset f => Sys2Proof.Machine.execZset f s
  | .zmov f => Sys2Proof.Machine.execZmov f s
  | .zgenG f => Sys2Proof.Machine.execZgenG f s
  | .zgenB f => Sys2Proof.Machine.execZgenB f s
  | .slLinkUp => Sys2Proof.Machine.execSlLinkUp s
  | .wheelSlot => Sys2Proof.Machine.execWheelSlot s
  | .creditReturn => Sys2Proof.Machine.execCreditReturn s
  | .exposedResultLanding => Sys2Proof.Machine.execExposedResultLanding s
  | .tmarkScanDone => Sys2Proof.Machine.execTmarkScanDone s
  | .ideKm => Sys2Proof.Machine.execIdeKm s
  | .emptyBundle => Sys2Proof.Machine.execEmptyBundle s
  | .illbundle => Sys2Proof.Machine.execIllbundle s
end Sys2Proof.Machine
end

