-- ==== Sys2Proof/Machine/Turn.lean ====
section
/-! DEFINITION. Machine/Turn.lean: one step of the machine: TIME moves on, then the turn that stands first in the agenda is taken: an
event of the opcode table happens, or an agent (a core or a Proem thread) moves; with an empty agenda the agent that moved last moves
again [log 1]. Every interleaving of agents, inputs and internal events is some agenda. -/
namespace Sys2Proof.Machine

/-- By how much TIME and what is left of its correction move on over `d` ticks: an extra or an omitted tick in every 100 while the offset
is small, every second tick while it is large and positive, in either case only until it is 0 (03 R82). DESIGN CHOICE [log 6]. -/
def Sl.pace (x : Sl) (d : Nat) : Nat × Sl :=
  if x.slew == 0 then (d, { x with slow := false })
  else if x.slow then
    let k := min (d - (x.slewPhase + d) / 2) x.slew.toNat
    let left := x.slew - (k : Int)
    (d - k, { x with slew := left, slow := decide (0 < left), slewPhase := (x.slewPhase + d) % 2 })
  else
    let k := min ((x.slewPhase + d) / 100) x.slew.natAbs
    let x' := { x with slewPhase := (x.slewPhase + d) % 100 }
    if 0 < x.slew then (d - k, { x' with slew := x.slew - (k : Int) }) else (d + k, { x' with slew := x.slew + (k : Int) })

/-- TIME moves on while the package runs: by how much a step lasts is not said (01 R26). It stands still while the package is held and
until stage 0x01 ends. DESIGN CHOICE [log 6]. -/
def State.tick (s : State) : State :=
  if s.pkg.held || s.pkg.stage == 1 then s
  else
    let r := s.sl.pace (Config.elapsed s.free)
    { s with time := s.time + BitVec.ofNat 64 r.1, sl := r.2, free := s.free + 1 }

/-- An instruction of the table that happens by itself or comes from outside: neither a syllable nor a Proem instruction, and not a
bundle header's check, which belongs to fetch. -/
def Instr.happens (i : Instr) : Bool :=
  match i with
  | .emptyBundle | .illbundle => false
  | i => (syllOf i).isNone

/-- The agent moves: core `agent`, or Proem thread `agent` - 600. DESIGN CHOICE [log 22]. -/
def agentMove (ex : Exec) (s : State) : Res :=
  if s.agent < 600 then coreMove ex { s with cur := s.agent }
  else if s.agent < 728 then proemMove ex s
  else .fault .noAgent

/-- What the turns of a package after a thermal trip do: every clock but TIME's has stopped, so nothing but the loss of its rails (01 R21). -/
def tripTurn (ex : Exec) (s : State) : Res :=
  match s.agenda with
  | .event .powerLoss a :: r => ex .powerLoss { s with agenda := r, ev := a }
  | _ :: r => .next { s with agenda := r }
  | [] => .next s

/-- The first turn of the agenda, or the agent's. DESIGN CHOICE [log 1]. DESIGN CHOICE [log 2]. DESIGN CHOICE [log 21]. -/
def turn (ex : Exec) (s : State) : Res :=
  if s.pkg.tripped then tripTurn ex s
  else match s.agenda with
  | .event i a :: r => if Instr.happens i then ex i { s with agenda := r, ev := a } else .next { s with agenda := r }
  | .agent n :: r => agentMove ex { s with agenda := r, agent := n }
  | [] => agentMove ex s

/-- A STEP of the machine with meanings `ex`. DESIGN CHOICE [log 1]. -/
def machineStep (ex : Exec) (s : State) : Res := turn ex s.tick

/-- A bundle of one syllable: its bytes in memory order (12 R330). -/
def oneSlotBundle (t : Slot) (w : Nat) : List Byte := natLe 4 (oneSlotHeader t) ++ natLe t.size w

/-- The slot or thread in which a word of the opcode table is run. -/
def fetchSlot (nbits w : Nat) : Option Slot :=
  match tableSlot nbits w with
  | some t => t
  | none => some (if nbits ≤ 32 then .y else .s)

/-- A launch record that asks for all a core has: a house launch of one strand. -/
def soloRecord : LaunchRec := { kind := 2, hnd := 64, acc := 256, spb := 128 }

/-- A launch that holds core 0 and whose strand 0 runs there. DESIGN CHOICE [log 8]. -/
def soloLaunch : Launch :=
  { record := soloRecord, st := .bound, house := true, tag := 0x200A, cores := [0], visited := [0]
    strands := [(0, { st := .running, started := true })] }

/-- Core 0 with a launch whose next bundle is `b`, at PC 0 of the active plane. DESIGN CHOICE [log 8]. -/
def CoreSt.withBundle (k : CoreSt) (b : List Byte) : CoreSt :=
  { k with
    launch := some 0, strand := some 0, loaded := true
    active := { window := some 0, text := Memory.writeN [] 0 b, lines := [0] }
    th := { k.th with pc := 0, slotRes := 0, arrived := true, drain := .none, late := [] }
    ctx := { k.ctx with banks := List.range 128 } }

/-- The package runs: held no more, start sequence done (01 R32). -/
def Pkg.running (p : Pkg) : Pkg := { p with held := false, stage := 8, mode := 1 }

/-- The machine with a program loaded from outside: the running package, a house launch on core 0 with one bundle of one syllable, or
Proem thread 0 with a word at its pc [log 8]. -/
def State.loadWord (s : State) (nbits w : Nat) : State :=
  match fetchSlot nbits w with
  | none =>
    let pc := (s.thread 0).pc.toNat
    { s with
      pkg := s.pkg.running, agenda := [], agent := 600
      hif := { s.hif with
        sram := Memory.writeN s.hif.sram pc (natLe 4 w)
        threads := SMap.upd s.hif.threads 0 {} fun p => { p with halted := false } } }
  | some t =>
    { (s.modCore 0 fun k => k.withBundle (oneSlotBundle t w)) with
      pkg := s.pkg.running, agenda := [], agent := 0
      circ := { s.circ with launches := SMap.put s.circ.launches 0 (some soloLaunch), owner := SMap.put s.circ.owner 0 (some 0) } }

end Sys2Proof.Machine
end

