-- ==== Sys2Proof/Machine/Step.lean ====
section
/-! DEFINITION. Machine/Step.lean: the step of the machine. -/
namespace Sys2Proof.Machine

/-- One step: `machineStep` with the meanings of exec. -/
def step (s : State) : Host.Outcome State Fault Refusal := machineStep exec s

/-- The instruction of a word of the opcode table stands where the next step fetches [log 8]. -/
def State.withFetchWord (s : State) (nbits w : Nat) : State := s.loadWord nbits w

end Sys2Proof.Machine
end

