-- ==== Sys2Proof/Safety.lean ====
section
/-! DEFINITION. Safety.lean: what counts as a safe run: it never stops, and the start, throttling and power-cap state stay inside the
ranges that chapter 01 gives them. -/
namespace Sys2Proof

open Sys2Proof.Machine

/-- The ranges of the package's start and power state: BOOTST.STAGE, MODE and EARLY (01 R32 R35), FAILS of the replay-protected block
(01 R29), the package and thermal throttle levels (01 R18 R21), PCAP (01 R28 R37); and normal mode is entered only with READY (01 R32). -/
structure BootOk (p : Pkg) (f : Flash) : Prop where
  stage : p.stage ≤ 8
  mode : p.mode ≤ 2
  ready : p.mode = 1 → p.stage = 8
  early : p.early ≤ 3
  fails : f.fails ≤ 3
  power : p.powerLevel ≤ 3
  thermal : ∀ k, SMap.get p.thermal k 0 ≤ 3
  capLow : 600 ≤ p.pcap
  capHigh : p.pcap ≤ 2600

/-- The state keeps the ranges of chapter 01. -/
abbrev Machine.State.bootOk (s : State) : Prop := BootOk s.pkg s.flash

/-- A step goes on. -/
def Machine.State.runs (s : State) : Prop := ∃ t, step s = .next t

end Sys2Proof
end

