-- ==== Sys2Proof/Certificates/Slice0/Obligations.lean ====
section
/-! DEFINITION. Certificates/Slice0/Obligations.lean: the statements for the provers, and the terms they are written in. -/
namespace Sys2Proof.Stated

open Sys2Proof.Machine

/-- The syllable's fields fit and its encoding raises no ILLOP (12 R341 to R362). -/
abbrev Legal (y : Syll) : Prop := (y.fits && y.legal) = true

/-- IMM of an SA syllable: 32 bits, or 48 with XI above them, sign-extended (12 R345). -/
def imm (f : SA) (xi : BitVec 16) : Word :=
  if f.x = 1 then (xi ++ BitVec.ofNat 32 f.imm).signExtend 64 else (BitVec.ofNat 32 f.imm).signExtend 64

/-- The same, zero-extended (12 R345, logical operations with CW 1). -/
def immZ (f : SA) (xi : BitVec 16) : Word :=
  if f.x = 1 then (xi ++ BitVec.ofNat 32 f.imm).setWidth 64 else (BitVec.ofNat 32 f.imm).setWidth 64

/-- The second operand "sb/imm" (12 R347). -/
def second (f : SA) (s : State) : Word := if f.i = 1 then imm f s.th.xi else s.rS f.sb

/-- The second operand of a logical operation: CW 1 zero-extends the immediate (12 R345). -/
def secondL (f : SA) (s : State) : Word :=
  if f.i = 1 then (if f.cw = 1 then immZ f s.th.xi else imm f s.th.xi) else s.rS f.sb

/-- The width of CW codes: 64, 32, 16 and 8 bits (12 R348, 13 R369). -/
def widthOf (cw : Nat) : Nat := match cw with | 0 => 64 | 1 => 64 | 2 => 32 | 3 => 32 | 4 => 16 | 5 => 16 | _ => 8

/-- A w-bit result extended: even codes by its sign, odd codes with zeros (13 R369). -/
def extend (cw : Nat) (x : BitVec (widthOf cw)) : Word := if cw % 2 = 0 then x.signExtend 64 else x.setWidth 64

/-- The low bits of an operand at the width of CW. -/
def low (cw : Nat) (x : Word) : BitVec (widthOf cw) := x.setWidth (widthOf cw)

/-- The conditions 0 to 9 (12 R348). -/
abbrev holds (cc : Nat) (a b : Word) : Prop :=
  match cc with
  | 0 => a = b
  | 1 => a ≠ b
  | 2 => a.toInt < b.toInt
  | 3 => a.toInt ≥ b.toInt
  | 4 => a.toNat < b.toNat
  | 5 => a.toNat ≥ b.toNat
  | 6 => a.toInt ≤ b.toInt
  | 7 => a.toInt > b.toInt
  | 8 => a.toNat ≤ b.toNat
  | _ => a.toNat > b.toNat

/-- The bundle will transfer to `t` when it completes (13 R381). -/
def jumpTo (t : Word) (s : State) : State := s.modTh fun th => { th with latchX := some (.jump t.toNat) }

/-- The target of an SB form: the bundle's header plus the displacement (13 R377). -/
def relative (f : SB) (s : State) : Word := BitVec.ofNat 64 s.th.bpc + (BitVec.ofNat 32 f.disp).signExtend 64

/-- A precise trap of the syllable that runs, with cause, DETAIL, TVA and PATH (11 R307 to R310). -/
def traps (cause detail tva path : Nat) (s : State) : Res := .next (trapAt cause detail tva path s)

end Sys2Proof.Stated

open Sys2Proof Sys2Proof.Machine Sys2Proof.Stated

/-! Scalar slot (chapter 13). -/

/-- add, sub and mul work at the width of CW and extend the result (13 R369 R370); mulh gives bits [127:64] of the product. -/
def Sys2Proof.Stated.ScalarSumsAndProducts : Prop :=
  ∀ (f : SA) (s : State),
    (Legal (.sa 0x01 f) → exec (.add f) s = .next (s.landS 1 f.sd (extend f.cw (low f.cw (s.rS f.sa) + low f.cw (second f s))))) ∧
    (Legal (.sa 0x02 f) → exec (.sub f) s = .next (s.landS 1 f.sd (extend f.cw (low f.cw (s.rS f.sa) - low f.cw (second f s))))) ∧
    (Legal (.sa 0x03 f) → exec (.mul f) s = .next (s.landS 3 f.sd (extend f.cw (low f.cw (s.rS f.sa) * low f.cw (second f s))))) ∧
    (Legal (.sa 0x04 f) → exec (.mulhI f) s =
      .next (s.landS 3 f.sd (((s.rS f.sa).signExtend 128 * (second f s).signExtend 128).extractLsb' 64 64))) ∧
    (Legal (.sa 0x05 f) → exec (.mulhN f) s =
      .next (s.landS 3 f.sd (((s.rS f.sa).setWidth 128 * (second f s).setWidth 128).extractLsb' 64 64)))

/-- Division truncates towards zero at the width of CW; by zero the quotient is all ones and the remainder the dividend; the most
negative number by -1 gives itself and remainder 0 (13 R371). -/
def Sys2Proof.Stated.ScalarDivisionAndCorners : Prop :=
  ∀ (f : SA) (s : State),
    let a := low f.cw (s.rS f.sa)
    let b := low f.cw (second f s)
    (Legal (.sa 0x06 f) → exec (.divI f) s =
      .next (s.landS 36 f.sd (extend f.cw (if b = 0 then BitVec.allOnes _ else a.sdiv b)))) ∧
    (Legal (.sa 0x07 f) → exec (.divN f) s =
      .next (s.landS 36 f.sd (extend f.cw (if b = 0 then BitVec.allOnes _ else a / b)))) ∧
    (Legal (.sa 0x08 f) → exec (.remI f) s = .next (s.landS 36 f.sd (extend f.cw (a.srem b)))) ∧
    (Legal (.sa 0x09 f) → exec (.remN f) s = .next (s.landS 36 f.sd (extend f.cw (a % b))))

/-- Logical operations on 64 bits; shifts and rotation at the width of CW with the count modulo the width (13 R370 R372). -/
def Sys2Proof.Stated.ScalarLogicAndShifts : Prop :=
  ∀ (f : SA) (s : State),
    let a := low f.cw (s.rS f.sa)
    let n := (second f s).toNat % widthOf f.cw
    (Legal (.sa 0x0A f) → exec (.sAnd f) s = .next (s.landS 1 f.sd (s.rS f.sa &&& secondL f s))) ∧
    (Legal (.sa 0x0B f) → exec (.sOr f) s = .next (s.landS 1 f.sd (s.rS f.sa ||| secondL f s))) ∧
    (Legal (.sa 0x0C f) → exec (.sXor f) s = .next (s.landS 1 f.sd (s.rS f.sa ^^^ secondL f s))) ∧
    (Legal (.sa 0x0D f) → exec (.sAndn f) s = .next (s.landS 1 f.sd (s.rS f.sa &&& ~~~(secondL f s)))) ∧
    (Legal (.sa 0x0E f) → exec (.shl f) s = .next (s.landS 1 f.sd (extend f.cw (a <<< n)))) ∧
    (Legal (.sa 0x0F f) → exec (.shr f) s = .next (s.landS 1 f.sd (extend f.cw (a >>> n)))) ∧
    (Legal (.sa 0x10 f) → exec (.sar f) s = .next (s.landS 1 f.sd (extend f.cw (a.sshiftRight n)))) ∧
    (Legal (.sa 0x11 f) → exec (.rol f) s = .next (s.landS 1 f.sd (extend f.cw (a.rotateLeft n))))

/-- Minimum and maximum, bit counts, and bit fields (13 R370 R373 R374): position imm[5:0], length imm[13:8] with 0 for 64. -/
def Sys2Proof.Stated.ScalarMinMaxAndBitFields : Prop :=
  ∀ (f : SA) (s : State),
    let a := s.rS f.sa
    let b := second f s
    let p := f.imm % 64
    let n := if f.imm / 256 % 64 = 0 then 64 else f.imm / 256 % 64
    (Legal (.sa 0x12 f) → exec (.minI f) s = .next (s.landS 1 f.sd (if b.slt a then b else a))) ∧
    (Legal (.sa 0x13 f) → exec (.minN f) s = .next (s.landS 1 f.sd (if b.ult a then b else a))) ∧
    (Legal (.sa 0x14 f) → exec (.maxI f) s = .next (s.landS 1 f.sd (if a.slt b then b else a))) ∧
    (Legal (.sa 0x15 f) → exec (.maxN f) s = .next (s.landS 1 f.sd (if a.ult b then b else a))) ∧
    (Legal (.sa 0x16 f) → exec (.clz f) s = .next (s.landS 1 f.sd a.clz)) ∧
    (Legal (.sa 0x17 f) → exec (.ctz f) s = .next (s.landS 1 f.sd a.ctz)) ∧
    (Legal (.sa 0x18 f) → exec (.popc f) s =
      .next (s.landS 1 f.sd (BitVec.ofNat 64 ((List.range 64).filter fun i => a.getLsbD i).length))) ∧
    (Legal (.sa 0x19 f) → exec (.bfxI f) s = .next (s.landS 2 f.sd ((a.extractLsb' p n).signExtend 64))) ∧
    (Legal (.sa 0x1A f) → exec (.bfxN f) s = .next (s.landS 2 f.sd ((a.extractLsb' p n).setWidth 64))) ∧
    (Legal (.sa 0x1B f) → ∃ v : Word, exec (.bfi f) s = .next (s.landS 2 f.sd v) ∧
      ∀ k, k < 64 → v.getLsbD k = if p ≤ k ∧ k < p + n then a.getLsbD (k - p) else (s.rS f.sd).getLsbD k)

/-- lea, li, sel and cmp (13 R375 R376): sel leaves sd alone when S[sa] is zero. -/
def Obligations.ScalarAddressSelectCompare : Prop :=
  ∀ (f : SA) (s : State),
    (Legal (.sa 0x1C f) → exec (.lea f) s = .next (s.landS 1 f.sd (s.rS f.sa + (s.rS f.sb <<< f.cw) + imm f s.th.xi))) ∧
    (Legal (.sa 0x1D f) → exec (.li f) s = .next (s.landS 1 f.sd (imm f s.th.xi))) ∧
    (Legal (.sa 0x1E f) → s.rS f.sa ≠ 0 → exec (.sel f) s = .next (s.landS 1 f.sd (second f s))) ∧
    (Legal (.sa 0x1E f) → s.rS f.sa = 0 → exec (.sel f) s = .next s) ∧
    (Legal (.sa 0x1F f) → holds f.cw (s.rS f.sa) (second f s) → exec (.cmp f) s = .next (s.landS 1 f.sd 1)) ∧
    (Legal (.sa 0x1F f) → ¬ holds f.cw (s.rS f.sa) (second f s) → exec (.cmp f) s = .next (s.landS 1 f.sd 0))

/-- Transfers (13 R377 R378): relative ones go to the bundle's header plus the displacement; register ones to a target whose bits [1:0]
and [63:48] are zero, and trap ILLOP otherwise; calls write the fall-through header to s63. -/
def Sys2Proof.Stated.ScalarTransfers : Prop :=
  ∀ (b : SB) (f : SA) (s : State),
    let t := s.rS f.sa + imm f s.th.xi
    let back := BitVec.ofNat 64 s.th.fall
    (Legal (.sb 0x20 b) → holds b.cc (s.rS b.sa) (s.rS b.sb) → exec (.br b) s = .next (jumpTo (relative b s) s)) ∧
    (Legal (.sb 0x20 b) → ¬ holds b.cc (s.rS b.sa) (s.rS b.sb) → exec (.br b) s = .next s) ∧
    (Legal (.sb 0x21 b) → (b.cc = 0 ↔ s.rS b.sa = 0) → exec (.brz b) s = .next (jumpTo (relative b s) s)) ∧
    (Legal (.sb 0x21 b) → ¬ (b.cc = 0 ↔ s.rS b.sa = 0) → exec (.brz b) s = .next s) ∧
    (Legal (.sb 0x22 b) → exec (.jmp b) s = .next (jumpTo (relative b s) s)) ∧
    (Legal (.sb 0x24 b) → exec (.call b) s = .next ((jumpTo (relative b s) s).landS 1 63 back)) ∧
    (Legal (.sa 0x23 f) → t.toNat % 4 = 0 ∧ t.toNat < 2 ^ 48 → exec (.jmpr f) s = .next (jumpTo t s)) ∧
    (Legal (.sa 0x25 f) → t.toNat % 4 = 0 ∧ t.toNat < 2 ^ 48 → exec (.callr f) s = .next ((jumpTo t s).landS 1 63 back)) ∧
    (Legal (.sa 0x26 f) → (s.rS 63).toNat % 4 = 0 ∧ (s.rS 63).toNat < 2 ^ 48 → exec (.ret f) s = .next (jumpTo (s.rS 63) s)) ∧
    (Legal (.sa 0x23 f) → ¬ (t.toNat % 4 = 0 ∧ t.toNat < 2 ^ 48) → exec (.jmpr f) s = traps 0x0001 0x23 0 15 s) ∧
    (Legal (.sa 0x25 f) → ¬ (t.toNat % 4 = 0 ∧ t.toNat < 2 ^ 48) → exec (.callr f) s = traps 0x0001 0x25 0 15 s) ∧
    (Legal (.sa 0x26 f) → ¬ ((s.rS 63).toNat % 4 = 0 ∧ (s.rS 63).toNat < 2 ^ 48) → exec (.ret f) s = traps 0x0001 0x26 0 15 s)

namespace Sys2Proof.Stated

/-- The bundle will end with `x` (13 R381). -/
def endsWith (x : Xfer) (s : State) : State := s.modTh fun th => { th with latchX := some x }

/-- The launch on the core whose syllable runs stands in slot `n` of the launch table. -/
abbrev onSlot (n : Nat) (l : Launch) (s : State) : Prop := (s.core s.cur).launch = some n ∧ s.launchAt n = some l

/-- The exited record of lowest index (07 R187). -/
abbrev lowestExited (l : Launch) (i : Nat) : Prop :=
  i < l.record.strands ∧ (l.strand i).st = .exited ∧ ∀ j, j < i → (l.strand j).st ≠ .exited

/-- No record is exited. -/
abbrev noneExited (l : Launch) : Prop := ∀ j, j < l.record.strands → (l.strand j).st ≠ .exited

/-- S[rd] is pending in `t` under a request that already carries the value `v` and waits for LOAD_FILL (12 R335, 16 R453). -/
abbrev fillsLater (rd v : Nat) (s t : State) : Prop :=
  ∃ r, t.mem.net = s.mem.net ++ [r] ∧ r.id = s.mem.nextReq ∧ r.core = s.cur ∧ r.ready = true ∧ leNat r.data = v % 2 ^ 64 ∧
    r.pend = some r.id ∧ t.th.pend = s.th.pend ++ [{ id := r.id, regs := if rd = 0 then [] else [.s rd], bundle := s.th.bundles }]

/-- The strand holds no accumulator bank (07 R202). -/
abbrev holdsNoBank (s : State) : Prop := s.holdsAcc = false

end Sys2Proof.Stated

/-- loop decrements a counter that is not s0, turns ROT from the next bundle and branches while the counter is not zero (13 R379);
brz, loop and jmp take any legal displacement. -/
def Sys2Proof.Stated.LoopCountsAndRotates : Prop :=
  ∀ (f : SB) (s : State), Legal (.sb 0x27 f) →
    let size : Nat := s.th.rot.toNat / 2 ^ 16 % 2 ^ 11
    let base : Nat := s.th.rot.toNat % 2 ^ 10
    let c := s.rS f.sa - 1
    ∃ t, exec (.loop f) s = .next t ∧
      t.th.inflight = s.th.inflight ++ [{ due := s.th.cycle, bundle := s.th.bundles, dst := some (.s f.sa), val := c.setWidth 2048,
                                          mask := (BitVec.allOnes 64).setWidth 2048 }] ∧
      t.th.rot = s.th.rot ∧
      (size = 0 → t.th.latchRot = s.th.latchRot) ∧
      (0 < size → t.th.latchRot = some (rotWord size (((base : Int) - f.cc) % (size : Int)).toNat)) ∧
      (c = 0 → t.th.latchX = s.th.latchX) ∧
      (c ≠ 0 → t.th.latchX = some (.jump (relative f s).toNat))

/-- rotset n gives ROT.SIZE n and ROT.BASE 0 from the next bundle for a multiple of 8 up to 1,024, and ILLOP otherwise; no register
and no result in flight changes (13 R380). -/
def Obligations.RotsetSetsTheRotatingRegion : Prop :=
  ∀ (f : SA) (s : State),
    (Legal (.sa 0x28 f) ↔ (Syll.sa 0x28 f).fits = true ∧ f.i = 1 ∧ f.x = 0 ∧ f.cw = 0 ∧ f.sd = 0 ∧ f.sa = 0 ∧ f.sb = 0 ∧
      f.imm ≤ 1024 ∧ f.imm % 8 = 0) ∧
    (¬ Legal (.sa 0x28 f) → exec (.rotset f) s = traps 0x0001 0x28 0 15 s) ∧
    (Legal (.sa 0x28 f) → ∃ t, exec (.rotset f) s = .next t ∧
      t = s.modTh (fun th => { th with latchRot := t.th.latchRot }) ∧
      (∀ (k : CoreSt) cycle settle, k.th.latchRot = t.th.latchRot → k.th.latchX = none → k.th.latchCsr = none →
        rotSize (CoreSt.finish cycle settle k).th.rot = f.imm ∧ rotBase (CoreSt.finish cycle settle k).th.rot = 0))

/-- spawn starts a strand in the exited record of lowest index, ready behind those that are, and sd is filled later with its index;
with no exited record nothing starts and sd is filled with all ones; a bad target traps and spawns nothing (13 R385, 07 R187). It waits
behind an evsig of the core that is on its way (18 R501). -/
def Sys2Proof.Stated.SpawnStartsAStrand : Prop :=
  ∀ (f : SA) (s : State) (n : Nat) (l : Launch), Legal (.sa 0x30 f) → onSlot n l s →
    (¬ ((s.rS f.sa).toNat % 4 = 0 ∧ (s.rS f.sa).toNat < 2 ^ 48) → exec (.spawn f) s = traps 0x0001 0x30 0 15 s) ∧
    ((s.rS f.sa).toNat % 4 = 0 ∧ (s.rS f.sa).toNat < 2 ^ 48 → s.signalOpen s.cur = true → exec (.spawn f) s = stall s) ∧
    ((s.rS f.sa).toNat % 4 = 0 ∧ (s.rS f.sa).toNat < 2 ^ 48 → s.signalOpen s.cur = false → noneExited l →
      ∃ t, exec (.spawn f) s = .next t ∧ fillsLater f.sd (2 ^ 64 - 1) s t ∧ t.launchAt n = some l) ∧
    ((s.rS f.sa).toNat % 4 = 0 ∧ (s.rS f.sa).toNat < 2 ^ 48 → s.signalOpen s.cur = false → ∀ i, lowestExited l i →
      ∃ t l', exec (.spawn f) s = .next t ∧ fillsLater f.sd i s t ∧ t.launchAt n = some l' ∧ l'.ready = l.ready ++ [i] ∧
        (l'.strand i).st = .ready ∧ (l'.strand i).pc = (s.rS f.sa).toNat ∧ (l'.strand i).slotRes = 0 ∧ (l'.strand i).th = false ∧
        (l'.strand i).c1 = s.rS f.sb ∧ (l'.strand i).c2 = BitVec.ofNat 64 s.strandNo ∧ (l'.strand i).save = none ∧
        ∀ j, j ≠ i → l'.strand j = l.strand j)

/-- suspend, yield, exit, seqnext and rett end the bundle: each under its conditions alone (13 R382 R383 R384 R387). -/
def Sys2Proof.Stated.StrandsLeaveTheCore : Prop :=
  ∀ (f : SA) (s : State),
    (Legal (.sa 0x31 f) → s.th.th = false → holdsNoBank s ∨ s.launch.record.gang = true → ∀ e v, e < 256 → v < 2 ^ 32 →
      (s.rS f.sa).toNat = 1 + 256 * e → (s.rS f.sb).toNat = v → exec (.suspend f) s = .next (endsWith (.suspend 1 e v) s)) ∧
    (Legal (.sa 0x31 f) → s.th.th = false → holdsNoBank s ∨ s.launch.record.gang = true →
      (s.rS f.sa).toNat = 2 → (s.rS f.sb).toNat < 2 ^ 48 → exec (.suspend f) s = .next (endsWith (.suspend 2 0 (s.rS f.sb).toNat) s)) ∧
    (Legal (.sa 0x32 f) → s.th.th = false → holdsNoBank s ∨ s.launch.record.gang = true →
      (s.rS f.sa).toNat % 16 = 0 → (s.rS f.sa).toNat < 2 ^ 48 → exec (.yield f) s = .next (endsWith (.yieldTo (s.rS f.sa).toNat) s)) ∧
    (Legal (.sa 0x33 f) → s.th.th = false → holdsNoBank s → exec (.exitStrand f) s = .next (endsWith .exitS s)) ∧
    (Legal (.sa 0x34 f) → s.th.th = false → holdsNoBank s ∨ s.launch.record.gang = true → s.launch.record.bkt = true →
      exec (.seqnext f) s = .next (endsWith .seqnext s)) ∧
    (Legal (.sa 0x36 f) → s.th.th = true → exec (.rett f) s = .next (endsWith .rett s))

/-- Where those forms trap: ILLOP in a handler, ACCHELD with accumulator banks held, ILLOP on a value no wake condition has, a park
address that is not 16-byte aligned or has bits above 47, no bucket table, and rett outside a handler (13 R382 to R384 R387). -/
def Sys2Proof.Stated.StrandsThatMayNotLeaveTrap : Prop :=
  ∀ (f : SA) (s : State),
    (s.th.th = true → (Legal (.sa 0x31 f) → exec (.suspend f) s = traps 0x0001 0x31 0 15 s) ∧
      (Legal (.sa 0x32 f) → exec (.yield f) s = traps 0x0001 0x32 0 15 s) ∧
      (Legal (.sa 0x33 f) → exec (.exitStrand f) s = traps 0x0001 0x33 0 15 s) ∧
      (Legal (.sa 0x34 f) → exec (.seqnext f) s = traps 0x0001 0x34 0 15 s)) ∧
    (s.th.th = false → s.holdsAcc = true → s.launch.record.gang = false →
      (Legal (.sa 0x31 f) → exec (.suspend f) s = traps 0x0401 0 0 15 s) ∧
      (Legal (.sa 0x32 f) → exec (.yield f) s = traps 0x0401 0 0 15 s) ∧
      (Legal (.sa 0x34 f) → exec (.seqnext f) s = traps 0x0401 0 0 15 s)) ∧
    (s.th.th = false → s.holdsAcc = true → Legal (.sa 0x33 f) → exec (.exitStrand f) s = traps 0x0401 0 0 15 s) ∧
    (s.th.th = false → holdsNoBank s →
      (Legal (.sa 0x31 f) → ¬ ((s.rS f.sa).toNat % 256 = 1 ∧ (s.rS f.sa).toNat < 2 ^ 16 ∧ (s.rS f.sb).toNat < 2 ^ 32) →
        ¬ ((s.rS f.sa).toNat = 2 ∧ (s.rS f.sb).toNat < 2 ^ 48) → exec (.suspend f) s = traps 0x0001 0x31 0 15 s) ∧
      (Legal (.sa 0x32 f) → ¬ ((s.rS f.sa).toNat % 16 = 0 ∧ (s.rS f.sa).toNat < 2 ^ 48) →
        exec (.yield f) s = traps 0x0001 0x32 0 15 s) ∧
      (Legal (.sa 0x34 f) → s.launch.record.bkt = false → exec (.seqnext f) s = traps 0x0001 0x34 0 15 s) ∧
      (Legal (.sa 0x36 f) → exec (.rett f) s = traps 0x0001 0x36 0 15 s))

/-- trap n raises TRAPI with DETAIL n and TVA 0, and TRS naming the bundle's header and the trap's own slot (13 R386): with a tenant
handler the state is the handler's entry; without one the launch ends with class 0. -/
def Obligations.TrapRaisesTrapi : Prop :=
  ∀ (f : SA) (s : State), Legal (.sa 0x35 f) → s.th.slot = 0 →
    (s.launch.record.trapv ≠ 0 → s.th.th = false → ∃ t, exec (.trap f) s = .next t ∧ t.th.th = true ∧
      t.th.pc = s.launch.record.trapv ∧ t.th.slotRes = 0 ∧ t.th.tva = 0 ∧ t.th.trs = BitVec.ofNat 64 (s.th.bpc % 2 ^ 48) ∧
      t.th.swd = BitVec.ofNat 64 (0x0008 * 2 ^ 32 + 15 * 2 ^ 16 + f.imm)) ∧
    (∀ n l, onSlot n l s → l.ended = none → (l.record.trapv = 0 ∨ s.th.th = true) → ∃ t l', exec (.trap f) s = .next t ∧
      t.launchAt n = some l' ∧ l'.st = .retiring ∧ l'.ended = some (0, 0x0008, s.time.toNat, some s.strandNo))

/-- stamp reads TIME at issue, as a csrr of TIME in the same cycle does (13 R389). -/
def Obligations.StampReadsTime : Prop :=
  ∀ (f : SA) (g : SC) (s : State), Legal (.sa 0x37 f) → Legal (.sc 0x38 g) → g.csr = 0x041 → g.sd = f.sd →
    exec (.stamp f) s = .next (s.landS 1 f.sd s.time) ∧ exec (.csrr g) s = exec (.stamp f) s

/-- The control-register forms: sd gets the old value at latency 1, the new one is written when the bundle completes; MAB is cleared
where v has bits, and set bits of MAB by csrs change nothing (13 R388). -/
def Sys2Proof.Stated.ControlRegisterForms : Prop :=
  ∀ (f : SC) (s : State),
    let old := s.csrRead f.csr
    let v := s.rS f.sa + (BitVec.ofNat 32 f.imm).signExtend 64
    let mab := f.csr = 0x060 ∨ f.csr = 0x061
    let writes (w : Word) : Res := .next ((s.modTh fun th => { th with latchCsr := some (f.csr, w) }).landS 1 f.sd old)
    (Legal (.sc 0x38 f) → exec (.csrr f) s = .next (s.landS 1 f.sd old)) ∧
    (Legal (.sc 0x39 f) → exec (.csrw f) s = writes v) ∧
    (Legal (.sc 0x3A f) → ¬ mab → exec (.csrs f) s = writes (old ||| v)) ∧
    (Legal (.sc 0x3A f) → mab → exec (.csrs f) s = writes 0) ∧
    (Legal (.sc 0x3B f) → ¬ mab → exec (.csrc f) s = writes (old &&& ~~~v)) ∧
    (Legal (.sc 0x3B f) → mab → exec (.csrc f) s = writes v)

/-- What a write leaves in each control register (12 R342 R346, 10 R279 R282 R283, 11 R311, 13 R390 R393): limits keep the old value,
reserved bits stay zero, MAB is cleared by ones, read-only registers ignore the write. -/
def Sys2Proof.Stated.ControlRegisterFieldRules : Prop :=
  ∀ (k : CoreSt) (v : Word),
    ((k.csrWrite 0x001 v).th.fcr = if v.toNat % 8 ≤ 4 then BitVec.ofNat 64 (v.toNat % 8) else k.th.fcr) ∧
    (k.csrWrite 0x002 v).th.ffl = v &&& 0x7F ∧
    (k.csrWrite 0x003 v).th.dsc = v ∧
    ((k.csrWrite 0x004 v).th.dsk.toNat % 2 ^ 16 = v.toNat % 2 ^ 16) ∧
    ((k.csrWrite 0x004 v).th.dsk.toNat / 2 ^ 16 =
      if v.toNat / 2 ^ 16 % 256 ≤ 0x2F then v.toNat / 2 ^ 16 % 256 else k.th.dsk.toNat / 2 ^ 16 % 256) ∧
    (v.toNat / 2 ^ 48 % 16 ≤ 9 ∧ v.toNat % 4 = 0 → (k.csrWrite 0x012 v).th.trs = BitVec.ofNat 64 (v.toNat % 2 ^ 52)) ∧
    (¬ (v.toNat / 2 ^ 48 % 16 ≤ 9 ∧ v.toNat % 4 = 0) → (k.csrWrite 0x012 v).th.trs = k.th.trs) ∧
    (k.csrWrite 0x030 v).th.occ = v &&& 0xFFFF ∧ (k.csrWrite 0x030 v).seqWrites = k.seqWrites ++ [(false, v &&& 0xFFFF)] ∧
    (k.csrWrite 0x031 v).th.dlen = v &&& 0xFF ∧ (k.csrWrite 0x031 v).seqWrites = k.seqWrites ++ [(true, v &&& 0xFF)] ∧
    (∀ i, i < 64 → (k.csrWrite 0x060 v).th.mab.getLsbD i = (k.th.mab.getLsbD i && !v.getLsbD i)) ∧
    (∀ i, i < 64 → (k.csrWrite 0x061 v).th.mab.getLsbD (64 + i) = (k.th.mab.getLsbD (64 + i) && !v.getLsbD i)) ∧
    (∀ n, n = 0x010 ∨ n = 0x011 ∨ n = 0x040 ∨ n = 0x041 ∨ n = 0x050 ∨ n = 0x051 ∨ n = 0x052 ∨ n = 0x053 → k.csrWrite n v = k)

/-- CORE reads the core's number, its die and its index within the die, and follows the strand to another core (13 R391). -/
def Obligations.CoreRegisterNamesTheCore : Prop :=
  ∀ (f : SC) (s : State) (c : Nat), Legal (.sc 0x38 f) → f.csr = 0x050 → s.cur = c → c < 600 →
    ∃ v : Word, exec (.csrr f) s = .next (s.landS 1 f.sd v) ∧ v.toNat % 2 ^ 10 = c ∧ v.toNat / 2 ^ 10 % 4 = c / 150 ∧
      v.toNat / 2 ^ 12 % 16 = 0 ∧ v.toNat / 2 ^ 16 % 256 = c % 150 ∧ v.toNat / 2 ^ 24 = 0

namespace Sys2Proof.Stated

/-- Core `s.cur` may issue: a strand runs, its engines are on, the package is ready, nothing freezes, drains, is pending or late, and no
OCC or DLEN write is on its way. -/
abbrev mayIssue (s : State) : Prop :=
  (s.core s.cur).strand.isSome = true ∧ s.engineOn s.cur = true ∧ s.ready = true ∧ (s.core s.cur).freeze = 0 ∧ s.th.drain = .none ∧
    (s.core s.cur).lateReady = false ∧ (s.core s.cur).seqWrites = [] ∧ s.th.pend = []

/-- A bundle of one syllable stands at the core's PC: its header and every line it needs are in place, slot `t` alone is present and
holds the bits `w`, and the header after it is at `fall` (12 R330 R331, 07 R198). -/
abbrev oneSyllableAt (h : Header) (t : Slot) (w fall : Nat) (s : State) : Prop :=
  let k := s.core s.cur
  let off := k.th.pc % 0x10000
  k.active.window = some (k.th.pc / 0x10000) ∧ k.active.gap off h.bytes = none ∧ k.active.gap off 4 = none ∧
    readHeader (k.active.code off 4) = h ∧ h.kind = 0 ∧ h.bad = false ∧ off + h.bytes ≤ 0x10000 ∧ h.layout = [(t, 4)] ∧
    k.active.code (off + 4) t.size = w ∧ k.nextHeader padFuel (k.th.pc + h.bytes) = some fall ∧ k.th.slotRes ≤ t.num

/-- The state in which that syllable runs. -/
def issuing (h : Header) (t : Slot) (fall : Nat) (s : State) : State :=
  ((s.modTh fun th => th.begin h s.mem.nextReq fall).markFirst).modTh fun th => { th with slot := t.num }

end Sys2Proof.Stated

/-! The machine around the meanings (chapters 07, 11, 12, 04). -/

/-- A STEP RUNS THE DECODED INSTRUCTION: with a one-syllable bundle at the PC that decodes to `i`, whose slot is not occupied, the step is exec
of `i` in the state the bundle starts in; then a stall leaves the machine as it was before the bundle, a trap splits the bundle, and
otherwise the syllable occupies its slot and the bundle completes (12 R330 R334 R336 R338, 11 R313, 13 R381). While the slot is occupied
the bundle stalls. -/
def Obligations.StepRunsTheDecodedInstruction : Prop :=
  ∀ (s : State) (h : Header) (t : Slot) (w fall : Nat) (i : Instr),
    let c := { s.tick with cur := s.agent }
    s.agenda = [] → s.agent < 600 → mayIssue c → oneSyllableAt h t w fall c → decodeSyll t w = .ok i →
    (SMap.get c.th.busy t.num 0 = 0 → step s =
      match exec i (issuing h t fall c) with
      | .next u =>
        if u.th.stalled then idle exec (stalledAt c u)
        else if u.th.trapped then .next (splitAt u)
        else .next ((u.modTh fun th => th.occupy t.num (Machine.Instr.occupancy i)).modCore u.cur (CoreSt.finish true h.settle))
      | o => o) ∧
    (SMap.get c.th.busy t.num 0 ≠ 0 → step s = idle exec (c.stallMove false))

/-- An event that stands first in the agenda happens in the next step, with its arguments, after TIME has moved on; then the rest of the
agenda follows. -/
def Obligations.StepRunsTheNextEvent : Prop :=
  ∀ (s : State) (i : Instr) (a : EventArgs) (r : List Turn), s.agenda = .event i a :: r → Instr.happens i = true →
    step s = exec i { s.tick with agenda := r, ev := a }

/-- A Proem thread that runs fetches at its pc: a word that decodes to a Fjaroon extension runs it, any other 32-bit word runs as the base
set's, a compressed one as the instruction it stands for (04 R108 R109; the base set is the RISC-V standard's, as log 17 says). -/
def Obligations.StepRunsTheProemInstruction : Prop :=
  ∀ (s : State) (lo hi : List Byte), s.agenda = [] → 600 ≤ s.agent → s.agent < 728 →
    s.tick.proemRuns = true → (s.thread s.proemNo).halted = false →
    s.proemRead s.proemNo (s.thread s.proemNo).pc.toNat 2 = some lo →
    s.proemRead s.proemNo ((s.thread s.proemNo).pc.toNat + 2) 2 = some hi →
    (∀ i, leNat lo % 4 = 3 → decodeRV (leNat (lo ++ hi)) = some i → step s = exec i s.tick) ∧
    (leNat lo % 4 = 3 → decodeRV (leNat (lo ++ hi)) = none →
      step s = .next (rvExec s.proemNo (leNat (lo ++ hi)) 4 (leNat (lo ++ hi)) s.tick)) ∧
    (∀ w, leNat lo % 4 ≠ 3 → rvExpand (leNat lo) = some w → step s = .next (rvExec s.proemNo w 2 (leNat lo) s.tick))

/-- A syllable occupies its slot for its own cycles and no other slot: the group size of a vector form, a
vzip among them; the larger span of vcvt, vquant and vdequant, and twice the group size for vpack and vunpack; the registers of ldvg and stvg;
one cycle for a scalar form (12 R338, 14 R398, 16 R453). That stalled cycles count is the model's reading (log 105). -/
def Sys2Proof.Stated.SlotsAreOccupiedForTheGroup : Prop :=
  (∀ (k : CoreSt) (t n : Nat), k.th.busy = [] → 1 ≤ n →
    let k' := { k with th := k.th.occupy t n }
    (∀ m, SMap.get (Nat.iterate CoreSt.advance m k').th.busy t 0 = if n ≤ 1 then 0 else n - m) ∧
    ∀ m u, u ≠ t → SMap.get (Nat.iterate CoreSt.advance m k').th.busy u 0 = 0) ∧
  (∀ f : VOp, Machine.Instr.occupancy (.vadd f) = VOp.grp f ∧ Machine.Instr.occupancy (.vperm f) = VOp.grp f ∧
    Machine.Instr.occupancy (.vsum f) = VOp.grp f ∧
    Machine.Instr.occupancy (.vpack f) = 2 * VOp.grp f ∧ Machine.Instr.occupancy (.vunpack f) = 2 * VOp.grp f ∧
    Machine.Instr.occupancy (.vcvt f) = max (vSpans 0x17 f).1 (vSpans 0x17 f).2.1 ∧
    Machine.Instr.occupancy (.vquant f) = max (vSpans 0x1A f).1 (vSpans 0x1A f).2.1 ∧
    Machine.Instr.occupancy (.vdequant f) = max (vSpans 0x1B f).1 (vSpans 0x1B f).2.1) ∧
  (∀ f, Machine.Instr.occupancy (.ldvg f) = 2 ^ f.ty) ∧ (∀ f, Machine.Instr.occupancy (.stvg f) = 2 ^ f.ty) ∧ ∀ f : SA, Machine.Instr.occupancy (.add f) = 1

/-- A result of exposed latency n issued in cycle t lands at the end of issued cycle t + n - 1, not before (12 R335): with that result
alone in flight, register `rd` keeps its value for n - 1 cycles and holds the result after the n-th. s0 reads 0 and q0 all ones, and a
result for s0 is discarded (12 R341). -/
def Sys2Proof.Stated.ExposedResultsLandAtTheirLatency : Prop :=
  (∀ (k : CoreSt) (n rd : Nat) (v : Word), 1 ≤ n → 1 ≤ rd → k.th.inflight = [] →
    let k' := { k with th := k.th.land n (some (.s rd)) (v.setWidth 2048) (lowMask 64) 0 }
    (∀ m, m < n → (Nat.iterate CoreSt.advance m k').th.rS rd = k.th.rS rd) ∧
    (∀ m, n ≤ m → (Nat.iterate CoreSt.advance m k').th.rS rd = v)) ∧
  (∀ (s : State), s.rS 0 = 0 ∧ s.th.rQ 0 = BitVec.allOnes 256 ∧ ∀ n v, s.landS n 0 v = s)

/-- In a drain one cycle passes at a time and lands what is due; outside one the event finds nothing to do (12 R335 R336). -/
def Sys2Proof.Stated.DrainLandsExposedResults : Prop :=
  ∀ (s : State),
    ((s.core s.ev.a).draining = true → (s.core s.ev.a).freeze = 0 → ∃ t, exec .exposedResultLanding s = .next t ∧
      (t.core s.ev.a).th.cycle = (s.core s.ev.a).th.cycle + 1 ∧
      (t.core s.ev.a).th.inflight = (s.core s.ev.a).th.inflight.filter (fun l => (s.core s.ev.a).th.cycle < l.due) ∧
      (t.core s.ev.a).th.pc = (s.core s.ev.a).th.pc ∧ t.mem = s.mem) ∧
    ((s.core s.ev.a).draining = false → exec .exposedResultLanding s = .next s)

/-- A bundle without syllables issues in one cycle and the next header follows (12 R330); a header that breaks R330 traps ILLBUNDLE with
its kind as DETAIL before any slot issues, TRS naming it with SLOTRES 0 (12 R332 R333, 11 R309). -/
def Obligations.EmptyAndIllegalBundles : Prop :=
  ∀ (s : State),
    (s.th.latchX = none → s.th.latchCsr = none → s.th.latchRot = none → s.th.inflight = [] → ∃ t, exec .emptyBundle s = .next t ∧
      t.th.pc = s.th.fall ∧ t.th.slotRes = 0 ∧ t.th.cycle = s.th.cycle + 1 ∧ t.th.s = s.th.s ∧ t.th.v = s.th.v ∧ t.mem = s.mem) ∧
    (s.launch.record.trapv ≠ 0 → s.th.th = false → ∃ t, exec .illbundle s = .next t ∧ t.th.pc = s.launch.record.trapv ∧ t.th.th = true ∧
      t.th.swd = BitVec.ofNat 64 (0x0002 * 2 ^ 32 + 15 * 2 ^ 16 + s.ev.a % 2 ^ 16) ∧ t.th.tva = 0 ∧
      t.th.trs = BitVec.ofNat 64 (s.th.pc % 2 ^ 48) ∧ t.th.s = s.th.s ∧ t.mem = s.mem)

/-- TAKING A TRAP (11 R309 to R312 R317 R318): with a tenant handler, TH clear and a class of 0 to 4, SWD, TVA, TRS and the trap record
are set, TH is set and issue goes on at TRAPV; otherwise the launch is left to retire with this end, unless it has one already. -/
def Sys2Proof.Stated.TrapsEnterTheHandlerOrEndTheLaunch : Prop :=
  ∀ (x : TrapInfo) (pc slot : Nat) (s : State),
    let cls := x.cause / 256 % 8
    (s.launch.record.trapv ≠ 0 → s.th.th = false → cls ≤ 4 →
      let t := takeTrap x pc slot s
      t = s.modTh (fun _ => t.th) ∧ t.th.th = true ∧ t.th.pc = s.launch.record.trapv ∧ t.th.slotRes = 0 ∧
      t.th.tva = BitVec.ofNat 64 (x.tva % 2 ^ 48) ∧ t.th.trs = BitVec.ofNat 64 (slot % 16 * 2 ^ 48 + pc % 2 ^ 48) ∧
      t.th.swd.toNat / 2 ^ 32 = x.cause % 2 ^ 16 ∧ t.th.swd.toNat / 2 ^ 21 % 8 = cls ∧ t.th.swd.toNat % 2 ^ 16 = x.detail % 2 ^ 16 ∧
      t.th.swd.toNat / 2 ^ 16 % 16 = x.path % 16 ∧ t.th.recTime = s.time.toNat ∧
      t.th.s = s.th.s ∧ t.th.v = s.th.v ∧ t.th.q = s.th.q ∧ t.th.z = s.th.z ∧ t.th.fcr = s.th.fcr ∧ t.th.rot = s.th.rot) ∧
    (∀ n l, onSlot n l s → (l.record.trapv = 0 ∨ s.th.th = true ∨ 4 < cls) →
      ∃ l', (takeTrap x pc slot s).launchAt n = some l' ∧ l'.st = .retiring ∧
        l'.ended = (match l.ended with | some e => some e | none => some (cls, x.cause, s.time.toNat, some s.strandNo)) ∧
        (takeTrap x pc slot s).mem = s.mem)

/-- RETURNING (11 R315 R317, 13 R381 R387): TH clears and issue resumes at TRS; the latch kept for the split bundle comes back, or, after
a write to TRS in the handler, its ROT change takes effect at once and its transfer is discarded. -/
def Sys2Proof.Stated.ReturnFromATrapResumesAtTrs : Prop :=
  ∀ (k : CoreSt),
    let t := k.returnTrap.th
    t.th = false ∧ t.pc = k.th.trs.toNat % 2 ^ 48 ∧ t.slotRes = k.th.trs.toNat / 2 ^ 48 % 16 ∧ t.heldX = none ∧ t.heldRot = none ∧
    t.heldCsr = none ∧ t.s = k.th.s ∧ t.v = k.th.v ∧
    (k.th.trsWritten = false → t.latchX = k.th.heldX ∧ t.latchRot = k.th.heldRot ∧ t.latchCsr = k.th.heldCsr ∧ t.rot = k.th.rot) ∧
    (k.th.trsWritten = true → t.latchX = k.th.latchX ∧ ∀ r, k.th.heldRot = some r → t.rot = r)

/-- When a bundle completes, its transfer decides the next PC; without one the header after it follows; a control-register write and a
rotation of the bundle take effect then (12 R337, 13 R381). -/
def Obligations.BundleEndAppliesTheLatch : Prop :=
  ∀ (k : CoreSt),
    (k.th.latchX = none → (k.finish true false).th.pc = k.th.fall) ∧
    (∀ pc, k.th.latchX = some (.jump pc) → (k.finish true false).th.pc = pc) ∧
    (∀ r, k.th.latchX = none → k.th.latchRot = some r → (k.finish true false).th.rot = r) ∧
    (∀ v, k.th.latchX = none → k.th.latchCsr = some (0x003, v) → (k.finish true false).th.dsc = v) ∧
    (k.th.latchX = none → k.th.latchCsr = none → k.th.posTaken = 0 → (k.finish true false).th.dsk = k.th.dsk) ∧
    (k.th.latchX = none → (k.finish true false).th.latchRot = none ∧ (k.finish true false).th.latchCsr = none ∧
      (k.finish true false).th.latchX = none)

/-- A syllable whose encoding is not legal traps ILLOP with its opcode field as DETAIL and no effect (12 R341 to R362, 11 R307): scalar,
copy, synchronisation, cipher and scale syllables. -/
def Obligations.IllegalEncodingsTrapIllop : Prop :=
  ∀ (i : Instr) (y : Syll) (s : State), syllOf i = some y → ¬ Legal y →
    (match y with
      | .sa op _ | .sb op _ | .sc op _ | .c op _ | .k op _ | .z op _ | .yf op _ | .yp op _ | .yh op _ | .yb op _ | .yg op _ | .ya op _
      | .ye op _ | .yr op _ => exec i s = traps 0x0001 op 0 15 s
      | .v op _ => exec i s = traps 0x0001 op 0 15 s
      | .m op _ => exec i s = traps 0x0001 op 0 15 s
      | _ => True)

namespace Sys2Proof.Stated

/-- A vector syllable's encoding is legal, in a slot that may hold it, and every vector name it uses maps (12 R342 R350 R365). -/
abbrev VLegal (op : Nat) (f : VOp) (s : State) : Prop :=
  ((Syll.v op f).fits && (Syll.v op f).legal && !((vRow (vBase op)).onlyVA && s.th.slot == 2) && vAllNames s.th.rot op f) = true

/-- An immediate form's immediate is no NaN for a format without one (12 R345). -/
abbrev ImmLegal (f : VOp) (s : State) : Prop := vImmBad f.fmt s.th.xi = false

/-- The elements of the group that name `x` begins. -/
def group (f : VOp) (x : Nat) (s : State) : List Nat := s.lanes f.fmt x (2 ^ f.g)

/-- The immediate in every lane, sign-extended or in its format's value (12 R345). -/
def immLanes (f : VOp) (zero : Bool) (s : State) : List Nat := List.replicate (group f f.va s).length (vImm f.fmt zero s.th.xi)

/-- The rounding a syllable latches: its rm field or FCR, with the stochastic position it takes (10 R279 R281). -/
def rnd (f : VOp) (s : State) : Rnd := s.rounding f.rm s.th.posTaken

/-- The lanes the governing predicate makes active (12 R343). -/
def active (f : VOp) (s : State) : List Bool := laneActive (s.th.rQ f.qp) f.fmt (group f f.va s).length

/-- Lane results without rounding: active lanes of the group at vd, register j at latency n + j (12 R338 R343). -/
def lanes (f : VOp) (n : Nat) (out : List Elem) (s : State) : Res :=
  .next (s.landLanes n f.fmt f.vd (2 ^ f.g) out (active f s) false 0)

/-- Lane results of a form that rounds: with stochastic rounding it takes one position (10 R281). -/
def rounded (f : VOp) (n : Nat) (out : List Elem) (s : State) : Res :=
  .next (s.landLanes n f.fmt f.vd (2 ^ f.g) out (active f s) true (rnd f s).mode)

/-- A lane function on one, two and three sources; its first argument is the lane's index. -/
def map1 (h : Nat → Nat → Elem) (a : List Nat) : List Elem := a.zipIdx.map fun p => h p.2 p.1
/-- See map1. -/
def map2 (h : Nat → Nat → Nat → Elem) (a b : List Nat) : List Elem := (a.zip b).zipIdx.map fun p => h p.2 p.1.1 p.1.2
/-- See map1. -/
def map3 (h : Nat → Nat → Nat → Nat → Elem) (a b c : List Nat) : List Elem :=
  ((a.zip b).zip c).zipIdx.map fun p => h p.2 p.1.1.1 p.1.1.2 p.1.2

/-- Integer lanes: wrapped, or saturated with rm 1 (14 R401). -/
def intLane (f : VOp) (o : Int → Int → Int) (_ a b : Nat) : Elem :=
  if f.rm = 1 then satInt f.fmt (o (intVal f.fmt a) (intVal f.fmt b)) else (intCode f.fmt (o (intVal f.fmt a) (intVal f.fmt b)), 0)

/-- Float lanes: the exact result rounded once into the format, its flags joined (14 R401 R402). -/
def floatLane (f : VOp) (s : State) (i : Nat) (v : Machine.Num × BitVec 7) : Elem :=
  (((ffmt f.fmt).round (rnd f s) v.1 i).1, v.2 ||| ((ffmt f.fmt).round (rnd f s) v.1 i).2)

/-- The value of a lane's code. -/
def val (f : VOp) (a : Nat) : Machine.Num := (ffmt f.fmt).decode a

/-- An exact sum; with rounding down, an exact zero of opposite signs is -0 (10 R280). -/
def sum (f : VOp) (s : State) (x y : Machine.Num) : Machine.Num × BitVec 7 := Machine.Num.add ((rnd f s).mode == 2) x y

/-- An exact product plus a third value, the flags of both steps joined (14 R402). -/
def fused (f : VOp) (s : State) (a b c : Nat) (negP negC : Bool) : Machine.Num × BitVec 7 :=
  let p := Machine.Num.mul (val f a) (val f b)
  let q := sum f s (if negP then p.1.neg else p.1) (if negC then (val f c).neg else val f c)
  (q.1, p.2 ||| q.2)

end Sys2Proof.Stated

/-! Vector slots (chapter 14). -/

/-- vadd, vsub and vmul: integer lanes at latency 2, 2 and 3, wrapped or saturated; float lanes at latency 4, rounded once (14 R401). -/
def Sys2Proof.Stated.VectorSumsAndProducts : Prop :=
  ∀ (f : VOp) (s : State),
    let a := group f f.va s
    let b := group f f.vb s
    let m := immLanes f false s
    (fmtI f.fmt = true →
      (VLegal 0x01 f s → exec (.vadd f) s = lanes f 2 (map2 (intLane f (· + ·)) a b) s) ∧
      (VLegal 0x81 f s → ImmLegal f s → exec (.vaddImm f) s = lanes f 2 (map2 (intLane f (· + ·)) a m) s) ∧
      (VLegal 0x02 f s → exec (.vsub f) s = lanes f 2 (map2 (intLane f (· - ·)) a b) s) ∧
      (VLegal 0x82 f s → ImmLegal f s → exec (.vsubImm f) s = lanes f 2 (map2 (intLane f (· - ·)) a m) s) ∧
      (VLegal 0x03 f s → exec (.vmul f) s = lanes f 3 (map2 (intLane f (· * ·)) a b) s) ∧
      (VLegal 0x83 f s → ImmLegal f s → exec (.vmulImm f) s = lanes f 3 (map2 (intLane f (· * ·)) a m) s)) ∧
    (fmtF f.fmt = true →
      (VLegal 0x01 f s → exec (.vadd f) s = rounded f 4 (map2 (fun i x y => floatLane f s i (sum f s (val f x) (val f y))) a b) s) ∧
      (VLegal 0x81 f s → ImmLegal f s →
        exec (.vaddImm f) s = rounded f 4 (map2 (fun i x y => floatLane f s i (sum f s (val f x) (val f y))) a m) s) ∧
      (VLegal 0x02 f s → exec (.vsub f) s = rounded f 4 (map2 (fun i x y => floatLane f s i (sum f s (val f x) (val f y).neg)) a b) s) ∧
      (VLegal 0x82 f s → ImmLegal f s →
        exec (.vsubImm f) s = rounded f 4 (map2 (fun i x y => floatLane f s i (sum f s (val f x) (val f y).neg)) a m) s) ∧
      (VLegal 0x03 f s → exec (.vmul f) s = rounded f 4 (map2 (fun i x y => floatLane f s i (Machine.Num.mul (val f x) (val f y))) a b) s) ∧
      (VLegal 0x83 f s → ImmLegal f s →
        exec (.vmulImm f) s = rounded f 4 (map2 (fun i x y => floatLane f s i (Machine.Num.mul (val f x) (val f y))) a m) s))

/-- The fused forms (14 R402), minimum and maximum (14 R403, 10 R291), and the sign and class forms (14 R404 R405): a NaN becomes the
canonical one, with NV for a signalling NaN. -/
def Sys2Proof.Stated.VectorFusedAndSigns : Prop :=
  ∀ (f : VOp) (s : State),
    let a := group f f.va s
    let b := group f f.vb s
    let c := group f f.vc s
    let m := immLanes f false s
    let top := 2 ^ (ffmt f.fmt).signBit
    let sign (h : Nat → Nat) (x : Nat) : Elem :=
      if (val f x).isNan then ((ffmt f.fmt).nanCode, if (val f x).isSnan then flNV else 0) else (h x, 0)
    let pick (big : Bool) (x y : Nat) : Elem :=
      if fmtI f.fmt then
        (if (if big then intVal f.fmt x < intVal f.fmt y else intVal f.fmt y < intVal f.fmt x) then y else x, 0)
      else (((ffmt f.fmt).round rne (Machine.Num.pickMax big (val f x) (val f y)).1 0).1, (Machine.Num.pickMax big (val f x) (val f y)).2)
    (VLegal 0x04 f s → exec (.vfma f) s = rounded f 4 (map3 (fun i x y z => floatLane f s i (fused f s x y z false false)) a b c) s) ∧
    (VLegal 0x05 f s → exec (.vfms f) s = rounded f 4 (map3 (fun i x y z => floatLane f s i (fused f s x y z false true)) a b c) s) ∧
    (VLegal 0x06 f s → exec (.vfnma f) s = rounded f 4 (map3 (fun i x y z => floatLane f s i (fused f s x y z true false)) a b c) s) ∧
    (VLegal 0x07 f s → exec (.vmin f) s = lanes f 2 (map2 (fun _ => pick false) a b) s) ∧
    (VLegal 0x87 f s → ImmLegal f s → exec (.vminImm f) s = lanes f 2 (map2 (fun _ => pick false) a m) s) ∧
    (VLegal 0x08 f s → exec (.vmax f) s = lanes f 2 (map2 (fun _ => pick true) a b) s) ∧
    (VLegal 0x88 f s → ImmLegal f s → exec (.vmaxImm f) s = lanes f 2 (map2 (fun _ => pick true) a m) s) ∧
    (VLegal 0x09 f s → fmtI f.fmt = true → exec (.vabs f) s = lanes f 2 (map1 (fun _ x => (intCode f.fmt (intVal f.fmt x).natAbs, 0)) a) s) ∧
    (VLegal 0x09 f s → fmtI f.fmt = false → exec (.vabs f) s = lanes f 2 (map1 (fun _ => sign (fun x => x % top)) a) s) ∧
    (VLegal 0x0A f s → fmtI f.fmt = true → exec (.vneg f) s = lanes f 2 (map1 (fun _ x => (intCode f.fmt (-(intVal f.fmt x)), 0)) a) s) ∧
    (VLegal 0x0A f s → fmtI f.fmt = false → exec (.vneg f) s = lanes f 2 (map1 (fun _ => sign (fun x => x ^^^ top)) a) s) ∧
    (VLegal 0x0B f s → exec (.vcpysgn f) s =
      lanes f 2 (map2 (fun _ x y => sign (fun x => x % top + y / top % 2 * top) x) a b) s) ∧
    (VLegal 0x0C f s → exec (.vclass f) s = lanes f 2 (map1 (fun _ x => (classCode f.fmt x, 0)) a) s)

/-- Bitwise forms at latency 1 and shifts at latency 2 on w-bit lanes, the count modulo w; vmulh gives the upper half of the product
(14 R406). -/
def Sys2Proof.Stated.VectorBitsAndShifts : Prop :=
  ∀ (f : VOp) (s : State),
    let w := fmtBits f.fmt
    let a := group f f.va s
    let b := group f f.vb s
    let m := immLanes f true s
    let n := List.replicate (group f f.va s).length s.th.xi.toNat
    let bw (h : Nat → Nat → Nat) (_ x y : Nat) : Elem := (h x y, 0)
    let sh (h : Nat → Nat → Nat) (_ x y : Nat) : Elem := (h x (y % w) % 2 ^ w, 0)
    let asr (x c : Nat) : Nat := ((sext x w / (2 ^ c : Nat)) % (2 ^ w : Nat)).toNat
    (VLegal 0x0D f s → exec (.vand f) s = lanes f 1 (map2 (bw (· &&& ·)) a b) s) ∧
    (VLegal 0x8D f s → ImmLegal f s → exec (.vandImm f) s = lanes f 1 (map2 (bw (· &&& ·)) a m) s) ∧
    (VLegal 0x0E f s → exec (.vor f) s = lanes f 1 (map2 (bw (· ||| ·)) a b) s) ∧
    (VLegal 0x8E f s → ImmLegal f s → exec (.vorImm f) s = lanes f 1 (map2 (bw (· ||| ·)) a m) s) ∧
    (VLegal 0x0F f s → exec (.vxor f) s = lanes f 1 (map2 (bw (· ^^^ ·)) a b) s) ∧
    (VLegal 0x8F f s → ImmLegal f s → exec (.vxorImm f) s = lanes f 1 (map2 (bw (· ^^^ ·)) a m) s) ∧
    (VLegal 0x10 f s → exec (.vnot f) s = lanes f 1 (map1 (fun _ x => (2 ^ w - 1 - x, 0)) a) s) ∧
    (VLegal 0x11 f s → exec (.vshl f) s = lanes f 2 (map2 (sh fun x c => x * 2 ^ c) a b) s) ∧
    (VLegal 0x91 f s → s.th.xi.toNat < 64 → exec (.vshlImm f) s = lanes f 2 (map2 (sh fun x c => x * 2 ^ c) a n) s) ∧
    (VLegal 0x12 f s → exec (.vshr f) s = lanes f 2 (map2 (sh fun x c => x / 2 ^ c) a b) s) ∧
    (VLegal 0x92 f s → s.th.xi.toNat < 64 → exec (.vshrImm f) s = lanes f 2 (map2 (sh fun x c => x / 2 ^ c) a n) s) ∧
    (VLegal 0x13 f s → exec (.vsar f) s = lanes f 2 (map2 (sh asr) a b) s) ∧
    (VLegal 0x93 f s → s.th.xi.toNat < 64 → exec (.vsarImm f) s = lanes f 2 (map2 (sh asr) a n) s) ∧
    (VLegal 0x14 f s → exec (.vmulh f) s =
      lanes f 3 (map2 (fun _ x y => (intCode f.fmt (intVal f.fmt x * intVal f.fmt y / (2 ^ w : Nat)), 0)) a b) s) ∧
    (64 ≤ s.th.xi.toNat →
      (VLegal 0x91 f s → exec (.vshlImm f) s = traps 0x0001 0x91 0 15 s) ∧ (VLegal 0x92 f s → exec (.vshrImm f) s = traps 0x0001 0x92 0 15 s) ∧
      (VLegal 0x93 f s → exec (.vsarImm f) s = traps 0x0001 0x93 0 15 s))

/-- A vector syllable traps ILLOP where its encoding is illegal, where a form of VA alone stands in VB, where a vector name does not map, and
where its immediate is a NaN for a format without one (12 R342 R345 R350 R351 R365). -/
def Sys2Proof.Stated.VectorSyllablesThatTrap : Prop :=
  (∀ (i : Instr) (op : Nat) (f : VOp) (s : State), syllOf i = some (.v op f) → ¬ VLegal op f s → exec i s = traps 0x0001 op 0 15 s) ∧
  ∀ (f : VOp) (s : State), ¬ ImmLegal f s →
    exec (.vaddImm f) s = traps 0x0001 0x81 0 15 s ∧ exec (.vsubImm f) s = traps 0x0001 0x82 0 15 s ∧
    exec (.vmulImm f) s = traps 0x0001 0x83 0 15 s ∧ exec (.vminImm f) s = traps 0x0001 0x87 0 15 s ∧
    exec (.vmaxImm f) s = traps 0x0001 0x88 0 15 s ∧ exec (.vcmpImm f) s = traps 0x0001 0x95 0 15 s ∧
    exec (.vbcastImm f) s = traps 0x0001 0xB1 0 15 s

/-- vcmp writes the governing bits of its lanes at latency 2, inactive lanes unchanged; vsel picks lanes by a predicate; the conversions
write the destination format's lanes (14 R407 to R410 R413); vquant writes codes and, for a block format, scales (14 R411 R412). -/
def Obligations.VectorCompareSelectConvert : Prop :=
  ∀ (f : VOp) (s : State),
    let a := group f f.va s
    let b := group f f.vb s
    let one := s.lanes f.fmt f.va 1
    let two := s.lanes f.fmt f.vb 1
    let act1 := laneActive (s.th.rQ f.qp) f.fmt one.length
    let verdict (ys : List Nat) : Res :=
      let out := (one.zip ys).map fun p => cmpLane f.fmt f.vc p.1 p.2
      .next (s.modTh fun th => th.land 2 (some (.q f.vd)) ((laneBits f.fmt (out.map (·.1))).setWidth 2048)
        ((laneBits f.fmt act1).setWidth 2048) (orFlags (List.zipWith (fun o k => if k then o.2 else 0) out act1)))
    let cvt (l : List Nat) (span : Nat) (r : Rnd) (takes : Bool) : Res :=
      .next (s.landLanes 3 f.vc f.vd span (l.zipIdx.map fun p => cvtElem f.fmt f.vc r p.1 p.2)
        (laneActive (s.th.rQ f.qp) f.vc l.length) takes r.mode)
    (VLegal 0x15 f s → exec (.vcmp f) s = verdict two) ∧
    (VLegal 0x95 f s → ImmLegal f s → exec (.vcmpImm f) s = verdict (List.replicate one.length (vImm f.fmt false s.th.xi))) ∧
    (VLegal 0x16 f s → exec (.vsel f) s = lanes f 1
      (((a.zip b).zip (laneActive (s.th.rQ f.vc) f.fmt a.length)).map fun p => (if p.2 then p.1.1 else p.1.2, 0)) s) ∧
    (VLegal 0x17 f s → exec (.vcvt f) s =
      cvt (s.lanes f.fmt f.va (vSpans 0x17 f).2.1) (vSpans 0x17 f).1 (rnd f s) (!(fmtI f.fmt && fmtI f.vc))) ∧
    (VLegal 0x18 f s → exec (.vpack f) s = cvt (a ++ b) (2 ^ f.g) (rnd f s) (fmtF f.fmt)) ∧
    (VLegal 0x19 f s → exec (.vunpack f) s = cvt a (2 * 2 ^ f.g) rne false) ∧
    (VLegal 0x1B f s → exec (.vdequant f) s = .next (s.landLanes 6 f.vb f.vd (vSpans 0x1B f).1
      ((s.lanes f.fmt f.va (vSpans 0x1B f).2.1).zipIdx.map fun p =>
        (ffmt f.vb).round (rnd f s) (scaledElem f.fmt p.1 (s.th.rZ (f.vc + p.2 / perReg f.fmt)) (p.2 % perReg f.fmt)) p.2)
      (laneActive (s.th.rQ f.qp) f.vb (s.lanes f.fmt f.va (vSpans 0x1B f).2.1).length) true (rnd f s).mode)) ∧
    (VLegal 0x1A f s → fmtB f.fmt = false → exec (.vquant f) s = .next (s.landLanes 6 f.fmt f.vd (vSpans 0x1A f).1
      ((s.lanes f.vb f.va (vSpans 0x1A f).2.1).zipIdx.map fun p => satFloat f.fmt ((ffmt f.fmt).round (rnd f s) (decodeElem f.vb p.1) p.2))
      (List.replicate (s.lanes f.vb f.va (vSpans 0x1A f).2.1).length true) true (rnd f s).mode)) ∧
    (VLegal 0x1A f s → fmtB f.fmt = true →
      let xs := (s.lanes f.vb f.va (vSpans 0x1A f).2.1).map (decodeElem f.vb)
      let q := (pieces (perReg f.fmt) (vSpans 0x1A f).1 xs).zipIdx.map fun p => quantReg f.fmt (rnd f s) (perReg f.fmt * p.2) p.1
      let scales (t : State) : State := q.zipIdx.foldl (fun u p => u.landZ (6 + p.2) (f.vc + p.2) p.1.2.1) t
      exec (.vquant f) s = .next (((scales s).landLanes 6 f.fmt f.vd (vSpans 0x1A f).1 (q.flatMap (·.1)) (List.replicate xs.length true) true
        (rnd f s).mode).modTh fun th => th.land (6 + (vSpans 0x1A f).1 - 1) none 0 0 (orFlags (q.map (·.2.2)))))

namespace Sys2Proof.Stated

/-- A scalar register's low half as an FP32 value. -/
def low32 (x : Word) : Machine.Num := (ffmt 0).decode (x.toNat % 2 ^ 32)

/-- A draw-control register's fields (14 R417). -/
def ctl (f : VOp) (s : State) : DrawCtl := drawCtl ((s.th.rVg f.vc 1).headD 0)

/-- The lane tree over weights with purpose 0 coins of the launch's draw key (10 R301). -/
def laneTree (f : VOp) (s : State) (w : List Nat) : Pair × Bool := laneDraw s.launch.drawKey (ctl f s) w (active f s)

/-- Lane results of a form that writes `span` registers under its governing predicate `q`. -/
def moved (f : VOp) (n span : Nat) (q : BitVec 256) (h : Nat → Nat) (s : State) : Res :=
  .next (s.landLanes n f.fmt f.vd span ((List.range (perReg f.fmt * span)).map fun i => (h i, 0))
    (laneActive q f.fmt (perReg f.fmt * span)) false 0)

/-- One register written whole at latency n, its other bits zero, with flags. -/
def whole (f : VOp) (n : Nat) (v : Nat) (fl : BitVec 7) (s : State) : State :=
  s.modTh fun th => th.landVg n (vgroup th.rot f.vd 1) [BitVec.ofNat 2048 v] [BitVec.allOnes 2048] fl

/-- One element comes before another in the order of vtop: it is larger, or as large and of lower index; -0 is below +0 (14 R421). -/
abbrev comesBefore (x z : Nat × Machine.Num) : Prop :=
  ranksBefore x.2 z.2 = true ∨ (ranksBefore z.2 x.2 = false ∧ x.1 < z.1)

end Sys2Proof.Stated

/-- The special functions: exact function values rounded once, at latencies 8, 12 and 10 (14 R414, 10 R292 to R295). -/
def Sys2Proof.Stated.VectorSpecialFunctions : Prop :=
  ∀ (f : VOp) (s : State),
    let a := group f f.va s
    (VLegal 0x1C f s → exec (.vexp2 f) s = rounded f 8 (map1 (fun i x => exp2 f.fmt (rnd f s) (val f x) i) a) s) ∧
    (VLegal 0x1D f s → exec (.vlog2 f) s = rounded f 8 (map1 (fun i x => log2F f.fmt (rnd f s) (val f x) i) a) s) ∧
    (VLegal 0x1E f s → exec (.vrcp f) s = rounded f 12 (map1 (fun i x => rcp f.fmt (rnd f s) (val f x) i) a) s) ∧
    (VLegal 0x1F f s → exec (.vrsq f) s = rounded f 12 (map1 (fun i x => rsqF f.fmt (rnd f s) (val f x) i) a) s) ∧
    (VLegal 0x20 f s → exec (.vsqrt f) s = rounded f 12 (map1 (fun i x => sqrtF f.fmt (rnd f s) (val f x) i) a) s) ∧
    (VLegal 0x21 f s → exec (.vexpd f) s =
      rounded f 10 (map1 (fun i x => expd f.fmt (rnd f s) (val f x) (low32 (s.rS f.vb)) (low32 (s.rS f.vc)) i) a) s)

/-- Reductions over the fixed tree of the active lanes: the root in element 0 of vd, the rest zero, at latency 6 + 2G; vscan gives the
inclusive prefix in every lane at latency 10 + 2G (14 R415 R416, 10 R289 R290). -/
def Sys2Proof.Stated.VectorReductionsAndScan : Prop :=
  ∀ (f : VOp) (s : State),
    let a := group f f.va s
    let leaves := leavesOf f.fmt a (active f s)
    let root (k : Nat) : RVal := (treeRoot 20 1 (fun _ _ => combine f.fmt k) leaves).getD (emptyRoot f.fmt k)
    let code (v : RVal) : Elem :=
      if fmtI f.fmt then ((v.2.1 % (2 ^ 32 : Nat)).toNat, 0)
      else if f.fmt ≤ 2 then (ffmt f.fmt).round (rnd f s) v.1 0 else (ffmt 0).round rne v.1 0
    let answer (k : Nat) : Res → Prop := fun r =>
      ∃ t, r = .next t ∧ t.mem = s.mem ∧
        t.th.inflight = (whole f (6 + 2 * f.g) (code (root k)).1 ((code (root k)).2 ||| (root k).2.2) s).th.inflight ∧
        t.th.posTaken = s.th.posTaken + (if f.fmt ≤ 2 ∧ (rnd f s).mode = 4 then 1 else 0)
    (VLegal 0x22 f s → answer 0 (exec (.vsum f) s)) ∧
    (VLegal 0x23 f s → answer 1 (exec (.vmaxr f) s)) ∧
    (VLegal 0x24 f s → answer 2 (exec (.vminr f) s)) ∧
    (VLegal 0x25 f s → exec (.vscan f) s = .next (s.landLanes (10 + 2 * f.g) f.fmt f.vd (2 ^ f.g)
      ((List.range a.length).map fun i =>
        let v := (scanAt (combine f.fmt 0) (treeLevels 12 (combine f.fmt 0) leaves) i).getD (emptyRoot f.fmt 0)
        if fmtI f.fmt then (intCode f.fmt v.2.1, 0)
        else (((ffmt f.fmt).round (rnd f s) v.1 i).1, ((ffmt f.fmt).round (rnd f s) v.1 i).2 ||| v.2.2))
      (List.replicate a.length true) (f.fmt ≤ 2) (rnd f s).mode))

/-- The draws: coins of the launch's draw key under the draw-control register (14 R417 to R422, 10 R299 to R304); a level above 0x2F in
it is ILLOP. -/
def Sys2Proof.Stated.VectorDraws : Prop :=
  ∀ (f : VOp) (s : State),
    let a := group f f.va s
    let c := ctl f s
    let key := s.launch.drawKey
    let l := pairsOf (s.th.rVg f.va (2 ^ f.g))
    let r := pairsOf (s.th.rVg f.vb (2 ^ f.g))
    let act := (List.range l.length).map fun p => (s.th.rQ f.qp).getLsbD (8 * (p % 32))
    let merged := (l.zip r).zipIdx.map fun x =>
      mergePair (bitsPair x.1.1) (bitsPair x.1.2) (coin key c.w0 c.w1 (counter2 c.pos 2 c.lvl) ((c.w3 + x.2) % 2 ^ 32))
    let n := perReg f.fmt * 2 ^ f.g
    let draws (h : Nat → Elem) : Res := .next (s.landLanes 6 f.fmt f.vd (2 ^ f.g) ((List.range n).map h) (laneActive (s.th.rQ f.qp) f.fmt n) false 0)
    (VLegal 0x26 f s → f.fmt = 0 → c.lvl ≤ 0x2F → exec (.vdraw f) s =
      .next (s.landPair (12 + 2 * f.g) f.vd c.ibase (laneTree f s a).1 (laneTree f s a).2)) ∧
    (VLegal 0x27 f s → c.lvl ≤ 0x2F →
      let w := a.map fun x => (expd 0 rne (val f x) c.m c.k 0).1
      let bad := (w.zip (active f s)).any fun x => x.2 && ((ffmt 0).decode x.1).isNan
      (bad = true → exec (.vdrawl f) s = .next (s.landPair (20 + 2 * f.g) f.vd c.ibase nilPair true)) ∧
      (bad = false → exec (.vdrawl f) s = .next (s.landPair (20 + 2 * f.g) f.vd c.ibase (laneTree f s w).1 (laneTree f s w).2))) ∧
    (VLegal 0x28 f s → c.lvl ≤ 0x2F → exec (.vdmerge f) s = .next (s.landLanes 6 0 f.vd (2 ^ f.g)
      ((halves (merged.map fun o => pairBits o.1)).zip (merged.flatMap fun o => [if o.2 then flDS else 0, 0])) (act.flatMap fun a => [a, a]) false 0)) ∧
    (VLegal 0x2B f s → c.lvl ≤ 0x2F → exec (.vrand f) s = draws fun i => (randLane key c i, 0)) ∧
    (VLegal 0x2C f s → c.lvl ≤ 0x2F → exec (.vrandf f) s =
      draws fun i => (ffmt f.fmt).round { mode := 1 } (.fin false (randLane key c i % 2 ^ 24) (-24)) i) ∧
    (0x2F < c.lvl →
      (VLegal 0x26 f s → exec (.vdraw f) s = traps 0x0001 0x26 0 15 s) ∧ (VLegal 0x27 f s → exec (.vdrawl f) s = traps 0x0001 0x27 0 15 s) ∧
      (VLegal 0x28 f s → exec (.vdmerge f) s = traps 0x0001 0x28 0 15 s) ∧ (VLegal 0x29 f s → exec (.vdescend f) s = traps 0x0001 0x29 0 15 s) ∧
      (VLegal 0x2B f s → exec (.vrand f) s = traps 0x0001 0x2B 0 15 s) ∧ (VLegal 0x2C f s → exec (.vrandf f) s = traps 0x0001 0x2C 0 15 s)) ∧
    (VLegal 0x29 f s → c.lvl ≤ 0x2F →
      let t := s.lanes 0 f.va (2 ^ f.g)
      let total := (ffmt 0).decode (t.getD (t.length - 1) 0)
      let u := coin key c.w0 c.w1 (counter2 c.pos 4 c.lvl) c.w3
      (total.isNan = true ∨ total = .inf false ∨ (total.sign = true ∧ total.isZero = false) →
        exec (.vdescend f) s = .next (s.landPair 16 f.vd c.ibase nilPair true)) ∧
      (total.isNan = false → total.isZero = true → exec (.vdescend f) s = .next (s.landPair 16 f.vd c.ibase nilPair false)) ∧
      (total.isNan = false → total ≠ .inf false → total.sign = false → total.isZero = false →
        exec (.vdescend f) s = .next (s.landPair 16 f.vd c.ibase ((descend u total t (6 + f.g) 0 false).1, t.getD (t.length - 1) 0)
          (descend u total t (6 + f.g) 0 false).2)))

/-- vtop writes the c largest active elements as pairs, largest first, equal ones by ascending index, and NIL after them, to every pair
lane; c is S[vb], at most 32 pairs a register (14 R421). -/
def Sys2Proof.Stated.VectorTopWritesTheLargest : Prop :=
  ∀ (f : VOp) (s : State), VLegal 0x2A f s →
    let a := group f f.va s
    let cap := 32 * 2 ^ f.g
    let xs := ((a.zip (active f s)).zipIdx.filterMap fun p => if p.1.2 then some (p.2, val f p.1.1) else none)
    ∃ (top : List (Nat × Machine.Num)) (fl : BitVec 7) (out : List Elem), exec (.vtop f) s =
        .next (s.landLanes (12 + 2 * f.g) 0 f.vd (2 ^ f.g) out (List.replicate out.length true) false 0) ∧
      top.length = min (min (s.rS f.vb).toNat cap) (xs.filter fun x => !x.2.isNan).length ∧
      (∀ x, x ∈ top → x ∈ xs ∧ x.2.isNan = false) ∧ top.Pairwise comesBefore ∧
      (∀ z, z ∈ xs → z.2.isNan = false → z ∈ top ∨ ∀ x, x ∈ top → comesBefore x z) ∧
      out = (halves ((top.map fun x => pairBits (x.1, rneFP32 x.2)) ++ List.replicate (cap - top.length) (pairBits nilPair))).map fun h => (h, fl)

/-- Movement: permutations, rotations, slides, broadcasts, insertion and extraction, compression and interleaving (14 R423 to R428). -/
def Sys2Proof.Stated.VectorMoves : Prop :=
  ∀ (f : VOp) (s : State),
    let a := group f f.va s
    let b := group f f.vb s
    let c := group f f.vc s
    let q := s.th.rQ f.qp
    let g := 2 ^ f.g
    let n := perReg f.fmt
    (VLegal 0x2D f s → exec (.vperm f) s = moved f 3 g q (fun i => a.getD (b.getD i 0 % a.length) 0) s) ∧
    (VLegal 0x2E f s → exec (.vshuf f) s = moved f 3 g q (fun i => (a ++ b).getD (c.getD i 0 % (a ++ b).length) 0) s) ∧
    (VLegal 0x2F f s → exec (.vrot f) s = moved f 2 g q (fun i => a.getD ((i + (s.rS f.vb).toNat) % a.length) 0) s) ∧
    (VLegal 0xAF f s → exec (.vrotImm f) s = moved f 2 g q (fun i => a.getD ((i + s.th.xi.toNat) % a.length) 0) s) ∧
    (VLegal 0x30 f s → exec (.vslide f) s = moved f 2 g q (fun i => (a ++ b).getD ((i + (s.rS f.vc).toNat) % (a ++ b).length) 0) s) ∧
    (VLegal 0x31 f s → exec (.vbcast f) s = moved f 2 g q (fun _ => (s.rS f.va).toNat % 2 ^ fmtBits f.fmt) s) ∧
    (VLegal 0xB1 f s → ImmLegal f s → exec (.vbcastImm f) s = moved f 2 g q (fun _ => vImm f.fmt false s.th.xi) s) ∧
    (VLegal 0x34 f s → exec (.vmov f) s = moved f 1 g q (fun i => a.getD i 0) s) ∧
    (VLegal 0x35 f s → exec (.viota f) s = moved f 2 g q (fun i => i % 2 ^ fmtBits f.fmt) s) ∧
    (VLegal 0x36 f s → exec (.vcompress f) s = moved f 3 g (BitVec.allOnes 256)
      (fun i => (((a.zip (laneActive (s.th.rQ f.vc) f.fmt a.length)).filter (·.2)).map (·.1)).getD i 0) s) ∧
    (VLegal 0x37 f s → exec (.vexpand f) s = moved f 3 g (BitVec.allOnes 256)
      (fun i => (spread a (laneActive (s.th.rQ f.vc) f.fmt a.length)).getD i 0) s) ∧
    (VLegal 0x38 f s → exec (.vzip f) s = moved f 2 (2 * g) (BitVec.allOnes 256) (fun i => (if i % 2 = 0 then a else b).getD (i / 2) 0) s) ∧
    (VLegal 0x39 f s → exec (.vunzip f) s = moved f 2 (2 * g) (BitVec.allOnes 256)
      (fun i => if i < n * g then (a ++ b).getD (2 * i) 0 else (a ++ b).getD (2 * (i - n * g) + 1) 0) s) ∧
    (VLegal 0x32 f s → exec (.vins f) s = .next (s.landLanes 2 f.fmt f.vd 1 (List.replicate n ((s.rS f.va).toNat % 2 ^ fmtBits f.fmt, 0))
      ((laneActive q f.fmt n).zipIdx.map fun p => p.1 && p.2 == (s.rS f.vb).toNat % n) false 0)) ∧
    (VLegal 0x33 f s →
      let x := (s.lanes f.fmt f.va 1).getD ((s.rS f.vb).toNat % n) 0
      exec (.vext f) s = .next (s.landS 2 f.vd (if fmtI f.fmt then BitVec.ofInt 64 (intVal f.fmt x) else BitVec.ofNat 64 x)))

/-- The predicate forms (14 R429 R430): logic on whole registers at latency 1; the first c lanes set; the count and the lowest of the
active lanes at latency 2, all ones where there is none. -/
def Obligations.PredicateForms : Prop :=
  ∀ (f : VOp) (s : State),
    let a := s.th.rQ f.va
    let b := s.th.rQ f.vb
    let lane (i : Nat) : Bool := a.getLsbD (i % perReg f.fmt * fmtBits f.fmt / 8)
    let first (c : Nat) : BitVec 256 :=
      if fmtBits f.fmt < 8 then BitVec.ofNat 256 (2 ^ min 256 ((c + 1) / 2) - 1) else BitVec.ofNat 256 (2 ^ min 256 (c * (fmtBits f.fmt / 8)) - 1)
    (VLegal 0x3A f s → exec (.qand f) s = .next (s.landQ 1 f.vd (a &&& b) 0)) ∧
    (VLegal 0x3B f s → exec (.qor f) s = .next (s.landQ 1 f.vd (a ||| b) 0)) ∧
    (VLegal 0x3C f s → exec (.qxor f) s = .next (s.landQ 1 f.vd (a ^^^ b) 0)) ∧
    (VLegal 0x3D f s → exec (.qnot f) s = .next (s.landQ 1 f.vd (~~~a) 0)) ∧
    (VLegal 0x3E f s → exec (.qset f) s = .next (s.landQ 1 f.vd (first (s.rS f.va).toNat) 0)) ∧
    (VLegal 0xBE f s → exec (.qsetImm f) s = .next (s.landQ 1 f.vd (first s.th.xi.toNat) 0)) ∧
    (VLegal 0x3F f s → exec (.qcount f) s =
      .next (s.landS 2 f.vd (BitVec.ofNat 64 ((List.range (perReg f.fmt)).filter lane).length))) ∧
    (VLegal 0x40 f s → (∀ i, i < perReg f.fmt → lane i = false) → exec (.qfirst f) s = .next (s.landS 2 f.vd (BitVec.allOnes 64))) ∧
    (VLegal 0x40 f s → ∀ i, i < perReg f.fmt → lane i = true → (∀ j, j < i → lane j = false) →
      exec (.qfirst f) s = .next (s.landS 2 f.vd (BitVec.ofNat 64 i)))

namespace Sys2Proof.Stated

/-- The slot at CP of the handle that a push names may be read: configured, FULL or DRAINING, every byte of it in an owned bank
(15 R436 R438). -/
abbrev slotReady (h : Nat) (s : State) : Prop :=
  s.handleOk h = true ∧ (s.ctx.handle h).atCp = some true ∧
    ∀ o, s.ctx.slotOff h (s.ctx.handle h).cp ≤ o → o < s.ctx.slotOff h (s.ctx.handle h).cp + hSize (s.ctx.setupOf h) →
      (s.ctx.spadPhys o).isSome = true

/-- The strand's tile on a plane: bound, with every one of its 32 banks held by the issuing strand (15 R435 R441). -/
abbrev tileOf (p t : Nat) (s : State) : Prop := s.ctx.matrix.bound p = some t ∧ s.holdsTile t = true

/-- Everything but the matrix state and the buffer handles of the core stays. -/
abbrev onlyMatrix (s t : State) : Prop :=
  t = s.modCtx fun x => { x with matrix := t.ctx.matrix, handles := t.ctx.handles }

/-- The z register at latency n: bits [lo + w - 1 : lo] become `v`, the others keep their value; flags with it (15 R446). -/
def landsZ (z n : Nat) (v mask : BitVec 2048) (fl : BitVec 7) (s : State) : Res :=
  .next (s.modTh fun th => th.land n (some (.z z)) v mask fl)

/-- The launch scratchpad holds `n` bytes at window address `ea`, 2-byte aligned, inside one owned bank, and no release write of an
earlier bundle is still held (15 R447, 08 R225). -/
abbrev scaleAddress (ea n p : Nat) (s : State) : Prop :=
  0x7FFE00000000 ≤ ea ∧ ea < 0x7FFE00200000 ∧ ea % 2 = 0 ∧ crossesBank ea n = false ∧
    s.ctx.spadPhys (ea - 0x7FFE00000000) = some p ∧ s.spadHeld false = false

end Sys2Proof.Stated

/-! Matrix and scale slots, accumulator memory (chapters 15 and 16). -/

/-- mpushw starts a weight run into the physical bank that front or back names at issue, with the format tag and scale image; mpusha puts
entry 0 of its slot into the plane's latch and starts a feed of the rest; a pass that an earlier fence holds back waits (15 R436 to R438,
09 R258). -/
def Sys2Proof.Stated.MatrixPushesStartPasses : Prop :=
  ∀ (f : MOp) (s : State),
    let n := hSize (s.ctx.setupOf f.f) / 256
    let img := if fmtB f.fmt then s.th.rZ f.z else 0
    let cp := (s.ctx.handle f.f).cp
    let b := (s.ctx.matrix.front + f.bank) % 2
    (Legal (.m 1 f) → slotReady f.f s → s.fetchHeld = false → f.row + n ≤ 128 → ∃ t, exec (.mpushw f) s = .next t ∧ onlyMatrix s t ∧
      SMap.get t.ctx.matrix.run b none = some { h := f.f, slot := cp, left := n, row := f.row, since := s.th.cycle } ∧
      SMap.get t.ctx.matrix.tag b 0 = f.fmt ∧ SMap.get t.ctx.matrix.image b 0 = img) ∧
    (Legal (.m 2 f) → slotReady f.f s → s.fetchHeld = false → ∃ t, exec (.mpusha f) s = .next t ∧ onlyMatrix s t ∧
      SMap.get t.ctx.matrix.latch f.plane {} = { data := (s.core s.cur).slotRow f.f cp 0, image := img, tag := f.fmt } ∧
      (n ≤ 1 → SMap.get t.ctx.matrix.feed f.plane none = none) ∧
      (1 < n → SMap.get t.ctx.matrix.feed f.plane none =
        some { h := f.f, slot := cp, next := 1, left := n - 1, image := img, since := s.th.cycle })) ∧
    (Legal (.m 1 f) → s.handleOk f.f = true → f.row + n ≤ 128 → (s.ctx.handle f.f).atCp = none → exec (.mpushw f) s = stall s) ∧
    (slotReady f.f s → s.fetchHeld = true →
      (Legal (.m 1 f) → f.row + n ≤ 128 → exec (.mpushw f) s = stall s) ∧ (Legal (.m 2 f) → exec (.mpusha f) s = stall s)) ∧
    (Legal (.m 1 f) → 128 < f.row + n → exec (.mpushw f) s = traps 0x0001 1 0 15 s)

/-- A beat takes its latch entry, weight row and formats at issue and needs a binding whose banks the strand holds and tags that match;
mclr, mshift, mplane and the swaps change the matrix state alone (15 R434 R435 R439 to R442). -/
def Sys2Proof.Stated.MatrixBeatsAndBindings : Prop :=
  ∀ (f : MOp) (s : State),
    let m := s.ctx.matrix
    let b := (m.front + f.bank) % 2
    (∀ tl, Legal (.m 4 f) → tileOf f.plane tl s → (SMap.get m.latch f.plane {}).tag = f.fmt → SMap.get m.tag b 0 = f.fmt →
      ∃ t, exec (.macc f) s = .next t ∧ onlyMatrix s t ∧
        t.ctx.matrix.ops = m.ops ++ [(s.th.cycle, .beat tl f.cellop f.fmt (SMap.get t.ctx.matrix.latch f.plane {})
          (SMap.get m.wb (128 * b + f.row) 0) (SMap.get m.image b 0))] ∧
        SMap.get t.ctx.matrix.kind f.plane false = decide (f.fmt = 9 ∨ f.fmt = 10)) ∧
    (∀ tl, Legal (.m 4 f) → m.bound f.plane = some tl → (s.holdsTile tl = false ∨ (SMap.get m.latch f.plane {}).tag ≠ f.fmt ∨
      SMap.get m.tag b 0 ≠ f.fmt) → exec (.macc f) s = traps 0x0001 4 0 15 s) ∧
    (Legal (.m 4 f) → m.bound f.plane = none → exec (.macc f) s = traps 0x0001 4 0 15 s) ∧
    (∀ tl, Legal (.m 6 f) → m.bound f.plane = some tl → ∃ t, exec (.mclr f) s = .next t ∧ onlyMatrix s t ∧
      t.ctx.matrix.ops = m.ops ++ [(s.th.cycle, .clear tl f.row)]) ∧
    (Legal (.m 3 f) → ∃ t, exec (.mshift f) s = .next t ∧ onlyMatrix s t ∧ ∀ p, p < 2 →
      (SMap.get t.ctx.matrix.latch p {}).shift = min 128 ((SMap.get m.latch p {}).shift + f.row) ∧
      (SMap.get t.ctx.matrix.latch p {}).data = (SMap.get m.latch p {}).data) ∧
    (∀ k, Legal (.m 7 f) → k < 4 → s.holdsTile (128 * f.plane + 32 * k) = true →
      (∀ j, j < k → s.holdsTile (128 * f.plane + 32 * j) = false) → ∃ t, exec (.mplane f) s = .next t ∧ onlyMatrix s t ∧
        t.ctx.matrix.binding = m.binding ++ [(f.plane, 128 * f.plane + 32 * k, s.th.cycle + 2)]) ∧
    (Legal (.m 7 f) → (∀ k, k < 4 → s.holdsTile (128 * f.plane + 32 * k) = false) → exec (.mplane f) s = traps 0x0001 7 0 15 s) ∧
    (Legal (.m 8 f) → ∃ t, exec (.mwswap f) s = .next t ∧ onlyMatrix s t ∧ t.ctx.matrix.front = 1 - m.front) ∧
    (Legal (.m 8 f) → ∃ t, exec (.mwswapHome f) s = .next t ∧ onlyMatrix s t ∧ t.ctx.matrix.front = 0)

/-- mdrain converts the tile row as a reader of this cycle sees it and writes it, 8 cycles later, into the slot at PP, which it claims;
a slot that is not free waits, and so does a drain that an earlier fence holds back (15 R443, 09 R258). -/
def Sys2Proof.Stated.MatrixDrainWritesARow : Prop :=
  ∀ (f : MOp) (s : State) (tl : Nat), Legal (.m 5 f) → s.ctx.matrix.bound f.plane = some tl → s.handleOk f.f = true →
    let rb := 16 * fmtBits f.fmt
    let size := hSize (s.ctx.setupOf f.f)
    let d := s.ctx.handle f.f
    let off := s.ctx.slotOff f.f d.pp + f.row * rb % size
    let r := s.rounding 0 s.th.posTaken
    let out := drainRow f.fmt f.row (SMap.get s.ctx.matrix.kind f.plane false) (bandScale s.th.xi.toNat) r
      (accView (s.core s.cur).acc s.ctx.matrix.ops s.th.cycle (4 * tl + f.row))
    size % rb = 0 →
    (d.writable d.pp = false ∨ s.fetchHeld = true → exec (.mdrain f) s = stall s) ∧
    (d.writable d.pp = true → s.fetchHeld = false → (s.ctx.spadPhys off).isSome = true → (s.ctx.spadPhys (off + rb - 1)).isSome = true →
      ∃ t, exec (.mdrain f) s = .next t ∧
        t.th.inflight = s.th.inflight ++ drainLandings s.ctx (s.th.cycle + 8) s.th.bundles f.f d.pp off out.1 out.2 ∧
        t.ctx.handle f.f = d.claim d.pp ∧ t.ctx.matrix = s.ctx.matrix ∧ t.mem = s.mem ∧
        t.th.posTaken = s.th.posTaken + (if r.mode = 4 then 1 else 0))

/-- ldacc and stacc reach 256 aligned bytes of a bank the strand holds: ALIGN and ACCFREE otherwise (16 R461). -/
def Sys2Proof.Stated.AccumulatorLoadsAndStores : Prop :=
  ∀ (f : LW) (s : State),
    let x := lwAddress f s
    let held := SMap.get s.ctx.held (x / 2048) 0 = s.strandNo + 1
    let act := activeLanes (s.th.rQ f.qp) 256
    let names := vnamesOk s.th.rot f.d 1 = true
    let acquired := if f.ord % 2 = 1 then s.modCore s.cur fun k => { k with dcache := [] } else s
    (Legal (.l 6 f) → names → x % 256 = 0 → x ≤ 0x7FF00 → held → exec (.ldacc f) s =
      .next (landBytes 6 8 f.d (slice (rowBytes (accView (s.core s.cur).acc s.ctx.matrix.ops s.th.cycle (x / 512))) (x % 512) 256) act acquired)) ∧
    (Legal (.w 6 f) → names → x % 256 = 0 → x ≤ 0x7FF00 → held → relOf f = false ∨ s.lsbuOpen = false → ∃ t, exec (.stacc f) s = .next t ∧
      onlyMatrix s t ∧ t.ctx.matrix.ops =
        s.ctx.matrix.ops ++ [(s.th.cycle, .store x ((s.th.rVg f.d 1).headD 0) (maskBits 2048 act))]) ∧
    (Legal (.w 6 f) → names → x % 256 = 0 → x ≤ 0x7FF00 → held → relOf f = true → s.lsbuOpen = true → exec (.stacc f) s = stall s) ∧
    (¬ names → (Legal (.l 6 f) → exec (.ldacc f) s = traps 0x0001 6 x 15 s) ∧ (Legal (.w 6 f) → exec (.stacc f) s = traps 0x0001 6 x 15 s)) ∧
    (names → x % 256 ≠ 0 →
      (Legal (.l 6 f) → exec (.ldacc f) s = traps 0x0103 0 x 15 s) ∧ (Legal (.w 6 f) → exec (.stacc f) s = traps 0x0103 0 x 15 s)) ∧
    (names → x % 256 = 0 → ¬ (x ≤ 0x7FF00 ∧ held) →
      (Legal (.l 6 f) → exec (.ldacc f) s = traps 0x0402 (x / 2048 % 256) 0 15 s) ∧
      (Legal (.w 6 f) → exec (.stacc f) s = traps 0x0402 (x / 2048 % 256) 0 15 s))

/-- zset writes one micro-scale into all 64 bytes and the two group exponents, zmov copies a z register, both at latency 1 (15 R448). -/
def Obligations.ScaleSetAndMove : Prop :=
  ∀ (f : ZOp) (s : State),
    (Legal (.z 3 f) → ∃ v : BitVec 528, exec (.zset f) s = landsZ f.z 1 (v.setWidth 2048) ((BitVec.allOnes 528).setWidth 2048) 0 s ∧
      (∀ i, i < 64 → (v.extractLsb' (8 * i) 8) = (s.rS f.sa).extractLsb' 0 8) ∧
      v.extractLsb' 512 8 = (s.rS f.sa).extractLsb' 8 8 ∧ v.extractLsb' 520 8 = (s.rS f.sa).extractLsb' 16 8) ∧
    (Legal (.z 4 f) → exec (.zmov f) s = landsZ f.z 1 ((s.th.rZ f.sa).setWidth 2048) ((BitVec.allOnes 528).setWidth 2048) 0 s)

/-- zgen adds S[sa] plus its addend to the group exponents, or to the 64 block scales, clamped to 0 to 254; 0xFF stays; SA is set when a
byte is clamped; the other bytes stay; latency 4 (15 R449). -/
def Obligations.ScaleAdjustClampsExponents : Prop :=
  ∀ (f : ZOp) (s : State), Legal (.z 5 f) →
    let z := s.th.rZ f.z
    let d : Int := (s.rS f.sa).toInt + (BitVec.ofNat 16 f.off).toInt
    let byte (v : BitVec 528) (i : Nat) : Nat := (v.extractLsb' (8 * i) 8).toNat
    let goal (lo hi : Nat) (r : Res) : Prop := ∃ (v : BitVec 528) (fl : BitVec 7),
      r = landsZ f.z 4 (v.setWidth 2048) ((BitVec.allOnes 528).setWidth 2048) fl s ∧
      (∀ i, i < 66 → ¬ (lo ≤ i ∧ i < hi) → byte v i = byte z i) ∧
      (∀ i, lo ≤ i → i < hi → byte z i = 255 → byte v i = 255) ∧
      (∀ i, lo ≤ i → i < hi → byte z i ≠ 255 → (byte v i : Int) = min 254 (max 0 ((byte z i : Int) + d))) ∧
      ((∃ i, lo ≤ i ∧ i < hi ∧ byte z i ≠ 255 ∧ ((byte z i : Int) + d < 0 ∨ 254 < (byte z i : Int) + d)) → fl = flSA) ∧
      ((∀ i, lo ≤ i → i < hi → byte z i = 255 ∨ (0 ≤ (byte z i : Int) + d ∧ (byte z i : Int) + d ≤ 254)) → fl = 0)
    (f.off / 2 ^ 16 = 0 → goal 64 66 (exec (.zgenG f) s)) ∧ (f.off / 2 ^ 16 = 1 → goal 0 64 (exec (.zgenB f) s))

/-- zld lands a 66-byte image, zldg the two group exponents alone, at latency 6, from scratchpad; outside it they trap ACCESS at level 4,
misaligned or across a bank ALIGN, in a bank that is not owned BANKFREE; behind an access that holds the scratchpad they wait (15 R447). -/
def Sys2Proof.Stated.ScaleLoadsFromScratchpad : Prop :=
  ∀ (f : ZOp) (s : State),
    let ea := (s.rS f.sa + (BitVec.ofNat 17 f.off).signExtend 64).toNat
    (∀ p, Legal (.z 1 f) → scaleAddress ea 66 p s → exec (.zld f) s =
      landsZ f.z 6 (BitVec.ofNat 2048 (leNat ((s.core s.cur).spadRead p 66))) ((BitVec.allOnes 528).setWidth 2048) 0 s) ∧
    (∀ p, Legal (.z 2 f) → scaleAddress ea 2 p s → exec (.zldg f) s =
      landsZ f.z 6 (BitVec.ofNat 2048 (leNat ((s.core s.cur).spadRead p 2) * 2 ^ 512)) ((BitVec.allOnes 16).setWidth 2048 <<< 512) 0 s) ∧
    let stops (n : Nat) (o : Res) : Prop :=
      (¬ (0x7FFE00000000 ≤ ea ∧ ea < 0x7FFE00200000) → o = traps 0x0102 4 ea 0 s) ∧
      (0x7FFE00000000 ≤ ea ∧ ea < 0x7FFE00200000 → ¬ (ea % 2 = 0 ∧ (ea - 0x7FFE00000000) % 0x4000 + n ≤ 0x4000) → o = traps 0x0103 0 ea 0 s) ∧
      (0x7FFE00000000 ≤ ea ∧ ea < 0x7FFE00200000 → ea % 2 = 0 → (ea - 0x7FFE00000000) % 0x4000 + n ≤ 0x4000 →
        (s.ctx.spadPhys (ea - 0x7FFE00000000) = none →
          o = traps 0x0104 ((ea - 0x7FFE00000000) / 0x4000 % 256) (0x7FFE00000000 + (ea - 0x7FFE00000000) / 0x4000 * 0x4000) 0 s) ∧
        (s.ctx.spadPhys (ea - 0x7FFE00000000) ≠ none → s.spadHeld false = true → o = stall s))
    (Legal (.z 1 f) → stops 66 (exec (.zld f) s)) ∧ (Legal (.z 2 f) → stops 2 (exec (.zldg f) s))

namespace Sys2Proof.Stated

/-- The syllable is legal and the names of its vector group map (12 R342 R343, 16 R451 step 1). -/
abbrev AccessLegal (y : Syll) (d span : Nat) (s : State) : Prop := Legal y ∧ (span = 0 ∨ vnamesOk s.th.rot d span = true)

/-- The offset of an L or W syllable: 21 bits, or 37 with XI (12 R345). -/
def offset (f : LW) (s : State) : Word :=
  if f.x = 1 then (s.th.xi ++ BitVec.ofNat 21 f.off).signExtend 64 else (BitVec.ofNat 21 f.off).signExtend 64

/-- S[base] + offset (12 R356). -/
def based (f : LW) (s : State) : Nat := (s.rS f.base + offset f s).toNat

/-- S[base] + S[index] * size + offset (12 R356). -/
def indexed (f : LW) (s : State) : Nat := (s.rS f.base + s.rS f.idx * BitVec.ofNat 64 (2 ^ (f.ty / 2)) + offset f s).toNat

/-- `n` bytes at `ea` lie aligned in one owned bank of the launch scratchpad, at physical offset `p`, and nothing earlier holds the access
back (16 R450 R451 R467). -/
abbrev onScratchpad (ea n p : Nat) (write : Bool) (s : State) : Prop :=
  0x7FFE00000000 ≤ ea ∧ ea < 0x7FFE00200000 ∧ ea % min n 16 = 0 ∧ (ea - 0x7FFE00000000) % 0x4000 + n ≤ 0x4000 ∧
    s.ctx.spadPhys (ea - 0x7FFE00000000) = some p ∧ s.spadHeld write = false

/-- `n` aligned bytes at `ea` translate into the pieces `ps`, none in the scratchpad, for a form without full-empty mode (16 R451). -/
abbrev onMemory (f : LW) (ea n : Nat) (write : Bool) (ps : List Piece) (s : State) : Prop :=
  ea % min n 16 = 0 ∧ ¬ (0x7FFE00000000 ≤ ea ∧ ea < 0x7FFE00200000) ∧ cutAccess s (s.who s.launch) write ea n = .ok ps ∧
    (∀ p, p ∈ ps → p.spad = none) ∧ f.fe = 0

/-- Granule `g` is touched by `n` bytes at `p` (08 R226). -/
abbrev touched (p n g : Nat) : Prop := p / 16 ≤ g ∧ g < (p + n + 15) / 16

/-- A load of a full-empty mode may go on: mode 0, or every granule full (08 R226). -/
abbrev fullEnough (f : LW) (p n : Nat) (s : State) : Prop := f.fe = 0 ∨ ∀ g, touched p n g → g ∈ (s.core s.cur).full

/-- A store of a full-empty mode may go on: not mode 1, or every granule empty (08 R226). -/
abbrev emptyEnough (f : LW) (p n : Nat) (s : State) : Prop := f.fe ≠ 1 ∨ ∀ g, touched p n g → g ∉ (s.core s.cur).full

/-- What a scratchpad load does beside its result: an acquire empties the scalar data cache, mode 2 empties the granules. -/
def afterLoad (f : LW) (p n : Nat) (s : State) : State :=
  let s := if f.ord % 2 = 1 then s.modCore s.cur fun k => { k with dcache := [] } else s
  if f.fe = 2 then s.modCore s.cur fun k =>
    { k with full := k.full.filter fun g => !(decide (p / 16 ≤ g) && decide (g < (p + n + 15) / 16)) } else s

/-- A loaded number extended by its type code: even codes by the sign (12 R355, 16 R455). -/
def loaded (ty x : Nat) : Word :=
  match ty with
  | 0 => (BitVec.ofNat 8 x).signExtend 64
  | 1 => (BitVec.ofNat 8 x).setWidth 64
  | 2 => (BitVec.ofNat 16 x).signExtend 64
  | 3 => (BitVec.ofNat 16 x).setWidth 64
  | 4 => (BitVec.ofNat 32 x).signExtend 64
  | 5 => (BitVec.ofNat 32 x).setWidth 64
  | _ => BitVec.ofNat 64 x

/-- The active bytes of a form under Q[qp] (16 R452). -/
def activeBytes (f : LW) (n : Nat) (s : State) : List Bool := (List.range n).map fun i => (s.th.rQ f.qp).getLsbD (i % 256)

/-- The number at scratchpad offset `p`. -/
def spadNumber (p n : Nat) (s : State) : Nat := leNat ((List.range n).map fun i => Memory.read (s.core s.cur).spad (p + i))

/-- The 256 bytes at scratchpad offset `p`. -/
def spadRow (p : Nat) (s : State) : VWord := BitVec.ofNat 2048 (spadNumber p 256 s)

/-- The answer is a request of `kind` from the issuing core, queued behind the others; no byte of memory has changed yet (16 R453). -/
abbrev sends (r : Req) (kind : ReqKind) (s t : State) : Prop :=
  t.mem.net = s.mem.net ++ [r] ∧ r.id = s.mem.nextReq ∧ r.core = s.cur ∧ r.kind = kind ∧ t.mem.bytes = s.mem.bytes ∧ t.mem.lines = s.mem.lines

/-- A load is pending: a request for its bytes, or the bytes from the scalar data cache, and its registers wait for LOAD_FILL. -/
abbrev loadsLater (f : LW) (n ty : Nat) (regs : List Reg) (ps : List Piece) (s : State) (o : Res) : Prop :=
  ∃ t r, o = .next t ∧ sends r .load s t ∧ r.pend = some r.id ∧ r.ty = ty ∧ r.mask = activeBytes f n s ∧
    (r.parts = (ps.map fun p => p.part (activeBytes f n s)) ∨ (r.parts = [] ∧ r.ready = true)) ∧
    t.th.pend = s.th.pend ++ [{ id := r.id, regs := regs, bundle := s.th.bundles }] ∧ t.th.inflight = s.th.inflight

/-- The scalar data cache holds no ciphertext line of the access: a hit on one faults with FORM (05 R133). -/
abbrev noCipherHit (ps : List Piece) (s : State) : Prop :=
  ∀ p, p ∈ ps → (s.core s.cur).cached p.x.dest.addr = none ∨ (s.line p.x.dest.addr).cipher = false

/-- The active bytes are in the scratchpad, with the full bits of a full-empty store, and nothing else has changed (16 R453, 08 R226). -/
abbrev storesNow (f : LW) (p : Nat) (bs : List Byte) (s t : State) : Prop :=
  t = s.modCore s.cur (fun k => { k with spad := (t.core s.cur).spad, full := (t.core s.cur).full }) ∧
  (∀ a, Memory.read (t.core s.cur).spad a =
    if p ≤ a ∧ a < p + bs.length ∧ (s.th.rQ f.qp).getLsbD ((a - p) % 256) = true then bs.getD (a - p) 0
    else Memory.read (s.core s.cur).spad a) ∧
  ∀ g, g ∈ (t.core s.cur).full ↔ g ∈ (s.core s.cur).full ∨ (f.fe ≠ 0 ∧ touched p bs.length g)

/-- A store to scratchpad may be made at once: for a release no `ls` or `bu` access is open, and the bundle holds no acquire that is not
performed; otherwise it waits (16 R467, 09 R252). -/
abbrev nothingBefore (f : LW) (s : State) : Prop :=
  (f.ord / 2 = 1 → s.lsbuOpen = false ∧ s.lsbuBefore s.cur s.mem.nextReq = false) ∧
    s.acquireOpen s.cur s.th.reqStart s.mem.nextReq = false

/-- A store to memory is sent with its bytes; memory itself changes when the home slice accepts it (16 R453). -/
abbrev storesLater (f : LW) (bs : List Byte) (count : Nat) (ps : List Piece) (s : State) (o : Res) : Prop :=
  ∃ t r, o = .next t ∧ sends r .store s t ∧ r.data = bs ∧ r.mask = activeBytes f bs.length s ∧ r.stamp = count ∧
    r.parts = (ps.map fun p => p.part (activeBytes f bs.length s)) ∧ t.th = s.th ∧ (t.core s.cur).spad = (s.core s.cur).spad

/-- Some piece of the access holds an active byte. -/
abbrev someActive (f : LW) (n : Nat) (ps : List Piece) (s : State) : Prop :=
  ∃ p, p ∈ ps ∧ (slice (activeBytes f n s) p.off p.len).any id = true

/-- The checks of 16 R451 in their order, each over the whole range: encoding, alignment, translation, full-empty mode, reader count,
bank ownership; the first that fails is the trap. -/
abbrev checksInOrder (y : Syll) (f : LW) (d span ea n count : Nat) (write : Bool) (s : State) (o : Res) : Prop :=
  let inBank := (ea - 0x7FFE00000000) % 0x4000 + n ≤ 0x4000
  let aligned := ea % min n 16 = 0 ∧ (0x7FFE00000000 ≤ ea ∧ ea < 0x7FFE00200000 → inBank)
  let wr := if write then 2 ^ 15 else 0
  (y.fits = true → ¬ AccessLegal y d span s → o = traps 0x0001 y.detail ea 15 s) ∧
  (AccessLegal y d span s → ¬ aligned → o = traps 0x0103 0 ea 0 s) ∧
  (AccessLegal y d span s → aligned → ∀ c l va, cutAccess s (s.who s.launch) write ea n = .error (c, l, va) → o = traps c (wr + l) va 0 s) ∧
  (AccessLegal y d span s → aligned → ∀ ps, cutAccess s (s.who s.launch) write ea n = .ok ps →
    (f.fe ≠ 0 → (∃ p, p ∈ ps ∧ p.spad = none) → o = traps 0x0007 0 ea 0 s) ∧
    (f.fe = 0 ∨ (∀ p, p ∈ ps → p.spad ≠ none) → count ≠ 0 → ∀ q, ps.find? (fun p => !p.x.cn) = some q →
      o = traps 0x0102 (wr + q.x.lvl) q.va 0 s) ∧
    (f.fe = 0 ∨ (∀ p, p ∈ ps → p.spad ≠ none) → count = 0 ∨ (∀ p, p ∈ ps → p.x.cn = true) → ∀ x, ps = [x] →
      ∀ off, x.spad = some off → s.ctx.spadPhys off = none → o = traps 0x0104 (off / 0x4000 % 256) (0x7FFE00000000 + off / 0x4000 * 0x4000) 0 s))

end Sys2Proof.Stated

/-! Load and store slots (chapter 16). -/

/-- Loads that lie in the scratchpad are exposed at latency 4: a scalar extended by its type, 256 bytes a vector register, register k of a
group at latency 4 + k, a predicate (16 R453 R455 R456 R457). -/
def Sys2Proof.Stated.ScratchpadLoads : Prop :=
  ∀ (f : LW) (s : State) (p : Nat),
    let n := 2 ^ (f.ty / 2)
    let g := 2 ^ f.ty
    let rowMask := maskBits 2048 (activeBytes f 256 s)
    (AccessLegal (.l 1 f) f.d 0 s → onScratchpad (based f s) n p false s → fullEnough f p n s →
      exec (.lds f) s = .next ((afterLoad f p n s).landS 4 f.d (loaded f.ty (spadNumber p n s)))) ∧
    (AccessLegal (.l 4 f) f.d 0 s → onScratchpad (indexed f s) n p false s → fullEnough f p n s →
      exec (.ldx f) s = .next ((afterLoad f p n s).landS 4 f.d (loaded f.ty (spadNumber p n s)))) ∧
    (AccessLegal (.l 2 f) f.d 1 s → onScratchpad (based f s) 256 p false s → fullEnough f p 256 s →
      exec (.ldv f) s = .next ((afterLoad f p 256 s).modTh fun th => th.landVg 4 (vgroup th.rot f.d 1) [spadRow p s] [rowMask] 0)) ∧
    (AccessLegal (.l 3 f) f.d g s → onScratchpad (based f s) (256 * g) p false s → fullEnough f p (256 * g) s →
      exec (.ldvg f) s = .next ((afterLoad f p (256 * g) s).modTh fun th =>
        th.landVg 4 (vgroup th.rot f.d g) ((List.range g).map fun k => spadRow (p + 256 * k) s) (List.replicate g rowMask) 0)) ∧
    (AccessLegal (.l 7 f) f.d 0 s → onScratchpad (based f s) 32 p false s → fullEnough f p 32 s →
      exec (.ldq f) s = .next ((afterLoad f p 32 s).landQ 4 f.d (BitVec.ofNat 256 (spadNumber p 32 s)) 0)) ∧
    (AccessLegal (.l 1 f) f.d 0 s → onScratchpad (based f s) n p false s → ¬ fullEnough f p n s → exec (.lds f) s = stall s)

/-- Loads from memory are pending: the request goes to its home slices and the destination waits; a load that would pass 64 outstanding
results stalls, and one without an active byte reads nothing (16 R452 R453 R455 R456 R457). -/
def Sys2Proof.Stated.HomeSliceLoads : Prop :=
  ∀ (f : LW) (s : State) (ps : List Piece),
    let n := 2 ^ (f.ty / 2)
    let g := 2 ^ f.ty
    let scalar := if f.d = 0 then [] else [Reg.s f.d]
    let someByte (n : Nat) : Prop := ∃ i, i < n ∧ (s.th.rQ f.qp).getLsbD (i % 256) = true
    (AccessLegal (.l 1 f) f.d 0 s → onMemory f (based f s) n false ps s → someByte n → s.th.outstanding < 64 → noCipherHit ps s →
      loadsLater f n f.ty scalar ps s (exec (.lds f) s)) ∧
    (AccessLegal (.l 4 f) f.d 0 s → onMemory f (indexed f s) n false ps s → someByte n → s.th.outstanding < 64 → noCipherHit ps s →
      loadsLater f n f.ty scalar ps s (exec (.ldx f) s)) ∧
    (AccessLegal (.l 2 f) f.d 1 s → onMemory f (based f s) 256 false ps s → someByte 256 → s.th.outstanding < 64 →
      loadsLater f 256 8 ((vgroup s.th.rot f.d 1).map Reg.v) ps s (exec (.ldv f) s)) ∧
    (AccessLegal (.l 3 f) f.d g s → onMemory f (based f s) (256 * g) false ps s → someByte (256 * g) → s.th.outstanding + g ≤ 64 →
      loadsLater f (256 * g) 8 ((vgroup s.th.rot f.d g).map Reg.v) ps s (exec (.ldvg f) s)) ∧
    (AccessLegal (.l 7 f) f.d 0 s → onMemory f (based f s) 32 false ps s → someByte 32 → s.th.outstanding < 64 → noCipherHit ps s →
      loadsLater f 32 9 (if f.d = 0 then [] else [Reg.q f.d]) ps s (exec (.ldq f) s)) ∧
    (let waits (ea n k : Nat) (o : Res) : Prop := onMemory f ea n false ps s →
       (64 < s.th.outstanding + k → o = stall s) ∧ (s.th.outstanding + k ≤ 64 → ¬ someByte n → o = .next s)
     (AccessLegal (.l 1 f) f.d 0 s → waits (based f s) n 1 (exec (.lds f) s)) ∧ (AccessLegal (.l 4 f) f.d 0 s → waits (indexed f s) n 1 (exec (.ldx f) s)) ∧
     (AccessLegal (.l 2 f) f.d 1 s → waits (based f s) 256 1 (exec (.ldv f) s)) ∧
     (AccessLegal (.l 3 f) f.d g s → waits (based f s) (256 * g) g (exec (.ldvg f) s)) ∧
     (AccessLegal (.l 7 f) f.d 0 s → waits (based f s) 32 1 (exec (.ldq f) s)))

/-- Stores that lie in the scratchpad are made at once: the active bytes of the form change, with the full bits of modes 1 and 2, and
nothing else; mode 1 waits for empty granules (16 R453 R455 R456 R457, 08 R226). -/
def Sys2Proof.Stated.ScratchpadStores : Prop :=
  ∀ (f : LW) (s : State) (p : Nat),
    let n := 2 ^ (f.ty / 2)
    let g := 2 ^ f.ty
    let puts (ea : Nat) (bs : List Byte) (o : Res) : Prop :=
      onScratchpad ea bs.length p true s → emptyEnough f p bs.length s → nothingBefore f s → ∃ t, o = .next t ∧ storesNow f p bs s t
    (AccessLegal (.w 1 f) f.d 0 s → puts (based f s) (natLe n (s.rS f.d).toNat) (exec (.sts f) s)) ∧
    (AccessLegal (.w 4 f) f.d 0 s → puts (indexed f s) (natLe n (s.rS f.d).toNat) (exec (.stx f) s)) ∧
    (AccessLegal (.w 2 f) f.d 1 s → f.idx = 0 → puts (based f s) ((s.th.rVg f.d 1).flatMap vBytes) (exec (.stv f) s)) ∧
    (AccessLegal (.w 3 f) f.d g s → f.idx = 0 → puts (based f s) ((s.th.rVg f.d g).flatMap vBytes) (exec (.stvg f) s)) ∧
    (AccessLegal (.w 7 f) f.d 0 s → puts (based f s) (natLe 32 (s.th.rQ f.d).toNat) (exec (.stq f) s)) ∧
    (AccessLegal (.w 1 f) f.d 0 s → onScratchpad (based f s) n p true s → ¬ emptyEnough f p n s → exec (.sts f) s = stall s) ∧
    (AccessLegal (.w 1 f) f.d 0 s → onScratchpad (based f s) n p true s → emptyEnough f p n s → f.ord / 2 = 1 → s.lsbuOpen = true →
      exec (.sts f) s = stall s) ∧
    (AccessLegal (.w 1 f) f.d 0 s → onScratchpad (based f s) n p true s → emptyEnough f p n s → (f.ord / 2 = 1 → s.lsbuOpen = false) →
      ¬ nothingBefore f s → ∃ t r, exec (.sts f) s = .next t ∧ sends r .store s t ∧
        r.data = natLe n (s.rS f.d).toNat ∧ t.cores = s.cores)

/-- Stores to memory go to their home slices with their bytes, their active lanes and a reader count; the scratchpad and the registers do
not change, nor any byte of memory yet; past 128 outstanding stores the bundle stalls (16 R453 R455 R456 R457). -/
def Sys2Proof.Stated.HomeSliceStores : Prop :=
  ∀ (f : LW) (s : State) (ps : List Piece),
    let n := 2 ^ (f.ty / 2)
    let g := 2 ^ f.ty
    let puts (ea : Nat) (bs : List Byte) (count : Nat) (o : Res) : Prop :=
      onMemory f ea bs.length true ps s → someActive f bs.length ps s → (count = 0 ∨ ∀ p, p ∈ ps → p.x.cn = true) → s.storesOut s.cur < 128 →
        storesLater f bs count ps s o
    (AccessLegal (.w 1 f) f.d 0 s → puts (based f s) (natLe n (s.rS f.d).toNat) 0 (exec (.sts f) s)) ∧
    (AccessLegal (.w 4 f) f.d 0 s → puts (indexed f s) (natLe n (s.rS f.d).toNat) 0 (exec (.stx f) s)) ∧
    (AccessLegal (.w 2 f) f.d 1 s → puts (based f s) ((s.th.rVg f.d 1).flatMap vBytes) f.idx (exec (.stv f) s)) ∧
    (AccessLegal (.w 3 f) f.d g s → puts (based f s) ((s.th.rVg f.d g).flatMap vBytes) f.idx (exec (.stvg f) s)) ∧
    (AccessLegal (.w 7 f) f.d 0 s → puts (based f s) (natLe 32 (s.th.rQ f.d).toNat) 0 (exec (.stq f) s)) ∧
    (let waits (ea n count : Nat) (o : Res) : Prop := onMemory f ea n true ps s → (count = 0 ∨ ∀ p, p ∈ ps → p.x.cn = true) →
       (128 ≤ s.storesOut s.cur → o = stall s) ∧
       (s.storesOut s.cur < 128 → ¬ someActive f n ps s → ∃ t, o = .next t ∧ t.mem = s.mem ∧ t.th = s.th ∧ (t.core s.cur).spad = (s.core s.cur).spad)
     (AccessLegal (.w 1 f) f.d 0 s → waits (based f s) n 0 (exec (.sts f) s)) ∧ (AccessLegal (.w 4 f) f.d 0 s → waits (indexed f s) n 0 (exec (.stx f) s)) ∧
     (AccessLegal (.w 2 f) f.d 1 s → waits (based f s) 256 f.idx (exec (.stv f) s)) ∧
     (AccessLegal (.w 3 f) f.d g s → waits (based f s) (256 * g) f.idx (exec (.stvg f) s)) ∧
     (AccessLegal (.w 7 f) f.d 0 s → waits (based f s) 32 0 (exec (.stq f) s)))

/-- The precise traps of the register loads and stores come in the order of 16 R451, with its DETAIL and TVA. -/
def Obligations.AccessChecksComeInOrder : Prop :=
  ∀ (f : LW) (s : State),
    let n := 2 ^ (f.ty / 2)
    let g := 2 ^ f.ty
    checksInOrder (.l 1 f) f f.d 0 (based f s) n 0 false s (exec (.lds f) s) ∧
    checksInOrder (.l 2 f) f f.d 1 (based f s) 256 0 false s (exec (.ldv f) s) ∧
    checksInOrder (.l 3 f) f f.d g (based f s) (256 * g) 0 false s (exec (.ldvg f) s) ∧
    checksInOrder (.l 4 f) f f.d 0 (indexed f s) n 0 false s (exec (.ldx f) s) ∧
    checksInOrder (.l 7 f) f f.d 0 (based f s) 32 0 false s (exec (.ldq f) s) ∧
    checksInOrder (.w 1 f) f f.d 0 (based f s) n 0 true s (exec (.sts f) s) ∧
    checksInOrder (.w 2 f) f f.d 1 (based f s) 256 f.idx true s (exec (.stv f) s) ∧
    checksInOrder (.w 3 f) f f.d g (based f s) (256 * g) f.idx true s (exec (.stvg f) s) ∧
    checksInOrder (.w 4 f) f f.d 0 (indexed f s) n 0 true s (exec (.stx f) s) ∧
    checksInOrder (.w 7 f) f f.d 0 (based f s) 32 0 true s (exec (.stq f) s)

namespace Sys2Proof.Stated

/-- The offset inside a buffer slot that a form names. -/
def slotOffset (f : LW) : Int := (BitVec.ofNat 21 f.off).toInt

/-- A buffer form that may go on (16 R459 R460): handle configured, 256 aligned bytes inside the slot, which lie in an owned bank at physical
offset `p`. -/
abbrev onSlotAt (f : LW) (slot p : Nat) (s : State) : Prop :=
  s.handleOk f.idx = true ∧ slotOffset f % 256 = 0 ∧ 0 ≤ slotOffset f ∧ slotOffset f + 256 ≤ hSize (s.ctx.setupOf f.idx) ∧
    s.ctx.spadPhys (s.ctx.slotOff f.idx slot + (slotOffset f).toNat) = some p

/-- Bytes of a bank operation's operand (16 R450). -/
def operandBytes (op ty : Nat) : Nat := if op = 18 ∨ op = 19 then 16 else if op = 20 then 256 else if ty = 0 then 4 else 2 ^ (ty / 2)

/-- A bank operation may be sent: aligned on its size, every piece writable memory that is not consumable, in the Stacks where the form
asks for it, and both queues have room (16 R450 R451 R453, 08 R220). -/
abbrev bankMay (op : Nat) (f : LW) (n : Nat) (ps : List Piece) (s : State) : Prop :=
  based f s % n = 0 ∧ ¬ (0x7FFE00000000 ≤ based f s ∧ based f s < 0x7FFE00200000) ∧ f.fe = 0 ∧
    cutAccess s (s.who s.launch) true (based f s) n = .ok ps ∧
    (∀ p, p ∈ ps → p.spad = none ∧ p.x.cn = false ∧ (18 ≤ op → p.inStacks = true)) ∧ s.storesOut s.cur < 128

/-- A bank operation is on its way with its operands and draw key; its old value or status will fill S[d] (16 R462, 12 R335). -/
abbrev banked (op : Nat) (f : LW) (n : Nat) (ps : List Piece) (opB : Word) (s : State) (o : Res) : Prop :=
  ∃ t r, o = .next t ∧ sends r (.bank op f.ty) s t ∧ r.path = 1 ∧ r.opA = s.rS f.idx ∧ r.opB = opB ∧ r.key = s.launch.drawKey ∧
    r.pend = some r.id ∧ r.parts = (ps.map fun p => p.part (List.replicate n true)) ∧
    t.th.pend = s.th.pend ++ [{ id := r.id, regs := if f.d % 64 = 0 then [] else [.s (f.d % 64)], bundle := s.th.bundles }]

/-- The checks of a bank operation of `n` bytes in their order: encoding, alignment, translation, consumable page or one outside the Stacks
where the form needs them, scratchpad (16 R450 R451, 08 R220). -/
abbrev bankChecks (op : Nat) (f : LW) (n span : Nat) (s : State) (o : Res) : Prop :=
  let ea := based f s
  let legal := AccessLegal (.w op f) f.d span s
  let bars (p : Piece) : Bool := p.x.cn || (decide (18 ≤ op) && p.spad.isNone && !p.inStacks)
  ((Syll.w op f).fits = true → ¬ legal → o = traps 0x0001 (op + 32 * f.ty) ea 15 s) ∧
  (legal → ea % n ≠ 0 → o = traps 0x0103 0 ea 1 s) ∧
  (legal → ea % n = 0 → ∀ c l va, cutAccess s (s.who s.launch) true ea n = .error (c, l, va) → o = traps c (2 ^ 15 + l) va 1 s) ∧
  (legal → ea % n = 0 → ∀ ps, cutAccess s (s.who s.launch) true ea n = .ok ps →
    (∀ q, ps.find? bars = some q → o = traps 0x0102 (2 ^ 15 + q.x.lvl) q.va 1 s) ∧
    (ps.find? bars = none → (∃ p, p ∈ ps ∧ p.spad ≠ none) → o = traps 0x0006 0 ea 1 s))

/-- What a bank operation on one number leaves in memory (16 R462): `v` is its operand, `e` its expected value, at `n` bytes. -/
def bankLeaves (op ty n old v e : Nat) : Nat :=
  let less (a b : Nat) : Bool := if ty % 2 = 0 then (BitVec.ofNat (8 * n) a).slt (BitVec.ofNat (8 * n) b) else decide (a < b)
  let pick (greater : Bool) : Nat := rneFP32 (Num.pickMax greater ((ffmt 0).decode old) ((ffmt 0).decode v)).1
  match op with
  | 8 => (old + v) % 2 ^ (8 * n)
  | 10 => old &&& v
  | 11 => old ||| v
  | 12 => old ^^^ v
  | 13 => if ty = 0 then pick false else if less v old then v else old
  | 14 => if ty = 0 then pick true else if less old v then v else old
  | 15 => v
  | 16 => if old = e then v else old
  | _ => if old = 0 then 0 else old - 1

/-- Part `b` of the request that HOME_SLICE_ACCEPT names may be performed, on a line of the Stacks or HBM (09 R245 to R258). -/
abbrev accepted (r : Req) (p : Part) (s : State) : Prop :=
  s.req s.ev.a = some r ∧ r.parts[s.ev.b]? = some p ∧ s.mayPerform r s.ev.b = true ∧ s.heldMay r p = true ∧
    (p.addr < 0x80000000 ∨ (0x1000000000 ≤ p.addr ∧ p.addr < 0xA000000000))

/-- Every other part of a request is performed. -/
abbrev lastPart (r : Req) (s : State) : Prop := ∀ j q, r.parts[j]? = some q → j ≠ s.ev.b → q.done = true

/-- The request waits for LOAD_FILL with these bytes. -/
abbrev answered (r : Req) (data : List Byte) (t : State) : Prop := ∃ x, x ∈ t.mem.net ∧ x.id = r.id ∧ x.ready = true ∧ x.data = data ∧ x.pend = r.pend

/-- A store goes by the house's segment table, whose entries the hardware reads and whose STATE bytes it keeps (08 R238). -/
abbrev offTheTable (r : Req) (p : Part) (s : State) : Prop :=
  ((s.launchAt r.launch).getD {}).house = false ∨ ∀ b, s.mem.segBase = some b → ¬ (b ≤ p.addr ∧ p.addr < b + 64 * 65536)

/-- The entry that SEGMENT_LOAD_DONE names is LOADING, its page is apart from the house's table, and the Skidder's list names entries
(08 R238 R240). -/
abbrev segmentLoads (s : State) : Prop :=
  (s.seg s.ev.a).st = 1 ∧ s.ev.a < 65536 ∧ (∀ i, i ∈ s.mem.skid → i < 65536) ∧
    ∀ b, s.mem.segBase = some b → (s.seg s.ev.a).page + 0x200000 ≤ b ∨ b + 64 * 65536 ≤ (s.seg s.ev.a).page

/-- The load has failed: the Read ended in error, or the peer gave no content (08 R240 R242). -/
abbrev loadFailed (s : State) : Prop := if (s.seg s.ev.a).fromPeer then (s.seg s.ev.a).failed = true else s.ev.flag = true

/-- Beside the segment's page, only STATE bytes of the house's table differ (08 R238). -/
abbrev onlyPage (s t : State) : Prop :=
  ∀ a, ¬ ((s.seg s.ev.a).page ≤ a ∧ a < (s.seg s.ev.a).page + 0x200000) → (∀ b i, s.mem.segBase = some b → a ≠ b + 64 * i + 40) →
    Memory.read t.mem.bytes a = Memory.read s.mem.bytes a

/-- No byte of memory outside `n` bytes at `a` differs. -/
abbrev onlyBytes (a n : Nat) (s t : State) : Prop :=
  ∀ b, ¬ (a ≤ b ∧ b < a + n) → Memory.read t.mem.bytes b = Memory.read s.mem.bytes b

end Sys2Proof.Stated

/-- ldcb reads 256 bytes of the slot at CP at latency 4; with .cons the slot drains, its count falls, and at zero it is FREE and CP moves on;
it waits for a slot that is not FULL yet. stcb claims the slot at PP and writes V[d] into it, leaving the full bits (16 R459 R460). -/
def Sys2Proof.Stated.BufferSlotForms : Prop :=
  ∀ (f : LW) (s : State) (p : Nat),
    let d := s.ctx.handle f.idx
    (AccessLegal (.l 5 f) f.d 1 s → onSlotAt f d.cp p s → d.atCp = some true → s.spadHeld false = false →
      ∃ t, exec (.ldcb f) s = .next t ∧ t.mem = s.mem ∧
        t.th = s.th.landVg 4 (vgroup s.th.rot f.d 1) [spadRow p s] [maskBits 2048 (activeBytes f 256 s)] 0 ∧
        (f.x = 0 → t.ctx = s.ctx) ∧
        (f.x = 1 →
          let e := t.ctx.handle f.idx
          (1 < d.count d.cp → e.state d.cp = 3 ∧ e.count d.cp = d.count d.cp - 1 ∧ e.cp = d.cp) ∧
          (d.count d.cp = 1 → e.state d.cp = 0 ∧ e.cp = (d.cp + 1) % hSlots (s.ctx.setupOf f.idx)) ∧
          (d.count d.cp = 0 → e.state d.cp = 3 ∧ e.cp = d.cp))) ∧
    (AccessLegal (.l 5 f) f.d 1 s → onSlotAt f d.cp p s → d.atCp = none → exec (.ldcb f) s = stall s) ∧
    (AccessLegal (.w 5 f) f.d 1 s → onSlotAt f d.pp p s → d.writable d.pp = true → s.spadHeld true = false → nothingBefore f s →
      ∃ t, exec (.stcb f) s = .next t ∧ t.mem = s.mem ∧ t.th = s.th ∧ (t.core s.cur).full = (s.core s.cur).full ∧
        t.ctx.handle f.idx = d.claim d.pp ∧
        (∀ a, Memory.read (t.core s.cur).spad a =
          if p ≤ a ∧ a < p + 256 ∧ (s.th.rQ f.qp).getLsbD (a - p) = true then ((s.th.rVg f.d 1).flatMap vBytes).getD (a - p) 0
          else Memory.read (s.core s.cur).spad a)) ∧
    (AccessLegal (.w 5 f) f.d 1 s → onSlotAt f d.pp p s → d.writable d.pp = false → exec (.stcb f) s = stall s) ∧
    (AccessLegal (.l 5 f) f.d 1 s → s.handleOk f.idx = false → exec (.ldcb f) s = traps 0x0001 (5 + 32 * f.ty) 0 15 s) ∧
    (AccessLegal (.w 5 f) f.d 1 s → s.handleOk f.idx = false → exec (.stcb f) s = traps 0x0001 (5 + 32 * f.ty) 0 15 s)

/-- Bank operations go to the home slice with their operands; those that return a value mark S[d] pending (16 R462 to R465); the checks of
16 R451 come in their order, ACCESS for a consumable page or one outside the Stacks and BANKOP for the scratchpad among them. -/
def Obligations.BankOperationsAreSent : Prop :=
  ∀ (f : LW) (s : State) (ps : List Piece),
    let goes (op : Nat) (opB : Word) (o : Res) : Prop :=
      let n := operandBytes op f.ty
      AccessLegal (.w op f) f.d 0 s → bankMay op f n ps s → s.th.outstanding < 64 → banked op f n ps opB s o
    goes 8 0 (exec (.aadd f) s) ∧ goes 10 0 (exec (.aand f) s) ∧ goes 11 0 (exec (.aor f) s) ∧ goes 12 0 (exec (.axor f) s) ∧
    goes 13 0 (exec (.amin f) s) ∧ goes 14 0 (exec (.amax f) s) ∧ goes 15 0 (exec (.aswp f) s) ∧ goes 16 (s.rS f.d) (exec (.acas f) s) ∧
    goes 17 0 (exec (.adec f) s) ∧ goes 18 0 (exec (.alpush f) s) ∧ goes 19 0 (exec (.alpop f) s) ∧
    goes 20 (BitVec.ofNat 64 (f.d / 64 % 16)) (exec (.adraw f) s) ∧
    (let n := 2 ^ f.idx
     let w := if f.ty = 0 then 4 else 2
     let lanes := (List.range n).map fun i => (s.th.rQ f.qp).getLsbD (i / w * w)
     AccessLegal (.w 9 f) f.d 1 s → bankMay 9 f n ps s → lanes.any id = true → ∃ t r, exec (.aaddf f) s = .next t ∧
       sends r (.bank 9 f.ty) s t ∧ r.data = ((s.th.rVg f.d 1).flatMap vBytes).take n ∧ r.mask = lanes ∧ r.pend = none ∧
       r.parts = (ps.map fun p => p.part lanes) ∧ t.th = s.th) ∧
    (AccessLegal (.w 8 f) f.d 0 s → bankMay 8 f (operandBytes 8 f.ty) ps s → 64 ≤ s.th.outstanding → exec (.aadd f) s = stall s) ∧
    (let n (op : Nat) := operandBytes op f.ty
     bankChecks 8 f (n 8) 0 s (exec (.aadd f) s) ∧ bankChecks 9 f (2 ^ f.idx) 1 s (exec (.aaddf f) s) ∧ bankChecks 10 f (n 10) 0 s (exec (.aand f) s) ∧
     bankChecks 11 f (n 11) 0 s (exec (.aor f) s) ∧ bankChecks 12 f (n 12) 0 s (exec (.axor f) s) ∧ bankChecks 13 f (n 13) 0 s (exec (.amin f) s) ∧
     bankChecks 14 f (n 14) 0 s (exec (.amax f) s) ∧ bankChecks 15 f (n 15) 0 s (exec (.aswp f) s) ∧ bankChecks 16 f (n 16) 0 s (exec (.acas f) s) ∧
     bankChecks 17 f (n 17) 0 s (exec (.adec f) s) ∧ bankChecks 18 f (n 18) 0 s (exec (.alpush f) s) ∧
     bankChecks 19 f (n 19) 0 s (exec (.alpop f) s) ∧ bankChecks 20 f (n 20) 0 s (exec (.adraw f) s))

/-- HOME_SLICE_ACCEPT performs a part at its line (09 R245 R246, 16 R453 R462 R464, 08 R221 R233 R234): a store's active bytes, with the line's
form and count when it writes the line whole; a load's bytes, counting a consumable line down; a bank operation's read-modify-write with the
old value returned; a push and a pop of a free list. No other byte of memory changes. -/
def Sys2Proof.Stated.HomeSlicesPerformAccesses : Prop :=
  ∀ (s : State) (r : Req) (p : Part), accepted r p s → r.fault = none →
    let mask := slice r.mask p.off p.len
    let bs := slice r.data p.off p.len
    let l := s.line p.addr
    (r.kind = .store → s.zeroMarked p.addr = false → s.pageDirty p.addr p.tag = false → offTheTable r p s → l.writeFault (p.len == 128 && mask.all id) = none →
      ∃ t, exec .homeSliceAccept s = .next t ∧
        (∀ a, Memory.read t.mem.bytes a =
          if p.addr ≤ a ∧ a < p.addr + bs.length ∧ mask.getD (a - p.addr) false = true then bs.getD (a - p.addr) 0
          else Memory.read s.mem.bytes a) ∧
        (bs.length = 128 → mask.all id = true →
          t.line p.addr = { l with cipher := false, icv := 0, count := r.stamp, tomb := false, poison := false, tag := p.tag % 0x4000 })) ∧
    (r.kind = .load → s.segWaits p.addr = none → l.readFault false = none → lastPart r s → r.pend.isSome = true →
      ∃ t, exec .homeSliceAccept s = .next t ∧ answered r (splice r.data p.off (s.phys p.addr p.len)) t ∧
        (p.cn = false ∨ l.count = 0 → t.mem.lines = s.mem.lines ∧ t.mem.bytes = s.mem.bytes) ∧
        (p.cn = true → 1 < l.count → t.line p.addr = { l with count := l.count - 1 } ∧ t.mem.bytes = s.mem.bytes) ∧
        (p.cn = true → l.count = 1 → t.line p.addr = { l with count := 0, tomb := true } ∧
          onlyBytes (p.addr / 128 * 128) 128 s t ∧ t.phys (p.addr / 128 * 128) 128 = List.replicate 128 0)) ∧
    (∀ op ty, r.kind = .bank op ty → op = 8 ∨ (10 ≤ op ∧ op ≤ 17) → ty ≤ 7 → (∀ q, q ∈ r.parts → (s.line q.addr).readFault false = none) →
      s.zeroMarked p.addr = false → s.pageDirty p.addr p.tag = false → r.pend.isSome = true →
      let n := operandBytes op ty
      let old := s.physLe p.addr n
      ∃ t, exec .homeSliceAccept s = .next t ∧ onlyBytes p.addr n s t ∧
        t.physLe p.addr n = bankLeaves op ty n old (r.opA.toNat % 2 ^ (8 * n)) (r.opB.toNat % 2 ^ (8 * n)) ∧
        answered r (natLe 8 (if ty = 0 then BitVec.ofNat 64 old else loaded ty old).toNat) t) ∧
    (∀ ty, r.kind = .bank 19 ty → (∀ q, q ∈ r.parts → (s.line q.addr).readFault false = none) → s.zeroMarked p.addr = false →
      s.pageDirty p.addr p.tag = false → s.entryFault 19 p.addr = none → r.pend.isSome = true →
      let n := s.physLe p.addr 4
      let off := s.physLe (p.addr + 8) 4
      n ≤ s.physLe (p.addr + 4) 4 → off + 8 * s.physLe (p.addr + 4) 4 ≤ 0x200000 → off % 8 = 0 → s.physLe (p.addr + 12) 4 = 0 →
      ∃ t, exec .homeSliceAccept s = .next t ∧ onlyBytes p.addr 4 s t ∧ t.physLe p.addr 4 = n - 1 ∧
        (n = 0 → answered r (natLe 8 (2 ^ 64 - 1)) t) ∧
        (0 < n → answered r (natLe 8 (s.physLe (p.addr / 0x200000 * 0x200000 + off + 8 * (n - 1)) 8)) t))

/-- LOAD_FILL writes a result into its pending scalar register, extended by the type, and clears the pending mark; no other register changes
(12 R335, 16 R453 R455 R462). -/
def Sys2Proof.Stated.LoadFillWritesTheRegister : Prop :=
  ∀ (s : State) (r : Req) (d b : Nat), s.req s.ev.a = some r → r.ready = true → (s.core r.core).freeze = 0 → 1 ≤ d →
    ((s.core r.core).th.pend.find? fun p => p.id == r.id) = some { id := r.id, regs := [.s d], bundle := b } →
    (r.kind = .load ∧ r.ty ≤ 7 ∨ ∃ op ty, r.kind = .bank op ty) →
    ∃ t, exec .loadFill s = .next t ∧
      (t.core r.core).th.rS d = (if r.kind = .load then loaded r.ty (leNat r.data) else BitVec.ofNat 64 (leNat r.data)) ∧
      (∀ e, e ≠ d → (t.core r.core).th.rS e = (s.core r.core).th.rS e) ∧
      (t.core r.core).th.v = (s.core r.core).th.v ∧ (t.core r.core).th.q = (s.core r.core).th.q ∧
      (∀ x, x ∈ (t.core r.core).th.pend → x.id ≠ r.id) ∧ t.mem.bytes = s.mem.bytes

/-- LATE_TRAP takes the first late fault before the next bundle; ZERO_FILL_DONE clears a page's zero mark; SEGMENT_LOAD_DONE makes a segment
PRESENT when its content has the entry's hash, and otherwise retries it once, from the other source where it has two (11 R316, 05 R143,
08 R240 R241). -/
def Sys2Proof.Stated.MemoryEventsComplete : Prop :=
  ∀ (s : State),
    (∀ x rest, (s.core s.ev.a).th.late = x :: rest → (s.core s.ev.a).th.drain = .none → s.engineOn s.ev.a = true →
      (s.core s.ev.a).strand.isSome = true → (s.core s.ev.a).th.th = false → ({ s with cur := s.ev.a } : State).launch.record.trapv ≠ 0 →
      causeClass x.cause ≤ 4 →
      ∃ t, exec .lateTrap s = .next t ∧ (t.core s.ev.a).th.th = true ∧ (t.core s.ev.a).th.late = rest ∧
        (t.core s.ev.a).th.pc = ({ s with cur := s.ev.a } : State).launch.record.trapv ∧
        (t.core s.ev.a).th.trs = BitVec.ofNat 64 ((s.core s.ev.a).th.slotRes % 16 * 2 ^ 48 + (s.core s.ev.a).th.pc % 2 ^ 48) ∧
        (t.core s.ev.a).th.tva = BitVec.ofNat 64 (x.tva % 2 ^ 48) ∧ (t.core s.ev.a).th.s = (s.core s.ev.a).th.s ∧ t.mem = s.mem) ∧
    (s.ev.a ∈ s.mem.zeroFill → ∃ t, exec .zeroFillDone s = .next t ∧ s.ev.a ∉ t.mem.zeroFill ∧
      UnitSetMem t.mem.zeroMark.rest t.mem.zeroMark.but s.ev.a = false ∧ t.mem.bytes = s.mem.bytes ∧ t.cores = s.cores) ∧
    (segmentLoads s → (s.seg s.ev.a).fromPeer = false → s.ev.flag = false → s.ev.bytes.length = 0x200000 →
      sha256 s.ev.bytes = (s.seg s.ev.a).hash → ∃ t, exec .segmentLoadDone s = .next t ∧ (t.seg s.ev.a).st = 2 ∧ onlyPage s t ∧
        ∀ k, k < 0x200000 → Memory.read t.mem.bytes ((s.seg s.ev.a).page + k) = s.ev.bytes.getD k 0) ∧
    (segmentLoads s → loadFailed s → (s.seg s.ev.a).retried = false → ∃ t, exec .segmentLoadDone s = .next t ∧
      (t.seg s.ev.a).st = 1 ∧ (t.seg s.ev.a).retried = true ∧ onlyPage s t ∧
      (t.seg s.ev.a).fromPeer = (if (s.seg s.ev.a).sources % 4 = 3 then !(s.seg s.ev.a).fromPeer else (s.seg s.ev.a).fromPeer)) ∧
    (segmentLoads s → loadFailed s → (s.seg s.ev.a).retried = true → ∃ t, exec .segmentLoadDone s = .next t ∧
      (t.seg s.ev.a).st = 3 ∧ onlyPage s t) ∧
    ((s.seg s.ev.a).fromPeer = true → (s.seg s.ev.a).failed = false → (s.seg s.ev.a).got < 0x200000 → exec .segmentLoadDone s = .next s)

namespace Sys2Proof.Stated

/-- Registers, memory and Circulation stay as they are. -/
abbrev leavesAlone (s t : State) : Prop := t.th = s.th ∧ t.mem = s.mem ∧ t.circ = s.circ ∧ t.ctx = s.ctx

/-- A fence of the core waits in its path with the accesses that it orders (09 R257 R258). -/
abbrev fenced (kind : ReqKind) (s t : State) : Prop :=
  ∃ r, t.mem.net = s.mem.net ++ [r] ∧ r.kind = kind ∧ r.core = s.cur ∧ r.id = s.mem.nextReq ∧ t.mem.bytes = s.mem.bytes ∧ t.th = s.th

/-- The scalar data cache of the issuing core is empty. -/
abbrev emptied (s t : State) : Prop := (t.core s.cur).dcache = []

/-- The set-up word's reserved bits (08 R228). -/
abbrev setupReserved (w : Word) : Prop := w.toNat / 2 ^ 56 = 0 ∧ w.toNat / 2 ^ 32 % 2 ^ 8 = 0 ∧ w.toNat / 2 ^ 13 % 2 ^ 17 = 0

/-- The ring of a set-up word lies in the launch's scratchpad (17 R484). -/
abbrev ringFits (w : Word) (s : State) : Prop :=
  w.toNat / 2 ^ 31 % 2 = 1 →
    w.toNat % 2 ^ 13 * 256 + (w.toNat / 2 ^ 48 % 2 ^ 8 + 1) * ((w.toNat / 2 ^ 40 % 2 ^ 8 + 1) * 256) ≤ s.launch.record.spb * 0x4000

/-- Nothing still has to write the slot that handle `h` has at PP (17 R486). -/
abbrev writesMade (h : Nat) (s : State) : Prop :=
  s.writers (s.who s.launch) s.cur h (s.ctx.handle h).pp = [] ∧ s.heldWrites = [] ∧ s.th.draining h (s.ctx.handle h).pp = false

/-- The alignment of `n` accumulator banks: the least power of two from n on, at most 32 (07 R200). -/
def alignFor (n : Nat) : Nat := if n ≤ 1 then 1 else if n ≤ 2 then 2 else if n ≤ 4 then 4 else if n ≤ 8 then 8 else if n ≤ 16 then 16 else 32

/-- `n` banks from `b` on are free, aligned and of one plane that the choice allows: 0, 1, or either (07 R200). -/
abbrev bankRun (choice n b : Nat) (s : State) : Prop :=
  b % alignFor n = 0 ∧ b + n ≤ 256 ∧ b / 128 = (b + n - 1) / 128 ∧ (choice ≠ 2 → b / 128 = choice) ∧
    ∀ j, j < n → (s.core s.cur).bankFree (b + j) = true

/-- Only the Grader of the core changes. -/
abbrev onlyGrader (s t : State) : Prop := t = s.modCtx fun x => { x with gnodes := t.ctx.gnodes, gcap := t.ctx.gcap, gdir := t.ctx.gdir }

/-- Nodes in rank order, and each id once. -/
abbrev ranked (dir : Bool) (l : List GNode) : Prop := l.Pairwise fun a b => a.before dir b = true

end Sys2Proof.Stated

/-! Synchronisation slot (chapter 17; 09 R257 R258 R262, 07 R191 R193). -/

/-- Fences, events, groups, barriers, seqwait and swaptok: each waits on what its rule names and then has that rule's effect. -/
def Obligations.FencesEventsAndGroups : Prop :=
  ∀ (s : State),
    (∀ f : YF, Legal (.yf 1 f) →
      (f.kind ≠ 2 → s.fenceOpen s.cur f.kind s.th.reqStart = true → exec (.fence f) s = stall s) ∧
      (f.kind = 2 ∨ s.fenceOpen s.cur f.kind s.th.reqStart = false → ∃ t, exec (.fence f) s = .next t ∧
        (f.kind ≠ 2 → emptied s t) ∧ (s.fenceOpen s.cur f.kind s.mem.nextReq = false → leavesAlone s t) ∧
        (s.fenceOpen s.cur f.kind s.mem.nextReq = true → fenced (.fence f.kind) s t))) ∧
    (∀ f : YP, Legal (.yp 2 f) →
      (f.after % 4 ≠ 0 → s.pathsBusy s.cur f.before s.th.reqStart s.th.cycle f.scope = true → exec (.pfence f) s = stall (s.waitPasses f.before)) ∧
      (f.after % 4 = 0 ∨ s.pathsBusy s.cur f.before s.th.reqStart s.th.cycle f.scope = false → ∃ t, exec (.pfence f) s = .next t ∧
        (f.after % 2 = 1 → emptied s t) ∧ (s.pathsBusy s.cur f.before s.mem.nextReq (s.th.cycle + 1) f.scope = false → leavesAlone s t) ∧
        (s.pathsBusy s.cur f.before s.mem.nextReq (s.th.cycle + 1) f.scope = true → f.after % 2 = 0 → fenced (.pfence f.before f.after) s t))) ∧
    (∀ (f : YE) n l, Legal (.ye 15 f) → onSlot n l s →
      ((s.rS f.sa).toNat < 2 ^ 32 → s.releaseOpen s.cur s.mem.nextReq = false → s.signalOpen s.cur = false → ∃ t l', exec (.evsig f) s = .next t ∧
        t.launchAt n = some l' ∧ l'.event f.event = l.event f.event + (s.rS f.sa).setWidth 32 ∧ ∀ e, e ≠ f.event → l'.event e = l.event e) ∧
      ((s.rS f.sa).toNat < 2 ^ 32 → s.releaseOpen s.cur s.mem.nextReq = true ∨ s.signalOpen s.cur = true → ∃ t, exec (.evsig f) s = .next t ∧
        fenced (.signal f.event (s.rS f.sa).toNat) s t ∧ t.launchAt n = some l) ∧
      (2 ^ 32 ≤ (s.rS f.sa).toNat → exec (.evsig f) s = traps 0x0001 15 0 15 s)) ∧
    (∀ (f : YE) n l, Legal (.ye 14 f) → onSlot n l s →
      ((s.rS f.sa).toNat < 2 ^ 32 → s.signalOpen s.cur = true → exec (.evwait f) s = stall s) ∧
      ((s.rS f.sa).toNat < 2 ^ 32 → s.signalOpen s.cur = false → (l.event f.event - (s.rS f.sa).setWidth 32).toNat < 2 ^ 31 →
        ∃ t, exec (.evwait f) s = .next t ∧ leavesAlone s t ∧ emptied s t) ∧
      ((s.rS f.sa).toNat < 2 ^ 32 → 2 ^ 31 ≤ (l.event f.event - (s.rS f.sa).setWidth 32).toNat → exec (.evwait f) s = stall s) ∧
      (2 ^ 32 ≤ (s.rS f.sa).toNat → exec (.evwait f) s = traps 0x0001 14 0 15 s)) ∧
    (∀ f : YG, s.signalOpen s.cur = true → (Legal (.yg 9 f) → exec (.join f) s = stall s) ∧ (Legal (.yg 10 f) → exec (.leave f) s = stall s)) ∧
    (∀ (f : YG) n l, Legal (.yg 9 f) → onSlot n l s → s.signalOpen s.cur = false → ∃ t l', exec (.join f) s = .next t ∧ t.launchAt n = some l' ∧
      (∀ i, i ∈ (l'.group f.group).members ↔ i = s.strandNo ∨ i ∈ (l.group f.group).members) ∧
      t.th.gmk = s.th.gmk ||| BitVec.ofNat 64 (2 ^ f.group) ∧ t.mem = s.mem) ∧
    (∀ (f : YG) n l, Legal (.yg 10 f) → onSlot n l s → s.signalOpen s.cur = false → ∃ t l', exec (.leave f) s = .next t ∧ t.launchAt n = some l' ∧
      (∀ i, i ∈ (l'.group f.group).members ↔ i ≠ s.strandNo ∧ i ∈ (l.group f.group).members) ∧
      t.th.gmk = s.th.gmk &&& ~~~(BitVec.ofNat 64 (2 ^ f.group)) ∧ t.mem = s.mem) ∧
    (∀ (f : YG) n l, Legal (.yg 11 f) → onSlot n l s →
      let g := l.group f.group
      let me := s.strandNo
      (∀ p, s.th.barWait.find? (fun b => b.1 == f.group) = some (f.group, p) →
        (p < g.phase → ∃ t, exec (.bar f) s = .next t ∧ emptied s t ∧ t.th.stalled = s.th.stalled ∧ t.mem = s.mem) ∧
        (g.phase ≤ p → exec (.bar f) s = stall s)) ∧
      (s.th.barWait.find? (fun b => b.1 == f.group) = none →
        (me ∉ g.members → exec (.bar f) s = traps 0x0404 f.group 0 15 s) ∧
        (me ∈ g.members → l.record.gang = false → g.members ≠ [me] → exec (.bar f) s = traps 0x0405 f.group 0 15 s) ∧
        (me ∈ g.members → l.record.gang = true ∨ g.members = [me] → s.releaseOpen s.cur s.th.reqStart = true ∨ s.signalOpen s.cur = true →
          exec (.bar f) s = stall s) ∧
        (me ∈ g.members → l.record.gang = true ∨ g.members = [me] → s.releaseOpen s.cur s.th.reqStart = false → s.signalOpen s.cur = false →
          (∀ ms, g.phaseMembers = some ms → me ∈ ms → (∀ i, i ∈ ms → i = me ∨ i ∈ g.arrived) →
            ∃ t l', exec (.bar f) s = .next t ∧ t.launchAt n = some l' ∧ g.phase < (l'.group f.group).phase ∧ emptied s t ∧
              t.th.stalled = s.th.stalled) ∧
          (g.phaseMembers = none → g.members = [me] → g.next = [] →
            ∃ t l', exec (.bar f) s = .next t ∧ t.launchAt n = some l' ∧ (l'.group f.group).phase = g.phase + 1 ∧ emptied s t) ∧
          (g.phaseMembers = none → (∃ i, i ∈ g.members ∧ i ≠ me) →
            ∃ t l', exec (.bar f) s = .next t ∧ t.launchAt n = some l' ∧ (l'.group f.group).phase = g.phase ∧
              (l'.group f.group).arrived = [me] ∧ t.th.stalled = true ∧ (f.group, g.phase) ∈ t.th.barWait)))) ∧
    (∀ f : YR, Legal (.yr 0x18 f) →
      (s.launch.record.bkt = true → s.rS f.sa = 0 ∨ s.rS f.sa = 1 → (s.core s.cur).seqWrites ≠ [] → exec (.seqwait f) s = stall s) ∧
      (s.launch.record.bkt = true → s.rS f.sa = 0 → (s.core s.cur).seqWrites = [] → exec (.seqwait f) s = .next s) ∧
      (s.launch.record.bkt = true → s.rS f.sa = 1 → (s.core s.cur).seqWrites = [] → exec (.seqwait f) s =
        .next (s.modTh fun th => { th with occ := s.launch.occ.setWidth 64, dlen := s.launch.dlen.setWidth 64 })) ∧
      (s.launch.record.bkt = false ∨ (s.rS f.sa ≠ 0 ∧ s.rS f.sa ≠ 1) → exec (.seqwait f) s = traps 0x0001 0x18 0 15 s)) ∧
    (∀ f : YR, Legal (.yr 0x10 f) →
      ((s.rS f.sa).toNat % 4 = 0 → (s.rS f.sa).toNat < 2 ^ 48 → exec (.swaptok f) s = .next (endsWith (.flip (s.rS f.sa).toNat) s)) ∧
      (¬ ((s.rS f.sa).toNat % 4 = 0 ∧ (s.rS f.sa).toNat < 2 ^ 48) → exec (.swaptok f) s = traps 0x0001 0x10 0 15 s))

/-- The buffer-handle forms (17 R484 to R487 R508, 08 R228 to R232 R236). -/
def Sys2Proof.Stated.BufferHandleForms : Prop :=
  ∀ (f : YH) (s : State),
    let d := s.ctx.handle f.h
    let w := s.rS f.sa
    let n := w.toNat
    let slots := hSlots (s.ctx.setupOf f.h)
    let others (t : State) : Prop := ∀ g, g ≠ f.h → t.ctx.handle g = s.ctx.handle g
    (Legal (.yh 3 f) → setupReserved w → f.h < s.launch.record.hnd → ringFits w s → s.handleBusy s.cur f.h = false →
      ∃ t, exec (.cbinit f) s = .next t ∧ t.ctx.setupOf f.h = w ∧ t.ctx.handle f.h = {} ∧ others t ∧
        (∀ g, g ≠ f.h → t.ctx.setupOf g = s.ctx.setupOf g) ∧ t.mem = s.mem) ∧
    (Legal (.yh 3 f) → setupReserved w → f.h < s.launch.record.hnd → ringFits w s → s.handleBusy s.cur f.h = true → exec (.cbinit f) s = stall s) ∧
    (Legal (.yh 3 f) → ¬ (setupReserved w ∧ f.h < s.launch.record.hnd ∧ ringFits w s) → exec (.cbinit f) s = traps 0x0001 3 0 15 s) ∧
    (s.handleOk f.h = false →
      (Legal (.yh 4 f) → exec (.cbwaitFree f) s = traps 0x0001 4 0 15 s ∧ exec (.cbwaitFull f) s = traps 0x0001 4 0 15 s) ∧
      (Legal (.yh 5 f) → exec (.cbadvProd f) s = traps 0x0001 5 0 15 s ∧ exec (.cbadvCons f) s = traps 0x0001 5 0 15 s) ∧
      (Legal (.yh 6 f) → exec (.cbrel f) s = traps 0x0001 6 0 15 s)) ∧
    (s.handleOk f.h = true →
      (Legal (.yh 4 f) → d.closed = false → d.writable d.pp = true → ∃ t, exec (.cbwaitFree f) s = .next t ∧
        (t.ctx.handle f.h).state d.pp = 1 ∧ (t.ctx.handle f.h).pp = d.pp ∧ others t ∧ t.th = s.th ∧ t.mem = s.mem) ∧
      (Legal (.yh 4 f) → d.closed = false → d.writable d.pp = false → exec (.cbwaitFree f) s = stall s) ∧
      (Legal (.yh 4 f) → d.closed = true → exec (.cbwaitFree f) s = traps 0x0001 4 0 15 s) ∧
      (Legal (.yh 4 f) → d.atCp = some true → ∃ t, exec (.cbwaitFull f) s = .next t ∧
        (t.ctx.handle f.h).state d.cp = 3 ∧ (t.ctx.handle f.h).cp = d.cp ∧ others t ∧ t.th = s.th ∧ t.mem = s.mem) ∧
      (Legal (.yh 4 f) → d.atCp = none → exec (.cbwaitFull f) s = stall s) ∧
      (Legal (.yh 4 f) → d.atCp = some false → ∃ v, exec (.cbwaitFull f) s = .next (trapAt 0x0201 0 v 15 s).draw) ∧
      (Legal (.yh 5 f) → n ≤ 15 → (n = 0 ∨ hCnt (s.ctx.setupOf f.h) = true) → d.closed = false → d.writable d.pp = true →
        ∃ t, exec (.cbadvProd f) s = .next t ∧ (t.ctx.handle f.h).pp = (d.pp + 1) % slots ∧ others t ∧ t.mem = s.mem ∧
          (writesMade f.h s → (t.ctx.handle f.h).state d.pp = 2 ∧ (t.ctx.handle f.h).count d.pp = n) ∧
          (¬ writesMade f.h s → (t.ctx.handle f.h).state d.pp = 1)) ∧
      (Legal (.yh 5 f) → ¬ (n ≤ 15 ∧ (n = 0 ∨ hCnt (s.ctx.setupOf f.h) = true) ∧ d.closed = false ∧ d.writable d.pp = true) →
        exec (.cbadvProd f) s = traps 0x0001 5 0 15 s) ∧
      (Legal (.yh 5 f) → d.atCp = some true → ∀ k l, onSlot k l s → ∃ t l', exec (.cbadvCons f) s = .next t ∧
        (t.ctx.handle f.h).state d.cp = 0 ∧ (t.ctx.handle f.h).cp = (d.cp + 1) % slots ∧ others t ∧ t.launchAt k = some l' ∧
        l'.faults = (if d.count d.cp = 0 then l.faults else (l.faults + 1) % 2 ^ 32)) ∧
      (Legal (.yh 5 f) → d.atCp = none → exec (.cbadvCons f) s = stall s) ∧
      (Legal (.yh 6 f) → d.closed = false → ∃ t, exec (.cbrel f) s = .next t ∧ others t ∧ t.th = s.th ∧
        ((∀ p, p ∈ d.st → p.2 = 1 → d.leaving p.1 = true) → (t.ctx.handle f.h).closed = true) ∧
        ((∃ p, p ∈ d.st ∧ p.2 = 1 ∧ d.leaving p.1 = false) → (t.ctx.handle f.h).closed = false ∧ (t.ctx.handle f.h).closing = true))) ∧
    (∀ p, Legal (.yh 6 f) → cutAccess s (s.who s.launch) false n 1 = .ok [p] →
      (p.x.cn = true → ∃ t r, exec (.cbrelLine f) s = .next t ∧ sends r .release s t ∧ r.parts = [p.part [true]] ∧ t.th = s.th) ∧
      (p.x.cn = false → exec (.cbrelLine f) s = traps 0x0102 p.x.lvl p.va 0 s))

/-- Scratchpad banks, accumulator banks, the Grader and row progress (07 R194 to R196 R200 R201, 17 R490 to R492). -/
def Obligations.BanksGraderAndRowProgress : Prop :=
  ∀ (s : State),
    (∀ f : YB, Legal (.yb 7 f) →
      (s.launch.record.spb ≤ f.bank → exec (.bkrel f) s = traps 0x0005 (f.bank % 256) (0x7FFE00000000 + 0x4000 * f.bank) 15 s) ∧
      (f.bank < s.launch.record.spb → f.bank ∉ s.ctx.own ∨ s.ctx.releasing f.bank = true → exec (.bkrel f) s = .next s) ∧
      (f.bank < s.launch.record.spb → f.bank ∈ s.ctx.own → s.ctx.releasing f.bank = false → ∃ t, exec (.bkrel f) s = .next t ∧ t.th = s.th ∧
        t.mem = s.mem ∧
        (s.heldOfBank s.cur f.bank = [] → s.opsOfBank s.cur f.bank = [] → f.bank ∉ t.ctx.own ∧ t.ctx.releasing f.bank = false) ∧
        (s.bankDone s.cur (f.bank, s.heldOfBank s.cur f.bank, s.opsOfBank s.cur f.bank) = false →
          t.ctx.own = s.ctx.own ∧ t.ctx.releasing f.bank = true))) ∧
    (∀ f : YB, Legal (.yb 8 f) →
      (s.launch.record.spb ≤ f.bank → exec (.bkacq f) s = traps 0x0005 (f.bank % 256) (0x7FFE00000000 + 0x4000 * f.bank) 15 s) ∧
      (f.bank < s.launch.record.spb → f.bank ∉ s.ctx.own → exec (.bkacq f) s = .next (s.modCtx fun x => { x with own := x.own ++ [f.bank] })) ∧
      (f.bank < s.launch.record.spb → f.bank ∈ s.ctx.own → s.ctx.releasing f.bank = true → exec (.bkacq f) s = stall s) ∧
      (f.bank < s.launch.record.spb → f.bank ∈ s.ctx.own → s.ctx.releasing f.bank = false →
        exec (.bkacq f) s = traps 0x0403 (f.bank % 256) (0x7FFE00000000 + 0x4000 * f.bank) 15 s)) ∧
    (∀ f : YA, Legal (.ya 12 f) →
      let n := (s.rS f.sa).toNat
      (n = 0 ∨ 128 < n → exec (.aballoc f) s = traps 0x0001 12 0 15 s) ∧
      (1 ≤ n → n ≤ 128 → s.launch.record.acc < s.ctx.banksUsed + n ∨ (∀ b, ¬ bankRun f.choice n b s) →
        exec (.aballoc f) s = .next (s.landS 2 f.sd (BitVec.allOnes 64))) ∧
      (1 ≤ n → n ≤ 128 → s.ctx.banksUsed + n ≤ s.launch.record.acc → ∀ b, bankRun f.choice n b s → (∀ c, c < b → ¬ bankRun f.choice n c s) →
        ∃ t, exec (.aballoc f) s = .next t ∧ t.th = (s.landS 2 f.sd (BitVec.ofNat 64 b)).th ∧ t.mem = s.mem ∧
          ∀ k, SMap.get t.ctx.held k 0 = if b ≤ k ∧ k < b + n then s.strandNo + 1 else SMap.get s.ctx.held k 0)) ∧
    (∀ f : YA, Legal (.ya 13 f) →
      let n := (s.rS f.sa).toNat
      let b := (s.rS f.sd).toNat
      let mine := b + n ≤ 256 ∧ ∀ i, i < n → SMap.get s.ctx.held (b + i) 0 = s.strandNo + 1
      (n = 0 → exec (.abfree f) s = .next s) ∧
      (1 ≤ n → ¬ mine → exec (.abfree f) s = traps 0x0402 (b % 256) 0 15 s) ∧
      (1 ≤ n → mine → ∃ t, exec (.abfree f) s = .next t ∧ t.th = s.th ∧ t.mem = s.mem ∧
        (∀ k, SMap.get t.ctx.held k 0 = if b ≤ k ∧ k < b + n then 0 else SMap.get s.ctx.held k 0) ∧
        (∀ p tl, SMap.get t.ctx.matrix.tile p none = some tl → ¬ (tl < b + n ∧ b < tl + 32)))) ∧
    (∀ f : YR, Legal (.yr 0x11 f) → 1 ≤ (s.rS f.sa).toNat → (s.rS f.sa).toNat ≤ 1024 → (s.rS f.sb).toNat ≤ 1 →
      exec (.grinit f) s = .next (s.modCtx fun x => { x with gnodes := [], gcap := (s.rS f.sa).toNat, gdir := decide ((s.rS f.sb).toNat = 1) })) ∧
    (∀ f : YR, Legal (.yr 0x12 f) → (s.rS f.sa).toNat < 2 ^ 32 → (s.rS f.sb).toNat < 2 ^ 32 →
      let n : GNode := { id := (s.rS f.sa).setWidth 16, parent := (s.rS f.sa >>> 16).setWidth 16, prio := (s.rS f.sb).setWidth 32 }
      let rest := s.ctx.gnodes.filter fun m => m.id != n.id
      (((ffmt 0).decode n.prio.toNat).isNan = true → exec (.grpush f) s =
        .next (s.modTh fun th => th.land 1 none 0 0 flNV)) ∧
      (((ffmt 0).decode n.prio.toNat).isNan = false → ∃ t, exec (.grpush f) s = .next t ∧ onlyGrader s t ∧
        (rest.length < s.ctx.gcap → ∀ m, m ∈ t.ctx.gnodes ↔ m = n ∨ m ∈ rest) ∧
        (∀ m, m ∈ t.ctx.gnodes → m = n ∨ m ∈ rest) ∧ t.ctx.gnodes.length = min s.ctx.gcap (rest.length + 1) ∧
        (ranked s.ctx.gdir s.ctx.gnodes → ranked s.ctx.gdir t.ctx.gnodes) ∧
        (ranked s.ctx.gdir s.ctx.gnodes → ∀ m k, m ∈ t.ctx.gnodes → k ∈ n :: rest → k ∉ t.ctx.gnodes → m.before s.ctx.gdir k = true))) ∧
    (∀ f : YR, Legal (.yr 0x13 f) →
      (s.ctx.gnodes = [] → exec (.grpop f) s = .next (s.landS 4 f.sd (BitVec.allOnes 64))) ∧
      (∀ n r, s.ctx.gnodes = n :: r → exec (.grpop f) s =
        .next ((s.modCtx fun x => { x with gnodes := r }).landS 4 f.sd (n.prio ++ n.parent ++ n.id)))) ∧
    (∀ f : YR, Legal (.yr 0x14 f) → (s.rS f.sa).toNat ≤ 1024 →
      exec (.grbud f) s = .next ((s.modCtx fun x => { x with gnodes := x.gnodes.take (s.rS f.sa).toNat }).landS 4 f.sd
        (BitVec.ofNat 64 (s.ctx.gnodes.length - (s.rS f.sa).toNat)))) ∧
    (∀ f : YR, Legal (.yr 0x15 f) → (s.rS f.sa).toNat < 2 ^ 16 →
      let a : BitVec 16 := (s.rS f.sa).setWidth 16
      ∃ t, exec (.grprune f) s = .next t ∧ onlyGrader s t ∧ t.ctx.gnodes.Sublist s.ctx.gnodes ∧
        (∀ m, m ∈ t.ctx.gnodes → m.id ≠ a ∧
          (m.parent ≠ 0xFFFF → m.parent ≠ a ∧ ∀ k, k ∈ s.ctx.gnodes → k.id = m.parent → k ∈ t.ctx.gnodes)) ∧
        ((s.ctx.gnodes.map (·.id)).Nodup → ∀ m, m ∈ s.ctx.gnodes → m ∉ t.ctx.gnodes →
          m.id = a ∨ (m.parent ≠ 0xFFFF ∧ (m.parent = a ∨ ∃ k, k ∈ s.ctx.gnodes ∧ k ∉ t.ctx.gnodes ∧ k.id = m.parent)))) ∧
    (∀ f : YR, Legal (.yr 0x16 f) →
      let word (fault : Option (TrapInfo × Bool)) (h row : Nat) : Word :=
        BitVec.ofNat 64 (2 ^ 63 + (match fault with | some (_, true) => 2 ^ 62 | _ => 0) + h * 2 ^ 32 + row % 2 ^ 32)
      ((s.rS f.sa).toNat = 2 → (∀ o, o ∈ s.ctx.copyq → o.fault = none) → exec (.rowsave f) s = .next (s.landS 2 f.sd 0)) ∧
      (∀ o, (s.rS f.sa).toNat = 2 → s.ctx.copyq.find? (·.fault.isSome) = some o →
        exec (.rowsave f) s = .next (s.landS 2 f.sd (word o.fault (if o.names o.f then o.f else 0) o.row))) ∧
      (∀ o, (s.rS f.sa).toNat = 3 → s.ctx.streamq.find? (·.fault.isSome) = some o →
        exec (.rowsave f) s = .next (s.landS 2 f.sd (word o.fault o.f o.row))) ∧
      (∀ o, (s.rS f.sa).toNat = 4 → s.ctx.cipherq.find? (·.fault.isSome) = some o →
        exec (.rowsave f) s = .next (s.landS 2 f.sd (word o.fault (if o.buf then o.f else 0) o.row))) ∧
      ((s.rS f.sa).toNat < 2 ∨ 4 < (s.rS f.sa).toNat → exec (.rowsave f) s = traps 0x0001 0x16 0 15 s)) ∧
    (∀ f : YR, Legal (.yr 0x17 f) →
      let v := (s.rS f.sb).toNat
      ((s.rS f.sa).toNat = 2 → v < 2 ^ 63 → exec (.rowrest f) s = .next (s.modCtx fun x =>
        { x with copyq := x.copyq.map fun o => if o.fault.isSome then { o with row := v % 2 ^ 32 } else o })) ∧
      ((s.rS f.sa).toNat = 3 → v < 2 ^ 63 → exec (.rowrest f) s = .next (s.modCtx fun x =>
        { x with streamq := x.streamq.map fun o => if o.fault.isSome then { o with row := v % 2 ^ 32 } else o })) ∧
      ((s.rS f.sa).toNat = 4 → v < 2 ^ 63 → exec (.rowrest f) s = .next (s.modCtx fun x =>
        { x with cipherq := x.cipherq.map fun o => if o.fault.isSome then { o with row := v % 2 ^ 32 } else o })) ∧
      ((s.rS f.sa).toNat = 2 → 2 ^ 63 ≤ v → ∃ t, exec (.rowrest f) s = .next t ∧ t.ctx.copyq = s.ctx.copyq.filter (·.fault.isNone)) ∧
      ((s.rS f.sa).toNat = 3 → 2 ^ 63 ≤ v → ∃ t, exec (.rowrest f) s = .next t ∧ t.ctx.streamq = s.ctx.streamq.filter (·.fault.isNone)) ∧
      ((s.rS f.sa).toNat = 4 → 2 ^ 63 ≤ v → ∃ t, exec (.rowrest f) s = .next t ∧ t.ctx.cipherq = s.ctx.cipherq.filter (·.fault.isNone)))

namespace Sys2Proof.Stated

/-- A copy operation joins its queue behind the others, with its number, its bundle, its strand and the request number of its issue; the
registers, memory and the other queues stay (17 R469). -/
abbrev entersCopy (o : CopyOp) (s t : State) : Prop :=
  t.ctx.copyq = s.ctx.copyq ++ [{ o with id := s.ctx.nextOp, pc := s.th.bpc, strand := s.strandNo, seq := s.mem.nextReq }] ∧
    t.ctx.nextOp = s.ctx.nextOp + 1 ∧ t.th = s.th ∧ t.mem.bytes = s.mem.bytes ∧ t.mem.net = s.mem.net ∧ t.ctx.streamq = s.ctx.streamq ∧
    t.ctx.fabricq = s.ctx.fabricq ∧ t.ctx.cipherq = s.ctx.cipherq

/-- The same of a fabric operation. -/
abbrev entersFabric (o : FabricOp) (s t : State) : Prop :=
  t.ctx.fabricq = s.ctx.fabricq ++ [{ o with id := s.ctx.nextOp, pc := s.th.bpc, strand := s.strandNo, seq := s.mem.nextReq }] ∧
    t.ctx.nextOp = s.ctx.nextOp + 1 ∧ t.th = s.th ∧ t.mem.bytes = s.mem.bytes ∧ t.mem.net = s.mem.net ∧ t.ctx.copyq = s.ctx.copyq ∧
    t.ctx.handles = s.ctx.handles

/-- The same of a cipher operation. -/
abbrev entersCipher (o : CipherOp) (s t : State) : Prop :=
  t.ctx.cipherq = s.ctx.cipherq ++ [{ o with id := s.ctx.nextOp, pc := s.th.bpc, strand := s.strandNo, seq := s.mem.nextReq }] ∧
    t.ctx.nextOp = s.ctx.nextOp + 1 ∧ t.th = s.th ∧ t.mem.bytes = s.mem.bytes ∧ t.mem.net = s.mem.net ∧ t.ctx.copyq = s.ctx.copyq

/-- The slot at PP of handle `h` is claimed: a FREE one is FILLING now; no other handle changes (08 R230). -/
abbrev claims (h : Nat) (s t : State) : Prop :=
  t.ctx.handle h = (s.ctx.handle h).claim (s.ctx.handle h).pp ∧ ∀ g, g ≠ h → t.ctx.handle g = s.ctx.handle g

/-- No handle changes. -/
abbrev keepsHandles (s t : State) : Prop := t.ctx.handles = s.ctx.handles

/-- What cpy requires of its operands (17 R471 R473). -/
abbrev cpyOperands (f : COp) (s : State) : Prop :=
  let a := (s.rS f.sa).toNat
  let b := (s.rS f.sb).toNat
  let n := (s.rS f.sc).toNat
  let size := hSize (s.ctx.setupOf f.f)
  n < 2 ^ 32 ∧ n % mwUnit f.hi = 0 ∧ (f.hi % 4 ≠ 0 → s.handleOk f.f = true) ∧ (f.hi % 2 = 1 → a + mwDstSpan f.hi n ≤ size) ∧
    (f.hi / 2 % 2 = 1 → b + mwSrcSpan f.hi n ≤ size)

/-- The length word and handle of a cipher form (17 R493 R508): reserved bits from 32 up, whole units, within its limits, and with BUF inside
the slot of a usable handle. -/
abbrev cipherOperands (f : KOp) (top unit least most off : Nat) (s : State) : Prop :=
  let w := (s.rS (f.sa + 2)).toNat
  let n := w % 2 ^ 32
  w / 2 ^ 32 % 2 ^ (top - 32) = 0 ∧ n % unit = 0 ∧ least ≤ n ∧ n ≤ most ∧
    (w / 2 ^ 63 = 1 → s.handleOk f.f = true ∧ off + n ≤ hSize (s.ctx.setupOf f.f)) ∧ (w / 2 ^ 63 = 0 → f.f = 0)

/-- Outside the scratchpad window. -/
abbrev notScratchpad (a : Nat) : Prop := ¬ (0x7FFE00000000 ≤ a ∧ a < 0x7FFE00200000)

/-- Scratchpad bank `b` is one that the ranges name: a range is an offset and a length (07 R196). -/
abbrev names (rs : List (Nat × Nat)) (b : Nat) : Prop :=
  ∃ r, r ∈ rs ∧ r.2 ≠ 0 ∧ r.1 / 0x4000 ≤ b ∧ b < (r.1 + r.2 + 0x3FFF) / 0x4000

/-- The launch owns bank `b` (07 R196). -/
abbrev ownsBank (s : State) (b : Nat) : Prop := (s.ctx.spadPhys (0x4000 * b)).isSome = true

/-- The launch owns every bank that the ranges name. -/
abbrev owned (rs : List (Nat × Nat)) (s : State) : Prop := ∀ b, names rs b → ownsBank s b

/-- Otherwise the issue traps BANKFREE with the lowest bank that is not the launch's (07 R196, 11 R310). -/
abbrev bankFree (rs : List (Nat × Nat)) (path : Nat) (o : Res) (s : State) : Prop :=
  ∀ b, names rs b → ¬ ownsBank s b → (∀ c, names rs c → ¬ ownsBank s c → b ≤ c) → o = traps 0x0104 (b % 256) (0x7FFE00000000 + 0x4000 * b) path s

/-- The running Proem thread. -/
def thr (s : State) : PThread := s.thread (s.agent - 600)

/-- The running thread takes an exception of machine mode (04 R109; the registers are the RISC-V standard's, as log 17 says). -/
abbrev excepts (cause : Nat) (tval : Word) (s t : State) : Prop :=
  (thr t).mcause = BitVec.ofNat 64 cause ∧ (thr t).mepc = (thr s).pc ∧ (thr t).mtval = tval ∧ (thr t).pc = (thr s).mtvec &&& ~~~(3 : Word) ∧
    (thr t).x = (thr s).x ∧ (thr t).packets = (thr s).packets ∧ ∀ k, k ≠ s.agent - 600 → t.thread k = s.thread k

end Sys2Proof.Stated

/-! Copy and cipher slots (chapter 17) and Proem's extensions (chapter 04). -/

/-- Copies, streams, prefetches, gathers, scatters, streaming lists and fabric operations pass their checks and join their queues; a full
queue stalls, a count of zero does nothing, and a form that names a scratchpad bank the launch does not own traps BANKFREE with the lowest
such bank (17 R469 R471 R475 to R482, 07 R196). -/
def Sys2Proof.Stated.CopySlotOperationsAreQueued : Prop :=
  ∀ (f : COp) (s : State),
    let a := (s.rS f.sa).toNat
    let b := (s.rS f.sb).toNat
    let n := (s.rS f.sc).toNat
    let h := s.ctx.handle f.f
    let room := s.ctx.copyq.length < 32
    let mw : BitVec 32 := BitVec.ofNat 32 f.hi
    let storeForm := f.hi / 8 % 2 = 1
    (Legal (.c 1 f) → cpyOperands f s → (storeForm → a % 128 = 0 ∧ n % 128 = 0) →
      let toHandle : CopyOp := { op := 1, f := f.f, a := a, b := b, n := n, mw := mw, slot := some h.pp }
      let plain : CopyOp := { op := 1, f := f.f, a := a, b := b, n := n, mw := mw }
      let rs := s.copyRanges s.cur (if f.hi % 2 = 1 then toHandle else plain)
      (n = 0 → exec (.cpy f) s = .next s) ∧
      (n ≠ 0 → bankFree rs 2 (exec (.cpy f) s) s) ∧
      (n ≠ 0 → owned rs s → ¬ room → exec (.cpy f) s = stall s) ∧
      (n ≠ 0 → owned rs s → room → f.hi % 2 = 1 → ∃ t, exec (.cpy f) s = .next t ∧ entersCopy toHandle s t ∧ claims f.f s t) ∧
      (n ≠ 0 → owned rs s → room → f.hi % 2 = 0 → ∃ t, exec (.cpy f) s = .next t ∧ entersCopy plain s t ∧ keepsHandles s t)) ∧
    (Legal (.c 1 f) → cpyOperands f s → storeForm → ¬ (a % 128 = 0 ∧ n % 128 = 0) → exec (.cpy f) s = traps 0x0103 0 a 2 s) ∧
    (Legal (.c 1 f) → ¬ cpyOperands f s → exec (.cpy f) s = traps 0x0001 1 0 15 s) ∧
    (let len := 16 * (f.hi % 2 ^ 12 + 1)
     let cnt := f.hi / 2 ^ 12 % 16
     let good := s.handleOk f.f = true ∧ n < 2 ^ 32 ∧ hSize (s.ctx.setupOf f.f) % len = 0 ∧ (cnt = 0 ∨ hCnt (s.ctx.setupOf f.f) = true)
     let stream : StreamOp :=
       { f := f.f, base := a, stride := b, rows := n, len := len, cnt := cnt, close := decide (f.hi / 2 ^ 16 % 2 = 1) }
     let rs := if n = 0 then [] else s.ctx.streamRanges stream
     (Legal (.c 2 f) → good → owned rs s → s.ctx.streamq.length < 16 → ∃ t, exec (.cstream f) s = .next t ∧ keepsHandles s t ∧ t.th = s.th ∧
       t.mem.bytes = s.mem.bytes ∧ t.ctx.copyq = s.ctx.copyq ∧
       t.ctx.streamq = s.ctx.streamq ++ [
         { stream with id := s.ctx.nextOp, pc := s.th.bpc, strand := s.strandNo, seq := s.mem.nextReq }]) ∧
     (Legal (.c 2 f) → good → owned rs s → 16 ≤ s.ctx.streamq.length → exec (.cstream f) s = stall s) ∧
     (Legal (.c 2 f) → good → bankFree rs 3 (exec (.cstream f) s) s) ∧
     (Legal (.c 2 f) → ¬ good → exec (.cstream f) s = traps 0x0001 2 0 15 s)) ∧
    (Legal (.c 3 f) → b < 2 ^ 32 → room → ∃ t, exec (.cprefetch f) s = .next t ∧ entersCopy { op := 3, a := a, n := b, mw := mw } s t ∧
      keepsHandles s t) ∧
    (Legal (.c 3 f) → b < 2 ^ 32 → ¬ room → exec (.cprefetch f) s = stall s) ∧
    (Legal (.c 3 f) → 2 ^ 32 ≤ b → exec (.cprefetch f) s = traps 0x0001 3 0 15 s) ∧
    (¬ (n ≤ 4096 ∧ s.handleOk f.f = true) →
      (Legal (.c 4 f) → exec (.cgather f) s = traps 0x0001 4 0 15 s) ∧ (Legal (.c 5 f) → exec (.cscatter f) s = traps 0x0001 5 0 15 s)) ∧
    (Legal (.c 4 f) → n ≤ 4096 → s.handleOk f.f = true →
      let gather : CopyOp := { op := 4, f := f.f, a := a, b := b, n := n, mw := mw, slot := some h.pp }
      let rs := gather.tableBytes ++ s.ctx.slotRange f.f (some h.pp)
      (n = 0 → exec (.cgather f) s = .next s) ∧
      (n ≠ 0 → bankFree rs 2 (exec (.cgather f) s) s) ∧
      (n ≠ 0 → owned rs s → ¬ room → exec (.cgather f) s = stall s) ∧
      (n ≠ 0 → owned rs s → room → ∃ t, exec (.cgather f) s = .next t ∧ entersCopy gather s t ∧ claims f.f s t)) ∧
    (Legal (.c 5 f) → n ≤ 4096 → s.handleOk f.f = true →
      let scatter : CopyOp := { op := 5, f := f.f, a := a, b := b, n := n, mw := mw }
      let rs := scatter.tableBytes ++ s.ctx.slotRange f.f none
      (n = 0 → exec (.cscatter f) s = .next s) ∧
      (n ≠ 0 → bankFree rs 2 (exec (.cscatter f) s) s) ∧
      (n ≠ 0 → owned rs s → ¬ room → exec (.cscatter f) s = stall s) ∧
      (n ≠ 0 → owned rs s → room → ∃ t, exec (.cscatter f) s = .next t ∧ entersCopy scatter s t ∧ keepsHandles s t)) ∧
    (Legal (.c 9 f) → 1 ≤ b → b ≤ 65536 →
      bankFree (windowRange a (8 * b)) 2 (exec (.cskid f) s) s ∧
      (owned (windowRange a (8 * b)) s → ¬ room → exec (.cskid f) s = stall s) ∧
      (owned (windowRange a (8 * b)) s → room → ∃ t, exec (.cskid f) s = .next t ∧ entersCopy { op := 9, a := a, b := b, n := b } s t ∧
        keepsHandles s t)) ∧
    (Legal (.c 9 f) → ¬ (1 ≤ b ∧ b ≤ 65536) → exec (.cskid f) s = traps 0x0001 9 0 15 s) ∧
    (let len := n % 2 ^ 24
     let status := a / 2 ^ 16
     let message (op : Nat) (rma : Bool) : FabricOp :=
       { op := op, rma := rma, ep := a % 256, event := a / 256 % 256, status := status, addr := b, len := len, off := 128 * (n / 2 ^ 24),
         tag := f.hi % 2 ^ 31 }
     let goes (op : Nat) (rma : Bool) (o : Res) : Prop := Legal (.c op f) →
       (len = 0 ∨ (rma = false ∧ n / 2 ^ 24 ≠ 0) → o = traps 0x0001 op 0 15 s) ∧
       (len ≠ 0 → (rma = false → n / 2 ^ 24 = 0) →
         (status % 8 = 0 → s.ctx.fabricq.length < 64 → ∃ t, o = .next t ∧ entersFabric (message op rma) s t) ∧
         (status % 8 = 0 → 64 ≤ s.ctx.fabricq.length → o = stall s) ∧
         (status % 8 ≠ 0 → o = traps 0x0103 0 status 5 s))
     goes 6 false (exec (.csend f) s) ∧ goes 6 true (exec (.csendRma f) s) ∧ goes 7 false (exec (.crecv f) s) ∧
       goes 7 true (exec (.crecvRma f) s)) ∧
    (Legal (.c 8 f) → n % 8 = 0 → 64 ≤ s.ctx.fabricq.length → exec (.ccoll f) s = stall s) ∧
    (Legal (.c 8 f) → n % 8 ≠ 0 → exec (.ccoll f) s = traps 0x0103 0 n 5 s) ∧
    (Legal (.c 8 f) → n % 8 = 0 → s.ctx.fabricq.length < 64 → ∃ t, exec (.ccoll f) s = .next t ∧
      entersFabric { op := 8, event := f.hi / 2 ^ 20 % 256, status := n, addr := a, tag := f.hi, step := b % 2 ^ 32 } s t)

/-- The cipher forms pass their checks and join the unit's queue; a selector other than 0, kbind and kzero belong to the house, and trap
PRIV in tenant code; a form that names a scratchpad bank the launch does not own traps BANKFREE (17 R493 R494 R496 R497, 05 R128,
07 R196). -/
def Sys2Proof.Stated.CipherOperationsAreQueued : Prop :=
  ∀ (f : KOp) (s : State),
    let dst := (s.rS f.sa).toNat
    let src := (s.rS (f.sa + 1)).toNat
    let w := (s.rS (f.sa + 2)).toNat
    let tile := s.rS (f.sa + 3)
    let buf := decide (w / 2 ^ 63 = 1)
    let key := if f.key = 0 then s.launch.keySlot else f.key
    let allowed := f.key = 0 ∨ s.launch.house = true
    (Legal (.k 1 f) → cipherOperands f 63 128 128 (2 ^ 31) src s → notScratchpad dst →
      let sealing : CipherOp := { op := 1, f := f.f, dst := dst, src := src, len := w % 2 ^ 32, buf := buf, tile := tile, key := key }
      let rs := s.ctx.cipherRanges sealing
      (allowed → dst % 128 = 0 → bankFree rs 4 (exec (.cipherSeal f) s) s) ∧
      (allowed → dst % 128 = 0 → owned rs s → ∃ t, exec (.cipherSeal f) s = .next t ∧ keepsHandles s t ∧ entersCipher sealing s t) ∧
      (allowed → dst % 128 ≠ 0 → exec (.cipherSeal f) s = traps 0x0103 0 dst 4 s) ∧
      (¬ allowed → exec (.cipherSeal f) s = traps 0x0004 0 0 15 s)) ∧
    (Legal (.k 2 f) → cipherOperands f 63 128 128 (2 ^ 31) dst s → notScratchpad src →
      let opens : CipherOp := { op := 2, f := f.f, dst := dst, src := src, len := w % 2 ^ 32, buf := buf, tile := tile, key := key,
                                slot := if buf then some (s.ctx.handle f.f).pp else none }
      let rs := s.ctx.cipherRanges opens
      (allowed → src % 128 = 0 → bankFree rs 4 (exec (.cipherOpen f) s) s) ∧
      (allowed → src % 128 = 0 → owned rs s → ∃ t, exec (.cipherOpen f) s = .next t ∧ entersCipher opens s t ∧
        (buf = true → claims f.f s t) ∧ (buf = false → keepsHandles s t)) ∧
      (allowed → src % 128 ≠ 0 → exec (.cipherOpen f) s = traps 0x0103 0 src 4 s) ∧
      (¬ allowed → exec (.cipherOpen f) s = traps 0x0004 0 0 15 s)) ∧
    (Legal (.k 3 f) → cipherOperands f 62 64 0 (2 ^ 32) src s →
      let hash : CipherOp :=
        { op := 3, f := f.f, dst := dst, src := src, len := w % 2 ^ 32, buf := buf, init := decide (w / 2 ^ 62 % 2 = 1) }
      bankFree (s.ctx.cipherRanges hash) 4 (exec (.shablk f) s) s ∧
      (owned (s.ctx.cipherRanges hash) s → ∃ t, exec (.shablk f) s = .next t ∧ keepsHandles s t ∧ entersCipher hash s t)) ∧
    (Legal (.k 1 f) → ¬ (cipherOperands f 63 128 128 (2 ^ 31) src s ∧ notScratchpad dst) → exec (.cipherSeal f) s = traps 0x0001 1 0 15 s) ∧
    (Legal (.k 2 f) → ¬ (cipherOperands f 63 128 128 (2 ^ 31) dst s ∧ notScratchpad src) → exec (.cipherOpen f) s = traps 0x0001 2 0 15 s) ∧
    (Legal (.k 3 f) → ¬ cipherOperands f 62 64 0 (2 ^ 32) src s → exec (.shablk f) s = traps 0x0001 3 0 15 s) ∧
    (Legal (.k 4 f) →
      (s.launch.house = true → dst % 32 = 0 → bankFree (windowRange dst 32) 4 (exec (.kbind f) s) s) ∧
      (s.launch.house = true → dst % 32 = 0 → owned (windowRange dst 32) s → ∃ t, exec (.kbind f) s = .next t ∧ keepsHandles s t ∧
        entersCipher { op := 4, src := dst, len := 32, key := f.key } s t) ∧
      (s.launch.house = true → dst % 32 ≠ 0 → exec (.kbind f) s = traps 0x0103 0 dst 4 s) ∧
      (s.launch.house = false → exec (.kbind f) s = traps 0x0004 0 0 15 s)) ∧
    (Legal (.k 5 f) →
      (s.launch.house = true → ∃ t, exec (.kzero f) s = .next t ∧ keepsHandles s t ∧ entersCipher { op := 5, key := f.key } s t) ∧
      (s.launch.house = false → exec (.kzero f) s = traps 0x0004 0 0 15 s))

/-- pwait takes the first queued packet of a source in its mask, or blocks; ppost hands a 64-byte record to its sink and blocks until the
sink accepts it: an event is posted, a house launch joins the host lane, a completion ends its command; ptid reads the thread's number; a bad
mask or sink is an illegal instruction, a misaligned record an exception of its own; a timer that has passed queues a packet of source 2
(04 R109). The layout of the records, what the Vault does with one and that a sink accepts when the thread moves again are the model's
choice (log 60). -/
def Obligations.ProemExtensionsRun : Prop :=
  ∀ (f : RV) (s : State), 600 ≤ s.agent →
    let p := thr s
    let m := (p.rX f.rs1).toNat
    let sink := (p.rX f.rs2).toNat
    let wants (w : Word) : Prop := m / 2 ^ (w.toNat % 16) % 2 = 1
    let goesOn (t : State) : Prop := (thr t).pc = p.pc + 4 ∧ ∀ k, k ≠ s.agent - 600 → t.thread k = s.thread k
    (Legal (.rv 0 f) → 1 ≤ m → m < 32 →
      (∀ pre w post, p.packets = pre ++ w :: post → (∀ x, x ∈ pre → ¬ wants x) → wants w → ∃ t, exec (.pwait f) s = .next t ∧ goesOn t ∧
        (thr t).packets = pre ++ post ∧ (f.rd ≠ 0 → (thr t).rX f.rd = w) ∧ ∀ r, r ≠ f.rd → (thr t).rX r = p.rX r) ∧
      ((∀ x, x ∈ p.packets → ¬ wants x) → ∃ t, exec (.pwait f) s = .next t ∧ (thr t).pc = p.pc ∧ (thr t).packets = p.packets ∧
        (thr t).waiting = some (f.rd, BitVec.ofNat 5 m) ∧ (thr t).x = p.x)) ∧
    (Legal (.rv 0 f) → m = 0 ∨ 32 ≤ m → ∃ t, exec (.pwait f) s = .next t ∧ excepts 2 (BitVec.ofNat 64 (encodeSyll (.rv 0 f))) s t) ∧
    (∀ b, Legal (.rv 1 f) → sink ≤ 3 → m % 64 = 0 → p.posting = none → s.proemRead (s.agent - 600) m 64 = some b →
      ∃ t, exec (.ppost f) s = .next t ∧ (thr t).posting = some (sink, b) ∧ (thr t).pc = p.pc ∧ (thr t).x = p.x ∧
        (∀ k, k ≠ s.agent - 600 → t.thread k = s.thread k) ∧ t.circ = s.circ ∧ t.hif.fns = s.hif.fns ∧ t.hif.cmds = s.hif.cmds) ∧
    (∀ k b, Legal (.rv 1 f) → sink ≤ 3 → m % 64 = 0 → p.posting = some (k, b) →
      ∃ t, exec (.ppost f) s = .next t ∧ (thr t).posting = none ∧ (thr t).pc = p.pc + 4 ∧ (thr t).x = p.x ∧
        (k = 0 → t.circ = s.circ ∧ t.hif.cmds = s.hif.cmds ∧
          let v := (Config.postedEvent b).1 % 65
          (s.hif.lostOwed = none → (s.fn v).evEn = true → (s.fn v).ringFull = false →
            (t.fn v).evTail = ((s.fn v).evTail + 1) % 2 ^ (s.fn v).evLog)) ∧
        (k = 1 → t.hif.cmds = s.hif.cmds ∧ t.hif.fns = s.hif.fns ∧ ∃ i, i.house = true ∧ t.circ.hostLane = s.circ.hostLane ++ [i]) ∧
        (k = 2 → t.circ = s.circ ∧ t.hif.cmds = s.hif.cmds ∧ t.hif.fns = s.hif.fns) ∧
        (k = 3 → t.circ = s.circ ∧ ∀ c, s.hif.cmds.find? (fun c => c.vqn == (Config.postedCompletion b).1 &&
          c.tag == (Config.postedCompletion b).2.1) = some c → ∀ d, d ∈ t.hif.cmds → d.id ≠ c.id)) ∧
    (Legal (.rv 1 f) → sink ≤ 3 → m % 64 ≠ 0 → ∃ t, exec (.ppost f) s = .next t ∧ excepts 4 (p.rX f.rs1) s t) ∧
    (Legal (.rv 1 f) → 3 < sink → ∃ t, exec (.ppost f) s = .next t ∧ excepts 2 (BitVec.ofNat 64 (encodeSyll (.rv 1 f))) s t) ∧
    (Legal (.rv 2 f) → ∃ t, exec (.ptid f) s = .next t ∧ goesOn t ∧ (f.rd ≠ 0 → (thr t).rX f.rd = BitVec.ofNat 64 (s.agent - 600)) ∧
      (∀ r, r ≠ f.rd → (thr t).rX r = p.rX r) ∧ (thr t).packets = p.packets) ∧
    (∀ d, (s.thread s.ev.a).timer = some d → d ≤ s.time.toNat → ∃ t w, exec .proemTimer s = .next t ∧ (t.thread s.ev.a).timer = none ∧
      (t.thread s.ev.a).packets = (s.thread s.ev.a).packets ++ [w] ∧ w.toNat % 16 = 2 ∧ (t.thread s.ev.a).pc = (s.thread s.ev.a).pc)

namespace Sys2Proof.Stated

/-- The clocks run: neither held in reset, nor tripped, nor stuck in stage 0x01. -/
abbrev clocksRun (s : State) : Prop := s.pkg.held = false ∧ s.pkg.tripped = false ∧ s.pkg.stuckPower = false

/-- A start is in stage `n` (01 R32). -/
abbrev starting (n : Nat) (s : State) : Prop := clocksRun s ∧ s.pkg.mode = 0 ∧ s.pkg.stage = n

/-- The state after a warm reset (01 R30 R31): stage 0x02 begins now; TIME, EARLY and the flash stay; everything else is as at reset. -/
abbrev warmReset (early : Nat) (s t : State) : Prop :=
  t.pkg = { State.reset.pkg with held := false, stage := 2, startAt := s.time.toNat, stageAt := s.time.toNat, early := early } ∧ t.time = s.time ∧ t.cores = [] ∧
    t.circ = State.reset.circ ∧ t.eth = State.reset.eth ∧ t.mem.bytes = [] ∧ t.mem.host = s.mem.host ∧ t.saves = []

/-- The replay-protected block is written with the items of `f`: the write counter increases, the write carries the HMAC-SHA-256 over the
data and the counter, and the rest of the flash stays (01 R29). -/
abbrev writesBlock (f : Flash) (s t : State) : Prop :=
  t.flash = { f with writes := s.flash.writes + 1, mac := t.flash.mac } ∧ t.flash.mac = some t.flash.blockMac

/-- The stage in progress has lasted longer than its bound (01 R32). -/
abbrev pastBound (s : State) : Prop :=
  ∃ b, (s.pkg.stage, b) ∈ [(2, 5), (3, 150), (4, 50), (5, 20), (6, 300), (7, 20)] ∧ s.pkg.stageAt + 1000000 * b < s.time.toNat

/-- A start fails with reason `c`: it is recorded, and a warm reset follows (01 R33). -/
abbrev startFails (c : Nat) (s t : State) : Prop :=
  warmReset s.pkg.early s t ∧ writesBlock { s.flash with lastReason := c } s t

/-- Minimal mode with reason `c` (01 R36). -/
abbrev minimalMode (c : Nat) (s t : State) : Prop :=
  t.pkg.mode = 2 ∧ t.pkg.reason = c ∧ t.pkg.alert = true ∧ t.time = s.time ∧ t.flash = s.flash ∧
    ∀ k, 32 ≤ k → k < 128 → (t.thread k).halted = true

/-- Stage `n` is entered, its bound runs from now, and nothing of the cores or of memory changes. -/
abbrev entersStage (n : Nat) (s t : State) : Prop :=
  t.pkg.stage = n ∧ t.pkg.stageAt = s.time.toNat ∧ t.cores = s.cores ∧ t.mem = s.mem ∧ t.time = s.time

/-- Error counter `k` rises by one, saturating at 48 bits (05 R146, 00 R6). -/
abbrev counted (k : Nat) (s t : State) : Prop :=
  SMap.get t.prot.chip.err k 0 = min (SMap.get s.prot.chip.err k 0 + 1) (2 ^ 48 - 1) ∧
    ∀ j, j ≠ k → SMap.get t.prot.chip.err j 0 = SMap.get s.prot.chip.err j 0

/-- The reading of sensor `n` in a sweep, in sixteenths of a degree. -/
def reading (n : Nat) (s : State) : Int := (s.ev.readings.getD n 0).toInt

/-- A thermal level after a sweep (01 R21): one step up at 95, 100 and 105 degrees, one down below 93, 98 and 103. -/
def levelAfter (level : Nat) (t : Int) : Nat :=
  if (level = 0 ∧ 1520 ≤ t) ∨ (level = 1 ∧ 1600 ≤ t) ∨ (level = 2 ∧ 1680 ≤ t) then level + 1
  else if (level = 1 ∧ t < 1488) ∨ (level = 2 ∧ t < 1568) ∨ (level = 3 ∧ t < 1648) then level - 1
  else level

end Sys2Proof.Stated

/-! Starts, power, temperature and hardware errors (chapters 01, 05, 11). -/

/-- RESET_N's release, the stages of a start with their failures, bounds and time-outs, warm resets and the loss of power (01 R30 to R36).
That a warm reset asked for in stage 0x01 does nothing is the model's choice (log 87). -/
def Obligations.StartStagesAndResets : Prop :=
  ∀ (s : State),
    (s.pkg.held = true → exec .resetNRelease s = .next { s with pkg := { s.pkg with held := false, stage := 1, mode := 0, early := 0 } }) ∧
    (∃ t, exec .powerLoss s = .next t ∧ t.flash = s.flash ∧ t.pkg = State.reset.pkg ∧ t.cores = [] ∧ t.mem.bytes = [] ∧
      t.time = 0 ∧ t.circ = State.reset.circ ∧ t.eth = State.reset.eth ∧ t.sl = State.reset.sl) ∧
    (clocksRun s → 2 ≤ s.pkg.stage → ∃ t, exec .warmReset s = .next t ∧ warmReset s.pkg.early s t ∧ t.flash = s.flash) ∧
    (clocksRun s → 2 ≤ s.pkg.stage → s.ev.value.toNat % 2 ^ 16 = 0x5752 → ∃ t, exec .pkgResetWrite s = .next t ∧ warmReset s.pkg.early s t) ∧
    (s.ev.value.toNat % 2 ^ 16 ≠ 0x5752 → exec .pkgResetWrite s = .next s) ∧
    (starting 1 s → exec .stagePower s = .next { s with time := 0, pkg := { s.pkg with stage := 2, startAt := 0, stageAt := 0 } }) ∧
    (starting 2 s → ¬ pastBound s → s.pkg.romWrote = false →
      (3 ≤ s.pkg.early → ∃ t, exec .stageRom s = .next t ∧ minimalMode 0x0B s t) ∧
      (s.pkg.early < 3 → s.ev.flag = false → ∃ t, exec .stageRom s = .next t ∧ startFails 0x04 s t) ∧
      (s.pkg.early < 3 → s.ev.flag = true → s.ev.a = 0 ∨ (∃ m, s.flash.mac = some m ∧ m ≠ s.flash.blockMac) →
        ∃ t, exec .stageRom s = .next t ∧ minimalMode 0x09 s t) ∧
      (s.pkg.early < 3 → s.ev.flag = true → s.ev.a ≠ 0 → (∀ m, s.flash.mac = some m → m = s.flash.blockMac) →
        (3 ≤ s.flash.fails → ∃ t, exec .stageRom s = .next t ∧
          minimalMode (if s.flash.lastReason = 0 then 0x0A else s.flash.lastReason) s t) ∧
        (s.flash.fails < 3 → ∃ t, exec .stageRom s = .next t ∧ entersStage 3 s t ∧ t.pkg.romWrote = true ∧ t.pkg.early = 0 ∧
          t.prot.vault.puf = s.flash.puf ∧ writesBlock { s.flash with fails := s.flash.fails + 1, lastReason := 0x0A } s t))) ∧
    (starting 3 s → ¬ pastBound s →
      let active := s.flash.next.getD s.flash.active
      let slot := SMap.get s.flash.slots active {}
      let svn := Config.firmwareSvn slot.image % 2 ^ 16
      let fails (c : Nat) (t : State) : Prop :=
        warmReset s.pkg.early s t ∧ writesBlock { s.flash with active := active, next := none, lastReason := c } s t
      (slot.valid = false ∨ Config.firmwareSigned slot.image = false → ∃ t, exec .stageFw s = .next t ∧ fails 0x01 t) ∧
      (slot.valid = true → Config.firmwareSigned slot.image = true → svn < s.flash.fwSvn → ∃ t, exec .stageFw s = .next t ∧ fails 0x02 t) ∧
      (slot.valid = true → Config.firmwareSigned slot.image = true → s.flash.fwSvn ≤ svn → ∃ t, exec .stageFw s = .next t ∧ entersStage 4 s t ∧
        t.pkg.svn = svn ∧ t.flash = { s.flash with active := active, next := none } ∧ t.hif.fwRunning = active)) ∧
    (starting 4 s → ¬ pastBound s →
      let b := s.flash.blob
      (s.blobOk b = false → ∃ t, exec .stageCfg s = .next t ∧ startFails 0x03 s t) ∧
      (s.blobOk b = true → leAt b 6 2 < s.flash.cfgSvn → ∃ t, exec .stageCfg s = .next t ∧ startFails 0x02 s t) ∧
      (s.blobOk b = true → s.flash.cfgSvn ≤ leAt b 6 2 → ∃ t, exec .stageCfg s = .next t ∧ entersStage 5 s t ∧
        t.pkg.pcap = leAt b 24 2 ∧ t.pkg.nVf = leAt b 26 2 ∧ t.pkg.macBase = beAt b 16 6)) ∧
    (starting 5 s → ¬ pastBound s → (s.ev.flag = true → ∃ t, exec .stageClocks s = .next t ∧ entersStage 6 s t) ∧
      (s.ev.flag = false → ∃ t, exec .stageClocks s = .next t ∧ startFails 0x05 s t)) ∧
    (starting 6 s → ¬ pastBound s → (s.ev.flag = true → ∃ t, exec .stageHbm s = .next t ∧ entersStage 7 s t) ∧
      (s.ev.flag = false → ∃ t, exec .stageHbm s = .next t ∧ startFails 0x06 s t)) ∧
    (starting 7 s → ¬ pastBound s →
      (s.ev.flag = true → (∀ e, e ∈ s.prot.chip.failed → e.2 = []) → ∃ t, exec .stageScrub s = .next t ∧ t.pkg.stage = 8 ∧ t.pkg.mode = 1 ∧
        t.flash.fails = 0 ∧ t.flash.fwSvn = max s.flash.fwSvn s.pkg.newFwSvn ∧ t.mem.bytes = [] ∧ t.mem.zeroMark = { rest := true } ∧
        t.mem.lines = []) ∧
      (s.ev.flag = false → ∃ t, exec .stageScrub s = .next t ∧ startFails 0x07 s t)) ∧
    (∀ n, starting n s →
      (n = 1 → exec .stageTimeout s = .next { s with pkg := { s.pkg with stuckPower := true, alert := true } }) ∧
      (n = 2 → s.pkg.romWrote = false → pastBound s →
        ∃ t, exec .stageTimeout s = .next t ∧ warmReset (min 3 (s.pkg.early + 1)) s t ∧ t.flash = s.flash) ∧
      (∀ code i, (n, code, i) ∈ [(3, 0x0C, Instr.stageFw), (4, 0x0D, .stageCfg), (5, 0x05, .stageClocks), (6, 0x06, .stageHbm),
          (7, 0x07, .stageScrub)] → pastBound s →
        (∃ t, exec .stageTimeout s = .next t ∧ startFails code s t) ∧ ∃ t, exec i s = .next t ∧ startFails code s t) ∧
      (2 ≤ n → ¬ pastBound s → exec .stageTimeout s = .next s) ∧
      (2 ≤ n → n < 8 → s.pkg.startAt + 2000000000 ≤ s.time.toNat → ∃ t, exec .startWatchdog s = .next t ∧ startFails 0x08 s t))

/-- The power estimate, the sensor sweep and the refresh boundary (01 R18 R20 to R23). -/
def Sys2Proof.Stated.PowerAndTemperature : Prop :=
  ∀ (s : State), clocksRun s → 2 ≤ s.pkg.stage →
    let mean := s.ev.a % 4096
    let cap := s.pkg.pcap
    let lv := s.pkg.powerLevel
    (∃ t, exec .powerEstimate s = .next t ∧ t.pkg.pwr = mean ∧ t.pkg.pcap = cap ∧ t.cores = s.cores ∧
      (s.time.toNat < s.pkg.powerLevelAt + 1000000 → t.pkg.powerLevel = lv) ∧
      (s.pkg.powerLevelAt + 1000000 ≤ s.time.toNat → t.pkg.powerLevel =
        if cap < mean then min 3 (lv + 1) else if 100 * mean < 95 * cap then lv - 1 else lv)) ∧
    (s.ev.readings.length = 617 → ∃ t, exec .sweepEnd s = .next t ∧ t.pkg.sweep = s.pkg.sweep + 1 ∧ t.cores = s.cores ∧
      (∀ n, n < 617 → SMap.get t.pkg.temp n {} = { v := true, t := s.ev.readings.getD n 0 }) ∧
      (∀ d, d < 4 → (SMap.get s.pkg.thermal d 0) ≤ 3 → SMap.get t.pkg.thermal d 0 = levelAfter (SMap.get s.pkg.thermal d 0) (reading (600 + d) s)) ∧
      (SMap.get s.pkg.thermal 4 0 ≤ 3 → SMap.get t.pkg.thermal 4 0 = levelAfter (SMap.get s.pkg.thermal 4 0) (reading 616 s)) ∧
      (∀ k, k < 12 → t.pkg.refreshWant.getLsbD k =
        (if 1361 ≤ reading (604 + k) s then true else if reading (604 + k) s < 1328 then false else s.pkg.refreshWant.getLsbD k)) ∧
      t.pkg.tarRfx = s.pkg.refreshNow ∧
      (∀ d, d < 4 → SMap.get t.pkg.tarLevel d 0 = max (SMap.get t.pkg.thermal d 0) s.pkg.powerLevel) ∧
      (t.pkg.tripped = true ↔ (∃ n, n ∈ [600, 601, 602, 603, 616] ∧ 1840 ≤ reading n s) ∨ ∃ k, k < 12 ∧ 1680 ≤ reading (604 + k) s)) ∧
    (s.ev.a < 12 → ∃ t, exec .hbmRefreshBoundary s = .next t ∧ t.pkg.refreshNow.getLsbD s.ev.a = s.pkg.refreshWant.getLsbD s.ev.a ∧
      (∀ k, k < 12 → k ≠ s.ev.a → t.pkg.refreshNow.getLsbD k = s.pkg.refreshNow.getLsbD k) ∧ t.cores = s.cores ∧ t.mem = s.mem)

/-- Hardware errors (05 R138 R141, 11 R327 to R329): a corrected one on a core costs a freeze of 24 cycles and counts; an uncorrectable one
on a free Stacks line clears the line, on a clean entry only counts, on a segment has it loaded again. -/
def Sys2Proof.Stated.HardwareErrors : Prop :=
  ∀ (s : State),
    (∀ c, s.ev.struck = .coreClean c ∨ s.ev.struck = .coreOwned c ∨ s.ev.struck = .coreResident c → ∃ t, exec .correctableError s = .next t ∧
      (t.core c).freeze = (s.core c).freeze + 24 ∧ (t.core c).th = (s.core c).th ∧ (∀ d, d ≠ c → t.core d = s.core d) ∧ counted 0 s t) ∧
    (∀ a, s.ev.struck = .line a → ∃ t, exec .correctableError s = .next t ∧ counted (if a < 0x80000000 then 1 else 2) s t ∧ t.mem = s.mem ∧
      t.cores = s.cores) ∧
    (∃ t, exec .freezeEnd s = .next t ∧ (t.core s.ev.a).freeze = (s.core s.ev.a).freeze - 24 ∧ (t.core s.ev.a).th = (s.core s.ev.a).th ∧
      ∀ d, d ≠ s.ev.a → t.core d = s.core d) ∧
    (s.ev.struck = .clean → ∃ t, exec .uncorrectableError s = .next t ∧ counted 3 s t ∧ t.mem = s.mem ∧ t.cores = s.cores) ∧
    (∀ a, s.ev.struck = .line a → a < 0x80000000 → s.lineTag a = 0x3FFE → ∃ t, exec .uncorrectableError s = .next t ∧ counted 3 s t ∧
      t.line a = {} ∧ t.lineTag a = 0x3FFE ∧ t.phys (a / 128 * 128) 128 = List.replicate 128 0 ∧ onlyBytes (a / 128 * 128) 128 s t ∧ t.cores = s.cores) ∧
    (∀ i, s.ev.struck = .segment i → (s.seg i).page ≠ 0 → (s.seg i).st ≠ 3 → ∃ t, exec .uncorrectableError s = .next t ∧ counted 6 s t ∧
      ((t.seg i).st = 0 ∨ (t.seg i).st = 1) ∧ t.cores = s.cores)

namespace Sys2Proof.Stated

/-- The host is served in normal operation (01 R32). -/
abbrev served (s : State) : Prop := s.pkg.mode = 1 ∧ s.pkg.held = false ∧ s.pkg.tripped = false

/-- The packet `b` with OP `op` stands at the head of mapped queue `a` and passes the checks that all operations share
(04 R93 to R96 R101); no QUEUE_UNBIND and no reload is in progress. -/
abbrev packetWaits (op : Nat) (b : List Byte) (s : State) : Prop :=
  let x := s.mq s.ev.a
  served s ∧ s.ev.a < 128 ∧ x.reload = none ∧
    (∃ q, x.vqn = some q ∧ (s.st2 q).v = true ∧ (s.st2 q).stopping = false ∧ (s.st2 q).tail < 2 ^ x.log ∧ x.head ≠ (s.st2 q).tail) ∧
    s.hostRead x.fn (x.base + 64 * x.head) 64 = some b ∧ leAt b 0 1 = op ∧ leAt b 1 1 % 2 = 0 ∧ packetAligned b = true ∧
    packetReservedOk b = true ∧ classOk x op = true ∧ ∀ d, d ∈ s.hif.cmds → d.op ≠ 0x21

/-- So it does, and no firmware activation is in progress: the queue's thread takes it. -/
abbrev packetAt (op : Nat) (b : List Byte) (s : State) : Prop :=
  packetWaits op b s ∧ s.hif.fwPhase = .idle ∧ (s.thread s.ev.a).halted = false

/-- The mapped queue has moved past its packet (04 R96). -/
abbrev takesPacket (s t : State) : Prop := (t.mq s.ev.a).head = ((s.mq s.ev.a).head + 1) % 2 ^ (s.mq s.ev.a).log

/-- The command completes with a status, which its completion record carries (04 R97). -/
abbrev completes (status : Nat) (b : List Byte) (s t : State) : Prop :=
  takesPacket s t ∧ (leAt b 8 8 ≠ 0 → leAt b 16 8 = 0 →
    Memory.readN t.mem.host (hostKey (s.mq s.ev.a).fn (leAt b 8 8)) 2 = natLe 2 status)

/-- Field of `n` bytes at offset `o` of the packet. -/
def operand (b : List Byte) (o n : Nat) : Nat := leAt b o n

/-- The function whose queue is named by the event. -/
def fnOf (s : State) : Nat := (s.mq s.ev.a).fn

end Sys2Proof.Stated

/-! The host interface (chapter 04). -/

/-- The host's commands: each, with a well-formed packet that passes its checks, has its effect and completes with status OK; a NOP
completes; LAUNCH hands its record to Circulation (04 R94 to R97 R102 R107 R110 R111, 05 R115 to R122 R126 R135). -/
def Obligations.HostCommandsTakeEffect : Prop :=
  ∀ (s : State) (b : List Byte),
    let x := s.mq s.ev.a
    let m := operand b 32 2
    let addr := operand b 40 8
    let own := x.mcxOk m = true
    (packetAt 0x08 b s → ∃ t, exec .nop s = .next t ∧ completes 0 b s t ∧ t.cores = s.cores ∧ t.circ = s.circ ∧ t.prot = s.prot ∧
      t.mem.bytes = s.mem.bytes) ∧
    (∀ r, packetAt 0x01 b s → own → s.hostRead x.fn addr 128 = some r → (parseRecord r).crec % 64 = 0 → (parseRecord r).sigAddr % 8 = 0 →
      ∃ t, exec .launch s = .next t ∧ takesPacket s t ∧ ∃ i, t.circ.hostLane = s.circ.hostLane ++ [i] ∧ i.record = parseRecord r ∧ i.mcx = m ∧
        i.malformed = !(recordReservedOk r)) ∧
    (∀ r, packetAt 0x01 b s → own → s.hostRead x.fn addr 128 = some r → ¬ ((parseRecord r).crec % 64 = 0 ∧ (parseRecord r).sigAddr % 8 = 0) →
      ∃ t, exec .launch s = .next t ∧ takesPacket s t ∧ t.circ.hostLane = s.circ.hostLane ∧
        SMap.get t.circ.cnt 2 0 = min (SMap.get s.circ.cnt 2 0 + 1) (2 ^ 48 - 1)) ∧
    (packetAt 0x01 b s → ¬ own → ∃ t, exec .launch s = .next t ∧ completes 2 b s t ∧ t.circ = s.circ) ∧
    (let e := packetEntry b
     packetAt 0x02 b s → entryBad b = false → x.mcxOk e.mcx = true → e.part = x.part → (s.mcb e.mcx).st ≠ 0 →
     (∀ i, s.catLookup e.bind e.func = some i → (s.catEntry i).part = x.part → (s.mcb e.mcx).backLink = none ∨ (s.mcb e.mcx).backLink = some i →
       ∃ t, exec .catalogSet s = .next t ∧ completes 0 b s t ∧ t.catEntry i = e ∧ (t.mcb e.mcx).backLink = some i) ∧
     (∀ w, s.catLookup e.bind e.func = none → (s.mcb e.mcx).backLink = none → w < 4 →
       (s.catEntry (4 * catalogSet e.bind e.func + w)).v = false →
       (∀ v, v < w → (s.catEntry (4 * catalogSet e.bind e.func + v)).v = true) →
       ∃ t, exec .catalogSet s = .next t ∧ completes 0 b s t ∧ t.catEntry (4 * catalogSet e.bind e.func + w) = e ∧
         (t.mcb e.mcx).backLink = some (4 * catalogSet e.bind e.func + w))) ∧
    (∀ i, packetAt 0x03 b s → s.catLookup m (operand b 36 4) = some i → (s.catEntry i).part = x.part → ∃ t, exec .catalogDel s = .next t ∧
      completes 0 b s t ∧ t.catEntry i = {} ∧ (t.mcb (s.catEntry i).mcx).backLink = none) ∧
    (∀ d, packetAt 0x04 b s → own → s.hostRead x.fn addr 256 = some d → mcbBad d m = false → m < 8192 → leAt d 2 1 = 1 →
      (parseMcb d (s.mcb m)).reqLr = 0 → s.mcbDenied x m 1 (parseMcb d (s.mcb m)) = false → ∃ t, exec .mcbWrite s = .next t ∧
        completes 0 b s t ∧ (t.mcb m).st = 1 ∧ (t.mcb m).part = leAt d 3 1 ∧ (t.mcb m).prio = leAt d 4 1 ∧ (t.mcb m).ptRoot = leAt d 8 8) ∧
    (∀ d ps, packetAt 0x05 b s → copyBad b = false → own → s.protectedRuns m = false → s.hostRead x.fn addr (operand b 36 4) = some d →
      cutAccess s (s.mcxWho m) true (operand b 48 8) (operand b 36 4) = .ok ps →
      (∀ p, p ∈ ps → ∃ a, p.pa = some a ∧ (s.line a).writeFault (p.len == 128) = none) →
      (ps.Pairwise fun p q => overlap (p.pa.getD 0) p.len (q.pa.getD 0) q.len = false ∧ p.pa.getD 0 / 128 ≠ q.pa.getD 0 / 128) →
      ∃ t, exec .copyIn s = .next t ∧ completes 0 b s t ∧ ∀ p, p ∈ ps → ∀ a, p.pa = some a → t.phys a p.len = slice d p.off p.len) ∧
    (∀ ps, packetAt 0x06 b s → copyBad b = false → own → s.protectedRuns m = false →
      cutAccess s (s.mcxWho m) false (operand b 48 8) (operand b 36 4) = .ok ps →
      (∀ p, p ∈ ps → ∃ a, p.pa = some a ∧ s.segWaits a = none ∧ (p.x.tag = 0x3FFF ∨ (s.line a).cipher = true) ∧ p.x.cn = false ∧
        (s.line a).poison = false ∧ (s.line a).tomb = false) →
      (s.hostRead x.fn addr (operand b 36 4)).isSome = true → ∃ t, exec .copyOut s = .next t ∧ takesPacket s t ∧ t.mem.bytes = s.mem.bytes ∧
        (leAt b 8 8 = 0 → leAt b 16 8 = 0 → ∀ d, d = (ps.flatMap fun p => s.phys (p.pa.getD 0) p.len) →
          Memory.readN t.mem.host (hostKey x.fn addr) d.length = d)) ∧
    (∀ ps p a, packetAt 0x06 b s → copyBad b = false → own → s.protectedRuns m = false →
      cutAccess s (s.mcxWho m) false (operand b 48 8) (operand b 36 4) = .ok ps → (∀ p, p ∈ ps → ∃ a, p.pa = some a ∧ s.segWaits a ≠ some true) →
      p ∈ ps → p.pa = some a → s.segWaits a = some false → ∃ t, exec .copyOut s = .next t ∧ (t.mq s.ev.a).head = x.head ∧
        t.hif.cmds = s.hif.cmds ∧ t.mem.host = s.mem.host) ∧
    (∀ h, packetAt 0x07 b s → s.prot.vault.struck = true → s.hostRead x.fn addr 32 = some h → ∃ t, exec .keyImport s = .next t ∧
      completes 11 b s t ∧ t.prot.vault.slots = s.prot.vault.slots ∧ t.prot.vault.struck = false) ∧
    (∀ h, packetAt 0x07 b s → s.prot.vault.struck = false → s.hostRead x.fn addr 32 = some h →
      ((h.drop 8).all (· == 0) = false → s.importStatus m h x.part false = 0 → ∃ t, exec .keyImport s = .next t ∧ completes 0 b s t ∧
        (t.keySlotAt m).st = 1 ∧ (t.keySlotAt m).key = s.prot.vault.slotKey h ∧ (t.keySlotAt m).part = hdPart h ∧ (t.keySlotAt m).mcx = hdMcx h) ∧
      ((h.drop 8).all (· == 0) = true → s.importStatus m h x.part true = 0 → ∃ t, exec .keyImport s = .next t ∧ takesPacket s t ∧
        (t.keySlotAt m).st = 1 ∧ (t.keySlotAt m).part = hdPart h) ∧
      (∀ st mint, mint = (h.drop 8).all (· == 0) → s.importStatus m h x.part mint = st → st ≠ 0 → st < 65536 →
        ∃ t, exec .keyImport s = .next t ∧ completes st b s t ∧ t.prot = s.prot)) ∧
    (let q := operand b 32 4
     let fn := operand b 48 2
     packetAt 0x20 b s → privBad b = false → (s.fn fn).vqBase ≤ q → q < (s.fn fn).vqBase + (s.fn fn).vqCount → (s.st2 q).v = false →
     (s.hostRead fn (addr + 32) 16).isSome = true → ∃ t, exec .queueBind s = .next t ∧ takesPacket s t ∧ (t.st2 q).v = true ∧
       (t.st2 q).fn = fn ∧ (t.st2 q).qcb = addr ∧ (t.st2 q).digest = qcbDigest q (slice b 48 16)) ∧
    (let q := operand b 32 4
     packetAt 0x21 b s →
     ((∀ d, d ∈ s.hif.cmds → d.vqn ≠ q ∧ d.id < s.hif.nextCmd) → ∃ t, exec .queueUnbind s = .next t ∧ t.st2 q = {}) ∧
     ((∃ d, d ∈ s.hif.cmds ∧ d.vqn = q ∧ d.id < s.hif.nextCmd) → ∃ t, exec .queueUnbind s = .next t ∧ (t.st2 q).stopping = true)) ∧
    (let base := operand b 36 2
     let count := operand b 38 4
     packetAt 0x22 b s → m ≤ 64 → base + count ≤ 65536 →
     (∀ w, w < 65 → w ≠ m → overlap base count (s.fn w).vqBase (s.fn w).vqCount = false) →
     (∀ e, e ∈ s.hif.stage2 → e.2.v = true → ¬ ((s.fn m).vqBase ≤ e.1 ∧ e.1 < (s.fn m).vqBase + (s.fn m).vqCount)) →
     ∃ t, exec .vfSetup s = .next t ∧ completes 0 b s t ∧ (t.fn m).vqBase = base ∧ (t.fn m).vqCount = count) ∧
    (let p := operand b 32 1
     ∀ d, packetAt 0x23 b s → operand b 33 1 = 0 → p < 32 → (s.part p).st = 0 → s.hostRead x.fn addr 512 = some d → partBad d = false →
     s.partClash (parsePart d) = false → (∃ c, c < 600 ∧ (parsePart d).cores.getLsbD c = true ∧ (s.core c).failed = false) →
     ∃ t, exec .partitionDefine s = .next t ∧ takesPacket s t ∧ ((t.part p).st = 1 ∨ (t.part p).st = 2) ∧
       (t.part p).cores = (parsePart d).cores ∧ (t.part p).mcxBase = (parsePart d).mcxBase) ∧
    (let p := operand b 32 1
     packetAt 0x23 b s → operand b 33 1 = 1 → actionBad b = false → (s.part p).st = 2 →
     (∀ e, e ∈ s.prot.mcbs → ((s.part p).mcxBase ≤ e.1 ∧ e.1 < (s.part p).mcxBase + (s.part p).mcxCount) → e.2.st = 0) →
     ∃ t, exec .partitionWithdraw s = .next t ∧ takesPacket s t ∧ ((t.part p).st = 3 ∨ (t.part p).st = 0) ∧
       (∀ e, e ∈ t.eth.addr → ¬ (e.2.part = p ∧ e.2.flags.getLsbD 0 = true))) ∧
    (∀ d, packetAt 0x24 b s → operand b 36 4 % 4096 = 0 → operand b 32 4 + operand b 36 4 ≤ 2 ^ 24 →
      s.hostRead x.fn addr (operand b 36 4) = some d → ∃ t, exec .fwStage s = .next t ∧ completes 0 b s t ∧
        (t.fwSlot (1 - s.hif.fwRunning)).valid = true ∧ slice (t.fwSlot (1 - s.hif.fwRunning)).image (operand b 32 4) d.length = d) ∧
    (packetWaits 0x24 b s → s.hif.fwPhase ≠ .idle → operand b 36 4 % 4096 = 0 → operand b 32 4 + operand b 36 4 ≤ 2 ^ 24 →
      ∃ t, exec .fwStage s = .next t ∧ completes 13 b s t ∧ t.flash = s.flash) ∧
    (packetAt 0x25 b s → operand b 32 1 = 0 →
      (s.stagedOk = true → ∃ t, exec .fwActivateLive s = .next t ∧ takesPacket s t ∧ t.hif.fwPhase = .paused ∧
        ∀ k, k < 128 → (t.thread k).halted = true) ∧
      (s.stagedOk = false → ∃ t, exec .fwActivateLive s = .next t ∧ completes 11 b s t ∧ t.hif.fwPhase = .idle)) ∧
    (packetAt 0x25 b s → operand b 32 1 = 1 → s.stagedOk = true → ∃ t, exec .fwActivateNextStart s = .next t ∧ completes 0 b s t ∧
      t.flash = { s.flash with next := some (1 - s.hif.fwRunning) }) ∧
    (∀ d, packetAt 0x26 b s → s.hostRead x.fn addr 29864 = some d → s.tokenOk d 0x56524A46 40 72 = true → ∃ t, exec .recover s = .next t ∧
      completes 0 b s t ∧ writesBlock { s.flash with fails := 0, lastReason := 0 } s t) ∧
    (∀ d, packetAt 0x27 b s → s.hostRead x.fn addr 29896 = some d → s.tokenOk d 0x4B4F4A46 72 104 = true → ∃ t, exec .opkeyEnrol s = .next t ∧
      completes 0 b s t ∧ writesBlock { s.flash with opKey := slice d 40 32 } s t) ∧
    (s.hif.fwPhase = .paused → s.time.toNat ≤ s.hif.fwPauseAt + 50000000 → ∃ t, exec .fwNewImageStart s = .next t ∧ t.hif.fwPhase = .idle ∧
      t.hif.fwRunning = 1 - s.hif.fwRunning) ∧
    (s.hif.fwPhase = .paused → s.hif.fwPauseAt + 50000000 ≤ s.time.toNat → ∃ t, exec .fwActivateWatchdog s = .next t ∧ t.hif.fwPhase = .idle ∧
      t.hif.fwRunning = s.hif.fwRunning)

/-- Doorbells, queue loads, coalesced interrupts, buckets, event-ring heads, register reads and writes, and the PCIe link
(04 R90 R91 R98 R100 to R107 R113, 00 R6, 01 R32 R37). -/
def Obligations.HostQueuesRegistersAndLink : Prop :=
  ∀ (s : State),
    (∀ g, served s → s.fnUp s.ev.a = true → s.ev.b = 0x100000 + 0x100 * g → g < 4096 → s.ev.c = 4 →
      let e := (SMap.get (s.fn s.ev.a).s1 g 0).toNat
      let q := (s.fn s.ev.a).vqBase + e % 2 ^ 16
      e / 2 ^ 31 = 1 → e % 2 ^ 16 < (s.fn s.ev.a).vqCount → (s.st2 q).v = true → (s.st2 q).fn = s.ev.a →
      let tail := s.ev.value.toNat % 2 ^ 32
      ((s.st2 q).mq = none → ∃ t, exec .doorbell s = .next t ∧ (t.st2 q).tail = tail ∧ (t.st2 q).p = decide (tail ≠ 0xFFFFFFFF) ∧
        ∀ r, r ≠ q → t.st2 r = s.st2 r) ∧
      (∀ m, (s.st2 q).mq = some m → (s.mq m).vqn = some q → (s.mq m).reload = none → (s.st2 q).tail < 2 ^ (s.mq m).log →
        (tail = 0xFFFFFFFF → (s.mq m).head ≠ (s.st2 q).tail → ∃ t, exec .doorbell s = .next t ∧ (t.st2 q).mq = some m ∧
          (t.mq m).head = (s.mq m).head ∧ (t.mq m).reload = some (s.st2 q).tail) ∧
        (tail = 0xFFFFFFFF → (s.mq m).head = (s.st2 q).tail → ∃ t, exec .doorbell s = .next t ∧ (t.st2 q).mq = none ∧ (t.st2 q).p = (s.st2 q).p ∧
          (t.mq m).vqn = none) ∧
        (tail < 2 ^ (s.mq m).log → tail ≠ 0xFFFFFFFF → ∃ t, exec .doorbell s = .next t ∧ (t.st2 q).tail = tail ∧ t.mq m = s.mq m))) ∧
    (∀ q b m, served s → s.nextPending = some q → s.hostRead (s.st2 q).fn (s.st2 q).qcb 64 = some b →
      qcbDigest q (slice b 32 16) = (s.st2 q).digest → leAt b 0 8 % 64 = 0 → 4 ≤ leAt b 8 1 → leAt b 8 1 ≤ 16 → leAt b 10 2 ≤ 1024 →
      leAt b 20 12 = 0 → m < 128 → (s.mq m).vqn = none →
      (∀ j, j < m → (s.mq j).vqn ≠ none) →
      ∃ t, exec .queueLoad s = .next t ∧ (t.st2 q).mq = some m ∧ (t.st2 q).p = false ∧ (t.mq m).vqn = some q ∧ (t.mq m).base = leAt b 0 8 ∧
        (t.mq m).log = leAt b 8 1 ∧ (t.mq m).fn = leAt b 32 2 ∧ t.hif.pendPtr = q + 1) ∧
    (let e := s.st2 s.ev.a
     e.irqs ≠ 0 → e.window ≠ 0 → e.irqAt + 1000 * e.window ≤ s.time.toNat →
     let exists_ := e.vector < if e.fn = 0 then 128 else 64
     (exists_ → e.vector ∉ (s.fn e.fn).unmasked → ∃ t, exec .interruptWindowExpiry s = .next t ∧ (t.st2 s.ev.a).irqs = 0 ∧ e.vector ∈ (t.fn e.fn).pba ∧
       t.out = s.out) ∧
     (exists_ → e.vector ∈ (s.fn e.fn).unmasked → s.hif.link = true → s.fnUp e.fn = true → ∃ t, exec .interruptWindowExpiry s = .next t ∧
       (t.st2 s.ev.a).irqs = 0 ∧ t.out = .msix e.fn e.vector :: s.out)) ∧
    (served s → ∃ t, exec .bucketTick s = .next t ∧ ∀ v, v < 65 →
      let cap : Int := s.bkDepth v * 256
      t.bkLevel v = max (min ((s.fn v).bkWrite.getD (s.bkLevel v) + s.bkRate v) cap - 256 * s.bkCores v) (-cap)) ∧
    (let r := s.fn s.ev.a
     let n := 2 ^ r.evLog
     let x := s.ev.value.toNat
     x < n → x ≠ r.evHead → (x + n - r.evHead) % n ≤ (r.evTail + n - r.evHead) % n → ∃ t, exec .fnEvheadWrite s = .next t ∧
       (t.fn s.ev.a).evHead = x) ∧
    (served s → s.pkg.stuckPower = false → s.ev.a = 0 →
      (s.ev.b = 0x302000 → exec .counterRead s = .next { s with
        hif := { s.hif with lostCnt := 0 }, out := .read (BitVec.ofNat 64 s.hif.lostCnt) :: s.out }) ∧
      (s.ev.b = 8 → exec .counterRead s = .next { s with out := .read (BitVec.ofNat 64 s.pkg.pcap) :: s.out }) ∧
      (s.ev.b = 8 → s.ev.bytes.length = 8 → 600 ≤ leNat s.ev.bytes % 4096 → leNat s.ev.bytes % 4096 ≤ 2600 →
        exec .registerWrite s = .next { s with pkg := { s.pkg with pcap := leNat s.ev.bytes % 4096 } }) ∧
      (s.ev.b = 8 → s.ev.bytes.length = 8 → leNat s.ev.bytes % 4096 < 600 ∨ 2600 < leNat s.ev.bytes % 4096 →
        exec .registerWrite s = .next s)) ∧
    (s.pkg.mode = 0 → exec .pcieConfigRequest s = .next { s with out := .cfg true :: s.out }) ∧
    (served s → s.ev.b = 1 → exec .pcieConfigRequest s = .next { s with
      out := .cfg false :: s.out, hif := { s.hif with numVfs := if s.ev.value.toNat ≤ s.pkg.nVf then s.ev.value.toNat else 0 } }) ∧
    (served s → s.ev.b = 3 → s.ev.c < (if s.ev.a = 0 then 128 else 64) → s.ev.flag = false → s.ev.c ∈ (s.fn s.ev.a).pba → s.hif.link = true →
      s.fnUp s.ev.a = true → ∃ t, exec .pcieConfigRequest s = .next t ∧ s.ev.c ∈ (t.fn s.ev.a).unmasked ∧ s.ev.c ∉ (t.fn s.ev.a).pba ∧
        t.out = .msix s.ev.a s.ev.c :: .cfg false :: s.out) ∧
    (∃ t, exec .pcieHotReset s = .next t ∧ t.hif.stage2 = [] ∧ t.hif.mqs = [] ∧ t.hif.numVfs = 0 ∧ t.hif.spdm = [] ∧
      (s.ev.flag = true → t.hif.link = false) ∧ ∀ v, v < 65 → (t.fn v).enabled = false) ∧
    (1 ≤ s.ev.a → s.ev.a ≤ 64 → ∃ t, exec .vfFlr s = .next t ∧ (t.fn s.ev.a).enabled = false ∧
      (∀ e, e ∈ t.hif.stage2 → e.2.fn ≠ s.ev.a) ∧ t.hif.link = s.hif.link) ∧
    (s.hif.link = false → s.pkg.held = false → 4 ≤ s.pkg.stage → ∃ t, exec .pcieLinkUp s = .next t ∧ t.hif.link = true ∧
      (s.hif.linkLost = false → t.hif.lostOwed = s.hif.lostOwed ∧ t.mem.host = s.mem.host) ∧
      (s.hif.linkLost = true → ((s.fn 0).evEn = false ∨ (s.fn 0).ringFull = true → t.hif.lostOwed = some s.hif.lostCnt) ∧
        ((s.fn 0).evEn = true → (s.fn 0).ringFull = false → t.hif.lostOwed = none)))

namespace Sys2Proof.Stated

/-- One SPDM response leaves, and nothing but the host interface, the Vault's generator and the output changes. -/
abbrev answers (s t : State) : Prop :=
  (∃ bs, t.out = .spdm bs :: s.out) ∧ t.cores = s.cores ∧ t.mem = s.mem ∧ t.circ = s.circ ∧ t.pkg = s.pkg ∧ t.flash = s.flash

/-- The mailbox answers, and the message is a request with this code outside a session, within the transfer size (04 R92). -/
abbrev request (code : Nat) (s : State) : Prop :=
  served s ∧ s.hif.link = true ∧ leAt s.ev.bytes 1 1 = code ∧ s.ev.bytes.length ≤ 4096

/-- The message belongs to session `x` and is a request with this code. -/
abbrev inSession (x : SpdmSession) (code : Nat) (s : State) : Prop :=
  served s ∧ s.hif.link = true ∧ leAt (s.ev.bytes.drop 4) 1 1 = code ∧ s.hif.spdm.find? (fun y => y.sid == leAt s.ev.bytes 0 4) = some x

end Sys2Proof.Stated

/-- The mailbox of the physical function (04 R90 R92): DOE Discovery, the SPDM 1.3 responder and IDE_KM. The formats of messages are those of
outside standards, as log 75 says; the codes here are the model's. -/
def Obligations.MailboxAnswers : Prop :=
  ∀ (s : State),
    let b := s.ev.bytes
    (served s → s.hif.link = true → ∃ r, exec .doeDiscovery s = .next { s with out := .doe r :: s.out }) ∧
    (request 0x84 s → ∃ t, exec .getVersion s = .next t ∧ answers s t ∧ t.hif.spdmState = 1 ∧ t.hif.spdmExt = false) ∧
    (request 0xE1 s → 1 ≤ s.hif.spdmState → ∃ t, exec .getCapabilities s = .next t ∧ answers s t ∧ t.hif.spdmState = max 2 s.hif.spdmState) ∧
    (request 0xE3 s → 2 ≤ s.hif.spdmState → ∃ t, exec .negotiateAlgorithms s = .next t ∧ answers s t ∧ t.hif.spdmState = 3 ∧
      t.hif.spdmExt = !(Config.spdmField 0 b).isEmpty) ∧
    (request 0x81 s → 3 ≤ s.hif.spdmState → ∃ t, exec .getDigests s = .next t ∧ answers s t ∧ t.prot = s.prot ∧
      t.hif.spdmLog = s.hif.spdmLog ++ b ++ Config.spdmResponse 0x01 [natLe 1 1, sha256 s.chain]) ∧
    (request 0x82 s → 3 ≤ s.hif.spdmState → ∃ t, exec .getCertificate s = .next t ∧ answers s t ∧ t.prot = s.prot ∧
      (leAt b 2 1 % 16 = 0 →
        let part := slice s.chain (leAt b 4 2) (leAt b 6 2)
        t.hif.spdmLog = s.hif.spdmLog ++ b ++ Config.spdmResponse 0x02 [part, natLe 2 (s.chain.length - leAt b 4 2 - part.length)])) ∧
    (request 0x83 s → 3 ≤ s.hif.spdmState → ∃ t, exec .challenge s = .next t ∧ answers s t ∧
      (leAt b 2 1 % 16 = 0 → s.hif.spdmExt = true → ∃ r, t.hif.spdmLog = s.hif.spdmLog ++ b ++ r ∧
        t.prot = (s.random 32).2.prot) ∧
      (s.hif.spdmExt = false → t.hif.spdmLog = s.hif.spdmLog ∧ t.prot = s.prot)) ∧
    (request 0xE0 s → 3 ≤ s.hif.spdmState → ∃ t, exec .getMeasurements s = .next t ∧ answers s t ∧
      (leAt b 2 1 % 2 = 0 → ∀ i, leAt b 3 1 = i → 1 ≤ i → i ≤ 4 →
        t.hif.spdmLog = s.hif.spdmLog ++ b ++ Config.spdmResponse 0x60 [natLe 1 4, natLe 1 1, s.measurement i])) ∧
    (request 0xE4 s → 3 ≤ s.hif.spdmState → ∃ t, exec .keyExchange s = .next t ∧ answers s t ∧
      (s.hif.spdmExt = true → s.hif.spdm.length < 4 → ∃ x : SpdmSession, t.hif.spdm = s.hif.spdm ++ [x] ∧ x.established = false ∧
        x.sid % 2 ^ 16 = leAt b 4 2 ∧ ∀ y, y ∈ s.hif.spdm → y.sid / 2 ^ 16 ≠ x.sid / 2 ^ 16) ∧
      (s.hif.spdmExt = false ∨ 4 ≤ s.hif.spdm.length → t.hif.spdm = s.hif.spdm)) ∧
    (∀ x, inSession x 0xE5 s → x.established = false → ∃ t, exec .finish s = .next t ∧ answers s t ∧
      (Config.spdmFinish x.secret (b.drop 4) = true → ∀ y, y ∈ t.hif.spdm → y.sid = x.sid → y.established = true) ∧
      (Config.spdmFinish x.secret (b.drop 4) = false → ∀ y, y ∈ t.hif.spdm → y.sid ≠ x.sid)) ∧
    (∀ x, inSession x 0xE8 s → x.established = true → ∃ t, exec .spdmHeartbeat s = .next t ∧ answers s t ∧ t.hif.spdm = s.hif.spdm) ∧
    (∀ x, inSession x 0xE9 s → x.established = true → ∃ t, exec .keyUpdate s = .next t ∧ answers s t ∧
      (leAt (b.drop 4) 2 1 = 1 ∨ leAt (b.drop 4) 2 1 = 2 → ∀ y, y ∈ t.hif.spdm → y.sid = x.sid →
        y.updates = x.updates + 1 ∧ y.secret = Config.spdmSecret x.secret [] (x.updates + 1)) ∧
      (leAt (b.drop 4) 2 1 = 3 → t.hif.spdm = s.hif.spdm)) ∧
    (∀ x, inSession x 0xEC s → x.established = true → ∃ t, exec .endSession s = .next t ∧ answers s t ∧
      ∀ y, y ∈ t.hif.spdm ↔ y ∈ s.hif.spdm ∧ y.sid ≠ x.sid) ∧
    (request 0x85 s → 1 ≤ s.hif.spdmState →
      let all := s.hif.spdmIn.getD [] ++ Config.spdmField 2 b
      ∃ t, exec .chunkSend s = .next t ∧ answers s t ∧
        (131072 < all.length → t.hif.spdmIn = none) ∧
        (all.length ≤ 131072 → leAt b 2 1 % 2 = 0 → t.hif.spdmIn = some all ∧ t.hif.spdmLog = s.hif.spdmLog) ∧
        (all.length ≤ 131072 → leAt b 2 1 % 2 = 1 → t.hif.spdmIn = none ∧
          (leAt all 1 1 = 0x81 → 3 ≤ s.hif.spdmState →
            t.hif.spdmLog = s.hif.spdmLog ++ all ++ Config.spdmResponse 0x01 [natLe 1 1, sha256 s.chain]) ∧
          (leAt all 1 1 = 0xE3 → 2 ≤ s.hif.spdmState → t.hif.spdmState = 3 ∧ t.hif.spdmExt = !(Config.spdmField 0 all).isEmpty))) ∧
    (∀ code i, (code, i) ∈ [(0xE1, Instr.getCapabilities), (0xE3, .negotiateAlgorithms), (0x81, .getDigests), (0x82, .getCertificate),
        (0x83, .challenge), (0xE0, .getMeasurements), (0xE4, .keyExchange)] → served s → s.hif.link = true → leAt b 1 1 = code →
      4096 < b.length → s.hif.spdmIn ≠ some b → ∃ t, exec i s = .next t ∧ answers s t ∧ t.hif = s.hif ∧ t.prot = s.prot) ∧
    (request 0x86 s → 1 ≤ s.hif.spdmState → ∃ t, exec .chunkGet s = .next t ∧ answers s t ∧ ∀ bs, s.hif.spdmOut = some bs →
      (bs.length ≤ 4080 → t.hif.spdmOut = none) ∧ (4080 < bs.length → t.hif.spdmOut = some (bs.drop 4080))) ∧
    (∀ x, served s → s.hif.link = true → s.hif.spdm.find? (fun y => y.sid == leAt b 0 4) = some x → x.established = true →
      let msg := b.drop 4
      let stream := leAt msg 4 1
      ∃ t, exec .ideKm s = .next t ∧ answers s t ∧
        (leAt msg 1 1 = 2 → stream ≤ 4 → SMap.get t.hif.ideKeys (16 * stream + leAt msg 6 1 % 16) [] = Config.spdmField 3 msg) ∧
        (leAt msg 1 1 = 4 → stream ≤ 4 → stream ∈ t.hif.ideOn) ∧ (leAt msg 1 1 = 5 → stream ∉ t.hif.ideOn))

namespace Sys2Proof.Stated

/-- The Ethernet engine works (01 R32 R36). -/
abbrev etherUp (s : State) : Prop := s.pkg.stage = 8 ∧ s.pkg.mode = 1 ∧ s.pkg.held = false ∧ s.pkg.tripped = false

/-- Counter `k` of port `n`. -/
def portCounter (n k : Nat) (s : State) : Nat := SMap.get s.eth.portCtr (32 * n + k) 0

/-- Counter `k` of partition `p`. -/
def partCounter (p k : Nat) (s : State) : Nat := SMap.get s.eth.partCtr (16 * p + k) 0

/-- One more, saturating at 48 bits (00 R6, 02 R67). -/
def oneMore (x : Nat) : Nat := min (x + 1) (2 ^ 48 - 1)

/-- The MRP datagram `b` of client `p`, well-formed and of type `ty`, stands at the head of receive queue `q`, whose turn it is on port `a`
(02 R41 to R43). -/
abbrev datagram (ty q : Nat) (p : Peer) (b : List Byte) (s : State) : Prop :=
  etherUp s ∧ s.ev.a < 4 ∧ s.nextQueue s.ev.a = some q ∧ (s.rxQueue s.ev.a q).head? = some { peer := p, payload := b } ∧
    (readMrp b).ty = ty ∧ mrpOk b = true

/-- The datagram has left its queue, and the turn goes to the next one. -/
abbrev dequeued (q : Nat) (s t : State) : Prop :=
  t.rxQueue s.ev.a q = (s.rxQueue s.ev.a q).tail ∧ (t.port s.ev.a).pointer = (q + 1) % 64

/-- A protected datagram passes the checks of its session `i`: its state is `st`, SID and partition agree, the SEQ is new and in the
window, and the tag opens it to `body` (02 R44 to R47). -/
abbrev opens (st : SessState) (i : Nat) (body : List Byte) (p : Peer) (b : List Byte) (s : State) : Prop :=
  let h := readMrp b
  let e := s.sess i
  i = h.sid % 16384 ∧ e.st = st ∧ e.sid = h.sid ∧ e.part = p.part ∧ e.high < h.seq + 1024 ∧ h.seq ∉ e.seen ∧ h.seq ≤ 2 ^ 48 ∧
    gcmOpen e.kCd (e.saltCd ++ natBe 8 h.seq) (b.take 32) (slice b 32 h.blen) (b.drop (32 + h.blen)) = some body

/-- No session but `i` changes. -/
abbrev onlySession (i : Nat) (s t : State) : Prop := ∀ j, j ≠ i → t.sess j = s.sess j

end Sys2Proof.Stated

/-! The Ethernet engine (chapter 02). -/

/-- Ports, frames and the slow path: ETH.PCTL, link changes, the receive path's checks and queues, the slow path's answers (02 R38 to R41
R62 R63). -/
def Obligations.EthernetPortsAndFrames : Prop :=
  ∀ (s : State) (n : Nat), n < 4 → s.ev.a = n →
    let v := s.ev.value.toNat
    let bs := s.ev.bytes
    let raw := bs.take (bs.length - 4)
    let receives := etherUp s ∧ (s.port n).link = true
    (∃ t, exec .ethPctlWrite s = .next t ∧ (t.port n).en = bitOf v 0 ∧ (t.port n).an = bitOf v 1 ∧
      (t.port n).mtu = (if 1500 ≤ fld v 18 14 ∧ fld v 18 14 ≤ 9000 then fld v 18 14 else (s.port n).mtu) ∧
      (t.port n).speed = (if (s.port n).en = true ∨ fld v 2 2 = 3 then (s.port n).speed else fld v 2 2) ∧
      (bitOf v 0 = false → (t.port n).link = false ∧ (t.port n).al = false ∧ (t.port n).speedNow = 0) ∧
      (∀ m, m ≠ n → t.port m = s.port m) ∧ t.cores = s.cores ∧ t.mem = s.mem ∧ t.circ = s.circ) ∧
    (s.ev.flag = false → ∃ t, exec .ethLinkChange s = .next t ∧
      t.port n = { s.port n with link := false, al := false, speedNow := 0 } ∧ ∀ m, m ≠ n → t.port m = s.port m) ∧
    (s.ev.flag = true → (s.port n).en = true → etherUp s → ∃ t, exec .ethLinkChange s = .next t ∧
      t.port n = { s.port n with link := true, al := true, speedNow := (s.port n).speed } ∧ ∀ m, m ≠ n → t.port m = s.port m) ∧
    (receives → ∃ t, exec .frameReceive s = .next t ∧ portCounter n 13 t = min (portCounter n 13 s + s.ev.b) (2 ^ 48 - 1) ∧
      portCounter n 14 t = min (portCounter n 14 s + s.ev.c) (2 ^ 48 - 1)) ∧
    (receives → s.layer2Ok n bs = false → ∃ t, exec .frameReceive s = .next t ∧ portCounter n 0 t = oneMore (portCounter n 0 s) ∧
      portCounter n 1 t = oneMore (portCounter n 1 s) ∧ t.eth.queues = s.eth.queues ∧ t.eth.ports = s.eth.ports) ∧
    (∀ k, receives → s.layer2Ok n bs = true → (readFrame raw).verdict n bs.length s.eth.mrpPort = .drop k → k ≠ 0 → k < 32 →
      ∃ t, exec .frameReceive s = .next t ∧ portCounter n 0 t = oneMore (portCounter n 0 s) ∧
        portCounter n k t = oneMore (portCounter n k s) ∧ t.eth.queues = s.eth.queues ∧ t.eth.ports = s.eth.ports) ∧
    (receives → s.layer2Ok n bs = true → (readFrame raw).verdict n bs.length s.eth.mrpPort = .slow → ∃ t, exec .frameReceive s = .next t ∧
      t.eth.queues = s.eth.queues ∧
      ((s.port n).slow.length < 256 → (t.port n).slow = (s.port n).slow ++ [raw]) ∧
      (256 ≤ (s.port n).slow.length → (t.port n).slow = (s.port n).slow ∧ portCounter n 5 t = oneMore (portCounter n 5 s))) ∧
    (∀ peer dport u, receives → s.layer2Ok n bs = true → (readFrame raw).verdict n bs.length s.eth.mrpPort = .mrp peer dport u →
      (s.addrFor n peer.ip6 peer.dstIp peer.vid = none → ∃ t, exec .frameReceive s = .next t ∧ t.eth.queues = s.eth.queues ∧
        portCounter n 3 t = oneMore (portCounter n 3 s)) ∧
      (∀ e, s.addrFor n peer.ip6 peer.dstIp peer.vid = some e →
        let q := s.rxQueue n e.queue
        let held := (q.map fun d => d.payload.length).sum
        (held + (u.length - 8) ≤ 32768 → ∃ t, exec .frameReceive s = .next t ∧
          t.rxQueue n e.queue = q ++ [{ peer := { peer with part := e.part }, payload := u.drop 8 }] ∧
          ∀ k, k ≠ e.queue → t.rxQueue n k = s.rxQueue n k) ∧
        (32768 < held + (u.length - 8) → ∃ t, exec .frameReceive s = .next t ∧ t.eth.queues = s.eth.queues ∧
          portCounter n 15 t = oneMore (portCounter n 15 s)))) ∧
    (∀ f r, (s.port n).slow = f :: r → etherUp s → s.hif.fwPhase = .idle → ∃ t, exec .slowPathFrame s = .next t ∧ (t.port n).slow = r ∧
      (∀ a, s.slowAnswer n f = some a → t.out = .frame n a :: s.out ∧ portCounter n 12 t = oneMore (portCounter n 12 s)) ∧
      (s.slowAnswer n f = none → t.out = s.out ∧ portCounter n 4 t = oneMore (portCounter n 4 s)))

/-- Sessions: HELLO claims a slot in HALF, CONFIRM opens it, HEARTBEAT refreshes it, CLOSE and silence lapse it, CERTREQ is answered a
thousand times a second (02 R47 to R52). -/
def Sys2Proof.Stated.MrpSessions : Prop :=
  ∀ (s : State) (q : Nat) (p : Peer) (b : List Byte),
    let h := readMrp b
    let m := b.drop 32
    let now := s.time.toNat
    (datagram 1 q p b s → h.count = 1 → beAt m 0 2 < 4096 → s.sessCount (fun e => e.st == SessState.half) < 1024 →
      s.sessCount (fun e => e.st != SessState.free && e.part == p.part) < min 16384 (s.epool p.part).sessMax →
      (let k := s.keySlotAt (beAt m 0 2)
       k.st = 1 ∧ k.purp = 1 ∧ k.part = p.part) →
      (slice m 4 8 = (sha256 s.staticKey).take 8 → 10 ≤ beAt m 2 2 → beAt m 2 2 ≤ 60000 →
        ∀ i, i < 16384 → (s.sess i).st = .free → (∀ j, j < i → (s.sess j).st ≠ .free) → ∃ t, exec .hello s = .next t ∧ dequeued q s t ∧
          (t.sess i).st = .half ∧ (t.sess i).sid % 16384 = i ∧ (t.sess i).part = p.part ∧ (t.sess i).binding = beAt m 0 2 ∧
          (t.sess i).period = beAt m 2 2 ∧ (t.sess i).lastAt = now ∧ (t.sess i).sent = 0 ∧ onlySession i s t) ∧
      (slice m 4 8 ≠ (sha256 s.staticKey).take 8 → ∃ t, exec .hello s = .next t ∧ dequeued q s t ∧ t.eth.sessions = s.eth.sessions ∧
        partCounter p.part 6 t = oneMore (partCounter p.part 6 s))) ∧
    (∀ i body, datagram 3 q p b s → opens .half i body p b s → ∃ t, exec .confirm s = .next t ∧ dequeued q s t ∧ onlySession i s t ∧
      (body = (s.sess i).clientTag → (s.sess i).sent < 2 ^ 48 → (t.sess i).st = .openS ∧ (t.sess i).lastAt = now ∧
        h.seq ∈ (t.sess i).seen ∧ h.seq ≤ (t.sess i).high) ∧
      (body ≠ (s.sess i).clientTag → t.sess i = {})) ∧
    (∀ i body, datagram 7 q p b s → opens .openS i body p b s → (s.sess i).sent < 2 ^ 48 → ∃ t, exec .heartbeat s = .next t ∧ dequeued q s t ∧
      onlySession i s t ∧ (t.sess i).st = .openS ∧ (t.sess i).lastAt = now) ∧
    (∀ i body, datagram 9 q p b s → opens .openS i body p b s → ∃ t, exec .close s = .next t ∧ dequeued q s t ∧ onlySession i s t ∧
      (t.sess i).st ≠ .openS ∧ ∀ id r, s.ereq id = some r → r.slot = i → r.complete = false → t.ereq id = none) ∧
    (datagram 10 q p b s →
      let used := if (s.port s.ev.a).certSecond = now / 1000000000 then (s.port s.ev.a).certCount else 0
      ∃ t, exec .certreq s = .next t ∧ dequeued q s t ∧ t.eth.sessions = s.eth.sessions ∧
        (used < 1000 → (t.port s.ev.a).certSecond = now / 1000000000 ∧ (t.port s.ev.a).certCount = used + 1) ∧
        (1000 ≤ used → t.out = s.out ∧ portCounter s.ev.a 11 t = oneMore (portCounter s.ev.a 11 s))) ∧
    (let e := s.sess s.ev.a
     (e.st = .openS → e.lastAt + 3 * (e.period * 1000000) < now → ∃ t, exec .sessionLapseTimeout s = .next t ∧ onlySession s.ev.a s t ∧
       (t.sess s.ev.a).st ≠ .openS) ∧
     (e.st ≠ .openS ∨ now ≤ e.lastAt + 3 * (e.period * 1000000) → exec .sessionLapseTimeout s = .next s) ∧
     (e.st = .half → e.lastAt + 100000000 ≤ now → ∃ t, exec .halfTimeout s = .next t ∧ onlySession s.ev.a s t ∧ t.sess s.ev.a = {}) ∧
     (e.st ≠ .half ∨ now < e.lastAt + 100000000 → exec .halfTimeout s = .next s))

/-- Requests: a request of one datagram passes to Circulation with the template of its micro-context, a fragment joins its request, a
request for no Catalog entry takes nothing, and one that stays incomplete for 10 ms leaves; an opened body is as long as its ciphertext
(02 R53 to R57). -/
def Sys2Proof.Stated.MrpRequests : Prop :=
  ∀ (s : State) (q : Nat) (p : Peer) (b : List Byte) (i : Nat) (body : List Byte),
    let h := readMrp b
    let e := s.sess i
    (datagram 4 q p b s → opens .openS i body p b s →
      (s.ereqOf i h.reqid = none → (s.eth.requests.filter fun x => match x.2 with | some r => r.slot == i | none => false).length < 256 →
        (s.catLookup e.binding h.func = none → e.sent < 2 ^ 48 → ∃ t, exec .request s = .next t ∧ dequeued q s t ∧ t.eth.requests = s.eth.requests ∧
          t.circ = s.circ ∧ t.eth.pools = s.eth.pools) ∧
        (∀ k pair, s.catLookup e.binding h.func = some k → (s.catEntry k).part = e.part → s.freePairOf e.part = some pair →
          h.tlen ≤ (s.epool e.part).slotBytes - 128 → (h.count = 1 → body.length = h.tlen) → ∃ t, exec .request s = .next t ∧ dequeued q s t ∧
            t.eth.nextReq = s.eth.nextReq + 1 ∧ (t.epool e.part).held = (s.epool e.part).held ++ [pair] ∧
            (∀ id, id ≠ s.eth.nextReq → t.ereq id = s.ereq id) ∧
            (∃ r, t.ereq s.eth.nextReq = some r ∧ r.slot = i ∧ r.func = h.func ∧ r.reqid = h.reqid ∧ r.tlen = h.tlen ∧ r.part = e.part ∧
              r.mcx = (s.catEntry k).mcx ∧ r.pair = pair ∧ r.complete = decide (h.count = 1)) ∧
            (h.count ≠ 1 → t.circ = s.circ) ∧
            (h.count = 1 → ∃ x, t.circ.ethLane = s.circ.ethLane ++ [x] ∧ x.mcx = (s.catEntry k).mcx ∧ x.request = some s.eth.nextReq))) ∧
      (∀ id r, s.ereqOf i h.reqid = some (id, r) → r.complete = false → h.func = r.func → h.tlen = r.tlen → h.count = r.frags →
        SMap.get r.bodies h.frag none = none → (SMap.put r.bodies h.frag (some body)).length ≠ r.frags → ∃ t, exec .request s = .next t ∧
          dequeued q s t ∧ t.ereq id = some { r with bodies := SMap.put r.bodies h.frag (some body), peer := p } ∧
          (∀ j, j ≠ id → t.ereq j = s.ereq j) ∧ t.circ = s.circ)) ∧
    (∀ r, s.ereq s.ev.a = some r → r.complete = false → r.firstAt + 10000000 ≤ s.time.toNat → ∃ t, exec .reassemblyTimeout s = .next t ∧
      t.ereq s.ev.a = none) ∧
    (∀ r, s.ereq s.ev.a = some r → r.complete = true ∨ s.time.toNat < r.firstAt + 10000000 → exec .reassemblyTimeout s = .next s)

namespace Sys2Proof.Stated

/-- No fabric operation of a core is under way, and no READ waits for a segment: the fabric engine has nothing to do. -/
abbrev fabricIdle (s : State) : Prop := (∀ e, e ∈ s.cores → e.2.ctx.fabricq = []) ∧ ∀ p, p ∈ s.sl.rx → p.kind ≠ 2

/-- The packet `p` of a kind arrives whole at port `a`, whose link is up (03 R69 R70). -/
abbrev arrives (kind : Nat) (p : Pk) (s : State) : Prop :=
  s.ev.a < 16 ∧ (s.slp s.ev.a).link = true ∧ readPk s.ev.bytes = some p ∧ p.kind = kind

/-- The packet is for this package. -/
abbrev forUs (kind : Nat) (p : Pk) (s : State) : Prop := arrives kind p s ∧ p.dpkg = s.sl.pkg ∧ fabricIdle s

/-- Port `n`, up, is where packets of partition `part` for package `d` leave (03 R71). -/
abbrev way (d part n : Nat) (s : State) : Prop := d ≠ s.sl.pkg ∧ s.routePort d part = some n ∧ (s.slp n).link = true

/-- Packets wait at the end of port `n`'s send queue. -/
abbrev queued (n : Nat) (ps : List Pk) (s t : State) : Prop := (t.slp n).sendq = (s.slp n).sendq ++ ps.map fun p => { pk := p }

/-- `x` is the packet `p`, with the place of its flits in a receive buffer (03 R74). -/
abbrev carries (p x : Pk) : Prop := { x with inPort := p.inPort, shares := p.shares } = p

/-- One packet that had arrived waits at the end of port `n`'s send queue. -/
abbrev passedOn (n : Nat) (p : Pk) (s t : State) : Prop := ∃ x, carries p x ∧ queued n [x] s t

/-- Port `a` after the flits of `p` have come: what they say and where they stand in the receive buffer (03 R68 R69 R74). -/
def heardState (p : Pk) (s : State) : State :=
  let flits := leAt s.ev.bytes 1 1 % 16 + 1
  let s₀ := (s.countSl s.ev.a 1 flits).modSlp s.ev.a fun x => (x.heard s.time.toNat flits).credited s.ev
  s₀.modSlp s.ev.a fun _ => ((s₀.slp s.ev.a).land s.ev.a p).1

/-- The lines of an arrived packet set out for their home slices as one request; memory is as before (09 R263). -/
abbrev setOut (p : Pk) (op : Option Nat) (ps : List Piece) (bs : List Byte) (s t : State) : Prop :=
  t.mem.bytes = s.mem.bytes ∧ ∃ x r, carries p x ∧ t.mem.net = s.mem.net ++ [r] ∧ r.kind = .arriving x op ∧ r.data = bs ∧
    r.parts.map (fun q => (q.addr, q.off, q.len)) = ps.map fun q => (q.x.dest.addr, q.off, q.len)

/-- Counter `k` of Smivy port `n`. -/
def linkCounter (n k : Nat) (s : State) : Nat := SMap.get s.sl.ctr (32 * n + k) 0

/-- `o` is the only fabric operation of the package, its packets have been handed over and it waits; nothing has arrived for it yet. -/
abbrev waitsFor (c m : Nat) (o : FabricOp) (s : State) : Prop :=
  (s.core c).ctx.fabricq = [o] ∧ (∀ e, e ∈ s.cores → e.2.ctx.fabricq = if e.1 = c then [o] else []) ∧ s.sl.rx = [] ∧ s.mcxOf c = some m ∧
    o.running = true ∧ o.sent = true ∧ o.result = none ∧ o.op ≠ 8 ∧ (o.op = 7 → o.rma = true)

/-- The operation has ended with a status, LEN and MAL (17 R478). -/
abbrev endedWith (c id status len : Nat) (mal : Bool) (t : State) : Prop :=
  ∃ x, t.fabricOp c id = some x ∧ x.result = some (status, len, mal)

end Sys2Proof.Stated

/-! Smivy (chapter 03, 17 R478 to R481). -/

/-- Packets that arrive: a WRITE's lines set out and are performed at their home slices, and the last one has it acknowledged; READ is answered
with data, SEND, COLL and ABANDON are kept for operations, RECVCRED posts receives, answers end their operations, strangers are refused,
packets for others go on, bad ones are dropped (03 R70 R71 R76 to R78 R81, 09 R263). -/
def Sys2Proof.Stated.FabricPacketsArrive : Prop :=
  ∀ (s : State) (p : Pk) (r : Nat),
    let n := s.ev.a
    let part := (s.mcb p.dmcx).part
    let off := p.arg 16 8
    let size := min (p.arg 24 4) p.data.length
    (forUs 1 p s → way p.spkg part r s →
      (s.accepts p true = false → ∃ t, exec .fabWrite s = .next t ∧ queued r [p.answer 4 1 part] s t ∧ t.mem = s.mem) ∧
      (s.accepts p true = true → s.windowPieces p.dmcx off size true = none → ∃ t, exec .fabWrite s = .next t ∧
        queued r [p.answer 4 2 part] s t ∧ t.mem = s.mem) ∧
      (∀ ps, s.accepts p true = true → s.windowPieces p.dmcx off size true = some ps → size ≠ 0 →
        ∃ t, exec .fabWrite s = .next t ∧ setOut p none ps (p.data.take size) s t ∧ queued r [] s t) ∧
      (∀ ps, s.accepts p true = true → s.windowPieces p.dmcx off size true = some ps → size = 0 →
        ∃ t, exec .fabWrite s = .next t ∧ queued r [p.answer 4 0 part] s t ∧ t.mem = s.mem)) ∧
    (∀ q x, s.req s.ev.a = some q → q.kind = .arriving p none → q.parts[s.ev.b]? = some x → s.mayPerform q s.ev.b = true → q.acq = false →
      q.rel = false → x.addr < 2 ^ 38 → (∀ o, placeOf x.addr ≠ .house o ∧ placeOf x.addr ≠ .host o) → s.pageDirty x.addr x.tag = false →
      s.zeroMarked x.addr = false → (s.line x.addr).writeFault (x.len == 128) = none → q.core = 700 → q.launch = 2 ^ 20 →
      s.launchAt (2 ^ 20) = none → fabricIdle s → x.off + x.len ≤ q.data.length → 0 < x.len →
      ∃ t, exec .homeSliceAccept s = .next t ∧ t.phys x.addr x.len = slice q.data x.off x.len ∧ onlyBytes x.addr x.len s t ∧
        ((q.donePart s.ev.b).performed = true → q.fault = none → (∀ k, way p.spkg part k s → queued k [p.answer 4 0 part] s t) ∧
          t.req s.ev.a = none) ∧
        ((q.donePart s.ev.b).performed = false → t.sl = s.sl)) ∧
    (forUs 2 p s → way p.spkg part r s →
      (s.accepts p true = false → ∃ t, exec .fabRead s = .next t ∧ queued r [p.answer 3 1 part] s t ∧ t.mem = s.mem) ∧
      (s.accepts p true = true → s.windowPieces p.dmcx off (p.arg 24 4) false = none → ∃ t, exec .fabRead s = .next t ∧
        queued r [p.answer 3 2 part] s t ∧ t.mem = s.mem) ∧
      (∀ ps, s.accepts p true = true → s.windowPieces p.dmcx off (p.arg 24 4) false = some ps →
        (∀ q, q ∈ ps → ∃ a, q.pa = some a ∧ s.segWaits a = none ∧ (q.x.tag = 0x3FFF ∨ (s.line a).cipher = true) ∧ q.x.cn = false ∧
          (s.line a).poison = false ∧ (s.line a).tomb = false) →
        ∃ t, exec .fabRead s = .next t ∧ t.mem.bytes = s.mem.bytes ∧
          queued r (readAnswers p part off (ps.flatMap fun q => s.phys (q.pa.getD 0) q.len)) s t)) ∧
    (forUs 5 p s → (s.accepts p true = true → ∃ t, exec .fabSend s = .next t ∧ (∃ x, carries p x ∧ x ∈ t.sl.rx) ∧ t.mem = s.mem) ∧
      (s.accepts p true = false → way p.spkg part r s → ∃ t, exec .fabSend s = .next t ∧ queued r [p.answer 4 1 part] s t)) ∧
    (forUs 6 p s → ∃ t, exec .fabRecvCred s = .next t ∧ t.mem = s.mem ∧
      SMap.get t.sl.credits (creditKey p.dmcx p.spkg p.smcx) 0 = SMap.get s.sl.credits (creditKey p.dmcx p.spkg p.smcx) 0 +
        (if s.accepts p false = true then p.arg 16 4 else 0) ∧
      (t.slp n).lastFlit = s.time.toNat ∧ (t.slp n).rxSeq = ((s.slp n).rxSeq + (leAt s.ev.bytes 1 1 % 16 + 1)) % 4096 ∧
      SMap.get (t.slp n).used s.ev.b 0 = SMap.get (s.slp n).used s.ev.b 0 - s.ev.c) ∧
    (forUs 7 p s → (s.accepts p true = true → ∃ t, exec .fabColl s = .next t ∧ (∃ x, carries p x ∧ x ∈ t.sl.rx) ∧ t.mem = s.mem) ∧
      (s.accepts p true = false → way p.spkg part r s → ∃ t, exec .fabColl s = .next t ∧ queued r [p.answer 4 1 part] s t)) ∧
    (forUs 8 p s → ∃ t, exec .fabAbandon s = .next t ∧ t.mem = s.mem ∧
      (s.accepts p false = true → ∃ x, carries p x ∧ t.sl.rx = s.sl.rx ++ [x]) ∧ (s.accepts p false = false → t.sl.rx = s.sl.rx)) ∧
    (∀ c m (o : FabricOp), arrives 4 p s → p.dpkg = s.sl.pkg → waitsFor c m o s → o.opid = p.opid →
      (p.status ≠ 0 → ∃ t, exec .fabWriteAck s = .next t ∧ endedWith c o.id p.status 0 false t ∧ t.mem = s.mem) ∧
      (p.status = 0 → o.rma = true → o.waits = 1 → ∃ t, exec .fabWriteAck s = .next t ∧ endedWith c o.id 0 o.len false t ∧ t.mem = s.mem)) ∧
    (∀ c m (o : FabricOp), arrives 3 p s → p.dpkg = s.sl.pkg → waitsFor c m o s → o.opid = p.opid →
      let s₁ := (heardState p s).alive p.spkg p.smcx
      (p.status ≠ 0 → ∃ t, exec .fabReadResp s = .next t ∧ endedWith c o.id p.status 0 false t ∧ t.mem = s.mem) ∧
      (∀ s₂, p.status = 0 → o.rma = true → o.waits = 1 →
        s₁.fabricWrite c (o.addr + (off - o.off)) (p.data.take (p.arg 24 4)) = .done () s₂ → ∃ t, exec .fabReadResp s = .next t ∧
          t.mem = s₂.mem ∧ endedWith c o.id 0 o.len false t)) ∧
    (arrives 4 p s → p.dpkg = s.sl.pkg → fabricIdle s → ∃ t, exec .fabWriteAck s = .next t ∧ t.mem = s.mem ∧ t.cores = s.cores) ∧
    (arrives 1 p s → way p.dpkg p.part r s → fabricIdle s → ∃ t, exec .fabWrite s = .next t ∧ passedOn r p s t ∧ t.mem = s.mem) ∧
    (s.ev.a < 16 → (s.slp n).link = true → leAt s.ev.bytes 0 1 = 1 → readPk s.ev.bytes = none → fabricIdle s →
      ∃ t, exec .fabWrite s = .next t ∧ linkCounter n 4 t = oneMore (linkCounter n 4 s) ∧ t.mem = s.mem ∧ t.sl.rx = s.sl.rx)

namespace Sys2Proof.Stated

/-- Port `n`'s link is down until EN is cleared and set again, and nothing of it waits to leave (03 R69). -/
abbrev wentDown (n : Nat) (t : State) : Prop := (t.slp n).link = false ∧ (t.slp n).latchedDown = true ∧ (t.slp n).sendq = []

/-- A packet of the queue has waited its time at the head for credit (03 R72). -/
abbrev waitedOut (now : Nat) (q : SendPkt) : Prop := ∃ w, q.waitAt = some w ∧ w + 1000000 ≤ now

end Sys2Proof.Stated

/-- The ports: training, lanes, replays, liveness, credit flits, SL.PCTL, the wheel's slots, returned credit and the wait for credit
(03 R68 R69 R72 to R74 R87, 01 R32 R36). The layout of a flit's trailer, how a replay is requested and which wheel sizes the shares are the
model's choice (logs 100 and 101). -/
def Sys2Proof.Stated.SmivyPortsAndWheel : Prop :=
  ∀ (s : State) (n : Nat), n < 16 → s.ev.a = n → fabricIdle s →
    let x := s.slp n
    let now := s.time.toNat
    let v := s.ev.value
    (etherUp s → x.en = true → x.link = false → x.latchedDown = false → lanesWhole x.lanesBad = true → ∃ t, exec .slLinkUp s = .next t ∧
      (t.slp n).link = true ∧ (t.slp n).peer = s.ev.b % 2048 ∧ (t.slp n).width = (x.half || x.lanesBad != 0) ∧ (t.slp n).lastFlit = now ∧
      ∀ k, k ≠ n → t.slp k = s.slp k) ∧
    (s.pkg.stage < 8 ∨ s.pkg.mode = 2 → exec .slLinkUp s = .next s ∧ exec .slPctlWrite s = .next s) ∧
    (x.link = true →
      let bad := x.lanesBad ||| BitVec.ofNat 8 (2 ^ (s.ev.b % 8))
      ∃ t, exec .laneFailure s = .next t ∧ (t.slp n).lanesBad = bad ∧
        (lanesWhole bad = true → (t.slp n).link = true ∧ (t.slp n).width = true) ∧ (lanesWhole bad = false → wentDown n t)) ∧
    (x.link = true → s.ev.flag = false → ∃ t, exec .linkReplay s = .next t ∧ linkCounter n 2 t = oneMore (linkCounter n 2 s) ∧
      linkCounter n 3 t = oneMore (linkCounter n 3 s) ∧
      (x.replays < 8 → (t.slp n).link = true ∧ (t.slp n).replays = x.replays + 1 ∧ t.out = .replay n x.rxSeq :: s.out) ∧
      (8 ≤ x.replays → wentDown n t)) ∧
    (∀ pre f post, x.link = true → s.ev.flag = true → x.retry = pre ++ f :: post → f.1 = s.ev.b → (∀ g, g ∈ pre → g.1 ≠ s.ev.b) →
      ∃ t, exec .linkReplay s = .next t ∧ (t.slp n).resend = f :: post ∧ (t.slp n).retry = x.retry ∧ t.out = s.out) ∧
    (x.link = true → x.lastFlit + 100000 ≤ now → ∃ t, exec .livenessTimeout s = .next t ∧ wentDown n t) ∧
    (x.link = false ∨ now < x.lastFlit + 100000 → exec .livenessTimeout s = .next s) ∧
    (x.link = true → now < x.lastFlit + 100000 → x.resend = [] → x.pick = none → ∃ t, exec .creditFlit s = .next t ∧
      t.out = .flit n (s.wholeFlit n (List.replicate 256 0)) :: s.out ∧ linkCounter n 0 t = oneMore (linkCounter n 0 s) ∧
      (t.slp n).sendq = x.sendq ∧ (t.slp n).used = x.used ∧ (t.slp n).txSeq = (x.txSeq + 1) % 4096 ∧ ∀ k, k ≠ n → t.slp k = s.slp k) ∧
    (etherUp s → ∃ t, exec .slPctlWrite s = .next t ∧ (t.slp n).en = v.getLsbD 0 ∧ (t.slp n).half = (if x.en then x.half else v.getLsbD 1) ∧
      (x.en = true → v.getLsbD 0 = false → (t.slp n).link = false ∧ (t.slp n).latchedDown = false) ∧
      (x.en = false ∨ v.getLsbD 0 = true → (t.slp n).link = x.link ∧ (t.slp n).latchedDown = x.latchedDown)) ∧
    (∀ f rest, x.link = true → x.resend = f :: rest → ∃ t, exec .wheelSlot s = .next t ∧ t.out = .flit n f.2 :: s.out ∧
      (t.slp n).resend = rest ∧ (t.slp n).sendq = x.sendq ∧ (t.slp n).txSeq = x.txSeq ∧ linkCounter n 0 t = oneMore (linkCounter n 0 s) ∧
      (t.slp n).slot = if x.slot = 63 then 0 else x.slot + 1) ∧
    (x.link = true → x.resend = [] → ∃ t, exec .wheelSlot s = .next t ∧ (t.slp n).slot = (if x.slot = 63 then 0 else x.slot + 1) ∧
      (x.slot = 63 → (t.slp n).wheel = x.wheelNext) ∧
      (x.pick = none → t.out = s.out ∧ (t.slp n).sendq.map (·.pk) = x.sendq.map (·.pk) ∧ (t.slp n).used = x.used) ∧
      (∀ i q k, x.pick = some (i, q) → x.share q = some k → linkCounter n 0 t = oneMore (linkCounter n 0 s) ∧
        SMap.get (t.slp n).used k 0 = SMap.get x.used k 0 + 1 ∧ t.out = .flit n (s.wholeFlit n (q.pk.flit q.sent)) :: s.out ∧
        (t.slp n).txSeq = (x.txSeq + 1) % 4096 ∧ ((t.slp n).retry.getLast? = some (x.txSeq, s.wholeFlit n (q.pk.flit q.sent))) ∧
        (q.pk.flits ≤ q.sent + 1 → (t.slp n).sendq.map (·.pk) = (x.sendq.map (·.pk)).eraseIdx i) ∧
        (q.sent + 1 < q.pk.flits → ((t.slp n).sendq[i]?).map (·.sent) = (x.sendq[i]?).map (·.sent + 1)))) ∧
    (x.link = true → ∃ t, exec .creditReturn s = .next t ∧ SMap.get (t.slp n).used s.ev.b 0 = SMap.get x.used s.ev.b 0 - s.ev.c ∧
      (t.slp n).lastFlit = now ∧ (t.slp n).sendq = x.sendq ∧ ∀ k, k ≠ n → t.slp k = s.slp k) ∧
    ((∀ q, q ∈ x.sendq → ¬ waitedOut now q) → exec .stalldropTimeout s = .next s) ∧
    (∀ i q, x.sendq[i]? = some q → waitedOut now q → (∀ j y, j < i → x.sendq[j]? = some y → ¬ waitedOut now y) →
      ∃ t, exec .stalldropTimeout s = .next t ∧ linkCounter n 6 t = oneMore (linkCounter n 6 s) ∧
        (q.pk.isRequest = false → (t.slp n).sendq = x.sendq.eraseIdx i) ∧
        (∀ r, q.pk.isRequest = true → r ≠ n → way q.pk.spkg q.pk.part r s → queued r [q.pk.answer 4 3 q.pk.part] s t))

/-- Global time and notifications: an exchange sets out with TIME, is answered with TIME echoed, gives the link delay and, at the parent port,
the offset that corrects TIME; a fault notification is flooded once (03 R82 R83). What a peer's hops are is free. -/
def Sys2Proof.Stated.GlobalTimeAndFaults : Prop :=
  ∀ (s : State) (n : Nat), n < 16 → s.ev.a = n → fabricIdle s →
    let now := s.time.toNat
    ((s.slp n).link = true → ∃ t, exec .timesyncExchange s = .next t ∧ queued n [s.timePk n 0] s t ∧ t.time = s.time ∧
      ∀ k, k ≠ n → t.slp k = s.slp k) ∧
    ((s.slp n).link = false → exec .timesyncExchange s = .next s) ∧
    (∀ p, arrives 9 p s →
      (p.arg 24 8 = 0 → ∃ t, exec .fabTimesync s = .next t ∧ queued n [s.timePk n (p.arg 16 8)] s t ∧ t.time = s.time) ∧
      (p.arg 24 8 ≠ 0 →
        let delay := (now - p.arg 24 8) / 2
        let e : Int := (now : Int) - ((p.arg 16 8 + delay : Nat) : Int)
        (s.sl.master = true → ∃ t, exec .fabTimesync s = .next t ∧ (t.slp n).delay = delay ∧ t.sl.hops = 0 ∧ t.time = s.time) ∧
        (s.sl.master = false → Config.peerHops s.free % 256 < 0xFF →
          (s.slp n).link = true → (∀ k, k ∈ s.upPorts → k ≠ n → Config.peerHops s.free % 256 < (s.slp k).hops) → ∃ t, exec .fabTimesync s = .next t ∧
            (t.slp n).delay = delay ∧ t.sl.parent = n ∧ t.sl.hops = Config.peerHops s.free % 256 + 1 ∧ t.sl.ofs = e ∧
            (t.sl.sync = true ↔ -20 ≤ e ∧ e ≤ 20 ∧ 9 ≤ s.sl.syncRun) ∧
            (-1000 ≤ e → t.time = s.time ∧ t.sl.slew = e ∧ (t.sl.slow = true ↔ 1000 < e)) ∧
            (e < -1000 → t.time = s.time + BitVec.ofInt 64 (-e) ∧ t.sl.slew = 0)) ∧
        (s.sl.master = false → Config.peerHops s.free % 256 = 0xFF → (∀ k, k ∈ s.upPorts → k ≠ n → (s.slp k).hops = 0xFF) →
          ∃ t, exec .fabTimesync s = .next t ∧ (t.slp n).delay = delay ∧ t.sl.hops = 0xFF ∧ t.sl.sync = false ∧ t.time = s.time))) ∧
    (∀ p, arrives 10 p s →
      let id := (fld (p.arg 18 2) 0 11, p.arg 22 2)
      (id ∈ s.sl.faultsSeen → ∃ t, exec .fabFault s = .next t ∧ t.sl.faultsSeen = s.sl.faultsSeen ∧ t.hif = s.hif ∧ t.sl.dead = s.sl.dead) ∧
      (id ∉ s.sl.faultsSeen → ∃ t, exec .fabFault s = .next t ∧ t.sl.faultsSeen = s.sl.faultsSeen ++ [id] ∧
        (∀ k, k ∈ s.upPorts → k ≠ n → passedOn k { p with dpkg := (s.slp k).peer, spkg := s.sl.pkg } s t) ∧ queued n [] s t ∧
        (p.arg 16 1 = 2 → id.1 ≠ s.sl.pkg → { pkg := id.1, mcx := none, at_ := now } ∈ t.sl.dead) ∧
        (p.arg 16 1 = 1 → id.1 ≠ s.sl.pkg → { pkg := id.1, mcx := some (fld (p.arg 20 2) 0 13), at_ := now } ∈ t.sl.dead)))

/-- The fabric engine: an operation with an invalid endpoint ends as DENIED, one that waits 10 ms as TIMEOUT, and an operation that has ended
writes its status word, signals its event and leaves (03 R75 R77, 17 R478 R479). -/
def Sys2Proof.Stated.FabricOperationsEnd : Prop :=
  ∀ (s : State) (o : FabricOp),
    let c := s.ev.a
    let id := s.ev.b
    (s.fabricOp c id = some o →
      (o.rma = true → o.sent = true → o.result = none → o.at_ + 10000000 ≤ s.time.toNat →
        ∃ t, exec .fabricResponseTimeout s = .next t ∧ endedWith c id 3 0 false t ∧ t.mem = s.mem ∧ t.sl = s.sl) ∧
      (o.rma = false ∨ o.sent = false ∨ o.result ≠ none ∨ s.time.toNat < o.at_ + 10000000 → exec .fabricResponseTimeout s = .next s) ∧
      (o.op = 6 → o.rma = false → o.running = true → o.sent = false → o.result = none → o.at_ + 10000000 ≤ s.time.toNat →
        ∃ t, exec .csendCreditTimeout s = .next t ∧ endedWith c id 3 0 false t ∧ t.mem = s.mem ∧ t.sl = s.sl) ∧
      (o.op ≠ 6 ∨ o.rma = true ∨ o.sent = true ∨ o.result ≠ none ∨ s.time.toNat < o.at_ + 10000000 →
        exec .csendCreditTimeout s = .next s) ∧
      (∀ st len mal, o.result = some (st, len, mal) →
        (o.status = 0 → ∃ t, exec .fabricOpComplete s = .next t ∧ t.fabricOp c id = none ∧ t.mem.bytes = s.mem.bytes ∧
          ∀ n l, (s.core c).launch = some n → s.launchAt n = some l → ∃ l', t.launchAt n = some l' ∧
            l'.event o.event = l.event o.event + 1) ∧
        (∀ s₂, o.status ≠ 0 → s.fabricWrite c o.status (natLe 8 (o.statusWord st len mal)) = .done () s₂ →
          ∃ t, exec .fabricOpComplete s = .next t ∧ t.fabricOp c id = none ∧ t.mem.bytes = s₂.mem.bytes)) ∧
      (∀ m, s.mcxOf c = some m → o.running = false → o.result = none → o.op ≠ 8 → s.fabricMay c o = true → (s.endpoint m o.ep).1 = false →
        (s.core c).ctx.fabricq = [o] → (∀ e, e ∈ s.cores → e.2.ctx.fabricq = if e.1 = c then [o] else []) → (∀ p, p ∈ s.sl.rx → p.kind ≠ 2) →
        ∃ t, exec .fabricOpComplete s = .next t ∧ endedWith c id 1 0 false t ∧ t.mem = s.mem))

namespace Sys2Proof.Stated

/-- Circulation serves its lanes: the part is READY (01 R32). -/
abbrev circUp (s : State) : Prop := s.pkg.stage = 8 ∧ s.pkg.held = false ∧ s.pkg.tripped = false

/-- Counter `k` of Circulation (06 R177). -/
def circCounter (k : Nat) (s : State) : Nat := SMap.get s.circ.cnt k 0

/-- The launch at the head of the lane that the event names: the Ethernet lane with the flag, else the host lane. -/
abbrev atLane (x : Intake) (rest : List Intake) (s : State) : Prop :=
  if s.ev.flag = true then s.circ.ethLane = x :: rest else s.circ.hostLane = x :: rest

/-- That lane afterwards. -/
abbrev laneIs (rest : List Intake) (s t : State) : Prop := if s.ev.flag = true then t.circ.ethLane = rest else t.circ.hostLane = rest

/-- Partition of a launch at intake; none for a house launch outside partitions (06 R150). -/
def partOf (x : Intake) (s : State) : Option Nat :=
  if x.house then (if x.record.nopart then none else some x.record.hpart) else some (s.mcb x.mcx).part

/-- Its base priority: that of the record, at most the micro-context's; 16 for the house (06 R152). -/
def prioOf (x : Intake) (s : State) : Nat := if x.house then 16 else min x.record.prio (s.mcb x.mcx).prio

/-- A usable core has enough units that are not failed for the launch's reservation (06 R155). -/
abbrev roomy (x : Intake) (s : State) (c : Nat) : Prop :=
  x.record.spb + ((List.range 128).filter fun b => s.unitFailed 1 (128 * c + b)).length ≤ 128 ∧
    x.record.acc + ((List.range 256).filter fun b => s.unitFailed 2 (256 * c + b)).length ≤ 256

/-- The launch at intake passes stage C, can ever be served, and its bucket has time (06 R155 R159 R167). -/
abbrev bindable (x : Intake) (s : State) : Prop :=
  s.stageC x = none ∧ x.record.cmin ≤ (s.usable (partOf x s)).length ∧ (∃ c, c ∈ s.usable (partOf x s) ∧ roomy x s c) ∧
    (x.house = false → s.bkEmpty (s.mcb x.mcx).bucket = false)

/-- A launch entered the table in slot `n` for `x`. -/
abbrev entered (n : Nat) (x : Intake) (st : LaunchState) (s : State) (l : Launch) : Prop :=
  l.record = x.record ∧ l.st = st ∧ l.house = x.house ∧ l.part = partOf x s ∧ l.prio = prioOf x s ∧ l.gen = SMap.get s.circ.gens n 0 ∧
    l.strands = [] ∧ l.events = [] ∧ l.ready = []

end Sys2Proof.Stated

/-! Circulation (chapter 06, 07 R183 to R198, 11 R322 to R327). -/

/-- A binding is refused, bound on free cores, bound on victims' cores, or left to wait (06 R154 R155 R159 R160 R162 R165). -/
def Sys2Proof.Stated.BindingsBindWaitOrAreRefused : Prop :=
  ∀ (s : State) (x : Intake) (rest : List Intake), circUp s → atLane x rest s →
    let free := s.freeCores x.record (partOf x s) none
    (∀ cause, s.stageC x = some cause → x.request = none → ∃ t, exec .binding s = .next t ∧ laneIs rest s t ∧
      t.circ.launches = s.circ.launches ∧ t.circ.owner = s.circ.owner ∧ circCounter 2 t = oneMore (circCounter 2 s)) ∧
    (∀ n own shared, bindable x s → s.freeSlot = some n → s.recordSplit (partOf x s) x.record.strands = some (own, shared) →
      (x.record.cmin ≤ free.length → ∃ t l, exec .binding s = .next t ∧ laneIs rest s t ∧ t.launchAt n = some l ∧
        entered n x .bound s l ∧ l.cores = free.take x.record.cores ∧ circCounter 0 t = oneMore (circCounter 0 s) ∧
        (∀ c, c ∈ l.cores → t.owner c = some n ∧ (t.core c).launch = some n ∧ (t.core c).loaded = false ∧ (t.core c).dcache = []) ∧
        (∀ c, l.cores.getLast? = some c → t.circ.pointer = (c + 1) % 600) ∧
        ∀ m, m ≠ n → t.launchAt m = s.launchAt m) ∧
      (∀ vs, free.length < x.record.cmin → s.victims (prioOf x s) (partOf x s) (x.record.cmin - free.length) = some vs → vs.Nodup →
        ∃ t l, exec .binding s = .next t ∧ t.launchAt n = some l ∧ entered n x .bound s l ∧ l.cores = free ∧
          ∀ c v, c ∈ vs.take (x.record.cores - free.length) → s.owner c = some v →
            t.preempt c = some { incoming := some n, victim := v }) ∧
      (free.length < x.record.cmin → s.victims (prioOf x s) (partOf x s) (x.record.cmin - free.length) = none →
        (SMap.get s.circ.waits (waitKey (partOf x s)) []).length < 256 → ∃ t l, exec .binding s = .next t ∧ laneIs rest s t ∧
          t.launchAt n = some l ∧ entered n x .waiting s l ∧ l.cores = [] ∧ l.waitAt = s.time.toNat ∧
          n ∈ SMap.get t.circ.waits (waitKey (partOf x s)) [] ∧ circCounter 1 t = oneMore (circCounter 1 s)))

/-- A free core goes to the head of its partition's wait list or to a short carrel; waiting raises the aged priority
(06 R165 R166 R168). -/
def Sys2Proof.Stated.FreeCoresAndWaitLists : Prop :=
  ∀ (s : State),
    let c := s.ev.a
    let p := s.partOfCore c
    let takes (n : Nat) : Prop := ∃ l, s.launchAt n = some l ∧ s.freeTo l.record l.part (some n) c = true
    (∀ n l, circUp s → c < 600 → s.waitHead p = some n → takes n → s.launchAt n = some l → ∃ t l', exec .coreFree s = .next t ∧
      t.launchAt n = some l' ∧ l'.cores = l.cores ++ [c] ∧ t.owner c = some n ∧ (t.core c).launch = some n ∧ (t.core c).loaded = false ∧
      (l.record.cmin ≤ l.cores.length + 1 → l'.st = .bound ∧ ∀ k, n ∉ SMap.get t.circ.waits k []) ∧
      (l.cores.length + 1 < l.record.cmin → l'.st = l.st ∧ t.circ.waits = s.circ.waits)) ∧
    (∀ m l, circUp s → c < 600 → (s.waitHead p = none ∨ ∃ n, s.waitHead p = some n ∧ ¬ takes n) → s.launchAt m = some l →
      (∃ a b, s.shortCarrels p = a ++ m :: b ∧ takes m ∧ ∀ k, k ∈ a → ¬ takes k) → ∃ t l', exec .coreFree s = .next t ∧
        t.launchAt m = some l' ∧ l'.cores = l.cores ++ [c] ∧ l'.st = l.st ∧ t.owner c = some m ∧ t.circ.waits = s.circ.waits) ∧
    ((s.waitHead p = none ∨ ∃ n, s.waitHead p = some n ∧ ¬ takes n) → (∀ k, k ∈ s.shortCarrels p → ¬ takes k) →
      exec .coreFree s = .next s) ∧
    (∀ l, s.launchAt c = some l → c ∈ SMap.get s.circ.waits (waitKey l.part) [] → l.prio ≤ 15 → ∃ t, exec .waitListAging s = .next t ∧
      t.launchAt c = some { l with aged := min 15 (l.prio + (s.time.toNat - l.waitAt) / 1000000) } ∧ t.circ.waits = s.circ.waits ∧
      ∀ m, m ≠ c → t.launchAt m = s.launchAt m)

/-- The loader: a dispatch fills what the first bundles need, then the active window's other lines, then the shadow; it waits for the
segments that it reads (06 R158, 07 R197 R198, 08 R239). -/
def Sys2Proof.Stated.LoaderFillsPlanes : Prop :=
  ∀ (s : State) (n : Nat) (l : Launch),
    let c := s.ev.a
    let k := s.core c
    k.launch = some n → s.launchAt n = some l → l.st = .bound → s.owner c = some n → k.freeze = 0 →
      let code := (firstLines l.record.entry).map fun i => (l.record.entry / 0x10000 * 0x10000 + 128 * i, 128)
      let first := s.waitsOn (s.who l).outside (s.tableRanges l ++ code)
      let whole (w : Nat) := s.waitsOn (s.who l).outside [(w * 0x10000, 0x10000)]
      (∀ a, k.loaded = false → s.coreClean c (s.freshCtx c l.record) = true → first = some a → exec .planeFillDone s = .next (s.hurry a)) ∧
      (∀ tab s₁, k.loaded = false → s.coreClean c (s.freshCtx c l.record) = true → first = none → s.loadTable l = .ok (tab, s₁) →
        (s₁.loadLines (s₁.who l) (l.record.entry / 0x10000) (firstLines l.record.entry) { window := some (l.record.entry / 0x10000) }).2.bad = [] →
        ∃ t, exec .planeFillDone s = .next t ∧ (t.core c).loaded = true ∧ (t.core c).table = tab ∧
          (t.core c).active.window = some (l.record.entry / 0x10000) ∧ (t.core c).shadow = {} ∧
          (∀ i, i ∈ firstLines l.record.entry → i ∈ (t.core c).active.lines) ∧ (t.core c).th.cycle = k.th.cycle ∧
          (t.core c).th.bundles = k.th.bundles ∧ (t.core c).th.s = [] ∧ (k.resident = none → (t.core c).ctx = s.freshCtx c l.record)) ∧
      (k.loaded = false → s.coreClean c (s.freshCtx c l.record) = false → exec .planeFillDone s = .next s) ∧
      (k.loaded = true → k.active.full = false → whole (k.active.window.getD 0) = none → ∃ t, exec .planeFillDone s = .next t ∧
        (t.core c).active.full = true ∧
        (t.core c).th = k.th ∧ (t.core c).shadow = k.shadow ∧
        ∀ i, i < 512 → i ∈ (t.core c).active.lines ∨ i ∈ (t.core c).active.bad.map (·.1)) ∧
      (∀ a, k.loaded = true → k.active.full = false → whole (k.active.window.getD 0) = some a → exec .planeFillDone s = .next (s.hurry a)) ∧
      (k.loaded = true → k.active.full = true → k.shadow.window ≠ some k.shadowWants ∨ k.shadow.full = false → whole k.shadowWants = none →
        ∃ t, exec .planeFillDone s = .next t ∧ (t.core c).shadow.window = some k.shadowWants ∧ (t.core c).shadow.full = true ∧
          (t.core c).active = k.active ∧ (t.core c).th = k.th) ∧
      (k.loaded = true → k.active.full = true → k.shadow.window = some k.shadowWants → k.shadow.full = true →
        exec .planeFillDone s = .next s)

/-- Strands take cores: an unstarted one begins at ENTRY with its index, a suspended one with its carried registers, a saved one with what
its save area holds of its registers; one whose accesses are not performed, or whose area the fabric class still holds, waits; a wait for a
time ends (06 R163 R170, 07 R184 R185, 09 R260, 11 R324 R325 R327). -/
def Sys2Proof.Stated.StrandsTakeCores : Prop :=
  ∀ (s : State) (n i : Nat) (l : Launch),
    let c := s.ev.a
    let k := s.core c
    let r := l.strand i
    (k.launch = some n → s.launchAt n = some l → s.mayTake n c l = true → l.nextRecord c = some i → SMap.get l.coreSaves c none = none →
      Memory.wf s.mem.bytes = true →
      (s.mayResume n c i l = false → exec .strandPickup s = .next s) ∧
      (r.save = none → s.mayResume n c i l = true → ∃ t l', exec .strandPickup s = .next t ∧ t.launchAt n = some l' ∧ (t.core c).strand = some i ∧
        (l'.strand i).st = .running ∧ (l'.strand i).started = true ∧ i ∉ l'.ready ∧ (∀ j, j ≠ i → l'.strand j = l.strand j) ∧
        (t.core c).th.pc = (if r.st = .unstarted then l.record.entry else r.pc) ∧
        (t.core c).th.rS 1 = (if r.st = .unstarted then BitVec.ofNat 64 i else r.c1) ∧ (t.core c).th.rS 2 = r.c2 ∧
        (t.core c).th.rS 3 = r.c3 ∧ (t.core c).th.rS 4 = r.c4 ∧ (t.core c).th.rS 62 = BitVec.ofNat 64 i ∧
        (∀ j, 5 ≤ j → j < 62 → (t.core c).th.rS j = k.th.rS j) ∧ (t.core c).th.v = k.th.v ∧ (t.core c).th.fcr = 0 ∧
        (t.core c).th.gmk = r.gsum.setWidth 64 ∧ (t.core c).th.cycle = k.th.cycle) ∧
      (∀ a v th, r.save = some a → SMap.get s.saves a none = some v → v.th = some th → s.savePoisoned (some a) = false → r.st ≠ .unstarted →
        s.mayResume n c i l = true →
        let word (o : Nat) : Nat := s.physLe (v.area + o) 8
        let mask : BitVec 128 := BitVec.ofNat 128 (s.physLe (v.area + 0x80) 16)
        let mab : BitVec 128 := BitVec.ofNat 128 (word 0xF0 + word 0xF8 * 2 ^ 64)
        ∃ t l', exec .strandPickup s = .next t ∧ t.launchAt n = some l' ∧ (t.core c).strand = some i ∧ (l'.strand i).st = .running ∧
          (t.core c).th.pc = word 0 % 2 ^ 48 ∧ (∀ j, 1 ≤ j → j < 64 → ((t.core c).th.rS j).toNat = word (0x100 + 8 * j)) ∧
          (∀ j, 1 ≤ j → j < 16 → ((t.core c).th.rQ j).toNat = s.physLe (v.area + 0x300 + 32 * j) 32) ∧ (t.core c).th.mab = mab ∧
          (t.core c).th.fcr.toNat = word 0x98 ∧ (t.core c).th.drain = .none ∧
          (∀ x, x < 2048 → mask.getLsbD (x / 16) = true → mab.getLsbD (x / 16) = true →
            (SMap.get (t.core c).th.v x 0).toNat = s.physLe (v.area + 0x20000 + 256 * x) 256) ∧
          (∀ x, mask.getLsbD (x / 16) = false ∨ mab.getLsbD (x / 16) = false → SMap.get (t.core c).th.v x 0 = 0) ∧
          SMap.get t.saves a none = none)) ∧
    (s.launchAt s.ev.a = some l → (l.strand s.ev.b).st = .waiting → (l.strand s.ev.b).wkind = 2 →
      timeMet s.time.toNat (l.strand s.ev.b).arg = true → ∃ t l', exec .timeWake s = .next t ∧ t.launchAt s.ev.a = some l' ∧
        (l'.strand s.ev.b).st = .ready ∧ l'.ready.getLast? = some s.ev.b ∧ ∀ j, j ≠ s.ev.b → l'.strand j = l.strand j)

/-- Pre-emption: the request stops issue, the classes acknowledge, and after the sixth the core's state is saved and the core leaves its
victim; the fabric class, which may acknowledge later, lets the victim resume (06 R163 R164, 11 R322 to R324, 09 R265). -/
def Sys2Proof.Stated.PreemptionSavesAndReleases : Prop :=
  ∀ (s : State) (p : Preempt),
    let c := s.ev.a
    let b := s.ev.b
    let lives : Prop := ∀ l, s.launchAt p.victim = some l → l.st ≠ .retiring
    (s.preempt c = none → b = 6 → ∃ t, exec .collectorAck s = .next t ∧ t.cores = s.cores ∧ t.circ = s.circ ∧
      ∀ a v, SMap.get s.saves a none = some v → v.core = c → ∃ w, SMap.get t.saves a none = some w ∧ w = { v with fabWait := false }) ∧
    (s.preempt c = some p →
      (p.asked = false → ∃ t, exec .corePreemptRequest s = .next t ∧ t.preempt c = some { p with asked := true } ∧
        ((s.core c).strand ≠ none → (∀ x, (s.core c).th.drain ≠ .leave x) → (t.core c).th.drain = .preempt) ∧
        (t.core c).ctx = (s.core c).ctx ∧ (∀ d, d ≠ c → t.core d = s.core d) ∧ t.mem = s.mem) ∧
      (p.asked = true → b ≤ 6 → s.mayAck c b = false → exec .collectorAck s = .next s) ∧
      (p.asked = true → b ≤ 6 → b ∉ p.acks → s.mayAck c b = true → lives →
        ((∃ j, j < 6 ∧ j ≠ b ∧ j ∉ p.acks) → ∃ t, exec .collectorAck s = .next t ∧ t.preempt c = some { p with acks := p.acks ++ [b] } ∧
          t.cores = s.cores) ∧
        (∀ a rest i l, (∀ j, j < 6 → j = b ∨ j ∈ p.acks) → s.freeSaves = a :: rest → (s.core c).resident = none → p.incoming = none →
          s.launchAt p.victim = some l → (s.core c).strand = some i → ∃ t l' v, exec .collectorAck s = .next t ∧ t.preempt c = none ∧
            t.owner c = none ∧ (t.core c).launch = none ∧ (t.core c).strand = none ∧ t.launchAt p.victim = some l' ∧ c ∉ l'.cores ∧
            (l'.strand i).st = .ready ∧ (l'.strand i).save = some a ∧ (l'.strand i).tie = some c ∧ i ∈ l'.ready ∧
            SMap.get t.saves a none = some v ∧ v.launch = p.victim ∧ v.core = c ∧ v.th = some (s.core c).settleAcc.th ∧
            v.area = s.mem.saveBase + 0x400000 * a ∧ (v.fabWait = true ↔ 6 ≠ b ∧ 6 ∉ p.acks) ∧
            (∀ j, j < 64 → t.physLe (v.area + 0x100 + 8 * j) 8 = ((s.core c).settleAcc.th.rS j).toNat) ∧
            t.physLe v.area 8 % 2 ^ 48 = (s.core c).settleAcc.th.pc % 2 ^ 48 ∧ t.physLe v.area 8 / 2 ^ 52 % 2 = 1 ∧
            circCounter 3 t = oneMore (circCounter 3 s)) ∧
        (∀ a rest m l l', (∀ j, j < 6 → j = b ∨ j ∈ p.acks) → s.freeSaves = a :: rest → p.incoming = some m → m ≠ p.victim →
          s.launchAt m = some l → s.launchAt p.victim = some l' → ∃ t l'', exec .collectorAck s = .next t ∧ t.owner c = some m ∧
            (t.core c).launch = some m ∧ (t.core c).loaded = false ∧ (t.core c).dcache = [] ∧ t.launchAt m = some l'' ∧
            l''.cores = l.cores ++ [c])))

/-- Parked launches wake with a report of their list or after 1 ms; deadlines end launches; a launch that has ended or finished retires
(05 R131, 06 R174 R175, 09 R264). -/
def Sys2Proof.Stated.LaunchesParkExpireAndRetire : Prop :=
  ∀ (s : State),
    let woken (n : Nat) (t : State) : Prop := ∃ l', t.launchAt n = some l' ∧ l'.st = .preempted ∧ l'.parkNo = 0 ∧ l'.parkAddr = none ∧
      n ∈ SMap.get t.circ.waits (waitKey l'.part) []
    (∀ a r, s.circ.reports = a :: r →
      (s.parkedOn a = [] → ∃ t, exec .parkWake s = .next t ∧ t.circ = { s.circ with reports := r }) ∧
      (∀ n ns l, s.parkedOn a = n :: ns → s.launchAt n = some l →
        (l.st = .parked → ∃ t, exec .parkWake s = .next t ∧ t.circ.reports = r ∧ woken n t) ∧
        (l.st ≠ .parked → exec .parkWake s = .next s))) ∧
    (∀ l, s.launchAt s.ev.a = some l →
      (l.st = .parked → l.parkAt + 1000000 ≤ s.time.toNat → ∃ t, exec .parkTimeout s = .next t ∧ woken s.ev.a t) ∧
      (l.st ≠ .parked ∨ s.time.toNat < l.parkAt + 1000000 → exec .parkTimeout s = .next s) ∧
      (l.record.deadline ≠ 0 → l.parkNo = 0 → l.st ≠ .retiring → l.deadlineFrom + 1000 * l.record.deadline ≤ s.time.toNat →
        ∃ t, exec .deadlineExpiry s = .next t ∧ circCounter 7 t = oneMore (circCounter 7 s) ∧
          (l.st = .waiting → l.firstAt = none → t.launchAt s.ev.a = none) ∧
          (l.st ≠ .waiting ∨ l.firstAt ≠ none → ∃ l', t.launchAt s.ev.a = some l' ∧ l'.st = .retiring ∧
            (l.ended = none → l'.ended = some (causeClass 0x0701, 0x0701, s.time.toNat, none)))) ∧
      (l.record.deadline = 0 ∨ l.parkNo ≠ 0 ∨ l.st = .retiring ∨ s.time.toNat < l.deadlineFrom + 1000 * l.record.deadline →
        exec .deadlineExpiry s = .next s) ∧
      ((l.st = .retiring ∧ ∀ r, r ∈ s.mem.net → r.launch = s.ev.a → r.lsbu = true ∨ r.path ≤ 1 → r.performed = true) ∧ s.filled s.ev.a = true ∨
          (l.st = .bound ∧ l.allExited = true ∧ s.heldFault s.ev.a = none ∧ s.launchQuiet s.ev.a = true) →
        ∃ t, exec .launchRetire s = .next t ∧ t.launchAt s.ev.a = none ∧
          SMap.get t.circ.gens s.ev.a 0 = (SMap.get s.circ.gens s.ev.a 0 + 1) % 2 ^ 20 ∧ ∀ c, c ∈ l.cores → t.owner c ≠ some s.ev.a) ∧
      (l.st ≠ .retiring → l.st ≠ .bound ∨ l.allExited = false → exec .launchRetire s = .next s))

/-- The Chipper: a unit whose scrub ends well is clean and zero, a first failure is repeated, a second marks it failed; a key slot becomes
EMPTY; CHP.TMARK marks a tag's pages (05 R129 R142 R143 R145, 19 R504). -/
def Obligations.UnitsAreScrubbed : Prop :=
  ∀ (s : State),
    let k := s.ev.a
    let u := s.ev.b
    let v := s.ev.value.toNat
    (s.scrubTurn k u = false → exec .unitScrubDone s = .next s) ∧
    (k < 8 → s.isDirty k u = true → s.scrubTurn k u = true → s.pkg.held = false → s.pkg.tripped = false →
      (s.ev.flag = true → ∃ t, exec .unitScrubDone s = .next t ∧ t.isDirty k u = false ∧ t.prot.chip.done = oneMore s.prot.chip.done ∧
        (∀ j, j ≠ k → j ≠ 4 → j ≠ 5 → ∀ x, t.isDirty j x = s.isDirty j x) ∧
        (k = 0 → u < 600 → (t.core u).th.s = [] ∧ (t.core u).th.v = [] ∧ (t.core u).th.q = [] ∧ (t.core u).th.cycle = (s.core u).th.cycle) ∧
        (k = 1 → ∀ x, u % 128 * 0x4000 ≤ x → x < (u % 128 + 1) * 0x4000 → (t.core (u / 128)).spadRead x 1 = [0]) ∧
        (k = 4 → (∀ e, e ∈ s.prot.mcbs → e.2.scrubbing = false) → ∀ x, u * 0x200000 ≤ x → x < (u + 1) * 0x200000 →
          t.phys x 1 = [0] ∧ t.line x = {})) ∧
      (s.ev.flag = false → u ∉ SMap.get s.prot.chip.once k [] → ∃ t, exec .unitScrubDone s = .next t ∧ t.isDirty k u = true ∧
        u ∈ SMap.get t.prot.chip.once k [] ∧ t.mem = s.mem ∧ t.cores = s.cores) ∧
      (s.ev.flag = false → u ∈ SMap.get s.prot.chip.once k [] → ∃ t, exec .unitScrubDone s = .next t ∧ t.isDirty k u = false ∧
        (k ≠ 6 ∨ (∀ e, e ∈ s.prot.parts → e.2.st ≠ 3) → t.unitFailed k u = true) ∧ t.prot.chip.fail = oneMore s.prot.chip.fail)) ∧
    (s.isDirty k u = false → exec .unitScrubDone s = .next s) ∧
    ((s.keySlotAt k).st = 2 → ∃ t, exec .keyZeroiseDone s = .next t ∧ t.keySlotAt k = { failed := (s.keySlotAt k).failed }) ∧
    ((s.keySlotAt k).st ≠ 2 → exec .keyZeroiseDone s = .next s) ∧
    (s.prot.chip.tmBusy = false → fld v 0 14 < 0x2000 → ∃ t, exec .chpTmarkWrite s = .next t ∧ t.prot.chip.tmBusy = true ∧
      t.prot.chip.tmTag = fld v 0 14 ∧ t.mem = s.mem ∧
      ∀ pg, pg ∈ s.taggedPages (fld v 0 14) → t.isDirty (pageUnit pg).1 (pageUnit pg).2 = true) ∧
    (s.prot.chip.tmBusy = true ∨ 0x2000 ≤ fld v 0 14 → exec .chpTmarkWrite s = .next s) ∧
    (∃ t, exec .tmarkScanDone s = .next t ∧ t.prot.chip.tmBusy = false ∧ t.prot.chip.dirty = s.prot.chip.dirty ∧ t.mem = s.mem ∧
      t.cores = s.cores)

namespace Sys2Proof.Stated

/-- Pieces of a range, each in memory on lines that a plain read may take now: segment present, no poison, no tombstone, not counted,
in plaintext. -/
abbrev plainSource (ps : List Piece) (s : State) : Prop :=
  ∀ q, q ∈ ps → ∃ a, q.pa = some a ∧ s.segWaits a = none ∧ (s.line a).poison = false ∧ (s.line a).tomb = false ∧
    (s.line a).cipher = false ∧ q.x.cn = false

/-- Pieces of a range, each in memory and writable now, on ranges and lines of their own. -/
abbrev plainDest (ps : List Piece) (s : State) : Prop :=
  (∀ q, q ∈ ps → ∃ a, q.pa = some a ∧ (s.line a).writeFault (q.len == 128) = none ∧ s.zeroMarked a = false ∧
    s.pageDirty a q.x.tag = false) ∧
    ps.Pairwise fun x y => overlap (x.pa.getD 0) x.len (y.pa.getD 0) y.len = false ∧ x.pa.getD 0 / 128 ≠ y.pa.getD 0 / 128

/-- The bytes of pieces in memory. -/
def bytesOf (ps : List Piece) (s : State) : List Byte := ps.flatMap fun q => s.phys (q.pa.getD 0) q.len

/-- The pieces hold these bytes. -/
abbrev hold (ps : List Piece) (bs : List Byte) (t : State) : Prop := ∀ q, q ∈ ps → ∀ a, q.pa = some a → t.phys a q.len = slice bs q.off q.len

/-- A late fault joins the pending ones, in the order of report and of their paths within one moment (11 R316). That a moment is one tick of
TIME is the model's reading (log 99). -/
abbrev joins (f : TrapInfo) (now : Nat) (l l' : List TrapInfo) : Prop :=
  ∃ pre post, l = pre ++ post ∧ l' = pre ++ { f with at_ := now } :: post ∧
    (∀ e, e ∈ pre → e.at_ < now ∨ e.at_ = now ∧ e.path ≤ f.path) ∧ ∀ e, post.head? = some e → now < e.at_ ∨ e.at_ = now ∧ f.path < e.path

/-- Late fault `f` has been reported to core `c`: to the strand there, else it is held with the engines (11 R320). -/
abbrev reported (c : Nat) (f : TrapInfo) (s t : State) : Prop :=
  ((s.core c).strand ≠ none → joins f s.time.toNat (s.core c).th.late (t.core c).th.late) ∧
    ((s.core c).strand = none → joins f s.time.toNat (s.core c).ctx.heldLate (t.core c).ctx.heldLate)

end Sys2Proof.Stated

/-! The engines of a core at work (chapter 17, 07 R195 R201, 08 R230). -/

/-- One row: a copy without stages moves up to 256 bytes and leaves after its last row; one that does not translate stops late; a prefetch
leaves at once; a stream fills its slot row by row, zeros after the last (17 R470 R471 R475 R476). -/
def Sys2Proof.Stated.CopyEngineWorksRowByRow : Prop :=
  ∀ (s : State),
    let c := s.ev.a
    let k := s.core c
    let x := k.ctx
    (∀ (o : CopyOp), s.ev.flag = false → x.copyq.find? (fun e => e.id == s.ev.b) = some o → s.copyMay c o = true →
      (o.op = 3 → ∃ t, exec .copyRow s = .next t ∧ (t.core c).ctx.copyq = x.copyq.filter (fun e => e.id != o.id) ∧
        t.mem.bytes = s.mem.bytes) ∧
      (o.op = 1 → o.mw = 0 → 256 * o.row < o.n →
        let n := min 256 (o.n - 256 * o.row)
        (∀ src dst, enginePieces s (s.engineWho c) false (o.b + 256 * o.row) n = .ok src →
          enginePieces s (s.engineWho c) true (o.a + 256 * o.row) n = .ok dst → plainSource src s → plainDest dst s →
          ∃ t, exec .copyRow s = .next t ∧ hold dst (bytesOf src s) t ∧
            (o.n ≤ 256 * (o.row + 1) → (t.core c).ctx.copyq = x.copyq.filter fun e => e.id != o.id) ∧
            (256 * (o.row + 1) < o.n → (t.core c).ctx.copyq =
              x.copyq.map fun e => if e.id = o.id then { o with row := o.row + 1, running := true } else e)) ∧
        (∀ cause lvl va, enginePieces s (s.engineWho c) false (o.b + 256 * o.row) n = .error (cause, lvl, va) →
          (∀ e, e ∈ x.copyq → e.fault = none) → ∃ t, exec .copyRow s = .next t ∧ t.mem = s.mem ∧
            reported c { cause := cause, slot := 6, late := true, path := 2, detail := lvl, tva := va, origin := o.pc, handle := o.handleNo,
                         row := o.row, owner := some o.strand } s t))) ∧
    (∀ (o : StreamOp) i src dst, s.ev.flag = true → x.streamq.find? (fun e => e.id == s.ev.b) = some o → s.streamMay c o = true →
      o.advance = false → o.row < o.rows → (o.slot = some i ∨ (o.slot = none ∧ i = (x.handle o.f).pp ∧ (x.handle o.f).state i = 0)) →
      let q := hSize (x.setupOf o.f) / o.len
      let fill := if o.row + 1 = o.rows then hSize (x.setupOf o.f) - (o.row % q + 1) * o.len else 0
      enginePieces s (s.engineWho c) false ((o.base + o.row * o.stride) % 2 ^ 64) o.len = .ok src → plainSource src s →
      enginePieces s (s.engineWho c) true (x.slotVa o.f i + o.row % q * o.len) (o.len + fill) = .ok dst →
      (∀ p, p ∈ dst → ∃ a b, p.x.dest = .spad a ∧ x.spadPhys a = some b) →
      (dst.Pairwise fun a b => ∀ u v p r, a.x.dest = .spad u → b.x.dest = .spad v → x.spadPhys u = some p → x.spadPhys v = some r →
        overlap p a.len r b.len = false) →
      ∃ t, exec .copyRow s = .next t ∧ t.mem.bytes = s.mem.bytes ∧
        (∀ p a b, p ∈ dst → p.x.dest = .spad a → x.spadPhys a = some b →
          (t.core c).spadRead b p.len = slice (bytesOf src s ++ List.replicate fill 0) p.off p.len) ∧
        (t.core c).ctx.streamq.find? (fun e => e.id == o.id) = some { o with
          slot := some i, running := true, row := o.row + 1, advance := decide (o.row + 1 = o.rows ∨ (o.row + 1) % q = 0) })

/-- A filled slot advances as by a producer cbadv, and becomes FULL when its writes are made; released banks and freed accumulator banks
become free when their operations are done (17 R475 R486, 07 R195 R201, 08 R230). -/
def Sys2Proof.Stated.SlotsAndBanksAdvance : Prop :=
  ∀ (s : State),
    let c := s.ev.a
    let b := s.ev.b
    let k := s.core c
    let x := k.ctx
    (∀ (o : StreamOp), x.streamq.find? (fun e => e.id == b && e.advance && e.fault.isNone) = some o →
      let d := x.handle o.f
      ∃ t, exec .streamSlotAdvance s = .next t ∧ t.mem = s.mem ∧
        ((t.core c).ctx.handle o.f).pp = (d.pp + 1) % hSlots (x.setupOf o.f) ∧
        (x.copyq = [] → x.cipherq = [] → x.streamq = [o] → k.th.draining o.f d.pp = false →
          ((t.core c).ctx.handle o.f).state d.pp = 2 ∧ ((t.core c).ctx.handle o.f).count d.pp = o.cnt) ∧
        (o.rows ≤ o.row → (t.core c).ctx.streamq = (x.streamq.filter fun e => e.id != o.id)) ∧
        (o.row < o.rows → (t.core c).ctx.streamq =
          x.streamq.map fun e => if e.id = o.id then { o with advance := false, slot := none } else e)) ∧
    (∃ t, exec .slotFull s = .next t ∧ t.mem = s.mem ∧ (t.core c).th = k.th ∧
      let d := x.handle b
      let d' := (t.core c).ctx.handle b
      d'.filling = d.filling.filter (fun f => !(s.slotDone c b f)) ∧
      (∀ f, f ∈ d.filling → s.slotDone c b f = true → (∀ g, g ∈ d.filling → g.1 = f.1 → g = f) → d'.state f.1 = 2 ∧ d'.count f.1 = f.2.1) ∧
      (∀ i, (∀ f, f ∈ d.filling → f.1 ≠ i) → d'.state i = d.state i ∧ d'.count i = d.count i)) ∧
    (∀ r, x.rp.find? (fun r => r.1 == b) = some r →
      (s.bankDone c r = true → ∃ t, exec .bankOwnClear s = .next t ∧ b ∉ (t.core c).ctx.own ∧ (∀ r, r ∈ (t.core c).ctx.rp → r.1 ≠ b) ∧
        (∀ d, d ≠ b → (d ∈ (t.core c).ctx.own ↔ d ∈ x.own)) ∧ t.mem = s.mem) ∧
      (s.bankDone c r = false → exec .bankOwnClear s = .next s)) ∧
    (x.rp.find? (fun r => r.1 == b) = none → exec .bankOwnClear s = .next s) ∧
    (∃ t, exec .accBanksFree s = .next t ∧ (t.core c).ctx.freeing = x.freeing.filter (fun p => !(k.accDone p.1)) ∧ (t.core c).th = k.th ∧
      (t.core c).acc = k.acc ∧ (∀ d, d ≠ c → t.core d = s.core d) ∧ t.mem = s.mem)

/-- One block of the cipher unit: seal writes a line of ciphertext with its integrity value, open gives the plaintext back or stops with
INTEGRITY, kzero empties its slot's key and leaves once the slot is EMPTY (17 R493 to R497, 05 R129 R134). -/
def Obligations.CipherUnitWorksBlockByBlock : Prop :=
  ∀ (s : State) (o : CipherOp) (rest : List CipherOp),
    let c := s.ev.a
    let x := (s.core c).ctx
    let tile := (o.tile.toNat + o.row) % 2 ^ 128
    let goesOn (t : State) : Prop :=
      (o.len ≤ 128 * (o.row + 1) → (t.core c).ctx.cipherq = x.cipherq.filter fun e => e.id != o.id) ∧
        (128 * (o.row + 1) < o.len → ∃ y, (t.core c).ctx.cipherq.head? = some y ∧ y.id = o.id ∧ y.row = o.row + 1)
    x.cipherq = o :: rest → o.fault = none → s.engineOn c = true → s.classStopped c 3 = false → s.heldBack c 4 o.seq true = false →
      (∀ key p a ps, o.op = 1 → o.buf = false → 128 * o.row < o.len →
        enginePieces s (s.engineWho c) true ((o.dst + 128 * o.row) % 2 ^ 64) 128 = .ok [p] → p.pa = some a → p.len = 128 → p.off = 0 →
        s.zeroMarked a = false → s.pageDirty a p.x.tag = false → enginePieces s (s.engineWho c) false ((o.src + 128 * o.row) % 2 ^ 64) 128 = .ok ps → plainSource ps s →
        (∀ q, q ∈ p :: ps → q.x.key = 0 ∨ q.x.key = o.key) → s.lineKey o.key = some key →
        let line := xtsLine true key tile (bytesOf ps s)
        ∃ t, exec .cipherBlock s = .next t ∧ t.phys a 128 = slice line 0 128 ∧ (t.line a).cipher = true ∧
          (t.line a).icv = lineIcv key tile line ∧ goesOn t) ∧
      (∀ key p a ps, o.op = 2 → o.buf = false → 128 * o.row < o.len →
        enginePieces s (s.engineWho c) false ((o.src + 128 * o.row) % 2 ^ 64) 128 = .ok [p] → p.pa = some a → p.len = 128 →
        s.segWaits a = none → (s.line a).poison = false → (s.line a).tomb = false → p.x.cn = false → (s.line a).cipher = true →
        enginePieces s (s.engineWho c) true ((o.dst + 128 * o.row) % 2 ^ 64) 128 = .ok ps → plainDest ps s →
        (∀ q, q ∈ p :: ps → q.x.key = 0 ∨ q.x.key = o.key) → s.lineKey o.key = some key →
        (lineIcv key tile (s.phys a 128) = (s.line a).icv → ∃ t, exec .cipherBlock s = .next t ∧
          hold ps (xtsLine false key tile (s.phys a 128)) t ∧ goesOn t) ∧
        (lineIcv key tile (s.phys a 128) ≠ (s.line a).icv → ∃ t, exec .cipherBlock s = .next t ∧ t.mem.bytes = s.mem.bytes ∧ t.mem.lines = s.mem.lines ∧
          reported c { cause := 0x0302, slot := 8, late := true, path := 4, detail := 0, tva := (o.src + 128 * o.row) % 2 ^ 64, origin := o.pc,
                       handle := o.handleNo, row := o.row, owner := some o.strand } s t)) ∧
      (o.op = 5 → o.row = 0 → (s.keySlotAt o.key).binds = 0 → (s.keySlotAt o.key).st = 1 → ∃ t, exec .cipherBlock s = .next t ∧
        (t.keySlotAt o.key).st = 2 ∧ (t.keySlotAt o.key).key = [] ∧ ∃ y, (t.core c).ctx.cipherq.head? = some y ∧ y.id = o.id ∧ y.row = 1) ∧
      (o.op = 5 → o.row = 0 → (s.keySlotAt o.key).binds ≠ 0 → ∃ t, exec .cipherBlock s = .next t ∧ t.prot = s.prot ∧
        reported c { cause := 0x0102, slot := 8, late := true, path := 4, detail := 4, tva := 0, origin := o.pc, handle := o.handleNo,
                     row := 0, owner := some o.strand } s t) ∧
      (o.op = 5 → o.row ≠ 0 → (s.keySlotAt o.key).st ≠ 2 → ∃ t, exec .cipherBlock s = .next t ∧ t.prot = s.prot ∧
        (t.core c).ctx.cipherq = x.cipherq.filter fun e => e.id != o.id) ∧
      (o.op = 5 → o.row ≠ 0 → (s.keySlotAt o.key).st = 2 → exec .cipherBlock s = .next s)

namespace Sys2Proof.Stated

/-- Nothing but the thread of the issuing core changes, and of the thread only exposed results on their way, positions of stochastic rounding
taken and what the function says. -/
abbrev onlyThread (g : Thread → Thread) (s t : State) : Prop :=
  t = { s with cores := t.cores } ∧ (∀ d, d ≠ s.cur → t.core d = s.core d) ∧ t.core s.cur = { s.core s.cur with th := g s.th }

/-- New exposed results, each for a destination that `p` allows. -/
abbrev newResults (p : Option Reg → Prop) (s t : State) : Prop :=
  ∃ l, t.th.inflight = s.th.inflight ++ l ∧ ∀ x, x ∈ l → p x.dst

/-- Nothing but exposed results changes. -/
abbrev resultsOnly (p : Option Reg → Prop) (s t : State) : Prop :=
  onlyThread (fun th => { th with inflight := t.th.inflight, posTaken := t.th.posTaken }) s t ∧ newResults p s t

/-- The effective address and the number of bytes of a register store (12 R356, 16 R455 to R457). -/
def storedTo (op : Nat) (f : LW) (s : State) : Nat × Nat :=
  match op with
  | 1 => (based f s, 2 ^ (f.ty / 2))
  | 2 => (based f s, 256)
  | 3 => (based f s, 256 * 2 ^ f.ty)
  | 4 => (indexed f s, 2 ^ (f.ty / 2))
  | _ => (based f s, 32)

/-- The accesses of the register loads and stores: op values 1 to 4 and 7 (12 R354). -/
abbrev registerAccess (op : Nat) : Prop := op = 1 ∨ op = 2 ∨ op = 3 ∨ op = 4 ∨ op = 7

/-- Registers, control registers (but OCC, DLEN and GMK) and accumulators of the issuing core stay; so do the other cores, the lines of
memory and every byte of it. -/
abbrev keepsValues (s t : State) : Prop :=
  t.th.s = s.th.s ∧ t.th.v = s.th.v ∧ t.th.q = s.th.q ∧ t.th.z = s.th.z ∧ t.th.fcr = s.th.fcr ∧ t.th.ffl = s.th.ffl ∧ t.th.dsc = s.th.dsc ∧
    t.th.dsk = s.th.dsk ∧ t.th.swd = s.th.swd ∧ t.th.tva = s.th.tva ∧ t.th.trs = s.th.trs ∧ t.th.rot = s.th.rot ∧ t.th.mab = s.th.mab ∧
    t.th.th = s.th.th ∧ t.th.pc = s.th.pc ∧ (t.core s.cur).acc = (s.core s.cur).acc ∧ (∀ d, d ≠ s.cur → t.core d = s.core d) ∧
    t.mem.bytes = s.mem.bytes ∧ t.mem.lines = s.mem.lines ∧ t.mem.host = s.mem.host ∧ t.time = s.time

/-- OCC, DLEN, GMK and Circulation stay as well. -/
abbrev keepsRegisters (s t : State) : Prop :=
  keepsValues s t ∧ t.th.occ = s.th.occ ∧ t.th.dlen = s.th.dlen ∧ t.th.gmk = s.th.gmk ∧ t.circ = s.circ

/-- FRAME of the register forms: a scalar form of op 0x01 to 0x1F, stamp or csrr that does not trap changes nothing but an exposed result
for its sd; a control transfer besides only the transfer at the bundle's end; a vector or predicate form nothing but exposed results for its
destination: registers from vd on, q or s of that number, or the scale registers from vc on (12 R335 R341 R343, 13 R370, 14 R401). -/
abbrev registerFormsKeepTheRest : Prop :=
  ∀ (i : Instr) (s t : State), exec i s = .next t → t.th.trapped = false →
    (∀ op f, syllOf i = some (.sa op f) → op ≤ 0x1F ∨ op = 0x37 → resultsOnly (fun d => d = some (.s f.sd)) s t) ∧
    (∀ f, syllOf i = some (.sc 0x38 f) → resultsOnly (fun d => d = some (.s f.sd)) s t) ∧
    (∀ op f, syllOf i = some (.sa op f) → 0x23 ≤ op → op ≤ 0x26 →
      onlyThread (fun th => { th with inflight := t.th.inflight, latchX := t.th.latchX }) s t ∧ newResults (fun d => d = some (.s 63)) s t) ∧
    (∀ op f, syllOf i = some (.sb op f) → op ≠ 0x27 →
      onlyThread (fun th => { th with inflight := t.th.inflight, latchX := t.th.latchX }) s t ∧ newResults (fun d => d = some (.s 63)) s t) ∧
    (∀ op f, syllOf i = some (.v op f) → resultsOnly (fun d => d = none ∨ d = some (.q f.vd) ∨ d = some (.s f.vd) ∨
      ∃ j, j < 16 ∧ (d = some (.v ((vphys s.th.rot (f.vd + j)).getD 0)) ∨ d = some (.z (f.vc + j)))) s t)

/-- FRAME of the register loads and stores at issue: no register, control register or accumulator changes, nor a byte of memory; a load
changes no byte of the scratchpad; a store changes only the bytes from its effective address on, where that lies in the scratchpad
(12 R335, 16 R450 R453). -/
abbrev registerAccessesKeepTheRest : Prop :=
  ∀ (i : Instr) (s t : State), exec i s = .next t → t.th.trapped = false →
    (∀ op f, syllOf i = some (.l op f) → registerAccess op → keepsRegisters s t ∧ (t.core s.cur).spad = (s.core s.cur).spad) ∧
    (∀ op f, syllOf i = some (.w op f) → registerAccess op → keepsRegisters s t ∧
      let ea := (storedTo op f s).1
      let n := (storedTo op f s).2
      (0x7FFE00000000 ≤ ea → ea < 0x7FFE00200000 → ∀ p, s.ctx.spadPhys (ea - 0x7FFE00000000) = some p →
        ∀ a, a < p ∨ p + n ≤ a → Memory.read (t.core s.cur).spad a = Memory.read (s.core s.cur).spad a) ∧
      (¬ (0x7FFE00000000 ≤ ea ∧ ea < 0x7FFE00200000) → (t.core s.cur).spad = (s.core s.cur).spad))

/-- FRAME of every syllable at issue: what it gives a register or memory lands or is performed later, so no register, control register,
accumulator or byte of memory changes at once; OCC and DLEN change by seqwait alone, GMK by join and leave alone, Circulation by spawn,
cb.adv and the forms on events and groups alone, and the scratchpad by stores alone (12 R335, 16 R453, 17 R469). -/
abbrev syllablesKeepTheRest : Prop :=
  ∀ (i : Instr) (y : Syll) (s t : State), syllOf i = some y → (∀ op f, y ≠ .rv op f) → exec i s = .next t → t.th.trapped = false →
    keepsValues s t ∧
    ((∀ f, y ≠ .yr 0x18 f) → t.th.occ = s.th.occ ∧ t.th.dlen = s.th.dlen) ∧
    ((∀ op f, y ≠ .yg op f) → t.th.gmk = s.th.gmk) ∧
    ((∀ op f, y ≠ .yg op f) → (∀ op f, y ≠ .ye op f) → (∀ f, y ≠ .yh 5 f) → (∀ f, y ≠ .sa 0x30 f) → t.circ = s.circ) ∧
    ((∀ op f, y = .w op f → 7 < op) → (t.core s.cur).spad = (s.core s.cur).spad)

end Sys2Proof.Stated

/-! Every instruction, every step. -/

/-- FRAMES: what the register forms, the register loads and stores, and every syllable at issue leave unchanged. -/
def Obligations.RegisterFormsAndAccessesKeepTheRest : Prop := registerFormsKeepTheRest ∧ registerAccessesKeepTheRest ∧ syllablesKeepTheRest

/-- No instruction of the opcode table stops the machine: in every state its meaning answers a next state. -/
def Obligations.EveryInstructionGoesOn : Prop := ∀ (i : Instr) (s : State), ∃ t, exec i s = .next t

/-- DECODE AND ENCODE AGREE: the word of every well-formed instruction that has one, read in its slot or as a Proem word, is that
instruction, with every operand at every value its encoding admits (12 R330 R347 to R362, 04 R109). -/
def Obligations.DecodeGivesBackWhatEncodeWrites : Prop :=
  ∀ i : Instr, WellFormed i → (syllOf i).isSome = true → decodeIn (slotOf i) (encode i) = some i

/-- Every step keeps the package's start and power state in the ranges of chapter 01: STAGE, MODE, EARLY, FAILS, the throttle levels and
PCAP; and normal mode only in stage READY (01 R18 R21 R28 R29 R32 R35 R37). -/
def Obligations.StepsKeepTheStartStateInRange : Prop := ∀ s t : State, s.bootOk → step s = .next t → t.bootOk

/-- Every step keeps memory in its canonical form: addresses strictly rising, no byte listed at the value an unlisted one reads as. -/
def Obligations.StepsKeepMemoryCanonical : Prop :=
  ∀ s t : State, Memory.wf s.mem.bytes = true → step s = .next t → Memory.wf t.mem.bytes = true

/-- Reset: the package is held, in no stage, TIME is 0, the ranges of chapter 01 and the canonical form hold, no core has a launch, the
table is empty, and registers have the values chapters 02, 03 and 05 give. That the flash holds no image and PCAP is 2,600 until a blob is
applied are the model's choices (logs 13 and 12). -/
def Obligations.ResetIsAsTheSpecSays : Prop :=
  let s := State.reset
  s.bootOk ∧ Memory.wf s.mem.bytes = true ∧ s.mem.bytes = [] ∧ s.pkg.held = true ∧ s.pkg.mode = 0 ∧ s.time = 0 ∧ s.cores = [] ∧
    (∀ n, s.launchAt n = none) ∧ (∀ n, (s.port n).mtu = 0x5DC ∧ (s.port n).an = true ∧ (s.port n).en = false ∧ (s.port n).link = false) ∧
    (∀ i, (s.sess i).st = .free) ∧ s.sl.hops = 0xFF ∧ s.sl.sync = false ∧ (∀ n, (s.slp n).en = false ∧ (s.slp n).link = false) ∧
    (∀ k, portCounter 0 k s = 0 ∧ circCounter k s = 0) ∧ (∀ c n, (s.core c).th.rS n = 0 ∧ (s.core c).th.rV n = 0 ∧ (s.core c).th.rZ n = 0) ∧
    (∀ c, (s.core c).th.rQ 0 = BitVec.allOnes 256) ∧ (∀ k, (s.keySlotAt k).st = 0) ∧ s.hif.link = false

/-- Words written out from the spec's encodings decode to the instructions they stand for (12 R332 R347 R350 R353 R354 R357 to R362,
04 R109). -/
def Obligations.SampleWordsDecode : Prop :=
  (decodeSyll .s 0xFFFFFFFF24018501).toOption = some (.add { sd := 5, sa := 6, sb := 0, i := 1, x := 0, cw := 2, imm := 0xFFFFFFFF }) ∧
  (decodeSyll .s 0x0000000100100039).toOption = some (.csrw { sd := 0, sa := 0, csr := 1, imm := 1 }) ∧
  (decodeSyll .va 0x6206008008400104).toOption =
    some (.vfma { fmt := 1, vd := 1024, va := 16, vb := 32, vc := 48, qp := 2, g := 2, rm := 1 }) ∧
  (decodeSyll .m 0x20030861).toOption =
    some (.mpushw { fmt := 6, cellop := 0, f := 2, z := 3, row := 0, plane := 0, bank := 1, top := 0 }) ∧
  (decodeSyll .l 0x0000000500280BA1).toOption =
    some (.lds { ty := 5, d := 11, base := 5, idx := 0, x := 0, ord := 1, scope := 1, fe := 0, qp := 0, rsv := 0, off := 0 }) ∧
  (decodeSyll .y 0x0000C5).toOption = some (.cbadvProd { h := 3, sa := 0, mode := 0, hi := 0 }) ∧
  (decodeSyll .z 0x00210E31).toOption = some (.zld { z := 3, sa := 7, off := 66 }) ∧
  (decodeSyll .w 0x0000000000300802).toOption =
    some (.stv { ty := 0, d := 8, base := 6, idx := 0, x := 0, ord := 0, scope := 0, fe := 0, qp := 0, rsv := 0, off := 0 }) ∧
  (decodeSyll .c 0x0000000030B28001).toOption = some (.cpy { f := 0, sa := 10, sb := 11, sc := 12, hi := 0 }) ∧
  (decodeSyll .k 0x2001).toOption = some (.cipherSeal { f := 0, sa := 8, key := 0, top := 0 }) ∧
  decodeRV 0x0005850B = some (.pwait { rd := 10, rs1 := 11, rs2 := 0, funct7 := 0 })

/-! The statements that consist of named parts. -/

/-- `ScalarSumsAndProducts` and `ScalarDivisionAndCorners`. -/
def Obligations.ScalarArithmetic : Prop := ScalarSumsAndProducts ∧ ScalarDivisionAndCorners

/-- `ScalarLogicAndShifts` and `ScalarMinMaxAndBitFields`. -/
def Obligations.ScalarLogicShiftsAndFields : Prop := ScalarLogicAndShifts ∧ ScalarMinMaxAndBitFields

/-- `ScalarTransfers` and `LoopCountsAndRotates`. -/
def Obligations.ScalarTransfersAndLoops : Prop := ScalarTransfers ∧ LoopCountsAndRotates

/-- `SpawnStartsAStrand` and `StrandsLeaveTheCore` and `StrandsThatMayNotLeaveTrap`. -/
def Obligations.StrandsSpawnAndLeave : Prop := SpawnStartsAStrand ∧ StrandsLeaveTheCore ∧ StrandsThatMayNotLeaveTrap

/-- `ControlRegisterForms` and `ControlRegisterFieldRules`. -/
def Obligations.ControlRegistersReadAndWritten : Prop := ControlRegisterForms ∧ ControlRegisterFieldRules

/-- `ExposedResultsLandAtTheirLatency`, `SlotsAreOccupiedForTheGroup` and `DrainLandsExposedResults`. -/
def Obligations.ExposedResultsLand : Prop := ExposedResultsLandAtTheirLatency ∧ SlotsAreOccupiedForTheGroup ∧ DrainLandsExposedResults

/-- `TrapsEnterTheHandlerOrEndTheLaunch` and `ReturnFromATrapResumesAtTrs`. -/
def Obligations.TrapsAreEnteredAndLeft : Prop := TrapsEnterTheHandlerOrEndTheLaunch ∧ ReturnFromATrapResumesAtTrs

/-- `VectorSumsAndProducts`, `VectorFusedAndSigns` and `VectorSyllablesThatTrap`. -/
def Obligations.VectorArithmetic : Prop := VectorSumsAndProducts ∧ VectorFusedAndSigns ∧ VectorSyllablesThatTrap

/-- `VectorBitsAndShifts` and `VectorMoves`. -/
def Obligations.VectorBitsAndMoves : Prop := VectorBitsAndShifts ∧ VectorMoves

/-- `VectorSpecialFunctions` and `VectorReductionsAndScan`. -/
def Obligations.VectorFunctionsAndReductions : Prop := VectorSpecialFunctions ∧ VectorReductionsAndScan

/-- `VectorDraws` and `VectorTopWritesTheLargest`. -/
def Obligations.VectorDrawsAndTop : Prop := VectorDraws ∧ VectorTopWritesTheLargest

/-- `MatrixPushesStartPasses` and `MatrixBeatsAndBindings`. -/
def Obligations.MatrixPassesAndBindings : Prop := MatrixPushesStartPasses ∧ MatrixBeatsAndBindings

/-- `MatrixDrainWritesARow` and `AccumulatorLoadsAndStores`. -/
def Obligations.MatrixDrainsAndAccumulators : Prop := MatrixDrainWritesARow ∧ AccumulatorLoadsAndStores

/-- `ScratchpadLoads` and `ScratchpadStores` and `ScaleLoadsFromScratchpad`. -/
def Obligations.ScratchpadAccesses : Prop := ScratchpadLoads ∧ ScratchpadStores ∧ ScaleLoadsFromScratchpad

/-- `HomeSliceLoads` and `HomeSliceStores`. -/
def Obligations.HomeSliceAccesses : Prop := HomeSliceLoads ∧ HomeSliceStores

/-- `BufferSlotForms` and `BufferHandleForms`. -/
def Obligations.BufferForms : Prop := BufferSlotForms ∧ BufferHandleForms

/-- `HomeSlicesPerformAccesses` and `LoadFillWritesTheRegister` and `MemoryEventsComplete`. -/
def Obligations.MemoryEventsHappen : Prop := HomeSlicesPerformAccesses ∧ LoadFillWritesTheRegister ∧ MemoryEventsComplete

/-- `CopySlotOperationsAreQueued` and `CipherOperationsAreQueued`. -/
def Obligations.EngineOperationsAreQueued : Prop := CopySlotOperationsAreQueued ∧ CipherOperationsAreQueued

/-- `PowerAndTemperature` and `HardwareErrors`. -/
def Obligations.PowerTemperatureAndErrors : Prop := PowerAndTemperature ∧ HardwareErrors

/-- `MrpSessions` and `MrpRequests`. -/
def Obligations.MrpSessionsAndRequests : Prop := MrpSessions ∧ MrpRequests

/-- `FabricPacketsArrive` and `FabricOperationsEnd`. -/
def Obligations.FabricPacketsAndOperations : Prop := FabricPacketsArrive ∧ FabricOperationsEnd

/-- `SmivyPortsAndWheel` and `GlobalTimeAndFaults`. -/
def Obligations.SmivyPortsTimeAndFaults : Prop := SmivyPortsAndWheel ∧ GlobalTimeAndFaults

/-- `BindingsBindWaitOrAreRefused` and `FreeCoresAndWaitLists`. -/
def Obligations.BindingsAndFreeCores : Prop := BindingsBindWaitOrAreRefused ∧ FreeCoresAndWaitLists

/-- `LoaderFillsPlanes` and `StrandsTakeCores`. -/
def Obligations.LoaderAndStrands : Prop := LoaderFillsPlanes ∧ StrandsTakeCores

/-- `PreemptionSavesAndReleases` and `LaunchesParkExpireAndRetire`. -/
def Obligations.LaunchesArePreemptedParkedAndRetired : Prop := PreemptionSavesAndReleases ∧ LaunchesParkExpireAndRetire

/-- `CopyEngineWorksRowByRow` and `SlotsAndBanksAdvance`. -/
def Obligations.CopyEngineAndSlots : Prop := CopyEngineWorksRowByRow ∧ SlotsAndBanksAdvance
end

