-- ==== Sys2Proof/Laws/Memory.lean ====
section
/-! SUPPORT. Laws/Memory.lean: sparse tables and byte memory: a read after a write, and the canonical form under every operation. -/
namespace Sys2Proof.Laws

open Sys2Proof.Machine

section Tables
variable {α : Type}

theorem get_drop_same (m : SMap α) (k : Nat) (d : α) : SMap.get (SMap.drop m k) k d = d := by
  induction m with
  | nil => rfl
  | cons p r ih =>
    obtain ⟨j, v⟩ := p
    by_cases h : k = j
    · simp [SMap.drop, h]; simpa [h] using ih
    · simp [SMap.drop, SMap.get, h, ih]

theorem get_drop_other (m : SMap α) {k i : Nat} (d : α) (h : i ≠ k) : SMap.get (SMap.drop m k) i d = SMap.get m i d := by
  induction m with
  | nil => rfl
  | cons p r ih =>
    obtain ⟨j, v⟩ := p
    by_cases hk : k = j
    · subst hk; simp [SMap.drop, SMap.get, h, ih]
    · by_cases hi : i = j <;> simp [SMap.drop, SMap.get, hk, hi, ih]

theorem get_put_same (m : SMap α) (k : Nat) (v d : α) : SMap.get (SMap.put m k v) k d = v := by
  induction m with
  | nil => simp [SMap.put, SMap.get]
  | cons p r ih =>
    obtain ⟨j, w⟩ := p
    unfold SMap.put
    split
    · simp [SMap.get]
    · split
      · simp [SMap.get]
      · rename_i h1 h2; simp [SMap.get, h2, ih]

theorem get_put_other (m : SMap α) {k i : Nat} (v d : α) (h : i ≠ k) : SMap.get (SMap.put m k v) i d = SMap.get m i d := by
  induction m with
  | nil => simp [SMap.put, SMap.get, h]
  | cons p r ih =>
    obtain ⟨j, w⟩ := p
    unfold SMap.put
    split
    · simp [SMap.get, h]
    · split
      · rename_i h1 h2; subst h2; simp [SMap.get, h]
      · by_cases hi : i = j <;> simp [SMap.get, hi, ih]

/-- A read after a write to the same key gives the value written. -/
@[simp] theorem get_set_same [DecidableEq α] (m : SMap α) (k : Nat) (v d : α) : SMap.get (SMap.set m k v d) k d = v := by
  unfold SMap.set
  split
  · rename_i h; rw [get_drop_same, h]
  · exact get_put_same m k v d

/-- A write leaves every other key alone. -/
theorem get_set_other [DecidableEq α] (m : SMap α) {k i : Nat} (v d e : α) (h : i ≠ k) :
    SMap.get (SMap.set m k v d) i e = SMap.get m i e := by
  unfold SMap.set
  split
  · exact get_drop_other m e h
  · exact get_put_other m v e h

theorem rising_mono {m : SMap α} {a b : Nat} (h : SMap.risingFrom m (some b) = true) (hab : a ≤ b) :
    SMap.risingFrom m (some a) = true := by
  cases m with
  | nil => rfl
  | cons p r => obtain ⟨j, v⟩ := p; simp [SMap.risingFrom] at h ⊢; exact ⟨by omega, h.2⟩

theorem rising_none {m : SMap α} {b : Nat} (h : SMap.risingFrom m (some b) = true) : SMap.risingFrom m none = true := by
  cases m with
  | nil => rfl
  | cons p r => obtain ⟨j, v⟩ := p; simp [SMap.risingFrom] at h ⊢; exact h.2

theorem rising_filter {m : SMap α} {lo : Option Nat} (q : Nat × α → Bool) (h : SMap.risingFrom m lo = true) :
    SMap.risingFrom (m.filter q) lo = true := by
  induction m generalizing lo with
  | nil => rfl
  | cons p r ih =>
    obtain ⟨j, v⟩ := p
    simp only [SMap.risingFrom, Bool.and_eq_true] at h
    by_cases hq : q (j, v) = true
    · simp [hq, SMap.risingFrom, ih h.2]; exact h.1
    · simp [hq]
      cases lo with
      | none => exact rising_none (ih h.2)
      | some a => simp at h; exact rising_mono (ih h.2) (by omega)

theorem drop_eq_filter (m : SMap α) (k : Nat) : SMap.drop m k = m.filter fun p => !(k == p.1) := by
  induction m with
  | nil => rfl
  | cons p r ih =>
    obtain ⟨j, v⟩ := p
    by_cases h : k = j
    · subst h; simp [SMap.drop, ih]
    · simp [SMap.drop, h, ih]

theorem rising_put {m : SMap α} {lo : Option Nat} (k : Nat) (v : α) (h : SMap.risingFrom m lo = true) (hk : ∀ l, lo = some l → l < k) :
    SMap.risingFrom (SMap.put m k v) lo = true := by
  induction m generalizing lo with
  | nil => cases lo <;> simp [SMap.put, SMap.risingFrom] at *; exact hk
  | cons p r ih =>
    obtain ⟨j, w⟩ := p
    simp only [SMap.risingFrom, Bool.and_eq_true] at h
    unfold SMap.put
    split
    · rename_i hlt
      cases lo <;> simp_all [SMap.risingFrom]
    · split
      · rename_i h1 h2; subst h2; simp [SMap.risingFrom, h.2]; exact h.1
      · rename_i h1 h2
        simp only [SMap.risingFrom, Bool.and_eq_true]
        exact ⟨h.1, ih h.2 (by intro l hl; cases hl; omega)⟩

theorem mem_put {m : SMap α} {k : Nat} {v : α} {p : Nat × α} (h : p ∈ SMap.put m k v) : p = (k, v) ∨ p ∈ m := by
  induction m with
  | nil => simpa [SMap.put] using h
  | cons q r ih =>
    obtain ⟨j, w⟩ := q
    unfold SMap.put at h
    split at h
    · simpa using h
    · split at h
      · simp at h; rcases h with h | h <;> simp [h]
      · simp at h
        rcases h with h | h
        · simp [h]
        · rcases ih h with h | h <;> simp [h]

/-- Writing keeps the canonical form. -/
theorem wf_set [DecidableEq α] {m : SMap α} {d : α} (k : Nat) (v : α) (h : SMap.wf m d = true) : SMap.wf (SMap.set m k v d) d = true := by
  simp only [SMap.wf, Bool.and_eq_true, List.all_eq_true, decide_eq_true_eq] at h ⊢
  unfold SMap.set
  split
  · rw [drop_eq_filter]
    exact ⟨rising_filter _ h.1, fun p hp => h.2 p (List.mem_of_mem_filter hp)⟩
  · rename_i hv
    refine ⟨rising_put k v h.1 (by simp), fun p hp => ?_⟩
    rcases mem_put hp with rfl | hp
    · exact hv
    · exact h.2 p hp

end Tables

/-! Byte memory. -/

@[simp] theorem read_write_same (m : List Host.Cell) (a : Nat) (v : Byte) : Memory.read (Memory.write m a v) a = v := get_set_same m a v 0

theorem read_write_other (m : List Host.Cell) {a b : Nat} (v : Byte) (h : b ≠ a) : Memory.read (Memory.write m a v) b = Memory.read m b :=
  get_set_other m v 0 0 h

theorem wf_write {m : List Host.Cell} (a : Nat) (v : Byte) (h : Memory.wf m = true) : Memory.wf (Memory.write m a v) = true := wf_set a v h

theorem wf_writeN {m : List Host.Cell} (a : Nat) (bs : List Byte) (h : Memory.wf m = true) : Memory.wf (Memory.writeN m a bs) = true := by
  induction bs generalizing m a with
  | nil => exact h
  | cons b r ih => exact ih (a + 1) (wf_write a b h)

theorem wf_writeMask {m : List Host.Cell} (a : Nat) (bs : List Byte) (mask : List Bool) (h : Memory.wf m = true) :
    Memory.wf (Memory.writeMask m a bs mask) = true := by
  induction bs generalizing m a mask with
  | nil => simpa [Memory.writeMask] using h
  | cons b r ih =>
    cases mask with
    | nil => simpa [Memory.writeMask] using h
    | cons k ks =>
      simp only [Memory.writeMask]
      apply ih
      split
      · exact wf_write a b h
      · exact h

theorem wf_zero {m : List Host.Cell} (a n : Nat) (h : Memory.wf m = true) : Memory.wf (Memory.zero m a n) = true := by
  simp only [Memory.wf, SMap.wf, Bool.and_eq_true, List.all_eq_true] at h ⊢
  exact ⟨rising_filter _ h.1, fun p hp => h.2 p (List.mem_of_mem_filter hp)⟩

theorem read_writeN_other (m : List Host.Cell) (a b : Nat) (bs : List Byte) (h : b < a ∨ a + bs.length ≤ b) :
    Memory.read (Memory.writeN m a bs) b = Memory.read m b := by
  induction bs generalizing m a with
  | nil => rfl
  | cons c r ih =>
    simp only [Memory.writeN, List.length_cons] at h ⊢
    rw [ih _ (a + 1) (by omega), read_write_other _ _ (by omega)]

theorem readN_length (m : List Host.Cell) (a n : Nat) : (Memory.readN m a n).length = n := by simp [Memory.readN]

theorem read_writeN_in (m : List Host.Cell) (a : Nat) (bs : List Byte) (i : Nat) (h : i < bs.length) :
    Memory.read (Memory.writeN m a bs) (a + i) = bs[i] := by
  induction bs generalizing m a i with
  | nil => simp at h
  | cons c r ih =>
    cases i with
    | zero => simp only [Memory.writeN]; rw [read_writeN_other _ _ _ _ (by omega)]; simp
    | succ i =>
      simp only [Memory.writeN, List.length_cons] at h ⊢
      rw [show a + (i + 1) = a + 1 + i by omega, ih _ _ _ (by omega)]
      simp

/-- Reading back the bytes just written. -/
theorem readN_writeN (m : List Host.Cell) (a : Nat) (bs : List Byte) : Memory.readN (Memory.writeN m a bs) a bs.length = bs := by
  apply List.ext_getElem
  · simp [Memory.readN]
  · intro i h1 h2; simp [Memory.readN, read_writeN_in m a bs i h2]

/-- A read outside the bytes written is what it was. -/
theorem readN_writeN_other (m : List Host.Cell) (a b n : Nat) (bs : List Byte) (h : b + n ≤ a ∨ a + bs.length ≤ b) :
    Memory.readN (Memory.writeN m a bs) b n = Memory.readN m b n := by
  simp only [Memory.readN]
  apply List.map_congr_left
  intro i hi
  simp only [List.mem_range] at hi
  exact read_writeN_other m a _ bs (by omega)

/-! Numbers and bytes. -/

@[simp] theorem natLe_length (n x : Nat) : (natLe n x).length = n := by
  induction n generalizing x with
  | zero => rfl
  | succ n ih => simp [natLe, ih]

/-- The number read from its own little-endian bytes. -/
theorem leNat_natLe (n x : Nat) : leNat (natLe n x) = x % 2 ^ (8 * n) := by
  induction n generalizing x with
  | zero => simp [natLe, leNat, Nat.mod_one]
  | succ n ih =>
    simp only [natLe, leNat, BitVec.toNat_ofNat, ih]
    rw [show 8 * (n + 1) = 8 + 8 * n by ring, pow_add, Nat.mod_mul]; norm_num

end Sys2Proof.Laws
end

