-- ==== Sys2Proof/Laws/State.lean ====
section
/-! SUPPORT. Laws/State.lean: one lemma for each field and each named update of the state, and what the updates do to what they name. -/
namespace Sys2Proof.Laws

open Sys2Proof.Machine

variable (s : State)

@[simp] theorem setCore_pkg (c : Nat) (k : CoreSt) : (s.setCore c k).pkg = s.pkg := rfl
@[simp] theorem setCore_flash (c : Nat) (k : CoreSt) : (s.setCore c k).flash = s.flash := rfl
@[simp] theorem setCore_time (c : Nat) (k : CoreSt) : (s.setCore c k).time = s.time := rfl
@[simp] theorem setCore_eth (c : Nat) (k : CoreSt) : (s.setCore c k).eth = s.eth := rfl
@[simp] theorem setCore_sl (c : Nat) (k : CoreSt) : (s.setCore c k).sl = s.sl := rfl
@[simp] theorem setCore_hif (c : Nat) (k : CoreSt) : (s.setCore c k).hif = s.hif := rfl
@[simp] theorem setCore_prot (c : Nat) (k : CoreSt) : (s.setCore c k).prot = s.prot := rfl
@[simp] theorem setCore_circ (c : Nat) (k : CoreSt) : (s.setCore c k).circ = s.circ := rfl
@[simp] theorem setCore_mem (c : Nat) (k : CoreSt) : (s.setCore c k).mem = s.mem := rfl
@[simp] theorem setCore_saves (c : Nat) (k : CoreSt) : (s.setCore c k).saves = s.saves := rfl
@[simp] theorem setCore_agenda (c : Nat) (k : CoreSt) : (s.setCore c k).agenda = s.agenda := rfl
@[simp] theorem setCore_ev (c : Nat) (k : CoreSt) : (s.setCore c k).ev = s.ev := rfl
@[simp] theorem setCore_agent (c : Nat) (k : CoreSt) : (s.setCore c k).agent = s.agent := rfl
@[simp] theorem setCore_cur (c : Nat) (k : CoreSt) : (s.setCore c k).cur = s.cur := rfl
@[simp] theorem setCore_free (c : Nat) (k : CoreSt) : (s.setCore c k).free = s.free := rfl
@[simp] theorem setCore_out (c : Nat) (k : CoreSt) : (s.setCore c k).out = s.out := rfl

@[simp] theorem modCore_pkg (c : Nat) (g : CoreSt → CoreSt) : (s.modCore c g).pkg = s.pkg := rfl
@[simp] theorem modCore_flash (c : Nat) (g : CoreSt → CoreSt) : (s.modCore c g).flash = s.flash := rfl
@[simp] theorem modCore_time (c : Nat) (g : CoreSt → CoreSt) : (s.modCore c g).time = s.time := rfl
@[simp] theorem modCore_eth (c : Nat) (g : CoreSt → CoreSt) : (s.modCore c g).eth = s.eth := rfl
@[simp] theorem modCore_sl (c : Nat) (g : CoreSt → CoreSt) : (s.modCore c g).sl = s.sl := rfl
@[simp] theorem modCore_hif (c : Nat) (g : CoreSt → CoreSt) : (s.modCore c g).hif = s.hif := rfl
@[simp] theorem modCore_prot (c : Nat) (g : CoreSt → CoreSt) : (s.modCore c g).prot = s.prot := rfl
@[simp] theorem modCore_circ (c : Nat) (g : CoreSt → CoreSt) : (s.modCore c g).circ = s.circ := rfl
@[simp] theorem modCore_mem (c : Nat) (g : CoreSt → CoreSt) : (s.modCore c g).mem = s.mem := rfl
@[simp] theorem modCore_saves (c : Nat) (g : CoreSt → CoreSt) : (s.modCore c g).saves = s.saves := rfl
@[simp] theorem modCore_agenda (c : Nat) (g : CoreSt → CoreSt) : (s.modCore c g).agenda = s.agenda := rfl
@[simp] theorem modCore_ev (c : Nat) (g : CoreSt → CoreSt) : (s.modCore c g).ev = s.ev := rfl
@[simp] theorem modCore_agent (c : Nat) (g : CoreSt → CoreSt) : (s.modCore c g).agent = s.agent := rfl
@[simp] theorem modCore_cur (c : Nat) (g : CoreSt → CoreSt) : (s.modCore c g).cur = s.cur := rfl
@[simp] theorem modCore_free (c : Nat) (g : CoreSt → CoreSt) : (s.modCore c g).free = s.free := rfl
@[simp] theorem modCore_out (c : Nat) (g : CoreSt → CoreSt) : (s.modCore c g).out = s.out := rfl

@[simp] theorem modTh_pkg (g : Thread → Thread) : (s.modTh g).pkg = s.pkg := rfl
@[simp] theorem modTh_flash (g : Thread → Thread) : (s.modTh g).flash = s.flash := rfl
@[simp] theorem modTh_time (g : Thread → Thread) : (s.modTh g).time = s.time := rfl
@[simp] theorem modTh_eth (g : Thread → Thread) : (s.modTh g).eth = s.eth := rfl
@[simp] theorem modTh_sl (g : Thread → Thread) : (s.modTh g).sl = s.sl := rfl
@[simp] theorem modTh_hif (g : Thread → Thread) : (s.modTh g).hif = s.hif := rfl
@[simp] theorem modTh_prot (g : Thread → Thread) : (s.modTh g).prot = s.prot := rfl
@[simp] theorem modTh_circ (g : Thread → Thread) : (s.modTh g).circ = s.circ := rfl
@[simp] theorem modTh_mem (g : Thread → Thread) : (s.modTh g).mem = s.mem := rfl
@[simp] theorem modTh_saves (g : Thread → Thread) : (s.modTh g).saves = s.saves := rfl
@[simp] theorem modTh_agenda (g : Thread → Thread) : (s.modTh g).agenda = s.agenda := rfl
@[simp] theorem modTh_ev (g : Thread → Thread) : (s.modTh g).ev = s.ev := rfl
@[simp] theorem modTh_agent (g : Thread → Thread) : (s.modTh g).agent = s.agent := rfl
@[simp] theorem modTh_cur (g : Thread → Thread) : (s.modTh g).cur = s.cur := rfl
@[simp] theorem modTh_free (g : Thread → Thread) : (s.modTh g).free = s.free := rfl
@[simp] theorem modTh_out (g : Thread → Thread) : (s.modTh g).out = s.out := rfl

@[simp] theorem modCtx_pkg (g : CoreCtx → CoreCtx) : (s.modCtx g).pkg = s.pkg := rfl
@[simp] theorem modCtx_flash (g : CoreCtx → CoreCtx) : (s.modCtx g).flash = s.flash := rfl
@[simp] theorem modCtx_time (g : CoreCtx → CoreCtx) : (s.modCtx g).time = s.time := rfl
@[simp] theorem modCtx_eth (g : CoreCtx → CoreCtx) : (s.modCtx g).eth = s.eth := rfl
@[simp] theorem modCtx_sl (g : CoreCtx → CoreCtx) : (s.modCtx g).sl = s.sl := rfl
@[simp] theorem modCtx_hif (g : CoreCtx → CoreCtx) : (s.modCtx g).hif = s.hif := rfl
@[simp] theorem modCtx_prot (g : CoreCtx → CoreCtx) : (s.modCtx g).prot = s.prot := rfl
@[simp] theorem modCtx_circ (g : CoreCtx → CoreCtx) : (s.modCtx g).circ = s.circ := rfl
@[simp] theorem modCtx_mem (g : CoreCtx → CoreCtx) : (s.modCtx g).mem = s.mem := rfl
@[simp] theorem modCtx_saves (g : CoreCtx → CoreCtx) : (s.modCtx g).saves = s.saves := rfl
@[simp] theorem modCtx_agenda (g : CoreCtx → CoreCtx) : (s.modCtx g).agenda = s.agenda := rfl
@[simp] theorem modCtx_ev (g : CoreCtx → CoreCtx) : (s.modCtx g).ev = s.ev := rfl
@[simp] theorem modCtx_agent (g : CoreCtx → CoreCtx) : (s.modCtx g).agent = s.agent := rfl
@[simp] theorem modCtx_cur (g : CoreCtx → CoreCtx) : (s.modCtx g).cur = s.cur := rfl
@[simp] theorem modCtx_free (g : CoreCtx → CoreCtx) : (s.modCtx g).free = s.free := rfl
@[simp] theorem modCtx_out (g : CoreCtx → CoreCtx) : (s.modCtx g).out = s.out := rfl

@[simp] theorem modHandle_pkg (h : Nat) (g : Handle → Handle) : (s.modHandle h g).pkg = s.pkg := rfl
@[simp] theorem modHandle_flash (h : Nat) (g : Handle → Handle) : (s.modHandle h g).flash = s.flash := rfl
@[simp] theorem modHandle_time (h : Nat) (g : Handle → Handle) : (s.modHandle h g).time = s.time := rfl
@[simp] theorem modHandle_eth (h : Nat) (g : Handle → Handle) : (s.modHandle h g).eth = s.eth := rfl
@[simp] theorem modHandle_sl (h : Nat) (g : Handle → Handle) : (s.modHandle h g).sl = s.sl := rfl
@[simp] theorem modHandle_hif (h : Nat) (g : Handle → Handle) : (s.modHandle h g).hif = s.hif := rfl
@[simp] theorem modHandle_prot (h : Nat) (g : Handle → Handle) : (s.modHandle h g).prot = s.prot := rfl
@[simp] theorem modHandle_circ (h : Nat) (g : Handle → Handle) : (s.modHandle h g).circ = s.circ := rfl
@[simp] theorem modHandle_mem (h : Nat) (g : Handle → Handle) : (s.modHandle h g).mem = s.mem := rfl
@[simp] theorem modHandle_saves (h : Nat) (g : Handle → Handle) : (s.modHandle h g).saves = s.saves := rfl
@[simp] theorem modHandle_agenda (h : Nat) (g : Handle → Handle) : (s.modHandle h g).agenda = s.agenda := rfl
@[simp] theorem modHandle_ev (h : Nat) (g : Handle → Handle) : (s.modHandle h g).ev = s.ev := rfl
@[simp] theorem modHandle_agent (h : Nat) (g : Handle → Handle) : (s.modHandle h g).agent = s.agent := rfl
@[simp] theorem modHandle_cur (h : Nat) (g : Handle → Handle) : (s.modHandle h g).cur = s.cur := rfl
@[simp] theorem modHandle_free (h : Nat) (g : Handle → Handle) : (s.modHandle h g).free = s.free := rfl
@[simp] theorem modHandle_out (h : Nat) (g : Handle → Handle) : (s.modHandle h g).out = s.out := rfl

@[simp] theorem landQ_pkg (n r : Nat) (v : BitVec 256) (x : BitVec 7) : (s.landQ n r v x).pkg = s.pkg := rfl
@[simp] theorem landQ_flash (n r : Nat) (v : BitVec 256) (x : BitVec 7) : (s.landQ n r v x).flash = s.flash := rfl
@[simp] theorem landQ_time (n r : Nat) (v : BitVec 256) (x : BitVec 7) : (s.landQ n r v x).time = s.time := rfl
@[simp] theorem landQ_eth (n r : Nat) (v : BitVec 256) (x : BitVec 7) : (s.landQ n r v x).eth = s.eth := rfl
@[simp] theorem landQ_sl (n r : Nat) (v : BitVec 256) (x : BitVec 7) : (s.landQ n r v x).sl = s.sl := rfl
@[simp] theorem landQ_hif (n r : Nat) (v : BitVec 256) (x : BitVec 7) : (s.landQ n r v x).hif = s.hif := rfl
@[simp] theorem landQ_prot (n r : Nat) (v : BitVec 256) (x : BitVec 7) : (s.landQ n r v x).prot = s.prot := rfl
@[simp] theorem landQ_circ (n r : Nat) (v : BitVec 256) (x : BitVec 7) : (s.landQ n r v x).circ = s.circ := rfl
@[simp] theorem landQ_mem (n r : Nat) (v : BitVec 256) (x : BitVec 7) : (s.landQ n r v x).mem = s.mem := rfl
@[simp] theorem landQ_saves (n r : Nat) (v : BitVec 256) (x : BitVec 7) : (s.landQ n r v x).saves = s.saves := rfl
@[simp] theorem landQ_agenda (n r : Nat) (v : BitVec 256) (x : BitVec 7) : (s.landQ n r v x).agenda = s.agenda := rfl
@[simp] theorem landQ_ev (n r : Nat) (v : BitVec 256) (x : BitVec 7) : (s.landQ n r v x).ev = s.ev := rfl
@[simp] theorem landQ_agent (n r : Nat) (v : BitVec 256) (x : BitVec 7) : (s.landQ n r v x).agent = s.agent := rfl
@[simp] theorem landQ_cur (n r : Nat) (v : BitVec 256) (x : BitVec 7) : (s.landQ n r v x).cur = s.cur := rfl
@[simp] theorem landQ_free (n r : Nat) (v : BitVec 256) (x : BitVec 7) : (s.landQ n r v x).free = s.free := rfl
@[simp] theorem landQ_out (n r : Nat) (v : BitVec 256) (x : BitVec 7) : (s.landQ n r v x).out = s.out := rfl

@[simp] theorem landZ_pkg (n r : Nat) (v : BitVec 528) : (s.landZ n r v).pkg = s.pkg := rfl
@[simp] theorem landZ_flash (n r : Nat) (v : BitVec 528) : (s.landZ n r v).flash = s.flash := rfl
@[simp] theorem landZ_time (n r : Nat) (v : BitVec 528) : (s.landZ n r v).time = s.time := rfl
@[simp] theorem landZ_eth (n r : Nat) (v : BitVec 528) : (s.landZ n r v).eth = s.eth := rfl
@[simp] theorem landZ_sl (n r : Nat) (v : BitVec 528) : (s.landZ n r v).sl = s.sl := rfl
@[simp] theorem landZ_hif (n r : Nat) (v : BitVec 528) : (s.landZ n r v).hif = s.hif := rfl
@[simp] theorem landZ_prot (n r : Nat) (v : BitVec 528) : (s.landZ n r v).prot = s.prot := rfl
@[simp] theorem landZ_circ (n r : Nat) (v : BitVec 528) : (s.landZ n r v).circ = s.circ := rfl
@[simp] theorem landZ_mem (n r : Nat) (v : BitVec 528) : (s.landZ n r v).mem = s.mem := rfl
@[simp] theorem landZ_saves (n r : Nat) (v : BitVec 528) : (s.landZ n r v).saves = s.saves := rfl
@[simp] theorem landZ_agenda (n r : Nat) (v : BitVec 528) : (s.landZ n r v).agenda = s.agenda := rfl
@[simp] theorem landZ_ev (n r : Nat) (v : BitVec 528) : (s.landZ n r v).ev = s.ev := rfl
@[simp] theorem landZ_agent (n r : Nat) (v : BitVec 528) : (s.landZ n r v).agent = s.agent := rfl
@[simp] theorem landZ_cur (n r : Nat) (v : BitVec 528) : (s.landZ n r v).cur = s.cur := rfl
@[simp] theorem landZ_free (n r : Nat) (v : BitVec 528) : (s.landZ n r v).free = s.free := rfl
@[simp] theorem landZ_out (n r : Nat) (v : BitVec 528) : (s.landZ n r v).out = s.out := rfl

@[simp] theorem setLaunch_pkg (n : Nat) (l : Option Launch) : (s.setLaunch n l).pkg = s.pkg := rfl
@[simp] theorem setLaunch_flash (n : Nat) (l : Option Launch) : (s.setLaunch n l).flash = s.flash := rfl
@[simp] theorem setLaunch_time (n : Nat) (l : Option Launch) : (s.setLaunch n l).time = s.time := rfl
@[simp] theorem setLaunch_eth (n : Nat) (l : Option Launch) : (s.setLaunch n l).eth = s.eth := rfl
@[simp] theorem setLaunch_sl (n : Nat) (l : Option Launch) : (s.setLaunch n l).sl = s.sl := rfl
@[simp] theorem setLaunch_hif (n : Nat) (l : Option Launch) : (s.setLaunch n l).hif = s.hif := rfl
@[simp] theorem setLaunch_prot (n : Nat) (l : Option Launch) : (s.setLaunch n l).prot = s.prot := rfl
@[simp] theorem setLaunch_mem (n : Nat) (l : Option Launch) : (s.setLaunch n l).mem = s.mem := rfl
@[simp] theorem setLaunch_cores (n : Nat) (l : Option Launch) : (s.setLaunch n l).cores = s.cores := rfl
@[simp] theorem setLaunch_saves (n : Nat) (l : Option Launch) : (s.setLaunch n l).saves = s.saves := rfl
@[simp] theorem setLaunch_agenda (n : Nat) (l : Option Launch) : (s.setLaunch n l).agenda = s.agenda := rfl
@[simp] theorem setLaunch_ev (n : Nat) (l : Option Launch) : (s.setLaunch n l).ev = s.ev := rfl
@[simp] theorem setLaunch_agent (n : Nat) (l : Option Launch) : (s.setLaunch n l).agent = s.agent := rfl
@[simp] theorem setLaunch_cur (n : Nat) (l : Option Launch) : (s.setLaunch n l).cur = s.cur := rfl
@[simp] theorem setLaunch_free (n : Nat) (l : Option Launch) : (s.setLaunch n l).free = s.free := rfl
@[simp] theorem setLaunch_out (n : Nat) (l : Option Launch) : (s.setLaunch n l).out = s.out := rfl

@[simp] theorem modCirc_pkg (g : Circ → Circ) : (s.modCirc g).pkg = s.pkg := rfl
@[simp] theorem modCirc_flash (g : Circ → Circ) : (s.modCirc g).flash = s.flash := rfl
@[simp] theorem modCirc_time (g : Circ → Circ) : (s.modCirc g).time = s.time := rfl
@[simp] theorem modCirc_eth (g : Circ → Circ) : (s.modCirc g).eth = s.eth := rfl
@[simp] theorem modCirc_sl (g : Circ → Circ) : (s.modCirc g).sl = s.sl := rfl
@[simp] theorem modCirc_hif (g : Circ → Circ) : (s.modCirc g).hif = s.hif := rfl
@[simp] theorem modCirc_prot (g : Circ → Circ) : (s.modCirc g).prot = s.prot := rfl
@[simp] theorem modCirc_mem (g : Circ → Circ) : (s.modCirc g).mem = s.mem := rfl
@[simp] theorem modCirc_cores (g : Circ → Circ) : (s.modCirc g).cores = s.cores := rfl
@[simp] theorem modCirc_saves (g : Circ → Circ) : (s.modCirc g).saves = s.saves := rfl
@[simp] theorem modCirc_agenda (g : Circ → Circ) : (s.modCirc g).agenda = s.agenda := rfl
@[simp] theorem modCirc_ev (g : Circ → Circ) : (s.modCirc g).ev = s.ev := rfl
@[simp] theorem modCirc_agent (g : Circ → Circ) : (s.modCirc g).agent = s.agent := rfl
@[simp] theorem modCirc_cur (g : Circ → Circ) : (s.modCirc g).cur = s.cur := rfl
@[simp] theorem modCirc_free (g : Circ → Circ) : (s.modCirc g).free = s.free := rfl
@[simp] theorem modCirc_out (g : Circ → Circ) : (s.modCirc g).out = s.out := rfl

@[simp] theorem countCirc_pkg (k : Nat) : (s.countCirc k).pkg = s.pkg := rfl
@[simp] theorem countCirc_flash (k : Nat) : (s.countCirc k).flash = s.flash := rfl
@[simp] theorem countCirc_time (k : Nat) : (s.countCirc k).time = s.time := rfl
@[simp] theorem countCirc_eth (k : Nat) : (s.countCirc k).eth = s.eth := rfl
@[simp] theorem countCirc_sl (k : Nat) : (s.countCirc k).sl = s.sl := rfl
@[simp] theorem countCirc_hif (k : Nat) : (s.countCirc k).hif = s.hif := rfl
@[simp] theorem countCirc_prot (k : Nat) : (s.countCirc k).prot = s.prot := rfl
@[simp] theorem countCirc_mem (k : Nat) : (s.countCirc k).mem = s.mem := rfl
@[simp] theorem countCirc_cores (k : Nat) : (s.countCirc k).cores = s.cores := rfl
@[simp] theorem countCirc_saves (k : Nat) : (s.countCirc k).saves = s.saves := rfl
@[simp] theorem countCirc_agenda (k : Nat) : (s.countCirc k).agenda = s.agenda := rfl
@[simp] theorem countCirc_ev (k : Nat) : (s.countCirc k).ev = s.ev := rfl
@[simp] theorem countCirc_agent (k : Nat) : (s.countCirc k).agent = s.agent := rfl
@[simp] theorem countCirc_cur (k : Nat) : (s.countCirc k).cur = s.cur := rfl
@[simp] theorem countCirc_free (k : Nat) : (s.countCirc k).free = s.free := rfl
@[simp] theorem countCirc_out (k : Nat) : (s.countCirc k).out = s.out := rfl

@[simp] theorem setOwner_pkg (c : Nat) (n : Option Nat) : (s.setOwner c n).pkg = s.pkg := rfl
@[simp] theorem setOwner_flash (c : Nat) (n : Option Nat) : (s.setOwner c n).flash = s.flash := rfl
@[simp] theorem setOwner_time (c : Nat) (n : Option Nat) : (s.setOwner c n).time = s.time := rfl
@[simp] theorem setOwner_eth (c : Nat) (n : Option Nat) : (s.setOwner c n).eth = s.eth := rfl
@[simp] theorem setOwner_sl (c : Nat) (n : Option Nat) : (s.setOwner c n).sl = s.sl := rfl
@[simp] theorem setOwner_hif (c : Nat) (n : Option Nat) : (s.setOwner c n).hif = s.hif := rfl
@[simp] theorem setOwner_prot (c : Nat) (n : Option Nat) : (s.setOwner c n).prot = s.prot := rfl
@[simp] theorem setOwner_mem (c : Nat) (n : Option Nat) : (s.setOwner c n).mem = s.mem := rfl
@[simp] theorem setOwner_cores (c : Nat) (n : Option Nat) : (s.setOwner c n).cores = s.cores := rfl
@[simp] theorem setOwner_saves (c : Nat) (n : Option Nat) : (s.setOwner c n).saves = s.saves := rfl
@[simp] theorem setOwner_agenda (c : Nat) (n : Option Nat) : (s.setOwner c n).agenda = s.agenda := rfl
@[simp] theorem setOwner_ev (c : Nat) (n : Option Nat) : (s.setOwner c n).ev = s.ev := rfl
@[simp] theorem setOwner_agent (c : Nat) (n : Option Nat) : (s.setOwner c n).agent = s.agent := rfl
@[simp] theorem setOwner_cur (c : Nat) (n : Option Nat) : (s.setOwner c n).cur = s.cur := rfl
@[simp] theorem setOwner_free (c : Nat) (n : Option Nat) : (s.setOwner c n).free = s.free := rfl
@[simp] theorem setOwner_out (c : Nat) (n : Option Nat) : (s.setOwner c n).out = s.out := rfl

@[simp] theorem setPreempt_pkg (c : Nat) (p : Option Preempt) : (s.setPreempt c p).pkg = s.pkg := rfl
@[simp] theorem setPreempt_flash (c : Nat) (p : Option Preempt) : (s.setPreempt c p).flash = s.flash := rfl
@[simp] theorem setPreempt_time (c : Nat) (p : Option Preempt) : (s.setPreempt c p).time = s.time := rfl
@[simp] theorem setPreempt_eth (c : Nat) (p : Option Preempt) : (s.setPreempt c p).eth = s.eth := rfl
@[simp] theorem setPreempt_sl (c : Nat) (p : Option Preempt) : (s.setPreempt c p).sl = s.sl := rfl
@[simp] theorem setPreempt_hif (c : Nat) (p : Option Preempt) : (s.setPreempt c p).hif = s.hif := rfl
@[simp] theorem setPreempt_prot (c : Nat) (p : Option Preempt) : (s.setPreempt c p).prot = s.prot := rfl
@[simp] theorem setPreempt_mem (c : Nat) (p : Option Preempt) : (s.setPreempt c p).mem = s.mem := rfl
@[simp] theorem setPreempt_cores (c : Nat) (p : Option Preempt) : (s.setPreempt c p).cores = s.cores := rfl
@[simp] theorem setPreempt_saves (c : Nat) (p : Option Preempt) : (s.setPreempt c p).saves = s.saves := rfl
@[simp] theorem setPreempt_agenda (c : Nat) (p : Option Preempt) : (s.setPreempt c p).agenda = s.agenda := rfl
@[simp] theorem setPreempt_ev (c : Nat) (p : Option Preempt) : (s.setPreempt c p).ev = s.ev := rfl
@[simp] theorem setPreempt_agent (c : Nat) (p : Option Preempt) : (s.setPreempt c p).agent = s.agent := rfl
@[simp] theorem setPreempt_cur (c : Nat) (p : Option Preempt) : (s.setPreempt c p).cur = s.cur := rfl
@[simp] theorem setPreempt_free (c : Nat) (p : Option Preempt) : (s.setPreempt c p).free = s.free := rfl
@[simp] theorem setPreempt_out (c : Nat) (p : Option Preempt) : (s.setPreempt c p).out = s.out := rfl

@[simp] theorem modChip_pkg (g : Chipper → Chipper) : (s.modChip g).pkg = s.pkg := rfl
@[simp] theorem modChip_flash (g : Chipper → Chipper) : (s.modChip g).flash = s.flash := rfl
@[simp] theorem modChip_time (g : Chipper → Chipper) : (s.modChip g).time = s.time := rfl
@[simp] theorem modChip_eth (g : Chipper → Chipper) : (s.modChip g).eth = s.eth := rfl
@[simp] theorem modChip_sl (g : Chipper → Chipper) : (s.modChip g).sl = s.sl := rfl
@[simp] theorem modChip_hif (g : Chipper → Chipper) : (s.modChip g).hif = s.hif := rfl
@[simp] theorem modChip_circ (g : Chipper → Chipper) : (s.modChip g).circ = s.circ := rfl
@[simp] theorem modChip_mem (g : Chipper → Chipper) : (s.modChip g).mem = s.mem := rfl
@[simp] theorem modChip_cores (g : Chipper → Chipper) : (s.modChip g).cores = s.cores := rfl
@[simp] theorem modChip_saves (g : Chipper → Chipper) : (s.modChip g).saves = s.saves := rfl
@[simp] theorem modChip_agenda (g : Chipper → Chipper) : (s.modChip g).agenda = s.agenda := rfl
@[simp] theorem modChip_ev (g : Chipper → Chipper) : (s.modChip g).ev = s.ev := rfl
@[simp] theorem modChip_agent (g : Chipper → Chipper) : (s.modChip g).agent = s.agent := rfl
@[simp] theorem modChip_cur (g : Chipper → Chipper) : (s.modChip g).cur = s.cur := rfl
@[simp] theorem modChip_free (g : Chipper → Chipper) : (s.modChip g).free = s.free := rfl
@[simp] theorem modChip_out (g : Chipper → Chipper) : (s.modChip g).out = s.out := rfl

@[simp] theorem modPart_pkg (p : Nat) (g : Partition → Partition) : (s.modPart p g).pkg = s.pkg := rfl
@[simp] theorem modPart_flash (p : Nat) (g : Partition → Partition) : (s.modPart p g).flash = s.flash := rfl
@[simp] theorem modPart_time (p : Nat) (g : Partition → Partition) : (s.modPart p g).time = s.time := rfl
@[simp] theorem modPart_eth (p : Nat) (g : Partition → Partition) : (s.modPart p g).eth = s.eth := rfl
@[simp] theorem modPart_sl (p : Nat) (g : Partition → Partition) : (s.modPart p g).sl = s.sl := rfl
@[simp] theorem modPart_hif (p : Nat) (g : Partition → Partition) : (s.modPart p g).hif = s.hif := rfl
@[simp] theorem modPart_circ (p : Nat) (g : Partition → Partition) : (s.modPart p g).circ = s.circ := rfl
@[simp] theorem modPart_mem (p : Nat) (g : Partition → Partition) : (s.modPart p g).mem = s.mem := rfl
@[simp] theorem modPart_cores (p : Nat) (g : Partition → Partition) : (s.modPart p g).cores = s.cores := rfl
@[simp] theorem modPart_saves (p : Nat) (g : Partition → Partition) : (s.modPart p g).saves = s.saves := rfl
@[simp] theorem modPart_agenda (p : Nat) (g : Partition → Partition) : (s.modPart p g).agenda = s.agenda := rfl
@[simp] theorem modPart_ev (p : Nat) (g : Partition → Partition) : (s.modPart p g).ev = s.ev := rfl
@[simp] theorem modPart_agent (p : Nat) (g : Partition → Partition) : (s.modPart p g).agent = s.agent := rfl
@[simp] theorem modPart_cur (p : Nat) (g : Partition → Partition) : (s.modPart p g).cur = s.cur := rfl
@[simp] theorem modPart_free (p : Nat) (g : Partition → Partition) : (s.modPart p g).free = s.free := rfl
@[simp] theorem modPart_out (p : Nat) (g : Partition → Partition) : (s.modPart p g).out = s.out := rfl

@[simp] theorem setKeySlot_pkg (k : Nat) (x : KeySlot) : (s.setKeySlot k x).pkg = s.pkg := rfl
@[simp] theorem setKeySlot_flash (k : Nat) (x : KeySlot) : (s.setKeySlot k x).flash = s.flash := rfl
@[simp] theorem setKeySlot_time (k : Nat) (x : KeySlot) : (s.setKeySlot k x).time = s.time := rfl
@[simp] theorem setKeySlot_eth (k : Nat) (x : KeySlot) : (s.setKeySlot k x).eth = s.eth := rfl
@[simp] theorem setKeySlot_sl (k : Nat) (x : KeySlot) : (s.setKeySlot k x).sl = s.sl := rfl
@[simp] theorem setKeySlot_hif (k : Nat) (x : KeySlot) : (s.setKeySlot k x).hif = s.hif := rfl
@[simp] theorem setKeySlot_circ (k : Nat) (x : KeySlot) : (s.setKeySlot k x).circ = s.circ := rfl
@[simp] theorem setKeySlot_mem (k : Nat) (x : KeySlot) : (s.setKeySlot k x).mem = s.mem := rfl
@[simp] theorem setKeySlot_cores (k : Nat) (x : KeySlot) : (s.setKeySlot k x).cores = s.cores := rfl
@[simp] theorem setKeySlot_saves (k : Nat) (x : KeySlot) : (s.setKeySlot k x).saves = s.saves := rfl
@[simp] theorem setKeySlot_agenda (k : Nat) (x : KeySlot) : (s.setKeySlot k x).agenda = s.agenda := rfl
@[simp] theorem setKeySlot_ev (k : Nat) (x : KeySlot) : (s.setKeySlot k x).ev = s.ev := rfl
@[simp] theorem setKeySlot_agent (k : Nat) (x : KeySlot) : (s.setKeySlot k x).agent = s.agent := rfl
@[simp] theorem setKeySlot_cur (k : Nat) (x : KeySlot) : (s.setKeySlot k x).cur = s.cur := rfl
@[simp] theorem setKeySlot_free (k : Nat) (x : KeySlot) : (s.setKeySlot k x).free = s.free := rfl
@[simp] theorem setKeySlot_out (k : Nat) (x : KeySlot) : (s.setKeySlot k x).out = s.out := rfl

@[simp] theorem modPkg_flash (g : Pkg → Pkg) : (s.modPkg g).flash = s.flash := rfl
@[simp] theorem modPkg_time (g : Pkg → Pkg) : (s.modPkg g).time = s.time := rfl
@[simp] theorem modPkg_eth (g : Pkg → Pkg) : (s.modPkg g).eth = s.eth := rfl
@[simp] theorem modPkg_sl (g : Pkg → Pkg) : (s.modPkg g).sl = s.sl := rfl
@[simp] theorem modPkg_hif (g : Pkg → Pkg) : (s.modPkg g).hif = s.hif := rfl
@[simp] theorem modPkg_prot (g : Pkg → Pkg) : (s.modPkg g).prot = s.prot := rfl
@[simp] theorem modPkg_circ (g : Pkg → Pkg) : (s.modPkg g).circ = s.circ := rfl
@[simp] theorem modPkg_mem (g : Pkg → Pkg) : (s.modPkg g).mem = s.mem := rfl
@[simp] theorem modPkg_cores (g : Pkg → Pkg) : (s.modPkg g).cores = s.cores := rfl
@[simp] theorem modPkg_saves (g : Pkg → Pkg) : (s.modPkg g).saves = s.saves := rfl
@[simp] theorem modPkg_agenda (g : Pkg → Pkg) : (s.modPkg g).agenda = s.agenda := rfl
@[simp] theorem modPkg_ev (g : Pkg → Pkg) : (s.modPkg g).ev = s.ev := rfl
@[simp] theorem modPkg_agent (g : Pkg → Pkg) : (s.modPkg g).agent = s.agent := rfl
@[simp] theorem modPkg_cur (g : Pkg → Pkg) : (s.modPkg g).cur = s.cur := rfl
@[simp] theorem modPkg_free (g : Pkg → Pkg) : (s.modPkg g).free = s.free := rfl
@[simp] theorem modPkg_out (g : Pkg → Pkg) : (s.modPkg g).out = s.out := rfl

@[simp] theorem modHif_pkg (g : Hif → Hif) : (s.modHif g).pkg = s.pkg := rfl
@[simp] theorem modHif_flash (g : Hif → Hif) : (s.modHif g).flash = s.flash := rfl
@[simp] theorem modHif_time (g : Hif → Hif) : (s.modHif g).time = s.time := rfl
@[simp] theorem modHif_eth (g : Hif → Hif) : (s.modHif g).eth = s.eth := rfl
@[simp] theorem modHif_sl (g : Hif → Hif) : (s.modHif g).sl = s.sl := rfl
@[simp] theorem modHif_prot (g : Hif → Hif) : (s.modHif g).prot = s.prot := rfl
@[simp] theorem modHif_circ (g : Hif → Hif) : (s.modHif g).circ = s.circ := rfl
@[simp] theorem modHif_mem (g : Hif → Hif) : (s.modHif g).mem = s.mem := rfl
@[simp] theorem modHif_cores (g : Hif → Hif) : (s.modHif g).cores = s.cores := rfl
@[simp] theorem modHif_saves (g : Hif → Hif) : (s.modHif g).saves = s.saves := rfl
@[simp] theorem modHif_agenda (g : Hif → Hif) : (s.modHif g).agenda = s.agenda := rfl
@[simp] theorem modHif_ev (g : Hif → Hif) : (s.modHif g).ev = s.ev := rfl
@[simp] theorem modHif_agent (g : Hif → Hif) : (s.modHif g).agent = s.agent := rfl
@[simp] theorem modHif_cur (g : Hif → Hif) : (s.modHif g).cur = s.cur := rfl
@[simp] theorem modHif_free (g : Hif → Hif) : (s.modHif g).free = s.free := rfl
@[simp] theorem modHif_out (g : Hif → Hif) : (s.modHif g).out = s.out := rfl

@[simp] theorem modFn_pkg (v : Nat) (g : FnRegs → FnRegs) : (s.modFn v g).pkg = s.pkg := rfl
@[simp] theorem modFn_flash (v : Nat) (g : FnRegs → FnRegs) : (s.modFn v g).flash = s.flash := rfl
@[simp] theorem modFn_time (v : Nat) (g : FnRegs → FnRegs) : (s.modFn v g).time = s.time := rfl
@[simp] theorem modFn_eth (v : Nat) (g : FnRegs → FnRegs) : (s.modFn v g).eth = s.eth := rfl
@[simp] theorem modFn_sl (v : Nat) (g : FnRegs → FnRegs) : (s.modFn v g).sl = s.sl := rfl
@[simp] theorem modFn_prot (v : Nat) (g : FnRegs → FnRegs) : (s.modFn v g).prot = s.prot := rfl
@[simp] theorem modFn_circ (v : Nat) (g : FnRegs → FnRegs) : (s.modFn v g).circ = s.circ := rfl
@[simp] theorem modFn_mem (v : Nat) (g : FnRegs → FnRegs) : (s.modFn v g).mem = s.mem := rfl
@[simp] theorem modFn_cores (v : Nat) (g : FnRegs → FnRegs) : (s.modFn v g).cores = s.cores := rfl
@[simp] theorem modFn_saves (v : Nat) (g : FnRegs → FnRegs) : (s.modFn v g).saves = s.saves := rfl
@[simp] theorem modFn_agenda (v : Nat) (g : FnRegs → FnRegs) : (s.modFn v g).agenda = s.agenda := rfl
@[simp] theorem modFn_ev (v : Nat) (g : FnRegs → FnRegs) : (s.modFn v g).ev = s.ev := rfl
@[simp] theorem modFn_agent (v : Nat) (g : FnRegs → FnRegs) : (s.modFn v g).agent = s.agent := rfl
@[simp] theorem modFn_cur (v : Nat) (g : FnRegs → FnRegs) : (s.modFn v g).cur = s.cur := rfl
@[simp] theorem modFn_free (v : Nat) (g : FnRegs → FnRegs) : (s.modFn v g).free = s.free := rfl
@[simp] theorem modFn_out (v : Nat) (g : FnRegs → FnRegs) : (s.modFn v g).out = s.out := rfl

@[simp] theorem modPort_pkg (n : Nat) (g : EthPort → EthPort) : (s.modPort n g).pkg = s.pkg := rfl
@[simp] theorem modPort_flash (n : Nat) (g : EthPort → EthPort) : (s.modPort n g).flash = s.flash := rfl
@[simp] theorem modPort_time (n : Nat) (g : EthPort → EthPort) : (s.modPort n g).time = s.time := rfl
@[simp] theorem modPort_sl (n : Nat) (g : EthPort → EthPort) : (s.modPort n g).sl = s.sl := rfl
@[simp] theorem modPort_hif (n : Nat) (g : EthPort → EthPort) : (s.modPort n g).hif = s.hif := rfl
@[simp] theorem modPort_prot (n : Nat) (g : EthPort → EthPort) : (s.modPort n g).prot = s.prot := rfl
@[simp] theorem modPort_circ (n : Nat) (g : EthPort → EthPort) : (s.modPort n g).circ = s.circ := rfl
@[simp] theorem modPort_mem (n : Nat) (g : EthPort → EthPort) : (s.modPort n g).mem = s.mem := rfl
@[simp] theorem modPort_cores (n : Nat) (g : EthPort → EthPort) : (s.modPort n g).cores = s.cores := rfl
@[simp] theorem modPort_saves (n : Nat) (g : EthPort → EthPort) : (s.modPort n g).saves = s.saves := rfl
@[simp] theorem modPort_agenda (n : Nat) (g : EthPort → EthPort) : (s.modPort n g).agenda = s.agenda := rfl
@[simp] theorem modPort_ev (n : Nat) (g : EthPort → EthPort) : (s.modPort n g).ev = s.ev := rfl
@[simp] theorem modPort_agent (n : Nat) (g : EthPort → EthPort) : (s.modPort n g).agent = s.agent := rfl
@[simp] theorem modPort_cur (n : Nat) (g : EthPort → EthPort) : (s.modPort n g).cur = s.cur := rfl
@[simp] theorem modPort_free (n : Nat) (g : EthPort → EthPort) : (s.modPort n g).free = s.free := rfl
@[simp] theorem modPort_out (n : Nat) (g : EthPort → EthPort) : (s.modPort n g).out = s.out := rfl

@[simp] theorem countPort_pkg (n k : Nat) : (s.countPort n k).pkg = s.pkg := rfl
@[simp] theorem countPort_flash (n k : Nat) : (s.countPort n k).flash = s.flash := rfl
@[simp] theorem countPort_time (n k : Nat) : (s.countPort n k).time = s.time := rfl
@[simp] theorem countPort_sl (n k : Nat) : (s.countPort n k).sl = s.sl := rfl
@[simp] theorem countPort_hif (n k : Nat) : (s.countPort n k).hif = s.hif := rfl
@[simp] theorem countPort_prot (n k : Nat) : (s.countPort n k).prot = s.prot := rfl
@[simp] theorem countPort_circ (n k : Nat) : (s.countPort n k).circ = s.circ := rfl
@[simp] theorem countPort_mem (n k : Nat) : (s.countPort n k).mem = s.mem := rfl
@[simp] theorem countPort_cores (n k : Nat) : (s.countPort n k).cores = s.cores := rfl
@[simp] theorem countPort_saves (n k : Nat) : (s.countPort n k).saves = s.saves := rfl
@[simp] theorem countPort_agenda (n k : Nat) : (s.countPort n k).agenda = s.agenda := rfl
@[simp] theorem countPort_ev (n k : Nat) : (s.countPort n k).ev = s.ev := rfl
@[simp] theorem countPort_agent (n k : Nat) : (s.countPort n k).agent = s.agent := rfl
@[simp] theorem countPort_cur (n k : Nat) : (s.countPort n k).cur = s.cur := rfl
@[simp] theorem countPort_free (n k : Nat) : (s.countPort n k).free = s.free := rfl
@[simp] theorem countPort_out (n k : Nat) : (s.countPort n k).out = s.out := rfl

@[simp] theorem modSess_pkg (i : Nat) (g : Session → Session) : (s.modSess i g).pkg = s.pkg := rfl
@[simp] theorem modSess_flash (i : Nat) (g : Session → Session) : (s.modSess i g).flash = s.flash := rfl
@[simp] theorem modSess_time (i : Nat) (g : Session → Session) : (s.modSess i g).time = s.time := rfl
@[simp] theorem modSess_sl (i : Nat) (g : Session → Session) : (s.modSess i g).sl = s.sl := rfl
@[simp] theorem modSess_hif (i : Nat) (g : Session → Session) : (s.modSess i g).hif = s.hif := rfl
@[simp] theorem modSess_prot (i : Nat) (g : Session → Session) : (s.modSess i g).prot = s.prot := rfl
@[simp] theorem modSess_circ (i : Nat) (g : Session → Session) : (s.modSess i g).circ = s.circ := rfl
@[simp] theorem modSess_mem (i : Nat) (g : Session → Session) : (s.modSess i g).mem = s.mem := rfl
@[simp] theorem modSess_cores (i : Nat) (g : Session → Session) : (s.modSess i g).cores = s.cores := rfl
@[simp] theorem modSess_saves (i : Nat) (g : Session → Session) : (s.modSess i g).saves = s.saves := rfl
@[simp] theorem modSess_agenda (i : Nat) (g : Session → Session) : (s.modSess i g).agenda = s.agenda := rfl
@[simp] theorem modSess_ev (i : Nat) (g : Session → Session) : (s.modSess i g).ev = s.ev := rfl
@[simp] theorem modSess_agent (i : Nat) (g : Session → Session) : (s.modSess i g).agent = s.agent := rfl
@[simp] theorem modSess_cur (i : Nat) (g : Session → Session) : (s.modSess i g).cur = s.cur := rfl
@[simp] theorem modSess_free (i : Nat) (g : Session → Session) : (s.modSess i g).free = s.free := rfl
@[simp] theorem modSess_out (i : Nat) (g : Session → Session) : (s.modSess i g).out = s.out := rfl

@[simp] theorem setEreq_pkg (i : Nat) (r : Option Request) : (s.setEreq i r).pkg = s.pkg := rfl
@[simp] theorem setEreq_flash (i : Nat) (r : Option Request) : (s.setEreq i r).flash = s.flash := rfl
@[simp] theorem setEreq_time (i : Nat) (r : Option Request) : (s.setEreq i r).time = s.time := rfl
@[simp] theorem setEreq_sl (i : Nat) (r : Option Request) : (s.setEreq i r).sl = s.sl := rfl
@[simp] theorem setEreq_hif (i : Nat) (r : Option Request) : (s.setEreq i r).hif = s.hif := rfl
@[simp] theorem setEreq_prot (i : Nat) (r : Option Request) : (s.setEreq i r).prot = s.prot := rfl
@[simp] theorem setEreq_circ (i : Nat) (r : Option Request) : (s.setEreq i r).circ = s.circ := rfl
@[simp] theorem setEreq_mem (i : Nat) (r : Option Request) : (s.setEreq i r).mem = s.mem := rfl
@[simp] theorem setEreq_cores (i : Nat) (r : Option Request) : (s.setEreq i r).cores = s.cores := rfl
@[simp] theorem setEreq_saves (i : Nat) (r : Option Request) : (s.setEreq i r).saves = s.saves := rfl
@[simp] theorem setEreq_agenda (i : Nat) (r : Option Request) : (s.setEreq i r).agenda = s.agenda := rfl
@[simp] theorem setEreq_ev (i : Nat) (r : Option Request) : (s.setEreq i r).ev = s.ev := rfl
@[simp] theorem setEreq_agent (i : Nat) (r : Option Request) : (s.setEreq i r).agent = s.agent := rfl
@[simp] theorem setEreq_cur (i : Nat) (r : Option Request) : (s.setEreq i r).cur = s.cur := rfl
@[simp] theorem setEreq_free (i : Nat) (r : Option Request) : (s.setEreq i r).free = s.free := rfl
@[simp] theorem setEreq_out (i : Nat) (r : Option Request) : (s.setEreq i r).out = s.out := rfl

@[simp] theorem modSlp_pkg (n : Nat) (g : SlPort → SlPort) : (s.modSlp n g).pkg = s.pkg := rfl
@[simp] theorem modSlp_flash (n : Nat) (g : SlPort → SlPort) : (s.modSlp n g).flash = s.flash := rfl
@[simp] theorem modSlp_time (n : Nat) (g : SlPort → SlPort) : (s.modSlp n g).time = s.time := rfl
@[simp] theorem modSlp_eth (n : Nat) (g : SlPort → SlPort) : (s.modSlp n g).eth = s.eth := rfl
@[simp] theorem modSlp_hif (n : Nat) (g : SlPort → SlPort) : (s.modSlp n g).hif = s.hif := rfl
@[simp] theorem modSlp_prot (n : Nat) (g : SlPort → SlPort) : (s.modSlp n g).prot = s.prot := rfl
@[simp] theorem modSlp_circ (n : Nat) (g : SlPort → SlPort) : (s.modSlp n g).circ = s.circ := rfl
@[simp] theorem modSlp_mem (n : Nat) (g : SlPort → SlPort) : (s.modSlp n g).mem = s.mem := rfl
@[simp] theorem modSlp_cores (n : Nat) (g : SlPort → SlPort) : (s.modSlp n g).cores = s.cores := rfl
@[simp] theorem modSlp_saves (n : Nat) (g : SlPort → SlPort) : (s.modSlp n g).saves = s.saves := rfl
@[simp] theorem modSlp_agenda (n : Nat) (g : SlPort → SlPort) : (s.modSlp n g).agenda = s.agenda := rfl
@[simp] theorem modSlp_ev (n : Nat) (g : SlPort → SlPort) : (s.modSlp n g).ev = s.ev := rfl
@[simp] theorem modSlp_agent (n : Nat) (g : SlPort → SlPort) : (s.modSlp n g).agent = s.agent := rfl
@[simp] theorem modSlp_cur (n : Nat) (g : SlPort → SlPort) : (s.modSlp n g).cur = s.cur := rfl
@[simp] theorem modSlp_free (n : Nat) (g : SlPort → SlPort) : (s.modSlp n g).free = s.free := rfl
@[simp] theorem modSlp_out (n : Nat) (g : SlPort → SlPort) : (s.modSlp n g).out = s.out := rfl

@[simp] theorem setLine_pkg (a : Nat) (l : LineState) : (s.setLine a l).pkg = s.pkg := rfl
@[simp] theorem setLine_flash (a : Nat) (l : LineState) : (s.setLine a l).flash = s.flash := rfl
@[simp] theorem setLine_time (a : Nat) (l : LineState) : (s.setLine a l).time = s.time := rfl
@[simp] theorem setLine_eth (a : Nat) (l : LineState) : (s.setLine a l).eth = s.eth := rfl
@[simp] theorem setLine_sl (a : Nat) (l : LineState) : (s.setLine a l).sl = s.sl := rfl
@[simp] theorem setLine_hif (a : Nat) (l : LineState) : (s.setLine a l).hif = s.hif := rfl
@[simp] theorem setLine_prot (a : Nat) (l : LineState) : (s.setLine a l).prot = s.prot := rfl
@[simp] theorem setLine_circ (a : Nat) (l : LineState) : (s.setLine a l).circ = s.circ := rfl
@[simp] theorem setLine_cores (a : Nat) (l : LineState) : (s.setLine a l).cores = s.cores := rfl
@[simp] theorem setLine_saves (a : Nat) (l : LineState) : (s.setLine a l).saves = s.saves := rfl
@[simp] theorem setLine_agenda (a : Nat) (l : LineState) : (s.setLine a l).agenda = s.agenda := rfl
@[simp] theorem setLine_ev (a : Nat) (l : LineState) : (s.setLine a l).ev = s.ev := rfl
@[simp] theorem setLine_agent (a : Nat) (l : LineState) : (s.setLine a l).agent = s.agent := rfl
@[simp] theorem setLine_cur (a : Nat) (l : LineState) : (s.setLine a l).cur = s.cur := rfl
@[simp] theorem setLine_free (a : Nat) (l : LineState) : (s.setLine a l).free = s.free := rfl
@[simp] theorem setLine_out (a : Nat) (l : LineState) : (s.setLine a l).out = s.out := rfl

@[simp] theorem setPhys_pkg (a : Nat) (b : List Byte) : (s.setPhys a b).pkg = s.pkg := rfl
@[simp] theorem setPhys_flash (a : Nat) (b : List Byte) : (s.setPhys a b).flash = s.flash := rfl
@[simp] theorem setPhys_time (a : Nat) (b : List Byte) : (s.setPhys a b).time = s.time := rfl
@[simp] theorem setPhys_eth (a : Nat) (b : List Byte) : (s.setPhys a b).eth = s.eth := rfl
@[simp] theorem setPhys_sl (a : Nat) (b : List Byte) : (s.setPhys a b).sl = s.sl := rfl
@[simp] theorem setPhys_hif (a : Nat) (b : List Byte) : (s.setPhys a b).hif = s.hif := rfl
@[simp] theorem setPhys_prot (a : Nat) (b : List Byte) : (s.setPhys a b).prot = s.prot := rfl
@[simp] theorem setPhys_circ (a : Nat) (b : List Byte) : (s.setPhys a b).circ = s.circ := rfl
@[simp] theorem setPhys_cores (a : Nat) (b : List Byte) : (s.setPhys a b).cores = s.cores := rfl
@[simp] theorem setPhys_saves (a : Nat) (b : List Byte) : (s.setPhys a b).saves = s.saves := rfl
@[simp] theorem setPhys_agenda (a : Nat) (b : List Byte) : (s.setPhys a b).agenda = s.agenda := rfl
@[simp] theorem setPhys_ev (a : Nat) (b : List Byte) : (s.setPhys a b).ev = s.ev := rfl
@[simp] theorem setPhys_agent (a : Nat) (b : List Byte) : (s.setPhys a b).agent = s.agent := rfl
@[simp] theorem setPhys_cur (a : Nat) (b : List Byte) : (s.setPhys a b).cur = s.cur := rfl
@[simp] theorem setPhys_free (a : Nat) (b : List Byte) : (s.setPhys a b).free = s.free := rfl
@[simp] theorem setPhys_out (a : Nat) (b : List Byte) : (s.setPhys a b).out = s.out := rfl

@[simp] theorem setSave_pkg (i : Nat) (x : Option Save) : (s.setSave i x).pkg = s.pkg := rfl
@[simp] theorem setSave_flash (i : Nat) (x : Option Save) : (s.setSave i x).flash = s.flash := rfl
@[simp] theorem setSave_time (i : Nat) (x : Option Save) : (s.setSave i x).time = s.time := rfl
@[simp] theorem setSave_eth (i : Nat) (x : Option Save) : (s.setSave i x).eth = s.eth := rfl
@[simp] theorem setSave_sl (i : Nat) (x : Option Save) : (s.setSave i x).sl = s.sl := rfl
@[simp] theorem setSave_hif (i : Nat) (x : Option Save) : (s.setSave i x).hif = s.hif := rfl
@[simp] theorem setSave_prot (i : Nat) (x : Option Save) : (s.setSave i x).prot = s.prot := rfl
@[simp] theorem setSave_circ (i : Nat) (x : Option Save) : (s.setSave i x).circ = s.circ := rfl
@[simp] theorem setSave_mem (i : Nat) (x : Option Save) : (s.setSave i x).mem = s.mem := rfl
@[simp] theorem setSave_cores (i : Nat) (x : Option Save) : (s.setSave i x).cores = s.cores := rfl
@[simp] theorem setSave_agenda (i : Nat) (x : Option Save) : (s.setSave i x).agenda = s.agenda := rfl
@[simp] theorem setSave_ev (i : Nat) (x : Option Save) : (s.setSave i x).ev = s.ev := rfl
@[simp] theorem setSave_agent (i : Nat) (x : Option Save) : (s.setSave i x).agent = s.agent := rfl
@[simp] theorem setSave_cur (i : Nat) (x : Option Save) : (s.setSave i x).cur = s.cur := rfl
@[simp] theorem setSave_free (i : Nat) (x : Option Save) : (s.setSave i x).free = s.free := rfl
@[simp] theorem setSave_out (i : Nat) (x : Option Save) : (s.setSave i x).out = s.out := rfl

@[simp] theorem setReq_pkg (r : Req) : (s.setReq r).pkg = s.pkg := rfl
@[simp] theorem setReq_flash (r : Req) : (s.setReq r).flash = s.flash := rfl
@[simp] theorem setReq_time (r : Req) : (s.setReq r).time = s.time := rfl
@[simp] theorem setReq_eth (r : Req) : (s.setReq r).eth = s.eth := rfl
@[simp] theorem setReq_sl (r : Req) : (s.setReq r).sl = s.sl := rfl
@[simp] theorem setReq_hif (r : Req) : (s.setReq r).hif = s.hif := rfl
@[simp] theorem setReq_prot (r : Req) : (s.setReq r).prot = s.prot := rfl
@[simp] theorem setReq_circ (r : Req) : (s.setReq r).circ = s.circ := rfl
@[simp] theorem setReq_cores (r : Req) : (s.setReq r).cores = s.cores := rfl
@[simp] theorem setReq_saves (r : Req) : (s.setReq r).saves = s.saves := rfl
@[simp] theorem setReq_agenda (r : Req) : (s.setReq r).agenda = s.agenda := rfl
@[simp] theorem setReq_ev (r : Req) : (s.setReq r).ev = s.ev := rfl
@[simp] theorem setReq_agent (r : Req) : (s.setReq r).agent = s.agent := rfl
@[simp] theorem setReq_cur (r : Req) : (s.setReq r).cur = s.cur := rfl
@[simp] theorem setReq_free (r : Req) : (s.setReq r).free = s.free := rfl
@[simp] theorem setReq_out (r : Req) : (s.setReq r).out = s.out := rfl

@[simp] theorem dropReq_pkg (id : Nat) : (s.dropReq id).pkg = s.pkg := rfl
@[simp] theorem dropReq_flash (id : Nat) : (s.dropReq id).flash = s.flash := rfl
@[simp] theorem dropReq_time (id : Nat) : (s.dropReq id).time = s.time := rfl
@[simp] theorem dropReq_eth (id : Nat) : (s.dropReq id).eth = s.eth := rfl
@[simp] theorem dropReq_sl (id : Nat) : (s.dropReq id).sl = s.sl := rfl
@[simp] theorem dropReq_hif (id : Nat) : (s.dropReq id).hif = s.hif := rfl
@[simp] theorem dropReq_prot (id : Nat) : (s.dropReq id).prot = s.prot := rfl
@[simp] theorem dropReq_circ (id : Nat) : (s.dropReq id).circ = s.circ := rfl
@[simp] theorem dropReq_cores (id : Nat) : (s.dropReq id).cores = s.cores := rfl
@[simp] theorem dropReq_saves (id : Nat) : (s.dropReq id).saves = s.saves := rfl
@[simp] theorem dropReq_agenda (id : Nat) : (s.dropReq id).agenda = s.agenda := rfl
@[simp] theorem dropReq_ev (id : Nat) : (s.dropReq id).ev = s.ev := rfl
@[simp] theorem dropReq_agent (id : Nat) : (s.dropReq id).agent = s.agent := rfl
@[simp] theorem dropReq_cur (id : Nat) : (s.dropReq id).cur = s.cur := rfl
@[simp] theorem dropReq_free (id : Nat) : (s.dropReq id).free = s.free := rfl
@[simp] theorem dropReq_out (id : Nat) : (s.dropReq id).out = s.out := rfl

@[simp] theorem modSt2_pkg (q : Nat) (g : Stage2 → Stage2) : (s.modSt2 q g).pkg = s.pkg := rfl
@[simp] theorem modSt2_flash (q : Nat) (g : Stage2 → Stage2) : (s.modSt2 q g).flash = s.flash := rfl
@[simp] theorem modSt2_time (q : Nat) (g : Stage2 → Stage2) : (s.modSt2 q g).time = s.time := rfl
@[simp] theorem modSt2_eth (q : Nat) (g : Stage2 → Stage2) : (s.modSt2 q g).eth = s.eth := rfl
@[simp] theorem modSt2_sl (q : Nat) (g : Stage2 → Stage2) : (s.modSt2 q g).sl = s.sl := rfl
@[simp] theorem modSt2_prot (q : Nat) (g : Stage2 → Stage2) : (s.modSt2 q g).prot = s.prot := rfl
@[simp] theorem modSt2_circ (q : Nat) (g : Stage2 → Stage2) : (s.modSt2 q g).circ = s.circ := rfl
@[simp] theorem modSt2_mem (q : Nat) (g : Stage2 → Stage2) : (s.modSt2 q g).mem = s.mem := rfl
@[simp] theorem modSt2_cores (q : Nat) (g : Stage2 → Stage2) : (s.modSt2 q g).cores = s.cores := rfl
@[simp] theorem modSt2_saves (q : Nat) (g : Stage2 → Stage2) : (s.modSt2 q g).saves = s.saves := rfl
@[simp] theorem modSt2_agenda (q : Nat) (g : Stage2 → Stage2) : (s.modSt2 q g).agenda = s.agenda := rfl
@[simp] theorem modSt2_ev (q : Nat) (g : Stage2 → Stage2) : (s.modSt2 q g).ev = s.ev := rfl
@[simp] theorem modSt2_agent (q : Nat) (g : Stage2 → Stage2) : (s.modSt2 q g).agent = s.agent := rfl
@[simp] theorem modSt2_cur (q : Nat) (g : Stage2 → Stage2) : (s.modSt2 q g).cur = s.cur := rfl
@[simp] theorem modSt2_free (q : Nat) (g : Stage2 → Stage2) : (s.modSt2 q g).free = s.free := rfl
@[simp] theorem modSt2_out (q : Nat) (g : Stage2 → Stage2) : (s.modSt2 q g).out = s.out := rfl

@[simp] theorem modMq_pkg (m : Nat) (g : Mq → Mq) : (s.modMq m g).pkg = s.pkg := rfl
@[simp] theorem modMq_flash (m : Nat) (g : Mq → Mq) : (s.modMq m g).flash = s.flash := rfl
@[simp] theorem modMq_time (m : Nat) (g : Mq → Mq) : (s.modMq m g).time = s.time := rfl
@[simp] theorem modMq_eth (m : Nat) (g : Mq → Mq) : (s.modMq m g).eth = s.eth := rfl
@[simp] theorem modMq_sl (m : Nat) (g : Mq → Mq) : (s.modMq m g).sl = s.sl := rfl
@[simp] theorem modMq_prot (m : Nat) (g : Mq → Mq) : (s.modMq m g).prot = s.prot := rfl
@[simp] theorem modMq_circ (m : Nat) (g : Mq → Mq) : (s.modMq m g).circ = s.circ := rfl
@[simp] theorem modMq_mem (m : Nat) (g : Mq → Mq) : (s.modMq m g).mem = s.mem := rfl
@[simp] theorem modMq_cores (m : Nat) (g : Mq → Mq) : (s.modMq m g).cores = s.cores := rfl
@[simp] theorem modMq_saves (m : Nat) (g : Mq → Mq) : (s.modMq m g).saves = s.saves := rfl
@[simp] theorem modMq_agenda (m : Nat) (g : Mq → Mq) : (s.modMq m g).agenda = s.agenda := rfl
@[simp] theorem modMq_ev (m : Nat) (g : Mq → Mq) : (s.modMq m g).ev = s.ev := rfl
@[simp] theorem modMq_agent (m : Nat) (g : Mq → Mq) : (s.modMq m g).agent = s.agent := rfl
@[simp] theorem modMq_cur (m : Nat) (g : Mq → Mq) : (s.modMq m g).cur = s.cur := rfl
@[simp] theorem modMq_free (m : Nat) (g : Mq → Mq) : (s.modMq m g).free = s.free := rfl
@[simp] theorem modMq_out (m : Nat) (g : Mq → Mq) : (s.modMq m g).out = s.out := rfl

@[simp] theorem modThread_pkg (t : Nat) (g : PThread → PThread) : (s.modThread t g).pkg = s.pkg := rfl
@[simp] theorem modThread_flash (t : Nat) (g : PThread → PThread) : (s.modThread t g).flash = s.flash := rfl
@[simp] theorem modThread_time (t : Nat) (g : PThread → PThread) : (s.modThread t g).time = s.time := rfl
@[simp] theorem modThread_eth (t : Nat) (g : PThread → PThread) : (s.modThread t g).eth = s.eth := rfl
@[simp] theorem modThread_sl (t : Nat) (g : PThread → PThread) : (s.modThread t g).sl = s.sl := rfl
@[simp] theorem modThread_prot (t : Nat) (g : PThread → PThread) : (s.modThread t g).prot = s.prot := rfl
@[simp] theorem modThread_circ (t : Nat) (g : PThread → PThread) : (s.modThread t g).circ = s.circ := rfl
@[simp] theorem modThread_mem (t : Nat) (g : PThread → PThread) : (s.modThread t g).mem = s.mem := rfl
@[simp] theorem modThread_cores (t : Nat) (g : PThread → PThread) : (s.modThread t g).cores = s.cores := rfl
@[simp] theorem modThread_saves (t : Nat) (g : PThread → PThread) : (s.modThread t g).saves = s.saves := rfl
@[simp] theorem modThread_agenda (t : Nat) (g : PThread → PThread) : (s.modThread t g).agenda = s.agenda := rfl
@[simp] theorem modThread_ev (t : Nat) (g : PThread → PThread) : (s.modThread t g).ev = s.ev := rfl
@[simp] theorem modThread_agent (t : Nat) (g : PThread → PThread) : (s.modThread t g).agent = s.agent := rfl
@[simp] theorem modThread_cur (t : Nat) (g : PThread → PThread) : (s.modThread t g).cur = s.cur := rfl
@[simp] theorem modThread_free (t : Nat) (g : PThread → PThread) : (s.modThread t g).free = s.free := rfl
@[simp] theorem modThread_out (t : Nat) (g : PThread → PThread) : (s.modThread t g).out = s.out := rfl

@[simp] theorem writeBlock_pkg (g : Flash → Flash) : (s.writeBlock g).pkg = s.pkg := rfl
@[simp] theorem writeBlock_time (g : Flash → Flash) : (s.writeBlock g).time = s.time := rfl
@[simp] theorem writeBlock_eth (g : Flash → Flash) : (s.writeBlock g).eth = s.eth := rfl
@[simp] theorem writeBlock_sl (g : Flash → Flash) : (s.writeBlock g).sl = s.sl := rfl
@[simp] theorem writeBlock_hif (g : Flash → Flash) : (s.writeBlock g).hif = s.hif := rfl
@[simp] theorem writeBlock_prot (g : Flash → Flash) : (s.writeBlock g).prot = s.prot := rfl
@[simp] theorem writeBlock_circ (g : Flash → Flash) : (s.writeBlock g).circ = s.circ := rfl
@[simp] theorem writeBlock_mem (g : Flash → Flash) : (s.writeBlock g).mem = s.mem := rfl
@[simp] theorem writeBlock_cores (g : Flash → Flash) : (s.writeBlock g).cores = s.cores := rfl
@[simp] theorem writeBlock_saves (g : Flash → Flash) : (s.writeBlock g).saves = s.saves := rfl
@[simp] theorem writeBlock_agenda (g : Flash → Flash) : (s.writeBlock g).agenda = s.agenda := rfl
@[simp] theorem writeBlock_ev (g : Flash → Flash) : (s.writeBlock g).ev = s.ev := rfl
@[simp] theorem writeBlock_agent (g : Flash → Flash) : (s.writeBlock g).agent = s.agent := rfl
@[simp] theorem writeBlock_cur (g : Flash → Flash) : (s.writeBlock g).cur = s.cur := rfl
@[simp] theorem writeBlock_free (g : Flash → Flash) : (s.writeBlock g).free = s.free := rfl
@[simp] theorem writeBlock_out (g : Flash → Flash) : (s.writeBlock g).out = s.out := rfl

@[simp] theorem countPart_pkg (p k : Nat) : (s.countPart p k).pkg = s.pkg := rfl
@[simp] theorem countPart_flash (p k : Nat) : (s.countPart p k).flash = s.flash := rfl
@[simp] theorem countPart_time (p k : Nat) : (s.countPart p k).time = s.time := rfl
@[simp] theorem countPart_sl (p k : Nat) : (s.countPart p k).sl = s.sl := rfl
@[simp] theorem countPart_hif (p k : Nat) : (s.countPart p k).hif = s.hif := rfl
@[simp] theorem countPart_prot (p k : Nat) : (s.countPart p k).prot = s.prot := rfl
@[simp] theorem countPart_circ (p k : Nat) : (s.countPart p k).circ = s.circ := rfl
@[simp] theorem countPart_mem (p k : Nat) : (s.countPart p k).mem = s.mem := rfl
@[simp] theorem countPart_cores (p k : Nat) : (s.countPart p k).cores = s.cores := rfl
@[simp] theorem countPart_saves (p k : Nat) : (s.countPart p k).saves = s.saves := rfl
@[simp] theorem countPart_agenda (p k : Nat) : (s.countPart p k).agenda = s.agenda := rfl
@[simp] theorem countPart_ev (p k : Nat) : (s.countPart p k).ev = s.ev := rfl
@[simp] theorem countPart_agent (p k : Nat) : (s.countPart p k).agent = s.agent := rfl
@[simp] theorem countPart_cur (p k : Nat) : (s.countPart p k).cur = s.cur := rfl
@[simp] theorem countPart_free (p k : Nat) : (s.countPart p k).free = s.free := rfl
@[simp] theorem countPart_out (p k : Nat) : (s.countPart p k).out = s.out := rfl

@[simp] theorem countPortN_pkg (n k m : Nat) : (s.countPortN n k m).pkg = s.pkg := rfl
@[simp] theorem countPortN_flash (n k m : Nat) : (s.countPortN n k m).flash = s.flash := rfl
@[simp] theorem countPortN_time (n k m : Nat) : (s.countPortN n k m).time = s.time := rfl
@[simp] theorem countPortN_sl (n k m : Nat) : (s.countPortN n k m).sl = s.sl := rfl
@[simp] theorem countPortN_hif (n k m : Nat) : (s.countPortN n k m).hif = s.hif := rfl
@[simp] theorem countPortN_prot (n k m : Nat) : (s.countPortN n k m).prot = s.prot := rfl
@[simp] theorem countPortN_circ (n k m : Nat) : (s.countPortN n k m).circ = s.circ := rfl
@[simp] theorem countPortN_mem (n k m : Nat) : (s.countPortN n k m).mem = s.mem := rfl
@[simp] theorem countPortN_cores (n k m : Nat) : (s.countPortN n k m).cores = s.cores := rfl
@[simp] theorem countPortN_saves (n k m : Nat) : (s.countPortN n k m).saves = s.saves := rfl
@[simp] theorem countPortN_agenda (n k m : Nat) : (s.countPortN n k m).agenda = s.agenda := rfl
@[simp] theorem countPortN_ev (n k m : Nat) : (s.countPortN n k m).ev = s.ev := rfl
@[simp] theorem countPortN_agent (n k m : Nat) : (s.countPortN n k m).agent = s.agent := rfl
@[simp] theorem countPortN_cur (n k m : Nat) : (s.countPortN n k m).cur = s.cur := rfl
@[simp] theorem countPortN_free (n k m : Nat) : (s.countPortN n k m).free = s.free := rfl
@[simp] theorem countPortN_out (n k m : Nat) : (s.countPortN n k m).out = s.out := rfl

@[simp] theorem countSl_pkg (n k x : Nat) : (s.countSl n k x).pkg = s.pkg := rfl
@[simp] theorem countSl_flash (n k x : Nat) : (s.countSl n k x).flash = s.flash := rfl
@[simp] theorem countSl_time (n k x : Nat) : (s.countSl n k x).time = s.time := rfl
@[simp] theorem countSl_eth (n k x : Nat) : (s.countSl n k x).eth = s.eth := rfl
@[simp] theorem countSl_hif (n k x : Nat) : (s.countSl n k x).hif = s.hif := rfl
@[simp] theorem countSl_prot (n k x : Nat) : (s.countSl n k x).prot = s.prot := rfl
@[simp] theorem countSl_circ (n k x : Nat) : (s.countSl n k x).circ = s.circ := rfl
@[simp] theorem countSl_mem (n k x : Nat) : (s.countSl n k x).mem = s.mem := rfl
@[simp] theorem countSl_cores (n k x : Nat) : (s.countSl n k x).cores = s.cores := rfl
@[simp] theorem countSl_saves (n k x : Nat) : (s.countSl n k x).saves = s.saves := rfl
@[simp] theorem countSl_agenda (n k x : Nat) : (s.countSl n k x).agenda = s.agenda := rfl
@[simp] theorem countSl_ev (n k x : Nat) : (s.countSl n k x).ev = s.ev := rfl
@[simp] theorem countSl_agent (n k x : Nat) : (s.countSl n k x).agent = s.agent := rfl
@[simp] theorem countSl_cur (n k x : Nat) : (s.countSl n k x).cur = s.cur := rfl
@[simp] theorem countSl_free (n k x : Nat) : (s.countSl n k x).free = s.free := rfl
@[simp] theorem countSl_out (n k x : Nat) : (s.countSl n k x).out = s.out := rfl

@[simp] theorem draw_pkg : (s.draw).pkg = s.pkg := rfl
@[simp] theorem draw_flash : (s.draw).flash = s.flash := rfl
@[simp] theorem draw_time : (s.draw).time = s.time := rfl
@[simp] theorem draw_eth : (s.draw).eth = s.eth := rfl
@[simp] theorem draw_sl : (s.draw).sl = s.sl := rfl
@[simp] theorem draw_hif : (s.draw).hif = s.hif := rfl
@[simp] theorem draw_prot : (s.draw).prot = s.prot := rfl
@[simp] theorem draw_circ : (s.draw).circ = s.circ := rfl
@[simp] theorem draw_mem : (s.draw).mem = s.mem := rfl
@[simp] theorem draw_cores : (s.draw).cores = s.cores := rfl
@[simp] theorem draw_saves : (s.draw).saves = s.saves := rfl
@[simp] theorem draw_agenda : (s.draw).agenda = s.agenda := rfl
@[simp] theorem draw_ev : (s.draw).ev = s.ev := rfl
@[simp] theorem draw_agent : (s.draw).agent = s.agent := rfl
@[simp] theorem draw_cur : (s.draw).cur = s.cur := rfl
@[simp] theorem draw_out : (s.draw).out = s.out := rfl

@[simp] theorem emit_pkg (o : Output) : (s.emit o).pkg = s.pkg := rfl
@[simp] theorem emit_flash (o : Output) : (s.emit o).flash = s.flash := rfl
@[simp] theorem emit_time (o : Output) : (s.emit o).time = s.time := rfl
@[simp] theorem emit_eth (o : Output) : (s.emit o).eth = s.eth := rfl
@[simp] theorem emit_sl (o : Output) : (s.emit o).sl = s.sl := rfl
@[simp] theorem emit_hif (o : Output) : (s.emit o).hif = s.hif := rfl
@[simp] theorem emit_prot (o : Output) : (s.emit o).prot = s.prot := rfl
@[simp] theorem emit_circ (o : Output) : (s.emit o).circ = s.circ := rfl
@[simp] theorem emit_mem (o : Output) : (s.emit o).mem = s.mem := rfl
@[simp] theorem emit_cores (o : Output) : (s.emit o).cores = s.cores := rfl
@[simp] theorem emit_saves (o : Output) : (s.emit o).saves = s.saves := rfl
@[simp] theorem emit_agenda (o : Output) : (s.emit o).agenda = s.agenda := rfl
@[simp] theorem emit_ev (o : Output) : (s.emit o).ev = s.ev := rfl
@[simp] theorem emit_agent (o : Output) : (s.emit o).agent = s.agent := rfl
@[simp] theorem emit_cur (o : Output) : (s.emit o).cur = s.cur := rfl
@[simp] theorem emit_free (o : Output) : (s.emit o).free = s.free := rfl

@[simp] theorem setSeg_pkg (i : Nat) (e : Segment) : (s.setSeg i e).pkg = s.pkg := by dsimp only [State.setSeg]; split <;> rfl
@[simp] theorem setSeg_flash (i : Nat) (e : Segment) : (s.setSeg i e).flash = s.flash := by dsimp only [State.setSeg]; split <;> rfl
@[simp] theorem setSeg_time (i : Nat) (e : Segment) : (s.setSeg i e).time = s.time := by dsimp only [State.setSeg]; split <;> rfl
@[simp] theorem setSeg_eth (i : Nat) (e : Segment) : (s.setSeg i e).eth = s.eth := by dsimp only [State.setSeg]; split <;> rfl
@[simp] theorem setSeg_sl (i : Nat) (e : Segment) : (s.setSeg i e).sl = s.sl := by dsimp only [State.setSeg]; split <;> rfl
@[simp] theorem setSeg_hif (i : Nat) (e : Segment) : (s.setSeg i e).hif = s.hif := by dsimp only [State.setSeg]; split <;> rfl
@[simp] theorem setSeg_prot (i : Nat) (e : Segment) : (s.setSeg i e).prot = s.prot := by dsimp only [State.setSeg]; split <;> rfl
@[simp] theorem setSeg_circ (i : Nat) (e : Segment) : (s.setSeg i e).circ = s.circ := by dsimp only [State.setSeg]; split <;> rfl
@[simp] theorem setSeg_cores (i : Nat) (e : Segment) : (s.setSeg i e).cores = s.cores := by dsimp only [State.setSeg]; split <;> rfl
@[simp] theorem setSeg_saves (i : Nat) (e : Segment) : (s.setSeg i e).saves = s.saves := by dsimp only [State.setSeg]; split <;> rfl
@[simp] theorem setSeg_agenda (i : Nat) (e : Segment) : (s.setSeg i e).agenda = s.agenda := by dsimp only [State.setSeg]; split <;> rfl
@[simp] theorem setSeg_ev (i : Nat) (e : Segment) : (s.setSeg i e).ev = s.ev := by dsimp only [State.setSeg]; split <;> rfl
@[simp] theorem setSeg_agent (i : Nat) (e : Segment) : (s.setSeg i e).agent = s.agent := by dsimp only [State.setSeg]; split <;> rfl
@[simp] theorem setSeg_cur (i : Nat) (e : Segment) : (s.setSeg i e).cur = s.cur := by dsimp only [State.setSeg]; split <;> rfl
@[simp] theorem setSeg_free (i : Nat) (e : Segment) : (s.setSeg i e).free = s.free := by dsimp only [State.setSeg]; split <;> rfl
@[simp] theorem setSeg_out (i : Nat) (e : Segment) : (s.setSeg i e).out = s.out := by dsimp only [State.setSeg]; split <;> rfl

@[simp] theorem landS_pkg (n r : Nat) (v : Word) : (s.landS n r v).pkg = s.pkg := by unfold State.landS; split <;> rfl
@[simp] theorem landS_flash (n r : Nat) (v : Word) : (s.landS n r v).flash = s.flash := by unfold State.landS; split <;> rfl
@[simp] theorem landS_time (n r : Nat) (v : Word) : (s.landS n r v).time = s.time := by unfold State.landS; split <;> rfl
@[simp] theorem landS_eth (n r : Nat) (v : Word) : (s.landS n r v).eth = s.eth := by unfold State.landS; split <;> rfl
@[simp] theorem landS_sl (n r : Nat) (v : Word) : (s.landS n r v).sl = s.sl := by unfold State.landS; split <;> rfl
@[simp] theorem landS_hif (n r : Nat) (v : Word) : (s.landS n r v).hif = s.hif := by unfold State.landS; split <;> rfl
@[simp] theorem landS_prot (n r : Nat) (v : Word) : (s.landS n r v).prot = s.prot := by unfold State.landS; split <;> rfl
@[simp] theorem landS_circ (n r : Nat) (v : Word) : (s.landS n r v).circ = s.circ := by unfold State.landS; split <;> rfl
@[simp] theorem landS_mem (n r : Nat) (v : Word) : (s.landS n r v).mem = s.mem := by unfold State.landS; split <;> rfl
@[simp] theorem landS_saves (n r : Nat) (v : Word) : (s.landS n r v).saves = s.saves := by unfold State.landS; split <;> rfl
@[simp] theorem landS_agenda (n r : Nat) (v : Word) : (s.landS n r v).agenda = s.agenda := by unfold State.landS; split <;> rfl
@[simp] theorem landS_ev (n r : Nat) (v : Word) : (s.landS n r v).ev = s.ev := by unfold State.landS; split <;> rfl
@[simp] theorem landS_agent (n r : Nat) (v : Word) : (s.landS n r v).agent = s.agent := by unfold State.landS; split <;> rfl
@[simp] theorem landS_cur (n r : Nat) (v : Word) : (s.landS n r v).cur = s.cur := by unfold State.landS; split <;> rfl
@[simp] theorem landS_free (n r : Nat) (v : Word) : (s.landS n r v).free = s.free := by unfold State.landS; split <;> rfl
@[simp] theorem landS_out (n r : Nat) (v : Word) : (s.landS n r v).out = s.out := by unfold State.landS; split <;> rfl

@[simp] theorem modLaunch_pkg (n : Nat) (g : Launch → Launch) : (s.modLaunch n g).pkg = s.pkg := by unfold State.modLaunch; split <;> rfl
@[simp] theorem modLaunch_flash (n : Nat) (g : Launch → Launch) : (s.modLaunch n g).flash = s.flash := by unfold State.modLaunch; split <;> rfl
@[simp] theorem modLaunch_time (n : Nat) (g : Launch → Launch) : (s.modLaunch n g).time = s.time := by unfold State.modLaunch; split <;> rfl
@[simp] theorem modLaunch_eth (n : Nat) (g : Launch → Launch) : (s.modLaunch n g).eth = s.eth := by unfold State.modLaunch; split <;> rfl
@[simp] theorem modLaunch_sl (n : Nat) (g : Launch → Launch) : (s.modLaunch n g).sl = s.sl := by unfold State.modLaunch; split <;> rfl
@[simp] theorem modLaunch_hif (n : Nat) (g : Launch → Launch) : (s.modLaunch n g).hif = s.hif := by unfold State.modLaunch; split <;> rfl
@[simp] theorem modLaunch_prot (n : Nat) (g : Launch → Launch) : (s.modLaunch n g).prot = s.prot := by unfold State.modLaunch; split <;> rfl
@[simp] theorem modLaunch_mem (n : Nat) (g : Launch → Launch) : (s.modLaunch n g).mem = s.mem := by unfold State.modLaunch; split <;> rfl
@[simp] theorem modLaunch_cores (n : Nat) (g : Launch → Launch) : (s.modLaunch n g).cores = s.cores := by unfold State.modLaunch; split <;> rfl
@[simp] theorem modLaunch_saves (n : Nat) (g : Launch → Launch) : (s.modLaunch n g).saves = s.saves := by unfold State.modLaunch; split <;> rfl
@[simp] theorem modLaunch_agenda (n : Nat) (g : Launch → Launch) : (s.modLaunch n g).agenda = s.agenda := by unfold State.modLaunch; split <;> rfl
@[simp] theorem modLaunch_ev (n : Nat) (g : Launch → Launch) : (s.modLaunch n g).ev = s.ev := by unfold State.modLaunch; split <;> rfl
@[simp] theorem modLaunch_agent (n : Nat) (g : Launch → Launch) : (s.modLaunch n g).agent = s.agent := by unfold State.modLaunch; split <;> rfl
@[simp] theorem modLaunch_cur (n : Nat) (g : Launch → Launch) : (s.modLaunch n g).cur = s.cur := by unfold State.modLaunch; split <;> rfl
@[simp] theorem modLaunch_free (n : Nat) (g : Launch → Launch) : (s.modLaunch n g).free = s.free := by unfold State.modLaunch; split <;> rfl
@[simp] theorem modLaunch_out (n : Nat) (g : Launch → Launch) : (s.modLaunch n g).out = s.out := by unfold State.modLaunch; split <;> rfl

/-! What an update writes, and what it leaves beside it. -/

@[simp] theorem core_setCore (c : Nat) (k : CoreSt) : (s.setCore c k).core c = k := get_set_same _ _ _ _

theorem core_setCore_other {c d : Nat} (k : CoreSt) (h : d ≠ c) : (s.setCore c k).core d = s.core d := get_set_other _ _ _ _ h

@[simp] theorem core_modCore (c : Nat) (g : CoreSt → CoreSt) : (s.modCore c g).core c = g (s.core c) := get_set_same _ _ _ _

theorem core_modCore_other {c d : Nat} (g : CoreSt → CoreSt) (h : d ≠ c) : (s.modCore c g).core d = s.core d := get_set_other _ _ _ _ h

@[simp] theorem th_modTh (g : Thread → Thread) : (s.modTh g).th = g s.th := by simp [State.modTh, State.th]

@[simp] theorem ctx_modTh (g : Thread → Thread) : (s.modTh g).ctx = s.ctx := by simp [State.modTh, State.ctx]

@[simp] theorem ctx_modCtx (g : CoreCtx → CoreCtx) : (s.modCtx g).ctx = g s.ctx := by simp [State.modCtx, State.ctx]

@[simp] theorem th_modCtx (g : CoreCtx → CoreCtx) : (s.modCtx g).th = s.th := by simp [State.modCtx, State.th]

@[simp] theorem core_modTh (g : Thread → Thread) : (s.modTh g).core s.cur = { s.core s.cur with th := g s.th } := by
  simp [State.modTh, State.th]

theorem core_modTh_other (g : Thread → Thread) {d : Nat} (h : d ≠ s.cur) : (s.modTh g).core d = s.core d := core_modCore_other s _ h

@[simp] theorem core_modCtx (g : CoreCtx → CoreCtx) : (s.modCtx g).core s.cur = { s.core s.cur with ctx := g s.ctx } := by
  simp [State.modCtx, State.ctx]

theorem core_modCtx_other (g : CoreCtx → CoreCtx) {d : Nat} (h : d ≠ s.cur) : (s.modCtx g).core d = s.core d := core_modCore_other s _ h

@[simp] theorem launchAt_setLaunch (n : Nat) (l : Option Launch) : (s.setLaunch n l).launchAt n = l := get_set_same _ _ _ _

theorem launchAt_setLaunch_other {n m : Nat} (l : Option Launch) (h : m ≠ n) : (s.setLaunch n l).launchAt m = s.launchAt m :=
  get_set_other _ _ _ _ h

@[simp] theorem line_setLine (a : Nat) (l : LineState) : (s.setLine a l).line a = l := get_set_same _ _ _ _

theorem line_setLine_other {a b : Nat} (l : LineState) (h : b / 128 ≠ a / 128) : (s.setLine a l).line b = s.line b :=
  get_set_other _ _ _ _ h

@[simp] theorem setLine_bytes (a : Nat) (l : LineState) : (s.setLine a l).mem.bytes = s.mem.bytes := rfl

@[simp] theorem setPhys_bytes (a : Nat) (b : List Byte) : (s.setPhys a b).mem.bytes = Memory.writeN s.mem.bytes a b := rfl

@[simp] theorem setPhys_lines (a : Nat) (b : List Byte) : (s.setPhys a b).mem.lines = s.mem.lines := rfl

theorem phys_setPhys (a : Nat) (b : List Byte) : (s.setPhys a b).phys a b.length = b := readN_writeN _ _ _

theorem phys_setPhys_other (a c n : Nat) (b : List Byte) (h : c + n ≤ a ∨ a + b.length ≤ c) : (s.setPhys a b).phys c n = s.phys c n :=
  readN_writeN_other _ _ _ _ _ h

/-- A store to memory keeps its canonical form. -/
theorem wf_setPhys (a : Nat) (b : List Byte) (h : Memory.wf s.mem.bytes = true) : Memory.wf (s.setPhys a b).mem.bytes = true :=
  wf_writeN a b h

@[simp] theorem port_modPort (n : Nat) (g : EthPort → EthPort) : (s.modPort n g).port n = g (s.port n) := get_set_same _ _ _ _

@[simp] theorem sess_modSess (i : Nat) (g : Session → Session) : (s.modSess i g).sess i = g (s.sess i) := get_set_same _ _ _ _

@[simp] theorem slp_modSlp (n : Nat) (g : SlPort → SlPort) : (s.modSlp n g).slp n = g (s.slp n) := get_set_same _ _ _ _

@[simp] theorem seg_setSeg (i : Nat) (e : Segment) : (s.setSeg i e).seg i = e := by
  dsimp only [State.setSeg]; split <;> exact get_set_same _ _ _ _

@[simp] theorem st2_modSt2 (q : Nat) (g : Stage2 → Stage2) : (s.modSt2 q g).st2 q = g (s.st2 q) := get_set_same _ _ _ _

@[simp] theorem mq_modMq (m : Nat) (g : Mq → Mq) : (s.modMq m g).mq m = g (s.mq m) := get_set_same _ _ _ _

@[simp] theorem thread_modThread (t : Nat) (g : PThread → PThread) : (s.modThread t g).thread t = g (s.thread t) := get_set_same _ _ _ _

@[simp] theorem fn_modFn (v : Nat) (g : FnRegs → FnRegs) : (s.modFn v g).fn v = g (s.fn v) := get_set_same _ _ _ _

@[simp] theorem keySlotAt_setKeySlot (k : Nat) (x : KeySlot) : (s.setKeySlot k x).keySlotAt k = x := get_set_same _ _ _ _

end Sys2Proof.Laws
end

