-- ==== Sys2Proof/Laws/Ops.lean ====
section
/-! SUPPORT. Laws/Ops.lean: what each shared operation can do, said once: results, legality, traps, the end of a launch. -/
namespace Sys2Proof.Laws

open Sys2Proof.Machine

/-! Exposed results. -/

/-- What `land` does to a thread: one more result in flight. -/
theorem land_eq (th : Thread) (n : Nat) (d : Option Reg) (v m : BitVec 2048) (x : BitVec 7) :
    th.land n d v m x = { th with inflight := th.inflight ++
      [{ due := th.cycle + n - 1, bundle := th.bundles, dst := d, val := v, mask := m, flags := x }] } := rfl

@[simp] theorem land_s (th : Thread) (n : Nat) (d : Option Reg) (v m : BitVec 2048) (x : BitVec 7) : (th.land n d v m x).s = th.s := rfl
@[simp] theorem land_v (th : Thread) (n : Nat) (d : Option Reg) (v m : BitVec 2048) (x : BitVec 7) : (th.land n d v m x).v = th.v := rfl
@[simp] theorem land_q (th : Thread) (n : Nat) (d : Option Reg) (v m : BitVec 2048) (x : BitVec 7) : (th.land n d v m x).q = th.q := rfl
@[simp] theorem land_z (th : Thread) (n : Nat) (d : Option Reg) (v m : BitVec 2048) (x : BitVec 7) : (th.land n d v m x).z = th.z := rfl
@[simp] theorem land_trapped (th : Thread) (n : Nat) (d : Option Reg) (v m : BitVec 2048) (x : BitVec 7) :
    (th.land n d v m x).trapped = th.trapped := rfl

/-- A result for s0 is discarded. -/
@[simp] theorem landS_zero (s : State) (n : Nat) (v : Word) : s.landS n 0 v = s := by simp [State.landS]

/-- A scalar result: nothing but the thread changes, by one result in flight. -/
theorem landS_ne (s : State) (n : Nat) {r : Nat} (v : Word) (h : r ≠ 0) :
    s.landS n r v = s.modTh fun th => th.land n (some (.s r)) (v.setWidth 2048) (lowMask 64) 0 := by simp [State.landS, h]

/-- The group results change nothing but results in flight. -/
theorem landVg_frame (th : Thread) (n : Nat) (rs : List Nat) (vs ms : List VWord) (x : BitVec 7) :
    ∃ l, th.landVg n rs vs ms x = { th with inflight := th.inflight ++ l } ∧ ∀ e, e ∈ l → ∃ r, r ∈ rs ∧ e.dst = some (.v r) := by
  induction rs generalizing th n vs ms with
  | nil => exact ⟨[], by simp [Thread.landVg], by simp⟩
  | cons r rs ih =>
    cases vs with
    | nil => exact ⟨[], by simp [Thread.landVg], by simp⟩
    | cons v vs =>
      cases ms with
      | nil => exact ⟨[], by simp [Thread.landVg], by simp⟩
      | cons m ms =>
        obtain ⟨l, h1, h2⟩ := ih (th.land n (some (.v r)) v m (if rs.isEmpty then x else 0)) (n + 1) vs ms
        refine ⟨{ due := th.cycle + n - 1, bundle := th.bundles, dst := some (.v r), val := v, mask := m,
                  flags := if rs.isEmpty then x else 0 } :: l, ?_, ?_⟩
        · unfold Thread.landVg; rw [h1, land_eq]; simp
        · intro e he
          simp only [List.mem_cons] at he
          rcases he with rfl | he
          · exact ⟨r, by simp, rfl⟩
          · obtain ⟨q, hq, hd⟩ := h2 e he; exact ⟨q, by simp [hq], hd⟩

/-- Writing a register and reading it back under a full mask. -/
theorem rS_zero (th : Thread) : th.rS 0 = 0 := by simp [Thread.rS]

theorem rQ_zero (th : Thread) : th.rQ 0 = ones 256 := by simp [Thread.rQ]

/-- A write to one scalar register leaves the others. -/
theorem rS_putReg_other (th : Thread) {n m : Nat} (v k : BitVec 2048) (h : m ≠ n) : (th.putReg (.s n) v k).rS m = th.rS m := by
  simp only [Thread.putReg, Thread.rS]
  by_cases hn : n = 0
  · simp [hn]
  · simp only [hn, if_false, SMap.upd]
    rw [get_set_other _ _ _ _ h]

/-! Legality. -/

theorem checked_legal {y : Syll} {s : State} {k : State → Res} (h : (y.fits && y.legal) = true) : checked y s k = k s := by
  simp [checked, h]

theorem checked_illegal {y : Syll} {s : State} {k : State → Res} (h : ¬ (y.fits && y.legal) = true) :
    checked y s k = .next (trapAt 0x0001 y.detail 0 15 s) := by
  simp [checked, h, illop, trap]

/-- A checked syllable answers what its effect answers, or traps. -/
theorem checked_cases (y : Syll) (s : State) (k : State → Res) : checked y s k = k s ∨ checked y s k = .next (trapAt 0x0001 y.detail 0 15 s) := by
  by_cases h : (y.fits && y.legal) = true
  · exact .inl (checked_legal h)
  · exact .inr (checked_illegal h)

/-! Traps and the end of a launch. -/

/-- Stopping the engines of one core of a launch. -/
theorem foldl_modCore_frame (p : State → Nat → Bool) (g : CoreSt → CoreSt) (hg : ∀ k, (g k).th = k.th ∧ (g k).spad = k.spad ∧ (g k).acc = k.acc)
    (cs : List Nat) (s : State) :
    let t := cs.foldl (fun s c => if p s c = true then s.modCore c g else s) s
    t = { s with cores := t.cores } ∧
      ∀ d, (t.core d).th = (s.core d).th ∧ (t.core d).spad = (s.core d).spad ∧ (t.core d).acc = (s.core d).acc := by
  induction cs generalizing s with
  | nil => exact ⟨rfl, fun d => ⟨rfl, rfl, rfl⟩⟩
  | cons c cs ih =>
    have key : ∀ u : State, u = { s with cores := u.cores } →
        (∀ d, (u.core d).th = (s.core d).th ∧ (u.core d).spad = (s.core d).spad ∧ (u.core d).acc = (s.core d).acc) →
        let t := cs.foldl (fun s c => if p s c = true then s.modCore c g else s) u
        t = { s with cores := t.cores } ∧
          ∀ d, (t.core d).th = (s.core d).th ∧ (t.core d).spad = (s.core d).spad ∧ (t.core d).acc = (s.core d).acc := by
      intro u hu hd
      obtain ⟨h1, h2⟩ := ih u
      refine ⟨?_, fun d => ?_⟩
      · rw [h1, hu]
      · obtain ⟨a, b, c⟩ := h2 d; obtain ⟨a', b', c'⟩ := hd d; exact ⟨a.trans a', b.trans b', c.trans c'⟩
    simp only [List.foldl_cons]
    by_cases hp : p s c = true
    · rw [if_pos hp]
      refine key _ rfl fun d => ?_
      by_cases hd : d = c
      · subst hd; rw [core_modCore]; exact hg _
      · rw [core_modCore_other _ _ hd]; exact ⟨rfl, rfl, rfl⟩
    · rw [if_neg hp]
      exact key s rfl fun d => ⟨rfl, rfl, rfl⟩

/-- What the end of a launch can change: the launch table, and the engine queues of cores; no register, no scratchpad, no memory. -/
theorem endLaunch_frame (n cause : Nat) (w : Option Nat) (s : State) :
    let t := endLaunch n cause w s
    t = { s with cores := t.cores, circ := t.circ } ∧
      ∀ d, (t.core d).th = (s.core d).th ∧ (t.core d).spad = (s.core d).spad ∧ (t.core d).acc = (s.core d).acc := by
  simp only [endLaunch]
  split
  · exact ⟨rfl, fun d => ⟨rfl, rfl, rfl⟩⟩
  · obtain ⟨h1, h2⟩ := foldl_modCore_frame (fun s c => (s.core c).launch == some n)
      (fun k => { k with ctx := { k.ctx with copyq := [], streamq := [], fabricq := [], cipherq := [], heldLate := [], freeing := [] } })
      (fun k => ⟨rfl, rfl, rfl⟩) _ (s.setLaunch n (some _))
    exact ⟨by rw [h1]; rfl, h2⟩

/-- With a handler, out of a handler and in a class of 0 to 4, a trap enters the handler and changes the thread alone. -/
theorem trapAt_enters (cause detail tva path : Nat) (s : State)
    (h : (s.launch.record.trapv != 0 && !s.th.th && decide (causeClass cause ≤ 4)) = true) :
    trapAt cause detail tva path s = s.modTh fun th =>
      (th.record { cause := cause, slot := s.th.slot, path := path, detail := detail, tva := tva, origin := s.th.bpc } s.th.bpc s.th.slot
        s.time.toNat).enterHandler s.launch.record.trapv := by
  unfold trapAt takeTrap
  exact if_pos h

/-- Otherwise it ends the launch, its registers holding the trap. -/
theorem trapAt_ends (cause detail tva path : Nat) (s : State)
    (h : ¬ (s.launch.record.trapv != 0 && !s.th.th && decide (causeClass cause ≤ 4)) = true) :
    trapAt cause detail tva path s = endLaunch s.slotNo cause (some s.strandNo) (s.modTh fun th =>
      { th.record { cause := cause, slot := s.th.slot, path := path, detail := detail, tva := tva, origin := s.th.bpc } s.th.bpc s.th.slot
          s.time.toNat with trapped := true }) := by
  unfold trapAt takeTrap
  exact if_neg h

/-- FRAME of every trap: cores and the launch table alone change, of the cores no scratchpad and no accumulator. -/
theorem trapAt_frame (cause detail tva path : Nat) (s : State) :
    let t := trapAt cause detail tva path s
    t = { s with cores := t.cores, circ := t.circ } ∧ ∀ d, (t.core d).spad = (s.core d).spad ∧ (t.core d).acc = (s.core d).acc := by
  intro t
  have hm : ∀ (g : Thread → Thread) (d : Nat), ((s.modTh g).core d).spad = (s.core d).spad ∧ ((s.modTh g).core d).acc = (s.core d).acc := by
    intro g d
    by_cases hd : d = s.cur
    · subst hd; rw [core_modTh]; exact ⟨rfl, rfl⟩
    · rw [core_modTh_other _ _ hd]; exact ⟨rfl, rfl⟩
  by_cases h : (s.launch.record.trapv != 0 && !s.th.th && decide (causeClass cause ≤ 4)) = true
  · have e : t = _ := trapAt_enters cause detail tva path s h
    rw [e]
    exact ⟨rfl, hm _⟩
  · have e : t = _ := trapAt_ends cause detail tva path s h
    obtain ⟨h1, h2⟩ := endLaunch_frame s.slotNo cause (some s.strandNo) (s.modTh fun th =>
      { th.record { cause := cause, slot := s.th.slot, path := path, detail := detail, tva := tva, origin := s.th.bpc } s.th.bpc s.th.slot
          s.time.toNat with trapped := true })
    rw [e]
    refine ⟨by rw [h1]; rfl, fun d => ?_⟩
    obtain ⟨_, b, c⟩ := h2 d
    obtain ⟨b', c'⟩ := hm _ d
    exact ⟨b.trans b', c.trans c'⟩

/-- A trap leaves memory alone. -/
theorem trapAt_mem (cause detail tva path : Nat) (s : State) : (trapAt cause detail tva path s).mem = s.mem := by
  rw [(trapAt_frame cause detail tva path s).1]

end Sys2Proof.Laws
end

