-- ==== Sys2Proof/Laws/Events.lean ====
section
/-! SUPPORT. Laws/Events.lean: what the shared operations behind the events can do, said once: late faults, translation caches, vectors, the
replay-protected block, corrections of TIME, requests for a reset. -/
namespace Sys2Proof.Laws

open Sys2Proof.Machine

/-! Late faults (11 R316 R320). -/

/-- The reported faults are the old ones and the new one. -/
theorem perm_insertLate (l : List TrapInfo) (t : TrapInfo) : (insertLate l t).Perm (t :: l) := by
  induction l with
  | nil => exact .refl _
  | cons e r ih =>
    unfold insertLate; split
    · exact .refl _
    · exact (ih.cons e).trans (.swap t e r)

@[simp] theorem mem_insertLate (l : List TrapInfo) (t x : TrapInfo) : x ∈ insertLate l t ↔ x = t ∨ x ∈ l :=
  (perm_insertLate l t).mem_iff.trans List.mem_cons

@[simp] theorem length_insertLate (l : List TrapInfo) (t : TrapInfo) : (insertLate l t).length = l.length + 1 :=
  (perm_insertLate l t).length_eq

/-- A report touches one core, and of it only the faults that wait. -/
theorem reportLate_other (s : State) (c : Nat) (t : TrapInfo) {d : Nat} (h : d ≠ c) : (s.reportLate c t).core d = s.core d :=
  core_modCore_other s _ h

/-! Translation caches and the data cache (08 R215 R224). -/

/-- After an invalidation no entry of the tag is left, and every other one is. -/
@[simp] theorem mem_tlbFlush (s : State) (tag : Nat) (e : TlbEntry) : e ∈ (s.tlbFlush tag).mem.tlb ↔ e ∈ s.mem.tlb ∧ e.tag ≠ tag := by
  simp [State.tlbFlush]

@[simp] theorem tlbFlush_bytes (s : State) (tag : Nat) : (s.tlbFlush tag).mem.bytes = s.mem.bytes := rfl

@[simp] theorem tlbFlush_cores (s : State) (tag : Nat) : (s.tlbFlush tag).cores = s.cores := rfl

/-- Keeping a translation changes the translation caches alone. -/
theorem tlbFill_frame (s : State) (w : Who) (va : Nat) : s.tlbFill w va = { s with mem := { s.mem with tlb := (s.tlbFill w va).mem.tlb } } := by
  unfold State.tlbFill
  split
  · split
    · rfl
    · split <;> rfl
  · rfl

/-! Interrupt vectors (04 R98). -/

/-- A vector beyond the table does nothing, a masked one pends, another leaves when the function may send. -/
theorem raiseVector_cases (s : State) (v n : Nat) :
    s.raiseVector v n = s ∨ s.raiseVector v n = s.modFn v (fun r => { r with pba := withElem r.pba n }) ∨
      s.raiseVector v n = s.emit (.msix v n) := by
  unfold State.raiseVector
  split
  · exact .inl rfl
  · split
    · exact .inr (.inl rfl)
    · split
      · exact .inr (.inr rfl)
      · exact .inl rfl

/-! The replay-protected block and resets (01 R29 R30). -/

/-- A write increases the counter, and the block that it leaves is authentic. -/
theorem write_authentic (f : Flash) (g : Flash → Flash) : (f.write g).writes = f.writes + 1 ∧ (f.write g).authentic = true :=
  ⟨rfl, by simp only [Flash.write, Flash.authentic]; exact beq_self_eq_true _⟩

/-- A request of a reset is a warm reset or nothing. -/
theorem askReset_cases (s : State) : s.askReset = s.warm ∨ s.askReset = s := by
  unfold State.askReset; split
  · exact .inl rfl
  · exact .inr rfl

end Sys2Proof.Laws
end

