-- ==== Sys2Proof/Laws/PerInstr.lean ====
section
/-! SUPPORT. Laws/PerInstr.lean: statements about every instruction as syntax, one lemma per constructor. -/
namespace Sys2Proof.Laws

open Sys2Proof.Machine

/-- The instruction that the opcode maps give for a syllable's op value and fields. -/
def rebuild (y : Syll) : Option Instr :=
  match y with
  | .sa op f => opSA op f
  | .sb op f => opSB op f
  | .sc op f => opSC op f
  | .v op f => opV op f
  | .m op f => opM op f
  | .l op f => opL op f
  | .w op f => opW op f
  | .c op f => opC op f
  | .yf op f => opYF op f
  | .yp op f => opYP op f
  | .yh op f => opYH op f
  | .yb op f => opYB op f
  | .yg op f => opYG op f
  | .ya op f => opYA op f
  | .ye op f => opYE op f
  | .yr op f => opYR op f
  | .k op f => opK op f
  | .z op f => opZ op f
  | .rv op f => match op with
    | 0 => some (.pwait f)
    | 1 => some (.ppost f)
    | 2 => some (.ptid f)
    | _ => none

/-- The opcode maps give an instruction back from its own op value and fields; an event has no encoding. -/
def Encoding.Statement (i : Instr) : Prop :=
  variantOk i = true →
    match syllOf i with
    | some y => rebuild y = some i
    | none => slotOf i = none ∧ encode i = 0

theorem Encoding.resetNRelease : Encoding.Statement .resetNRelease := fun _ => ⟨rfl, rfl⟩
theorem Encoding.powerLoss : Encoding.Statement .powerLoss := fun _ => ⟨rfl, rfl⟩
theorem Encoding.stagePower : Encoding.Statement .stagePower := fun _ => ⟨rfl, rfl⟩
theorem Encoding.stageRom : Encoding.Statement .stageRom := fun _ => ⟨rfl, rfl⟩
theorem Encoding.stageFw : Encoding.Statement .stageFw := fun _ => ⟨rfl, rfl⟩
theorem Encoding.stageCfg : Encoding.Statement .stageCfg := fun _ => ⟨rfl, rfl⟩
theorem Encoding.stageClocks : Encoding.Statement .stageClocks := fun _ => ⟨rfl, rfl⟩
theorem Encoding.stageHbm : Encoding.Statement .stageHbm := fun _ => ⟨rfl, rfl⟩
theorem Encoding.stageScrub : Encoding.Statement .stageScrub := fun _ => ⟨rfl, rfl⟩
theorem Encoding.stageTimeout : Encoding.Statement .stageTimeout := fun _ => ⟨rfl, rfl⟩
theorem Encoding.startWatchdog : Encoding.Statement .startWatchdog := fun _ => ⟨rfl, rfl⟩
theorem Encoding.warmReset : Encoding.Statement .warmReset := fun _ => ⟨rfl, rfl⟩
theorem Encoding.pkgResetWrite : Encoding.Statement .pkgResetWrite := fun _ => ⟨rfl, rfl⟩
theorem Encoding.powerEstimate : Encoding.Statement .powerEstimate := fun _ => ⟨rfl, rfl⟩
theorem Encoding.sweepEnd : Encoding.Statement .sweepEnd := fun _ => ⟨rfl, rfl⟩
theorem Encoding.hbmRefreshBoundary : Encoding.Statement .hbmRefreshBoundary := fun _ => ⟨rfl, rfl⟩
theorem Encoding.correctableError : Encoding.Statement .correctableError := fun _ => ⟨rfl, rfl⟩
theorem Encoding.freezeEnd : Encoding.Statement .freezeEnd := fun _ => ⟨rfl, rfl⟩
theorem Encoding.uncorrectableError : Encoding.Statement .uncorrectableError := fun _ => ⟨rfl, rfl⟩
theorem Encoding.pcieConfigRequest : Encoding.Statement .pcieConfigRequest := fun _ => ⟨rfl, rfl⟩
theorem Encoding.pcieHotReset : Encoding.Statement .pcieHotReset := fun _ => ⟨rfl, rfl⟩
theorem Encoding.vfFlr : Encoding.Statement .vfFlr := fun _ => ⟨rfl, rfl⟩
theorem Encoding.pcieLinkUp : Encoding.Statement .pcieLinkUp := fun _ => ⟨rfl, rfl⟩
theorem Encoding.doeDiscovery : Encoding.Statement .doeDiscovery := fun _ => ⟨rfl, rfl⟩
theorem Encoding.getVersion : Encoding.Statement .getVersion := fun _ => ⟨rfl, rfl⟩
theorem Encoding.getCapabilities : Encoding.Statement .getCapabilities := fun _ => ⟨rfl, rfl⟩
theorem Encoding.negotiateAlgorithms : Encoding.Statement .negotiateAlgorithms := fun _ => ⟨rfl, rfl⟩
theorem Encoding.getDigests : Encoding.Statement .getDigests := fun _ => ⟨rfl, rfl⟩
theorem Encoding.getCertificate : Encoding.Statement .getCertificate := fun _ => ⟨rfl, rfl⟩
theorem Encoding.challenge : Encoding.Statement .challenge := fun _ => ⟨rfl, rfl⟩
theorem Encoding.getMeasurements : Encoding.Statement .getMeasurements := fun _ => ⟨rfl, rfl⟩
theorem Encoding.keyExchange : Encoding.Statement .keyExchange := fun _ => ⟨rfl, rfl⟩
theorem Encoding.finish : Encoding.Statement .finish := fun _ => ⟨rfl, rfl⟩
theorem Encoding.spdmHeartbeat : Encoding.Statement .spdmHeartbeat := fun _ => ⟨rfl, rfl⟩
theorem Encoding.keyUpdate : Encoding.Statement .keyUpdate := fun _ => ⟨rfl, rfl⟩
theorem Encoding.endSession : Encoding.Statement .endSession := fun _ => ⟨rfl, rfl⟩
theorem Encoding.chunkSend : Encoding.Statement .chunkSend := fun _ => ⟨rfl, rfl⟩
theorem Encoding.chunkGet : Encoding.Statement .chunkGet := fun _ => ⟨rfl, rfl⟩
theorem Encoding.doorbell : Encoding.Statement .doorbell := fun _ => ⟨rfl, rfl⟩
theorem Encoding.queueLoad : Encoding.Statement .queueLoad := fun _ => ⟨rfl, rfl⟩
theorem Encoding.launch : Encoding.Statement .launch := fun _ => ⟨rfl, rfl⟩
theorem Encoding.catalogSet : Encoding.Statement .catalogSet := fun _ => ⟨rfl, rfl⟩
theorem Encoding.catalogDel : Encoding.Statement .catalogDel := fun _ => ⟨rfl, rfl⟩
theorem Encoding.mcbWrite : Encoding.Statement .mcbWrite := fun _ => ⟨rfl, rfl⟩
theorem Encoding.copyIn : Encoding.Statement .copyIn := fun _ => ⟨rfl, rfl⟩
theorem Encoding.copyOut : Encoding.Statement .copyOut := fun _ => ⟨rfl, rfl⟩
theorem Encoding.keyImport : Encoding.Statement .keyImport := fun _ => ⟨rfl, rfl⟩
theorem Encoding.nop : Encoding.Statement .nop := fun _ => ⟨rfl, rfl⟩
theorem Encoding.queueBind : Encoding.Statement .queueBind := fun _ => ⟨rfl, rfl⟩
theorem Encoding.queueUnbind : Encoding.Statement .queueUnbind := fun _ => ⟨rfl, rfl⟩
theorem Encoding.vfSetup : Encoding.Statement .vfSetup := fun _ => ⟨rfl, rfl⟩
theorem Encoding.partitionDefine : Encoding.Statement .partitionDefine := fun _ => ⟨rfl, rfl⟩
theorem Encoding.partitionWithdraw : Encoding.Statement .partitionWithdraw := fun _ => ⟨rfl, rfl⟩
theorem Encoding.fwStage : Encoding.Statement .fwStage := fun _ => ⟨rfl, rfl⟩
theorem Encoding.fwActivateLive : Encoding.Statement .fwActivateLive := fun _ => ⟨rfl, rfl⟩
theorem Encoding.fwActivateNextStart : Encoding.Statement .fwActivateNextStart := fun _ => ⟨rfl, rfl⟩
theorem Encoding.fwNewImageStart : Encoding.Statement .fwNewImageStart := fun _ => ⟨rfl, rfl⟩
theorem Encoding.fwActivateWatchdog : Encoding.Statement .fwActivateWatchdog := fun _ => ⟨rfl, rfl⟩
theorem Encoding.recover : Encoding.Statement .recover := fun _ => ⟨rfl, rfl⟩
theorem Encoding.opkeyEnrol : Encoding.Statement .opkeyEnrol := fun _ => ⟨rfl, rfl⟩
theorem Encoding.interruptWindowExpiry : Encoding.Statement .interruptWindowExpiry := fun _ => ⟨rfl, rfl⟩
theorem Encoding.bucketTick : Encoding.Statement .bucketTick := fun _ => ⟨rfl, rfl⟩
theorem Encoding.fnEvheadWrite : Encoding.Statement .fnEvheadWrite := fun _ => ⟨rfl, rfl⟩
theorem Encoding.counterRead : Encoding.Statement .counterRead := fun _ => ⟨rfl, rfl⟩
theorem Encoding.ethPctlWrite : Encoding.Statement .ethPctlWrite := fun _ => ⟨rfl, rfl⟩
theorem Encoding.slPctlWrite : Encoding.Statement .slPctlWrite := fun _ => ⟨rfl, rfl⟩
theorem Encoding.chpTmarkWrite : Encoding.Statement .chpTmarkWrite := fun _ => ⟨rfl, rfl⟩
theorem Encoding.registerWrite : Encoding.Statement .registerWrite := fun _ => ⟨rfl, rfl⟩
theorem Encoding.ethLinkChange : Encoding.Statement .ethLinkChange := fun _ => ⟨rfl, rfl⟩
theorem Encoding.frameReceive : Encoding.Statement .frameReceive := fun _ => ⟨rfl, rfl⟩
theorem Encoding.slowPathFrame : Encoding.Statement .slowPathFrame := fun _ => ⟨rfl, rfl⟩
theorem Encoding.hello : Encoding.Statement .hello := fun _ => ⟨rfl, rfl⟩
theorem Encoding.confirm : Encoding.Statement .confirm := fun _ => ⟨rfl, rfl⟩
theorem Encoding.request : Encoding.Statement .request := fun _ => ⟨rfl, rfl⟩
theorem Encoding.heartbeat : Encoding.Statement .heartbeat := fun _ => ⟨rfl, rfl⟩
theorem Encoding.close : Encoding.Statement .close := fun _ => ⟨rfl, rfl⟩
theorem Encoding.certreq : Encoding.Statement .certreq := fun _ => ⟨rfl, rfl⟩
theorem Encoding.sessionLapseTimeout : Encoding.Statement .sessionLapseTimeout := fun _ => ⟨rfl, rfl⟩
theorem Encoding.halfTimeout : Encoding.Statement .halfTimeout := fun _ => ⟨rfl, rfl⟩
theorem Encoding.reassemblyTimeout : Encoding.Statement .reassemblyTimeout := fun _ => ⟨rfl, rfl⟩
theorem Encoding.laneFailure : Encoding.Statement .laneFailure := fun _ => ⟨rfl, rfl⟩
theorem Encoding.linkReplay : Encoding.Statement .linkReplay := fun _ => ⟨rfl, rfl⟩
theorem Encoding.livenessTimeout : Encoding.Statement .livenessTimeout := fun _ => ⟨rfl, rfl⟩
theorem Encoding.creditFlit : Encoding.Statement .creditFlit := fun _ => ⟨rfl, rfl⟩
theorem Encoding.stalldropTimeout : Encoding.Statement .stalldropTimeout := fun _ => ⟨rfl, rfl⟩
theorem Encoding.fabricResponseTimeout : Encoding.Statement .fabricResponseTimeout := fun _ => ⟨rfl, rfl⟩
theorem Encoding.csendCreditTimeout : Encoding.Statement .csendCreditTimeout := fun _ => ⟨rfl, rfl⟩
theorem Encoding.fabWrite : Encoding.Statement .fabWrite := fun _ => ⟨rfl, rfl⟩
theorem Encoding.fabRead : Encoding.Statement .fabRead := fun _ => ⟨rfl, rfl⟩
theorem Encoding.fabReadResp : Encoding.Statement .fabReadResp := fun _ => ⟨rfl, rfl⟩
theorem Encoding.fabWriteAck : Encoding.Statement .fabWriteAck := fun _ => ⟨rfl, rfl⟩
theorem Encoding.fabSend : Encoding.Statement .fabSend := fun _ => ⟨rfl, rfl⟩
theorem Encoding.fabRecvCred : Encoding.Statement .fabRecvCred := fun _ => ⟨rfl, rfl⟩
theorem Encoding.fabColl : Encoding.Statement .fabColl := fun _ => ⟨rfl, rfl⟩
theorem Encoding.fabAbandon : Encoding.Statement .fabAbandon := fun _ => ⟨rfl, rfl⟩
theorem Encoding.fabTimesync : Encoding.Statement .fabTimesync := fun _ => ⟨rfl, rfl⟩
theorem Encoding.timesyncExchange : Encoding.Statement .timesyncExchange := fun _ => ⟨rfl, rfl⟩
theorem Encoding.fabFault : Encoding.Statement .fabFault := fun _ => ⟨rfl, rfl⟩
theorem Encoding.binding : Encoding.Statement .binding := fun _ => ⟨rfl, rfl⟩
theorem Encoding.corePreemptRequest : Encoding.Statement .corePreemptRequest := fun _ => ⟨rfl, rfl⟩
theorem Encoding.collectorAck : Encoding.Statement .collectorAck := fun _ => ⟨rfl, rfl⟩
theorem Encoding.coreFree : Encoding.Statement .coreFree := fun _ => ⟨rfl, rfl⟩
theorem Encoding.waitListAging : Encoding.Statement .waitListAging := fun _ => ⟨rfl, rfl⟩
theorem Encoding.strandPickup : Encoding.Statement .strandPickup := fun _ => ⟨rfl, rfl⟩
theorem Encoding.timeWake : Encoding.Statement .timeWake := fun _ => ⟨rfl, rfl⟩
theorem Encoding.parkWake : Encoding.Statement .parkWake := fun _ => ⟨rfl, rfl⟩
theorem Encoding.parkTimeout : Encoding.Statement .parkTimeout := fun _ => ⟨rfl, rfl⟩
theorem Encoding.deadlineExpiry : Encoding.Statement .deadlineExpiry := fun _ => ⟨rfl, rfl⟩
theorem Encoding.launchRetire : Encoding.Statement .launchRetire := fun _ => ⟨rfl, rfl⟩
theorem Encoding.planeFillDone : Encoding.Statement .planeFillDone := fun _ => ⟨rfl, rfl⟩
theorem Encoding.unitScrubDone : Encoding.Statement .unitScrubDone := fun _ => ⟨rfl, rfl⟩
theorem Encoding.zeroFillDone : Encoding.Statement .zeroFillDone := fun _ => ⟨rfl, rfl⟩
theorem Encoding.keyZeroiseDone : Encoding.Statement .keyZeroiseDone := fun _ => ⟨rfl, rfl⟩
theorem Encoding.segmentLoadDone : Encoding.Statement .segmentLoadDone := fun _ => ⟨rfl, rfl⟩
theorem Encoding.homeSliceAccept : Encoding.Statement .homeSliceAccept := fun _ => ⟨rfl, rfl⟩
theorem Encoding.loadFill : Encoding.Statement .loadFill := fun _ => ⟨rfl, rfl⟩
theorem Encoding.lateTrap : Encoding.Statement .lateTrap := fun _ => ⟨rfl, rfl⟩
theorem Encoding.copyRow : Encoding.Statement .copyRow := fun _ => ⟨rfl, rfl⟩
theorem Encoding.streamSlotAdvance : Encoding.Statement .streamSlotAdvance := fun _ => ⟨rfl, rfl⟩
theorem Encoding.cipherBlock : Encoding.Statement .cipherBlock := fun _ => ⟨rfl, rfl⟩
theorem Encoding.fabricOpComplete : Encoding.Statement .fabricOpComplete := fun _ => ⟨rfl, rfl⟩
theorem Encoding.slotFull : Encoding.Statement .slotFull := fun _ => ⟨rfl, rfl⟩
theorem Encoding.bankOwnClear : Encoding.Statement .bankOwnClear := fun _ => ⟨rfl, rfl⟩
theorem Encoding.accBanksFree : Encoding.Statement .accBanksFree := fun _ => ⟨rfl, rfl⟩
theorem Encoding.pwait (f : RV) : Encoding.Statement (.pwait f) := fun _ => rfl
theorem Encoding.ppost (f : RV) : Encoding.Statement (.ppost f) := fun _ => rfl
theorem Encoding.ptid (f : RV) : Encoding.Statement (.ptid f) := fun _ => rfl
theorem Encoding.proemTimer : Encoding.Statement .proemTimer := fun _ => ⟨rfl, rfl⟩
theorem Encoding.add (f : SA) : Encoding.Statement (.add f) := fun _ => rfl
theorem Encoding.sub (f : SA) : Encoding.Statement (.sub f) := fun _ => rfl
theorem Encoding.mul (f : SA) : Encoding.Statement (.mul f) := fun _ => rfl
theorem Encoding.mulhI (f : SA) : Encoding.Statement (.mulhI f) := fun _ => rfl
theorem Encoding.mulhN (f : SA) : Encoding.Statement (.mulhN f) := fun _ => rfl
theorem Encoding.divI (f : SA) : Encoding.Statement (.divI f) := fun _ => rfl
theorem Encoding.divN (f : SA) : Encoding.Statement (.divN f) := fun _ => rfl
theorem Encoding.remI (f : SA) : Encoding.Statement (.remI f) := fun _ => rfl
theorem Encoding.remN (f : SA) : Encoding.Statement (.remN f) := fun _ => rfl
theorem Encoding.sAnd (f : SA) : Encoding.Statement (.sAnd f) := fun _ => rfl
theorem Encoding.sOr (f : SA) : Encoding.Statement (.sOr f) := fun _ => rfl
theorem Encoding.sXor (f : SA) : Encoding.Statement (.sXor f) := fun _ => rfl
theorem Encoding.sAndn (f : SA) : Encoding.Statement (.sAndn f) := fun _ => rfl
theorem Encoding.shl (f : SA) : Encoding.Statement (.shl f) := fun _ => rfl
theorem Encoding.shr (f : SA) : Encoding.Statement (.shr f) := fun _ => rfl
theorem Encoding.sar (f : SA) : Encoding.Statement (.sar f) := fun _ => rfl
theorem Encoding.rol (f : SA) : Encoding.Statement (.rol f) := fun _ => rfl
theorem Encoding.minI (f : SA) : Encoding.Statement (.minI f) := fun _ => rfl
theorem Encoding.minN (f : SA) : Encoding.Statement (.minN f) := fun _ => rfl
theorem Encoding.maxI (f : SA) : Encoding.Statement (.maxI f) := fun _ => rfl
theorem Encoding.maxN (f : SA) : Encoding.Statement (.maxN f) := fun _ => rfl
theorem Encoding.clz (f : SA) : Encoding.Statement (.clz f) := fun _ => rfl
theorem Encoding.ctz (f : SA) : Encoding.Statement (.ctz f) := fun _ => rfl
theorem Encoding.popc (f : SA) : Encoding.Statement (.popc f) := fun _ => rfl
theorem Encoding.bfxI (f : SA) : Encoding.Statement (.bfxI f) := fun _ => rfl
theorem Encoding.bfxN (f : SA) : Encoding.Statement (.bfxN f) := fun _ => rfl
theorem Encoding.bfi (f : SA) : Encoding.Statement (.bfi f) := fun _ => rfl
theorem Encoding.lea (f : SA) : Encoding.Statement (.lea f) := fun _ => rfl
theorem Encoding.li (f : SA) : Encoding.Statement (.li f) := fun _ => rfl
theorem Encoding.sel (f : SA) : Encoding.Statement (.sel f) := fun _ => rfl
theorem Encoding.cmp (f : SA) : Encoding.Statement (.cmp f) := fun _ => rfl
theorem Encoding.br (f : SB) : Encoding.Statement (.br f) := fun _ => rfl
theorem Encoding.brz (f : SB) : Encoding.Statement (.brz f) := fun _ => rfl
theorem Encoding.jmp (f : SB) : Encoding.Statement (.jmp f) := fun _ => rfl
theorem Encoding.jmpr (f : SA) : Encoding.Statement (.jmpr f) := fun _ => rfl
theorem Encoding.call (f : SB) : Encoding.Statement (.call f) := fun _ => rfl
theorem Encoding.callr (f : SA) : Encoding.Statement (.callr f) := fun _ => rfl
theorem Encoding.ret (f : SA) : Encoding.Statement (.ret f) := fun _ => rfl
theorem Encoding.loop (f : SB) : Encoding.Statement (.loop f) := fun _ => rfl
theorem Encoding.rotset (f : SA) : Encoding.Statement (.rotset f) := fun _ => rfl
theorem Encoding.spawn (f : SA) : Encoding.Statement (.spawn f) := fun _ => rfl
theorem Encoding.suspend (f : SA) : Encoding.Statement (.suspend f) := fun _ => rfl
theorem Encoding.yield (f : SA) : Encoding.Statement (.yield f) := fun _ => rfl
theorem Encoding.exitStrand (f : SA) : Encoding.Statement (.exitStrand f) := fun _ => rfl
theorem Encoding.seqnext (f : SA) : Encoding.Statement (.seqnext f) := fun _ => rfl
theorem Encoding.trap (f : SA) : Encoding.Statement (.trap f) := fun _ => rfl
theorem Encoding.rett (f : SA) : Encoding.Statement (.rett f) := fun _ => rfl
theorem Encoding.stamp (f : SA) : Encoding.Statement (.stamp f) := fun _ => rfl
theorem Encoding.csrr (f : SC) : Encoding.Statement (.csrr f) := fun _ => rfl
theorem Encoding.csrw (f : SC) : Encoding.Statement (.csrw f) := fun _ => rfl
theorem Encoding.csrs (f : SC) : Encoding.Statement (.csrs f) := fun _ => rfl
theorem Encoding.csrc (f : SC) : Encoding.Statement (.csrc f) := fun _ => rfl
theorem Encoding.vadd (f : VOp) : Encoding.Statement (.vadd f) := fun _ => rfl
theorem Encoding.vaddImm (f : VOp) : Encoding.Statement (.vaddImm f) := fun _ => rfl
theorem Encoding.vsub (f : VOp) : Encoding.Statement (.vsub f) := fun _ => rfl
theorem Encoding.vsubImm (f : VOp) : Encoding.Statement (.vsubImm f) := fun _ => rfl
theorem Encoding.vmul (f : VOp) : Encoding.Statement (.vmul f) := fun _ => rfl
theorem Encoding.vmulImm (f : VOp) : Encoding.Statement (.vmulImm f) := fun _ => rfl
theorem Encoding.vfma (f : VOp) : Encoding.Statement (.vfma f) := fun _ => rfl
theorem Encoding.vfms (f : VOp) : Encoding.Statement (.vfms f) := fun _ => rfl
theorem Encoding.vfnma (f : VOp) : Encoding.Statement (.vfnma f) := fun _ => rfl
theorem Encoding.vmin (f : VOp) : Encoding.Statement (.vmin f) := fun _ => rfl
theorem Encoding.vminImm (f : VOp) : Encoding.Statement (.vminImm f) := fun _ => rfl
theorem Encoding.vmax (f : VOp) : Encoding.Statement (.vmax f) := fun _ => rfl
theorem Encoding.vmaxImm (f : VOp) : Encoding.Statement (.vmaxImm f) := fun _ => rfl
theorem Encoding.vabs (f : VOp) : Encoding.Statement (.vabs f) := fun _ => rfl
theorem Encoding.vneg (f : VOp) : Encoding.Statement (.vneg f) := fun _ => rfl
theorem Encoding.vcpysgn (f : VOp) : Encoding.Statement (.vcpysgn f) := fun _ => rfl
theorem Encoding.vclass (f : VOp) : Encoding.Statement (.vclass f) := fun _ => rfl
theorem Encoding.vand (f : VOp) : Encoding.Statement (.vand f) := fun _ => rfl
theorem Encoding.vandImm (f : VOp) : Encoding.Statement (.vandImm f) := fun _ => rfl
theorem Encoding.vor (f : VOp) : Encoding.Statement (.vor f) := fun _ => rfl
theorem Encoding.vorImm (f : VOp) : Encoding.Statement (.vorImm f) := fun _ => rfl
theorem Encoding.vxor (f : VOp) : Encoding.Statement (.vxor f) := fun _ => rfl
theorem Encoding.vxorImm (f : VOp) : Encoding.Statement (.vxorImm f) := fun _ => rfl
theorem Encoding.vnot (f : VOp) : Encoding.Statement (.vnot f) := fun _ => rfl
theorem Encoding.vshl (f : VOp) : Encoding.Statement (.vshl f) := fun _ => rfl
theorem Encoding.vshlImm (f : VOp) : Encoding.Statement (.vshlImm f) := fun _ => rfl
theorem Encoding.vshr (f : VOp) : Encoding.Statement (.vshr f) := fun _ => rfl
theorem Encoding.vshrImm (f : VOp) : Encoding.Statement (.vshrImm f) := fun _ => rfl
theorem Encoding.vsar (f : VOp) : Encoding.Statement (.vsar f) := fun _ => rfl
theorem Encoding.vsarImm (f : VOp) : Encoding.Statement (.vsarImm f) := fun _ => rfl
theorem Encoding.vmulh (f : VOp) : Encoding.Statement (.vmulh f) := fun _ => rfl
theorem Encoding.vcmp (f : VOp) : Encoding.Statement (.vcmp f) := fun _ => rfl
theorem Encoding.vcmpImm (f : VOp) : Encoding.Statement (.vcmpImm f) := fun _ => rfl
theorem Encoding.vsel (f : VOp) : Encoding.Statement (.vsel f) := fun _ => rfl
theorem Encoding.vcvt (f : VOp) : Encoding.Statement (.vcvt f) := fun _ => rfl
theorem Encoding.vpack (f : VOp) : Encoding.Statement (.vpack f) := fun _ => rfl
theorem Encoding.vunpack (f : VOp) : Encoding.Statement (.vunpack f) := fun _ => rfl
theorem Encoding.vquant (f : VOp) : Encoding.Statement (.vquant f) := fun _ => rfl
theorem Encoding.vdequant (f : VOp) : Encoding.Statement (.vdequant f) := fun _ => rfl
theorem Encoding.vexp2 (f : VOp) : Encoding.Statement (.vexp2 f) := fun _ => rfl
theorem Encoding.vlog2 (f : VOp) : Encoding.Statement (.vlog2 f) := fun _ => rfl
theorem Encoding.vrcp (f : VOp) : Encoding.Statement (.vrcp f) := fun _ => rfl
theorem Encoding.vrsq (f : VOp) : Encoding.Statement (.vrsq f) := fun _ => rfl
theorem Encoding.vsqrt (f : VOp) : Encoding.Statement (.vsqrt f) := fun _ => rfl
theorem Encoding.vexpd (f : VOp) : Encoding.Statement (.vexpd f) := fun _ => rfl
theorem Encoding.vsum (f : VOp) : Encoding.Statement (.vsum f) := fun _ => rfl
theorem Encoding.vmaxr (f : VOp) : Encoding.Statement (.vmaxr f) := fun _ => rfl
theorem Encoding.vminr (f : VOp) : Encoding.Statement (.vminr f) := fun _ => rfl
theorem Encoding.vscan (f : VOp) : Encoding.Statement (.vscan f) := fun _ => rfl
theorem Encoding.vdraw (f : VOp) : Encoding.Statement (.vdraw f) := fun _ => rfl
theorem Encoding.vdrawl (f : VOp) : Encoding.Statement (.vdrawl f) := fun _ => rfl
theorem Encoding.vdmerge (f : VOp) : Encoding.Statement (.vdmerge f) := fun _ => rfl
theorem Encoding.vdescend (f : VOp) : Encoding.Statement (.vdescend f) := fun _ => rfl
theorem Encoding.vtop (f : VOp) : Encoding.Statement (.vtop f) := fun _ => rfl
theorem Encoding.vrand (f : VOp) : Encoding.Statement (.vrand f) := fun _ => rfl
theorem Encoding.vrandf (f : VOp) : Encoding.Statement (.vrandf f) := fun _ => rfl
theorem Encoding.vperm (f : VOp) : Encoding.Statement (.vperm f) := fun _ => rfl
theorem Encoding.vshuf (f : VOp) : Encoding.Statement (.vshuf f) := fun _ => rfl
theorem Encoding.vrot (f : VOp) : Encoding.Statement (.vrot f) := fun _ => rfl
theorem Encoding.vrotImm (f : VOp) : Encoding.Statement (.vrotImm f) := fun _ => rfl
theorem Encoding.vslide (f : VOp) : Encoding.Statement (.vslide f) := fun _ => rfl
theorem Encoding.vbcast (f : VOp) : Encoding.Statement (.vbcast f) := fun _ => rfl
theorem Encoding.vbcastImm (f : VOp) : Encoding.Statement (.vbcastImm f) := fun _ => rfl
theorem Encoding.vins (f : VOp) : Encoding.Statement (.vins f) := fun _ => rfl
theorem Encoding.vext (f : VOp) : Encoding.Statement (.vext f) := fun _ => rfl
theorem Encoding.vmov (f : VOp) : Encoding.Statement (.vmov f) := fun _ => rfl
theorem Encoding.viota (f : VOp) : Encoding.Statement (.viota f) := fun _ => rfl
theorem Encoding.vcompress (f : VOp) : Encoding.Statement (.vcompress f) := fun _ => rfl
theorem Encoding.vexpand (f : VOp) : Encoding.Statement (.vexpand f) := fun _ => rfl
theorem Encoding.vzip (f : VOp) : Encoding.Statement (.vzip f) := fun _ => rfl
theorem Encoding.vunzip (f : VOp) : Encoding.Statement (.vunzip f) := fun _ => rfl
theorem Encoding.qand (f : VOp) : Encoding.Statement (.qand f) := fun _ => rfl
theorem Encoding.qor (f : VOp) : Encoding.Statement (.qor f) := fun _ => rfl
theorem Encoding.qxor (f : VOp) : Encoding.Statement (.qxor f) := fun _ => rfl
theorem Encoding.qnot (f : VOp) : Encoding.Statement (.qnot f) := fun _ => rfl
theorem Encoding.qset (f : VOp) : Encoding.Statement (.qset f) := fun _ => rfl
theorem Encoding.qsetImm (f : VOp) : Encoding.Statement (.qsetImm f) := fun _ => rfl
theorem Encoding.qcount (f : VOp) : Encoding.Statement (.qcount f) := fun _ => rfl
theorem Encoding.qfirst (f : VOp) : Encoding.Statement (.qfirst f) := fun _ => rfl
theorem Encoding.mpushw (f : MOp) : Encoding.Statement (.mpushw f) := fun _ => rfl
theorem Encoding.mpusha (f : MOp) : Encoding.Statement (.mpusha f) := fun _ => rfl
theorem Encoding.mshift (f : MOp) : Encoding.Statement (.mshift f) := fun _ => rfl
theorem Encoding.macc (f : MOp) : Encoding.Statement (.macc f) := fun _ => rfl
theorem Encoding.mdrain (f : MOp) : Encoding.Statement (.mdrain f) := fun _ => rfl
theorem Encoding.mclr (f : MOp) : Encoding.Statement (.mclr f) := fun _ => rfl
theorem Encoding.mplane (f : MOp) : Encoding.Statement (.mplane f) := fun _ => rfl
theorem Encoding.mwswap (f : MOp) : Encoding.Statement (.mwswap f) := fun h => by
  have h : (f.bank == 1) = true := h
  show (if f.bank = 0 then some (Instr.mwswapHome f) else some (Instr.mwswap f)) = some (Instr.mwswap f)
  have h := eq_of_beq h
  rw [if_neg (by omega)]
theorem Encoding.mwswapHome (f : MOp) : Encoding.Statement (.mwswapHome f) := fun h => by
  have h : (f.bank == 0) = true := h
  show (if f.bank = 0 then some (Instr.mwswapHome f) else some (Instr.mwswap f)) = some (Instr.mwswapHome f)
  have h := eq_of_beq h
  rw [if_pos (by omega)]
theorem Encoding.lds (f : LW) : Encoding.Statement (.lds f) := fun _ => rfl
theorem Encoding.ldv (f : LW) : Encoding.Statement (.ldv f) := fun _ => rfl
theorem Encoding.ldvg (f : LW) : Encoding.Statement (.ldvg f) := fun _ => rfl
theorem Encoding.ldx (f : LW) : Encoding.Statement (.ldx f) := fun _ => rfl
theorem Encoding.ldcb (f : LW) : Encoding.Statement (.ldcb f) := fun _ => rfl
theorem Encoding.ldacc (f : LW) : Encoding.Statement (.ldacc f) := fun _ => rfl
theorem Encoding.ldq (f : LW) : Encoding.Statement (.ldq f) := fun _ => rfl
theorem Encoding.sts (f : LW) : Encoding.Statement (.sts f) := fun _ => rfl
theorem Encoding.stv (f : LW) : Encoding.Statement (.stv f) := fun _ => rfl
theorem Encoding.stvg (f : LW) : Encoding.Statement (.stvg f) := fun _ => rfl
theorem Encoding.stx (f : LW) : Encoding.Statement (.stx f) := fun _ => rfl
theorem Encoding.stcb (f : LW) : Encoding.Statement (.stcb f) := fun _ => rfl
theorem Encoding.stacc (f : LW) : Encoding.Statement (.stacc f) := fun _ => rfl
theorem Encoding.stq (f : LW) : Encoding.Statement (.stq f) := fun _ => rfl
theorem Encoding.aadd (f : LW) : Encoding.Statement (.aadd f) := fun _ => rfl
theorem Encoding.aaddf (f : LW) : Encoding.Statement (.aaddf f) := fun _ => rfl
theorem Encoding.aand (f : LW) : Encoding.Statement (.aand f) := fun _ => rfl
theorem Encoding.aor (f : LW) : Encoding.Statement (.aor f) := fun _ => rfl
theorem Encoding.axor (f : LW) : Encoding.Statement (.axor f) := fun _ => rfl
theorem Encoding.amin (f : LW) : Encoding.Statement (.amin f) := fun _ => rfl
theorem Encoding.amax (f : LW) : Encoding.Statement (.amax f) := fun _ => rfl
theorem Encoding.aswp (f : LW) : Encoding.Statement (.aswp f) := fun _ => rfl
theorem Encoding.acas (f : LW) : Encoding.Statement (.acas f) := fun _ => rfl
theorem Encoding.adec (f : LW) : Encoding.Statement (.adec f) := fun _ => rfl
theorem Encoding.alpush (f : LW) : Encoding.Statement (.alpush f) := fun _ => rfl
theorem Encoding.alpop (f : LW) : Encoding.Statement (.alpop f) := fun _ => rfl
theorem Encoding.adraw (f : LW) : Encoding.Statement (.adraw f) := fun _ => rfl
theorem Encoding.cpy (f : COp) : Encoding.Statement (.cpy f) := fun _ => rfl
theorem Encoding.cstream (f : COp) : Encoding.Statement (.cstream f) := fun _ => rfl
theorem Encoding.cprefetch (f : COp) : Encoding.Statement (.cprefetch f) := fun _ => rfl
theorem Encoding.cgather (f : COp) : Encoding.Statement (.cgather f) := fun _ => rfl
theorem Encoding.cscatter (f : COp) : Encoding.Statement (.cscatter f) := fun _ => rfl
theorem Encoding.csend (f : COp) : Encoding.Statement (.csend f) := fun h => by
  have h : (decide (f.hi < 2147483648)) = true := h
  show (if f.hi < 2147483648 then some (Instr.csend f) else some (Instr.csendRma f)) = some (Instr.csend f)
  have h := of_decide_eq_true h
  rw [if_pos (by omega)]
theorem Encoding.csendRma (f : COp) : Encoding.Statement (.csendRma f) := fun h => by
  have h : (f.hi == 2147483648) = true := h
  show (if f.hi < 2147483648 then some (Instr.csend f) else some (Instr.csendRma f)) = some (Instr.csendRma f)
  have h := eq_of_beq h
  rw [if_neg (by omega)]
theorem Encoding.crecv (f : COp) : Encoding.Statement (.crecv f) := fun h => by
  have h : (decide (f.hi < 2147483648)) = true := h
  show (if f.hi < 2147483648 then some (Instr.crecv f) else some (Instr.crecvRma f)) = some (Instr.crecv f)
  have h := of_decide_eq_true h
  rw [if_pos (by omega)]
theorem Encoding.crecvRma (f : COp) : Encoding.Statement (.crecvRma f) := fun h => by
  have h : (f.hi == 2147483648) = true := h
  show (if f.hi < 2147483648 then some (Instr.crecv f) else some (Instr.crecvRma f)) = some (Instr.crecvRma f)
  have h := eq_of_beq h
  rw [if_neg (by omega)]
theorem Encoding.ccoll (f : COp) : Encoding.Statement (.ccoll f) := fun _ => rfl
theorem Encoding.cskid (f : COp) : Encoding.Statement (.cskid f) := fun _ => rfl
theorem Encoding.fence (f : YF) : Encoding.Statement (.fence f) := fun _ => rfl
theorem Encoding.pfence (f : YP) : Encoding.Statement (.pfence f) := fun _ => rfl
theorem Encoding.cbinit (f : YH) : Encoding.Statement (.cbinit f) := fun _ => rfl
theorem Encoding.cbwaitFree (f : YH) : Encoding.Statement (.cbwaitFree f) := fun h => by
  have h : (f.mode == 0) = true := h
  show (if f.mode = 1 then some (Instr.cbwaitFull f) else some (Instr.cbwaitFree f)) = some (Instr.cbwaitFree f)
  have h := eq_of_beq h
  rw [if_neg (by omega)]
theorem Encoding.cbwaitFull (f : YH) : Encoding.Statement (.cbwaitFull f) := fun h => by
  have h : (f.mode == 1) = true := h
  show (if f.mode = 1 then some (Instr.cbwaitFull f) else some (Instr.cbwaitFree f)) = some (Instr.cbwaitFull f)
  have h := eq_of_beq h
  rw [if_pos (by omega)]
theorem Encoding.cbadvProd (f : YH) : Encoding.Statement (.cbadvProd f) := fun h => by
  have h : (f.mode == 0) = true := h
  show (if f.mode = 1 then some (Instr.cbadvCons f) else some (Instr.cbadvProd f)) = some (Instr.cbadvProd f)
  have h := eq_of_beq h
  rw [if_neg (by omega)]
theorem Encoding.cbadvCons (f : YH) : Encoding.Statement (.cbadvCons f) := fun h => by
  have h : (f.mode == 1) = true := h
  show (if f.mode = 1 then some (Instr.cbadvCons f) else some (Instr.cbadvProd f)) = some (Instr.cbadvCons f)
  have h := eq_of_beq h
  rw [if_pos (by omega)]
theorem Encoding.cbrel (f : YH) : Encoding.Statement (.cbrel f) := fun h => by
  have h : (f.mode == 0) = true := h
  show (if f.mode = 1 then some (Instr.cbrelLine f) else some (Instr.cbrel f)) = some (Instr.cbrel f)
  have h := eq_of_beq h
  rw [if_neg (by omega)]
theorem Encoding.cbrelLine (f : YH) : Encoding.Statement (.cbrelLine f) := fun h => by
  have h : (f.mode == 1) = true := h
  show (if f.mode = 1 then some (Instr.cbrelLine f) else some (Instr.cbrel f)) = some (Instr.cbrelLine f)
  have h := eq_of_beq h
  rw [if_pos (by omega)]
theorem Encoding.bkrel (f : YB) : Encoding.Statement (.bkrel f) := fun _ => rfl
theorem Encoding.bkacq (f : YB) : Encoding.Statement (.bkacq f) := fun _ => rfl
theorem Encoding.join (f : YG) : Encoding.Statement (.join f) := fun _ => rfl
theorem Encoding.leave (f : YG) : Encoding.Statement (.leave f) := fun _ => rfl
theorem Encoding.bar (f : YG) : Encoding.Statement (.bar f) := fun _ => rfl
theorem Encoding.aballoc (f : YA) : Encoding.Statement (.aballoc f) := fun _ => rfl
theorem Encoding.abfree (f : YA) : Encoding.Statement (.abfree f) := fun _ => rfl
theorem Encoding.evwait (f : YE) : Encoding.Statement (.evwait f) := fun _ => rfl
theorem Encoding.evsig (f : YE) : Encoding.Statement (.evsig f) := fun _ => rfl
theorem Encoding.swaptok (f : YR) : Encoding.Statement (.swaptok f) := fun _ => rfl
theorem Encoding.grinit (f : YR) : Encoding.Statement (.grinit f) := fun _ => rfl
theorem Encoding.grpush (f : YR) : Encoding.Statement (.grpush f) := fun _ => rfl
theorem Encoding.grpop (f : YR) : Encoding.Statement (.grpop f) := fun _ => rfl
theorem Encoding.grbud (f : YR) : Encoding.Statement (.grbud f) := fun _ => rfl
theorem Encoding.grprune (f : YR) : Encoding.Statement (.grprune f) := fun _ => rfl
theorem Encoding.rowsave (f : YR) : Encoding.Statement (.rowsave f) := fun _ => rfl
theorem Encoding.rowrest (f : YR) : Encoding.Statement (.rowrest f) := fun _ => rfl
theorem Encoding.seqwait (f : YR) : Encoding.Statement (.seqwait f) := fun _ => rfl
theorem Encoding.cipherSeal (f : KOp) : Encoding.Statement (.cipherSeal f) := fun _ => rfl
theorem Encoding.cipherOpen (f : KOp) : Encoding.Statement (.cipherOpen f) := fun _ => rfl
theorem Encoding.shablk (f : KOp) : Encoding.Statement (.shablk f) := fun _ => rfl
theorem Encoding.kbind (f : KOp) : Encoding.Statement (.kbind f) := fun _ => rfl
theorem Encoding.kzero (f : KOp) : Encoding.Statement (.kzero f) := fun _ => rfl
theorem Encoding.zld (f : ZOp) : Encoding.Statement (.zld f) := fun _ => rfl
theorem Encoding.zldg (f : ZOp) : Encoding.Statement (.zldg f) := fun _ => rfl
theorem Encoding.zset (f : ZOp) : Encoding.Statement (.zset f) := fun _ => rfl
theorem Encoding.zmov (f : ZOp) : Encoding.Statement (.zmov f) := fun _ => rfl
theorem Encoding.zgenG (f : ZOp) : Encoding.Statement (.zgenG f) := fun h => by
  have h : (decide (f.off < 65536)) = true := h
  show (if f.off < 65536 then some (Instr.zgenG f) else some (Instr.zgenB f)) = some (Instr.zgenG f)
  have h := of_decide_eq_true h
  rw [if_pos (by omega)]
theorem Encoding.zgenB (f : ZOp) : Encoding.Statement (.zgenB f) := fun h => by
  have h : (decide (65536 ≤ f.off)) = true := h
  show (if f.off < 65536 then some (Instr.zgenG f) else some (Instr.zgenB f)) = some (Instr.zgenB f)
  have h := of_decide_eq_true h
  rw [if_neg (by omega)]
theorem Encoding.slLinkUp : Encoding.Statement .slLinkUp := fun _ => ⟨rfl, rfl⟩
theorem Encoding.wheelSlot : Encoding.Statement .wheelSlot := fun _ => ⟨rfl, rfl⟩
theorem Encoding.creditReturn : Encoding.Statement .creditReturn := fun _ => ⟨rfl, rfl⟩
theorem Encoding.exposedResultLanding : Encoding.Statement .exposedResultLanding := fun _ => ⟨rfl, rfl⟩
theorem Encoding.tmarkScanDone : Encoding.Statement .tmarkScanDone := fun _ => ⟨rfl, rfl⟩
theorem Encoding.ideKm : Encoding.Statement .ideKm := fun _ => ⟨rfl, rfl⟩
theorem Encoding.emptyBundle : Encoding.Statement .emptyBundle := fun _ => ⟨rfl, rfl⟩
theorem Encoding.illbundle : Encoding.Statement .illbundle := fun _ => ⟨rfl, rfl⟩

end Sys2Proof.Laws
end

