-- ==== Sys2Proof/Machine/Wof.lean ====
section
/-! DEFINITION. Machine/Wof.lean: program images: the object file and what a loader must accept, place and reject (07 R203 to R207).
The loader is host software; the machine consumes the placed bytes alone. -/
namespace Sys2Proof.Machine

/-- A section entry of 48 bytes (07 R204). -/
structure WofSection where
  name : Nat
  kind : Nat
  flags : Nat
  align : Nat
  file : Nat
  size : Nat
  addr : Nat
  rel : Nat
  rels : Nat
  rsv : Bool     -- bytes 7 and 44 to 47 and flag bits 7:1 are zero
deriving DecidableEq, Repr

/-- A symbol entry of 24 bytes (07 R205). -/
structure WofSymbol where
  name : Nat
  sec : Nat
  value : Nat
  binding : Nat
  rsv : Bool
deriving DecidableEq, Repr

/-- A relocation entry of 32 bytes (07 R206). -/
structure WofReloc where
  off : Nat
  header : Nat
  sym : Nat
  type : Nat
  addend : Int
  rsv : Bool
deriving DecidableEq, Repr

/-- Why a loader rejects an image, with what it reports (07 R207). -/
inductive WofError where
  | badHeader (byte : Nat)                                          -- 1
  | badSection (sec : Nat)                                          -- 2
  | overlap (sec other : Nat)                                       -- 3
  | straddle (sec off : Nat)                                        -- 4
  | undefined (sec rel : Nat) (name : List Byte)                    -- 5
  | badReloc (sec rel type : Nat)                                   -- 6
  | range (name : List Byte) (sec rel : Nat) (value : Int) (width : Nat)   -- 7
  | badLaunch (block byte : Nat)                                    -- 8
deriving DecidableEq, Repr

/-- The error's code (07 R207). -/
def WofError.code (e : WofError) : Nat :=
  match e with
  | .badHeader _ => 1 | .badSection _ => 2 | .overlap _ _ => 3 | .straddle _ _ => 4
  | .undefined _ _ _ => 5 | .badReloc _ _ _ => 6 | .range _ _ _ _ _ => 7 | .badLaunch _ _ => 8

/-- The first byte at fault of the file header; none for one that keeps R203. -/
def wofHeaderFault (b : List Byte) : Option Nat :=
  let fits (off n size : Nat) : Bool := decide (off + n * size ≤ b.length)
  if b.length < 64 || leAt b 0 4 != 0x31464F57 then some 0
  else if leAt b 4 2 != 1 then some 4
  else if leAt b 6 2 != 0 then some 6
  else if !(fits (leAt b 16 8) (leAt b 8 4) 48) then some 16
  else if !(fits (leAt b 24 8) (leAt b 12 4) 24) then some 24
  else if !(fits (leAt b 32 8) (leAt b 40 4) 1) then some 32
  else if !(fits (leAt b 48 8) (leAt b 44 4) 32) then some 48
  else if leAt b 56 8 != 0 then some 56
  else none

/-- A name of the string table: the bytes before its zero byte (07 R203). -/
def wofName (b : List Byte) (off : Nat) : List Byte := (slice b (leAt b 32 8 + off) (leAt b 40 4 - off)).takeWhile (· != 0)

/-- Continuation bytes of one UTF-8 character, and the range of its first. -/
def utf8More (n : Nat) (lo hi : Nat) (l : List Byte) : Option (List Byte) :=
  match n, l with
  | 0, l => some l
  | _ + 1, [] => none
  | n + 1, x :: r => if lo ≤ x.toNat ∧ x.toNat ≤ hi then utf8More n 0x80 0xBF r else none

/-- The rest of a byte string after its first UTF-8 character; none where it is none. -/
def utf8Char (x : Nat) (r : List Byte) : Option (List Byte) :=
  if x < 0x80 then some r
  else if x < 0xC2 then none
  else if x < 0xE0 then utf8More 1 0x80 0xBF r
  else if x < 0xF0 then utf8More 2 (if x == 0xE0 then 0xA0 else 0x80) (if x == 0xED then 0x9F else 0xBF) r
  else if x < 0xF5 then utf8More 3 (if x == 0xF0 then 0x90 else 0x80) (if x == 0xF4 then 0x8F else 0xBF) r
  else none

/-- Bytes are a UTF-8 string; `fuel` is at least their number. -/
def utf8Ok (fuel : Nat) (l : List Byte) : Bool :=
  match fuel, l with
  | _, [] => true
  | 0, _ => false
  | fuel + 1, x :: r => match utf8Char x.toNat r with | some t => utf8Ok fuel t | none => false

/-- A name offset points to a UTF-8 string that ends in a zero byte inside the string table (07 R203). -/
def wofNameOk (b : List Byte) (off : Nat) : Bool :=
  let t := slice b (leAt b 32 8 + off) (leAt b 40 4 - off)
  t.any (· == 0) && utf8Ok t.length (wofName b off)

/-- Section `i`. -/
def wofSection (b : List Byte) (i : Nat) : WofSection :=
  let e := slice b (leAt b 16 8 + 48 * i) 48
  { name := leAt e 0 4, kind := leAt e 4 1, flags := leAt e 5 1, align := leAt e 6 1, file := leAt e 8 8, size := leAt e 16 8
    addr := leAt e 24 8, rel := leAt e 32 8, rels := leAt e 40 4, rsv := leAt e 7 1 == 0 && leAt e 44 4 == 0 && leAt e 5 1 < 2 }

/-- Symbol `i`. -/
def wofSymbol (b : List Byte) (i : Nat) : WofSymbol :=
  let e := slice b (leAt b 24 8 + 24 * i) 24
  { name := leAt e 0 4, sec := leAt e 4 4, value := leAt e 8 8, binding := leAt e 16 1, rsv := leAt e 17 7 == 0 }

/-- Relocation `k` of a section. -/
def wofReloc (b : List Byte) (s : WofSection) (k : Nat) : WofReloc :=
  let e := slice b (s.rel + 32 * k) 32
  { off := leAt e 0 8, header := leAt e 8 8, sym := leAt e 16 4, type := leAt e 20 1, rsv := leAt e 21 3 == 0
    addend := (BitVec.ofNat 64 (leAt e 24 8)).toInt }

/-- A section's contents before relocation: the file's bytes, zeros for kind 3. -/
def wofContents (b : List Byte) (s : WofSection) : List Byte :=
  if s.kind == 3 then List.replicate s.size 0 else slice b s.file s.size

/-- Walk of a text section from `off`: the headers of its bundles, none where a word is neither a bundle's header nor padding
or a bundle runs past the end (07 R204, 12 R330 R331). -/
def wofBundles (fuel : Nat) (t : List Byte) (off : Nat) : Option (List (Nat × Nat)) :=
  match fuel with
  | 0 => if t.isEmpty then some [] else none
  | fuel + 1 =>
    if t.isEmpty then some []
    else
      let h := Sys2Proof.readHeader (leAt t 0 4)
      if h.kind == 15 then wofBundles fuel (t.drop 4) (off + 4)
      else if h.kind != 0 || h.bad || t.length < h.bytes then none
      else (wofBundles fuel (t.drop h.bytes) (off + h.bytes)).map fun r => (off, h.bytes) :: r

/-- A section entry keeps R204, and its address, where the file gives one, its alignment. -/
def wofSectionOk (b : List Byte) (s : WofSection) (at_ : Nat) : Bool :=
  decide (s.kind ≤ 3) && s.rsv && decide (2 ≤ s.align ∧ s.align ≤ 21) && wofNameOk b s.name &&
  at_ % 2 ^ s.align == 0 && (s.addr == 0 || s.addr == at_) &&
  (if s.kind == 3 then s.file == 0 else decide (s.file + s.size ≤ b.length)) && decide (s.rel + 32 * s.rels ≤ b.length) &&
  (s.kind != 0 || (s.size % 4 == 0 && (wofBundles s.size (wofContents b s) 0).isSome))

/-- Two placed sections share a byte. -/
def wofOverlap (a : Nat) (x : WofSection) (c : Nat) (y : WofSection) : Bool :=
  decide (0 < x.size ∧ 0 < y.size ∧ a < c + y.size ∧ c < a + x.size)

/-- A symbol keeps R205: a name, a section or an absolute value, a binding, nothing in its reserved bytes (07 R203 R205). -/
def wofSymbolOk (b : List Byte) (y : WofSymbol) : Bool :=
  wofNameOk b y.name && y.rsv && decide (y.binding ≤ 2) && (y.sec == 0xFFFFFFFF || y.binding == 2 || decide (y.sec < leAt b 8 4))

/-- What a relocation type patches, from the field's first byte on: how many bytes, the field's low bit within them and its width;
and the range it accepts (07 R206, 12 R330 R347 R354 R362). None for an invalid type. DEDUCED [log 84]: the field's first byte is
the byte that holds its lowest bit. -/
def wofField (type : Nat) : Option ((Nat × Nat × Nat) × Option (Int × Int)) :=
  match type with
  | 1 => some ((8, 0, 64), none)                        -- ABS64
  | 2 => some ((8, 0, 48), some (0, 2 ^ 48 - 1))         -- ABS48
  | 3 => some ((4, 0, 32), some (-2 ^ 31, 2 ^ 32 - 1))   -- ABS32
  | 4 => some ((4, 0, 32), some (-2 ^ 31, 2 ^ 31 - 1))   -- IMM32, bits 63:32 of an S syllable
  | 5 => some ((4, 0, 32), some (0, 2 ^ 48 - 1))         -- LO32
  | 6 => some ((2, 0, 16), some (0, 2 ^ 48 - 1))         -- XI16, bits 31:16 of the header
  | 7 => some ((4, 0, 32), some (-2 ^ 31, 2 ^ 31 - 1))   -- DISP32, bits 63:32
  | 8 => some ((3, 3, 21), some (-2 ^ 20, 2 ^ 20 - 1))   -- OFF21, bits 63:43
  | 9 => some ((3, 7, 17), some (-2 ^ 16, 2 ^ 16 - 1))   -- OFF17, bits 31:15
  | _ => none

/-- `x` with the field of `w` bits at bit `lo` replaced by the low bits of `v`. -/
def putField (x lo w v : Nat) : Nat := x - fld x lo w * 2 ^ lo + v % 2 ^ w * 2 ^ lo

/-- A list of bytes with those from `off` on replaced. -/
def putAt (l : List Byte) (off : Nat) (n : List Byte) : List Byte := l.take off ++ n ++ l.drop (off + n.length)

/-- A symbol's placed address: an offset in its placed section, or an absolute value (07 R205). -/
def wofAddress (places : List Nat) (y : WofSymbol) : Nat :=
  if y.sec == 0xFFFFFFFF then y.value else places.getD y.sec 0 + y.value

/-- The value V of a relocation in the section placed at `base` (07 R206). -/
def wofValue (places : List Nat) (base : Nat) (y : WofSymbol) (r : WofReloc) : Int :=
  let v := (wofAddress places y : Int) + r.addend
  if r.type == 7 then v - (base + r.header : Nat) else v

/-- The bits put into the field: XI16 takes V[47:32], the others V's low bits. -/
def wofBits (type : Nat) (v : Int) : Nat := ((if type == 6 then v / 2 ^ 32 else v) % 2 ^ 64).toNat

/-- One relocation of section `i` on its contents: no bit outside the field changes (07 R206 R207). -/
def wofPatch (b : List Byte) (places : List Nat) (i k : Nat) (s : WofSection) (t : List Byte) : Except WofError (List Byte) :=
  let r := wofReloc b s k
  let y := wofSymbol b r.sym
  match wofField r.type with
  | none => .error (.badReloc i k r.type)
  | some ((n, lo, w), ok) =>
    if !r.rsv || s.kind == 3 || s.size < r.off + n || leAt b 12 4 ≤ r.sym || !(wofSymbolOk b y) then .error (.badReloc i k r.type)
    else if y.binding == 2 then .error (.undefined i k (wofName b y.name))
    else
      let v := wofValue places (places.getD i 0) y r
      let inside := match ok with | none => true | some (a, z) => decide (a ≤ v ∧ v ≤ z)
      if !inside || (r.type == 7 && v % 4 != 0) then .error (.range (wofName b s.name) i k v w)
      else .ok (putAt t r.off (natLe n (putField (leAt t r.off n) lo w (wofBits r.type v))))

/-- Section `i`, placed at `places[i]`: its bytes after relocation, or the first error it gives (07 R204 R206 R207). -/
def wofPlace (b : List Byte) (places : List Nat) (i : Nat) : Except WofError (List Byte) :=
  let s := wofSection b i
  let at_ := places.getD i 0
  let t := wofContents b s
  if !wofSectionOk b s at_ then .error (.badSection i)
  else match (List.range i).find? fun j => wofOverlap (places.getD j 0) (wofSection b j) at_ s with
    | some j => .error (.overlap j i)
    | none =>
      let cross := if s.kind != 0 then none else
        ((wofBundles s.size t 0).getD []).find? fun p => (at_ + p.1) / 65536 != (at_ + p.1 + p.2 - 1) / 65536
      match cross with
      | some p => .error (.straddle i p.1)
      | none => (List.range s.rels).foldlM (fun t k => wofPatch b places i k s t) t

/-- The first word of a launch record that breaks R150, by its first byte; none where the record keeps it. -/
def wofRecordWord (t : List Byte) : Option Nat :=
  let r := parseRecord t
  let w (off lo n : Nat) : Bool := fld (leAt t off 8) lo n == 0
  let rules : List (Nat × Bool) :=
    [ (0, w 0 32 32 && w 0 11 15 && decide (r.kind ≤ 2) && (r.kind == 2 || (r.hpart == 0 && !r.nopart)) && (!r.nopart || r.hpart == 0)),
      (8, w 8 48 16 && r.entry % 4 == 0),
      (16, w 16 42 22 && w 16 26 6 && decide (1 ≤ r.cmin ∧ r.cmin ≤ r.cores ∧ r.cores ≤ 600 ∧ 1 ≤ r.strands ∧ r.strands ≤ 16384) &&
        (!r.gang || (r.strands == r.cmin && r.cmin == r.cores))),
      (72, w 72 48 16), (80, r.crec % 64 == 0), (88, r.sigAddr % 8 == 0), (96, w 96 48 16 && r.trapv % 4 == 0),
      (104, w 104 48 16 && r.btab % 64 == 0 && (r.btab != 0) == r.bkt),
      (112, w 112 31 33 && w 112 17 7 && decide (r.hnd ≤ 64 ∧ r.acc ≤ 256 ∧ r.spb ≤ 128)), (120, fld (leAt t 120 4) 4 28 == 0) ]
  (rules.find? fun p => !p.2).map (·.1)

/-- The byte of a launch-record template at fault; none for one that keeps R150 and whose bucket table, read from the placed
sections, keeps R171. -/
def wofRecordFault (secs : List (Nat × List Byte)) (t : List Byte) : Option Nat :=
  let r := parseRecord t
  if t.length < 128 then some 0
  else match wofRecordWord t with
    | some k => some k
    | none =>
      if !r.bkt then none
      else match secs.find? fun p => decide (p.1 ≤ r.btab ∧ r.btab < p.1 + p.2.length) with
        | none => some 104
        | some p =>
          let m := slice p.2 (r.btab - p.1) 192
          let n := 64 + 8 * leAt m 0 1
          if m.length < n || (parseTable (m.take n)).isNone then some 104 else none

/-- Launch block `k`: its template's bytes, or the error it gives (07 R207). -/
def wofLaunch (b : List Byte) (secs : List (Nat × List Byte)) (k : Nat) : Except WofError (List Byte) :=
  let e := slice b (leAt b 48 8 + 32 * k) 32
  match secs[leAt e 4 4]? with
  | none => .error (.badLaunch k 0)
  | some p =>
    let t := slice p.2 (leAt e 8 8) 128
    if leAt e 16 8 != 0 || leAt e 24 8 != 0 || leAt e 8 8 % 8 != 0 || !(wofNameOk b (leAt e 0 4)) then .error (.badLaunch k 0)
    else match wofRecordFault secs t with
      | some x => .error (.badLaunch k x)
      | none => .ok t

/-- A loader's answer to an image whose sections it would place at `places`: the sections' addresses and bytes and the templates of
the launch blocks, or the one error it reports, in which case it places nothing; a symbol that no relocation names and that breaks R203 or
R205 is reported as an error of the header, at its symbol table (07 R203 to R207). DEDUCED [log 84]. -/
def wofLoad (b : List Byte) (places : List Nat) : Except WofError (List (Nat × List Byte) × List (List Byte)) :=
  match wofHeaderFault b with
  | some k => .error (.badHeader k)
  | none => do
    let secs ← (List.range (leAt b 8 4)).mapM fun i => (wofPlace b places i).map fun t => (places.getD i 0, t)
    if (List.range (leAt b 12 4)).any fun i => !(wofSymbolOk b (wofSymbol b i)) then .error (.badHeader 24)
    let blocks ← (List.range (leAt b 44 4)).mapM fun k => wofLaunch b secs k
    pure (secs, blocks)

end Sys2Proof.Machine
end

