-- ==== Sys2Proof/Tests/Slice0.lean ====
section
/-! SUPPORT. Tests/Slice0.lean: the model's own tests: ill-formed terms, words of the spec's encodings, a witness for every statement that
has hypotheses, and worked examples of the spec. -/
namespace Sys2Proof.Tests

open Sys2Proof Sys2Proof.Machine Sys2Proof.Stated

set_option Elab.async false
set_option maxRecDepth 20000
set_option exponentiation.threshold 4096
set_option synthInstance.maxSize 4096
set_option synthInstance.maxHeartbeats 1000000

/-! Small states: one core, number 3, on which strand 0 of the launch in slot 7 runs. -/

/-- A launch record with a handler at 0x40001000. -/
def rec0 : LaunchRec := { entry := 0x40000200, strands := 4, cmin := 1, cores := 1, trapv := 0x40001000, spb := 64, hnd := 8, acc := 128 }

/-- A launch of micro-context 5 in partition 1, whose strands 1 and 2 have exited. -/
def launch0 : Launch :=
  { st := .bound, record := rec0, mcx := 5, part := some 1, cores := [3], strands := [(0, { st := .running }), (1, { st := .exited }), (2, { st := .exited })]
    firstAt := some 5 }

/-- A thread at 0x40000200 with these scalar registers. -/
def th0 (r : SMap Word) : Thread := { s := r, pc := 0x40000200, bpc := 0x40000200, fall := 0x40000220, cycle := 100, bundles := 7 }

/-- Core 3 as `k`, its launch as `l`. -/
def stateOf (k : CoreSt) (l : Launch) : State :=
  { State.reset with
    cores := [(3, k)], cur := 3, agent := 3, time := 123456789
    pkg := { State.reset.pkg with held := false, stage := 8 }
    circ := { State.reset.circ with launches := [(7, some l)], owner := [(3, some 7)] } }

/-- The core that runs thread `th`. -/
def core0 (th : Thread) : CoreSt := { launch := some 7, strand := some 0, th := th, loaded := true }

/-- The state with these scalar registers. -/
def st (r : SMap Word) : State := stateOf (core0 (th0 r)) launch0

/-- The same in the trap handler. -/
def stHandler (r : SMap Word) : State := stateOf (core0 { th0 r with th := true }) launch0

/-- What the step answers, or the state as it was. -/
def after (r : Res) (s : State) : State := match r with | .next t => t | _ => s

/-- The answer is a next state that satisfies `p`. -/
def nextIs (r : Res) (p : State → Bool) : Bool := match r with | .next t => p t | _ => false

/-! A state with buffers, a matrix unit and page tables: VA 0x40000000 is a writable page of 1 GiB, 0x80000000 a read-only one, 0xC0000000 a
consumable one, each over physical 0x40000000; 0x100000000 does not translate. -/

/-- A page-table entry in its place. -/
def putEntry (pa i d : Nat) (m : List Host.Cell) : List Host.Cell := Memory.writeN m (pa + 8 * i) (natLe 8 d)

/-- A leaf of level 1 over physical 0x40000000 with tag 5: OK, RO and CN as given (08 R212). -/
def leafOf (ok ro cn : Nat) : Nat := 2 + ok * 8 + ro * 32 + cn * 64 + 0x40000 * 128 + 5 * 2 ^ 50

/-- The tables of micro-context 5. -/
def tables : List Host.Cell :=
  putEntry 0x100000 0 (1 + 0x101 * 128) (putEntry 0x101000 1 (leafOf 1 0 0) (putEntry 0x101000 2 (leafOf 1 1 0)
    (putEntry 0x101000 3 (leafOf 1 0 1) [])))

/-- A handle's set-up word: slots, slot size, ring base, CNT (08 R229). -/
def setupWord (slots size base cnt : Nat) : Word := BitVec.ofNat 64 ((slots - 1) * 2 ^ 48 + (size / 256 - 1) * 2 ^ 40 + 2 ^ 31 + cnt * 2 ^ 30 + base / 256)

/-- Four banks of scratchpad, handles 0 to 2, accumulator banks 0 to 31 held by strand 0. -/
def ctx0 (d : Handle) (m : Matrix) : CoreCtx :=
  { banks := [3, 10, 17, 24, 31], own := [0, 1, 2, 3]
    setup := [(0, setupWord 4 256 0 0), (1, setupWord 4 768 0x400 0), (2, setupWord 2 2048 0x1000 1)]
    handles := [(0, d), (1, d), (2, d)], held := (List.range 32).map fun i => (i, 1), matrix := m }

/-- That core. -/
def coreM (th : Thread) (d : Handle) (m : Matrix) : CoreSt := { core0 th with ctx := ctx0 d m, spad := Memory.writeN [] 0xC000 [1, 2, 3, 4, 5, 6, 7, 8] }

/-- The page tables and the partition around a core. -/
def stOn (k : CoreSt) : State :=
  let s := stateOf k launch0
  { s with
    mem := { s.mem with bytes := tables }
    prot := { s.prot with
      chip := { s.prot.chip with dirty := [] }
      parts := [(1, { banks := BitVec.allOnes 1024, st := 2, mcxBase := 4, mcxCount := 8 })], mcbs := [(5, { part := 1, ptRoot := 0x100000, st := 1 })] } }

/-- The state with these scalar registers and this handle. -/
def stM (r : SMap Word) (d : Handle := {}) (m : Matrix := {}) : State := stOn (coreM (th0 r) d m)

/-- A handle whose slot 0 is FULL and slot 1 FILLING. -/
def dFull : Handle := { st := [(0, 2), (1, 1)], pp := 1, cp := 0 }

/-! WellFormed: one term for each check, which the check refuses. -/

/-- The bits that tell two rows of one op apart (12 R353 R358 R360 R362). -/
theorem test_refuses_the_other_variant :
    ([.cbwaitFree ⟨3, 0, 1, 0⟩, .cbwaitFull ⟨3, 0, 0, 0⟩, .cbadvProd ⟨3, 0, 1, 0⟩, .cbadvCons ⟨3, 0, 0, 0⟩, .cbrel ⟨0, 0, 1, 0⟩,
      .cbrelLine ⟨0, 0, 0, 0⟩, .mwswap ⟨0, 0, 0, 0, 5, 0, 0, 0⟩, .mwswapHome ⟨0, 0, 0, 0, 5, 0, 1, 0⟩, .csend ⟨0, 5, 6, 7, 2 ^ 31⟩,
      .csendRma ⟨0, 5, 6, 7, 0⟩, .crecv ⟨0, 5, 6, 7, 2 ^ 31⟩, .crecvRma ⟨0, 5, 6, 7, 0⟩, .zgenG ⟨3, 5, 65536⟩, .zgenB ⟨3, 5, 0⟩] :
      List Instr).all (fun i => !wellFormed i) = true := by decide

/-- Fields wider than their format (12 R347 to R362, 04 R109). -/
theorem test_refuses_fields_that_do_not_fit :
    ([.add ⟨64, 6, 0, 0, 0, 0, 0⟩, .br ⟨5, 64, 0, 0, 0⟩, .csrr ⟨64, 0, 1, 0⟩, .vadd ⟨0, 2048, 16, 32, 0, 0, 0, 0⟩, .mdrain ⟨1, 0, 64, 0, 0, 0, 0, 0⟩,
      .ldv ⟨0, 2048, 6, 0, 0, 0, 0, 0, 0, 0, 0⟩, .stv ⟨0, 8, 64, 0, 0, 0, 0, 0, 0, 0, 0⟩, .cpy ⟨0, 64, 11, 12, 0⟩, .fence ⟨4, 0, 0⟩, .pfence ⟨0, 64, 1, 0⟩,
      .cbinit ⟨64, 4, 0, 0⟩, .bkacq ⟨128, 0⟩, .bar ⟨16, 0⟩, .aballoc ⟨5, 64, 0, 0⟩, .evsig ⟨256, 5, 0⟩, .swaptok ⟨0, 64, 0, 0⟩, .cipherSeal ⟨64, 8, 0, 0⟩,
      .zld ⟨32, 7, 66⟩, .pwait ⟨32, 11, 0, 0⟩] : List Instr).all (fun i => !wellFormed i) = true := by decide

/-- Scalar forms: I and sb, X without I, width codes, bit fields, the plain forms, rotset's count, trap's code (12 R347 R349, 13 R368). -/
theorem test_refuses_scalar_forms :
    ([.add ⟨5, 6, 7, 1, 0, 0, 0⟩, .add ⟨5, 6, 7, 0, 1, 0, 0⟩, .add ⟨5, 6, 7, 0, 0, 0, 1⟩, .add ⟨5, 6, 7, 0, 0, 8, 0⟩, .mulhI ⟨5, 6, 7, 0, 0, 1, 0⟩,
      .divI ⟨5, 6, 7, 0, 0, 3, 0⟩, .divN ⟨5, 6, 7, 0, 0, 2, 0⟩, .sAnd ⟨5, 6, 7, 0, 0, 2, 0⟩, .shl ⟨5, 6, 7, 0, 0, 4, 0⟩, .minI ⟨5, 6, 7, 0, 0, 1, 0⟩,
      .clz ⟨5, 6, 7, 0, 0, 0, 0⟩, .bfxI ⟨5, 6, 0, 0, 0, 0, 0x0401⟩, .bfxI ⟨5, 6, 0, 1, 0, 0, 0x0901 + 59⟩, .bfi ⟨5, 6, 0, 1, 0, 0, 0x4000⟩,
      .lea ⟨5, 6, 7, 1, 0, 0, 0⟩, .lea ⟨5, 6, 7, 0, 0, 4, 0⟩, .li ⟨5, 1, 0, 1, 0, 0, 0⟩, .sel ⟨5, 6, 7, 0, 0, 1, 0⟩, .cmp ⟨5, 6, 7, 0, 0, 10, 0⟩,
      .jmpr ⟨5, 6, 0, 0, 0, 0, 0⟩, .rotset ⟨0, 0, 0, 1, 0, 0, 1032⟩, .rotset ⟨0, 0, 0, 1, 0, 0, 4⟩, .spawn ⟨5, 6, 7, 0, 0, 1, 0⟩,
      .suspend ⟨1, 6, 7, 0, 0, 0, 0⟩, .yield ⟨0, 6, 7, 0, 0, 0, 0⟩, .trap ⟨0, 0, 0, 1, 0, 0, 65536⟩, .stamp ⟨5, 1, 0, 0, 0, 0, 0⟩,
      .rett ⟨1, 0, 0, 0, 0, 0, 0⟩, .br ⟨5, 6, 10, 0, 0⟩, .br ⟨5, 6, 0, 1, 0⟩, .br ⟨5, 6, 0, 0, 2⟩, .brz ⟨5, 6, 0, 0, 0⟩, .brz ⟨5, 0, 2, 0, 0⟩,
      .loop ⟨0, 0, 1, 0, 0⟩, .jmp ⟨1, 0, 0, 0, 0⟩, .csrr ⟨5, 0, 0x005, 0⟩, .csrr ⟨5, 1, 0x001, 0⟩, .csrw ⟨0, 0, 0x021, 0⟩] : List Instr).all
      (fun i => !wellFormed i) = true := by decide

/-- Vector forms: format sets, groups and alignment, rounding fields, predicates, immediates, format pairs (12 R350 R351, 14 R396 to R399). -/
theorem test_refuses_vector_forms :
    ([.vadd ⟨6, 8, 16, 32, 0, 0, 0, 0⟩, .vadd ⟨15, 8, 16, 32, 0, 0, 0, 0⟩, .vadd ⟨0, 9, 16, 32, 0, 0, 1, 0⟩, .vadd ⟨0, 8, 16, 32, 1, 0, 0, 0⟩,
      .vadd ⟨9, 8, 16, 32, 0, 0, 0, 2⟩, .vfma ⟨11, 8, 16, 32, 40, 0, 0, 0⟩, .vmax ⟨0, 8, 16, 32, 0, 0, 0, 1⟩, .vcmp ⟨0, 16, 16, 32, 0, 0, 0, 0⟩,
      .vcmp ⟨0, 3, 16, 32, 10, 0, 0, 0⟩, .vcvt ⟨0, 8, 16, 0, 15, 0, 0, 0⟩, .vpack ⟨0, 8, 16, 32, 3, 0, 0, 0⟩, .vunpack ⟨0, 8, 16, 0, 1, 0, 0, 0⟩,
      .vquant ⟨6, 8, 16, 3, 0, 0, 0, 0⟩, .vdequant ⟨3, 8, 16, 0, 0, 0, 0, 0⟩, .vscan ⟨3, 8, 16, 0, 0, 0, 0, 0⟩, .vperm ⟨5, 8, 16, 32, 0, 0, 0, 0⟩,
      .vadd ⟨0, 8, 16, 32, 0, 16, 0, 0⟩, .vrand ⟨0, 8, 0, 0, 0, 0, 0, 0⟩, .qand ⟨1, 3, 4, 5, 0, 0, 0, 0⟩, .qand ⟨0, 3, 4, 5, 0, 1, 0, 0⟩,
      .vzip ⟨0, 8, 16, 32, 0, 0, 3, 0⟩, .vext ⟨0, 5, 16, 7, 0, 1, 0, 0⟩] : List Instr).all (fun i => !wellFormed i) = true := by decide

/-- The other slots (12 R353 to R362, 04 R109). -/
theorem test_refuses_other_forms :
    ([.mpushw ⟨0, 0, 2, 0, 0, 0, 1, 0⟩, .mpushw ⟨1, 0, 2, 0, 0, 1, 0, 0⟩, .mpushw ⟨1, 0, 2, 3, 0, 0, 0, 0⟩, .mpusha ⟨1, 0, 2, 0, 1, 0, 0, 0⟩,
      .mshift ⟨0, 0, 0, 0, 0, 0, 0, 0⟩, .macc ⟨1, 3, 0, 0, 0, 0, 0, 1⟩, .mdrain ⟨5, 0, 4, 0, 0, 0, 0, 0⟩, .mclr ⟨1, 0, 0, 0, 0, 0, 0, 0⟩,
      .lds ⟨0, 11, 5, 1, 0, 0, 0, 0, 0, 0, 0⟩, .lds ⟨0, 11, 5, 0, 0, 0, 0, 0, 0, 1, 0⟩, .lds ⟨0, 11, 5, 0, 0, 2, 0, 0, 0, 0, 0⟩,
      .lds ⟨0, 11, 5, 0, 0, 0, 1, 0, 0, 0, 0⟩, .lds ⟨0, 11, 5, 0, 0, 0, 0, 3, 0, 0, 0⟩, .ldvg ⟨1, 9, 5, 0, 0, 0, 0, 0, 0, 0, 0⟩,
      .sts ⟨0, 64, 5, 0, 0, 0, 0, 0, 0, 0, 0⟩, .stv ⟨1, 8, 6, 0, 0, 0, 0, 0, 0, 0, 0⟩, .stv ⟨0, 8, 6, 0, 0, 1, 0, 0, 0, 0, 0⟩,
      .acas ⟨0, 10, 4, 12, 0, 0, 0, 0, 0, 0, 0⟩, .adec ⟨4, 7, 9, 0, 0, 0, 0, 0, 0, 0, 0⟩, .cpy ⟨1, 10, 11, 12, 0⟩, .cpy ⟨0, 10, 11, 12, 3⟩,
      .cstream ⟨4, 5, 6, 7, 2 ^ 17⟩, .cprefetch ⟨0, 5, 6, 0, 3⟩, .cskid ⟨0, 5, 6, 0, 1⟩, .fence ⟨3, 0, 0⟩, .fence ⟨0, 3, 0⟩, .fence ⟨0, 0, 1⟩,
      .pfence ⟨0, 0, 1, 0⟩, .pfence ⟨0, 1, 0, 0⟩, .cbinit ⟨3, 4, 1, 0⟩, .bkacq ⟨5, 1⟩, .bar ⟨2, 1⟩, .aballoc ⟨5, 6, 3, 0⟩, .abfree ⟨5, 6, 1, 0⟩,
      .evsig ⟨7, 5, 1⟩, .swaptok ⟨1, 7, 0, 0⟩, .grpop ⟨9, 1, 0, 0⟩, .cipherSeal ⟨0, 9, 0, 0⟩, .cipherSeal ⟨0, 0, 0, 0⟩, .kzero ⟨0, 0, 0, 0⟩,
      .zld ⟨3, 64, 0⟩, .zmov ⟨3, 32, 0⟩, .pwait ⟨10, 11, 1, 0⟩, .ppost ⟨1, 11, 12, 0⟩, .ptid ⟨10, 1, 0, 0⟩] : List Instr).all
      (fun i => !wellFormed i) = true := by decide

/-! Words written out from the spec's encodings (12 R347 to R362 and the worked encodings of chapters 12 to 17). -/

/-- The instruction a slot's bits are. -/
def readWord (t : Slot) (w : Nat) : Option Instr := (decodeSyll t w).toOption

/-- Scalar slot: add.i32 s5,s6,-1; br.lt s5,s6,-64; csrw s0,fcr,1; add s5,s5,64; suspend s11,s16. -/
theorem test_decode_scalar :
    [readWord .s 0xFFFFFFFF24018501, readWord .s 0xFFFFFFC000218520, readWord .s 0x0000000100100039, readWord .s 0x0000004004014501,
      readWord .s 0x000000000102C031] =
    [some (.add ⟨5, 6, 0, 1, 0, 2, 0xFFFFFFFF⟩), some (.br ⟨5, 6, 2, 0, 0xFFFFFFC0⟩), some (.csrw ⟨0, 0, 1, 1⟩), some (.add ⟨5, 5, 0, 1, 0, 0, 64⟩),
      some (.suspend ⟨0, 11, 16, 0, 0, 0, 0⟩)] := by decide

/-- Vector slots: vadd.fp32 v8,v9,v10; vfma.bf16.rne v1024:g4,v16,v32,v48,?q2; vdraw v40,v8,v60,?q3; vrot.i32 v10,v8; vtop.fp32 v17,v16,s21,?q1. -/
theorem test_decode_vector :
    [readWord .va 0x0000002804808001, readWord .vb 0x6206008008400104, readWord .va 0x0307800004028026, readWord .va 0x000000000400ABAF,
      readWord .va 0x010000540801102A] =
    [some (.vadd ⟨0, 8, 9, 10, 0, 0, 0, 0⟩), some (.vfma ⟨1, 1024, 16, 32, 48, 2, 2, 1⟩), some (.vdraw ⟨0, 40, 8, 0, 60, 3, 0, 0⟩),
      some (.vrotImm ⟨11, 10, 8, 0, 0, 0, 0, 0⟩), some (.vtop ⟨0, 17, 16, 21, 0, 1, 0, 0⟩)] := by decide

/-- Matrix and scale slots: macc.mad.bf16 p,front,5; macc.ada.e4m3 q,back,127; mpushw.sx4 back,f2,0,z3; mdrain.bf16 p,f4,64; zld z3,[s7+66];
zgen.b z3,s5,-2. -/
theorem test_decode_matrix_and_scale :
    [readWord .m 0x00A00014, readWord .m 0x3FE00134, readWord .m 0x20030861, readWord .m 0x08001015, readWord .z 0x00210E31, readWord .z 0xFFFF0A35] =
    [some (.macc ⟨1, 0, 0, 0, 5, 0, 0, 0⟩), some (.macc ⟨3, 1, 0, 0, 127, 1, 1, 0⟩), some (.mpushw ⟨6, 0, 2, 3, 0, 0, 1, 0⟩),
      some (.mdrain ⟨1, 0, 4, 0, 64, 0, 0, 0⟩), some (.zld ⟨3, 7, 66⟩), some (.zgenB ⟨3, 5, 0x1FFFE⟩)] := by decide

/-- Load and store slots: ldv v12,[s4+64]; lds.n32.acq.dev s11,[s5+0]; ldcb.cons v20,f4,512; stv [s6+0],v8; acas.n32.acq.dev s10,s12,[s4+0];
adec.n64.rel.sys s7,[s9+8]; alpop.acq.dev s10,[s4+0]. -/
theorem test_decode_load_and_store :
    [readWord .l 0x0002000000200C02, readWord .l 0x0000000500280BA1, readWord .l 0x0010000088001405, readWord .w 0x0000000000300802,
      readWord .w 0x0000000518200AB0, readWord .w 0x0000400A004807F1, readWord .w 0x0000000500200A13] =
    [some (.ldv ⟨0, 12, 4, 0, 0, 0, 0, 0, 0, 0, 64⟩), some (.lds ⟨5, 11, 5, 0, 0, 1, 1, 0, 0, 0, 0⟩), some (.ldcb ⟨0, 20, 0, 4, 1, 0, 0, 0, 0, 0, 512⟩),
      some (.stv ⟨0, 8, 6, 0, 0, 0, 0, 0, 0, 0, 0⟩), some (.acas ⟨5, 10, 4, 12, 0, 1, 1, 0, 0, 0, 0⟩), some (.adec ⟨7, 7, 9, 0, 0, 2, 2, 0, 0, 0, 8⟩),
      some (.alpop ⟨0, 10, 4, 0, 0, 1, 1, 0, 0, 0, 0⟩)] := by decide

/-- Copy and synchronisation slots: cpy s10,s11,s12,0; cstream f4,s5,s6,s7,256,1; fence.acq.sys; pfence.dev cp,ls; pfence.dev ls,ck; cbinit f3,s4;
cbadv.prod f3,s0; bkacq 5; bar 2; aballoc s5,s6,2; abfree s5,s6; evsig 7,s5; swaptok s7; grpop s9. -/
theorem test_decode_copy_and_synchronisation :
    [readWord .c 0x0000000030B28001, readWord .c 0x0000100F1C614402] =
      [some (.cpy ⟨0, 10, 11, 12, 0⟩), some (.cstream ⟨4, 5, 6, 7, 0x100F⟩)] ∧
    [readWord .y 0x181, readWord .y 0x4442, readWord .y 0x00040142, readWord .y 0x40C3, readWord .y 0xC5, readWord .y 0x148, readWord .y 0x8B,
      readWord .y 0x0008614C, readWord .y 0x0000614D, readWord .y 0x141CF, readWord .y 0x7010, readWord .y 0x253] =
    [some (.fence ⟨2, 1, 0⟩), some (.pfence ⟨1, 4, 1, 0⟩), some (.pfence ⟨1, 1, 16, 0⟩), some (.cbinit ⟨3, 4, 0, 0⟩), some (.cbadvProd ⟨3, 0, 0, 0⟩),
      some (.bkacq ⟨5, 0⟩), some (.bar ⟨2, 0⟩), some (.aballoc ⟨5, 6, 2, 0⟩), some (.abfree ⟨5, 6, 0, 0⟩), some (.evsig ⟨7, 5, 0⟩),
      some (.swaptok ⟨0, 7, 0, 0⟩), some (.grpop ⟨9, 0, 0, 0⟩)] := by decide

/-- Cipher slot and Proem words: seal s8,0; open s8,0; open f3,s8,0; kzero 0x041; pwait x10,x11. -/
theorem test_decode_cipher_and_proem :
    [readWord .k 0x2001, readWord .k 0x2002, readWord .k 0x2032, readWord .k 0x00410005] =
      [some (.cipherSeal ⟨0, 8, 0, 0⟩), some (.cipherOpen ⟨0, 8, 0, 0⟩), some (.cipherOpen ⟨3, 8, 0, 0⟩), some (.kzero ⟨0, 0, 0x041, 0⟩)] ∧
    decodeRV 0x0005850B = some (.pwait ⟨10, 11, 0, 0⟩) := by decide

/-- Words that are no instruction are rejected by name: an unassigned op, and a field that its row does not admit. -/
theorem test_decode_rejects :
    decodeSyll .s 0x0000000000000000 = .error (.unassigned 0 0) ∧ decodeSyll .s 0x00000000800185FF = .error (.unassigned 0 0xFF) ∧
    decodeSyll .s 0x0000000080018501 = .error (.illegal 0 1) ∧ decodeSyll .va 0x0000002804808F01 = .error (.illegal 1 1) := by decide

/-- The header of the worked bundle of 12 R362, and how its 28 bytes are laid out. -/
theorem test_header_layout :
    (readHeader 0x00000413).settle = true ∧ (readHeader 0x00000413).kind = 0 ∧ (readHeader 0x00000413).bytes = 28 ∧
    (readHeader 0x00000413).layout = [(.s, 4), (.va, 12), (.l, 20)] := by decide

/-! Witnesses: scalar slot. -/

/-- A legal SA syllable of every op, at the edge of what it admits. -/
def saLegal : List (Nat × SA) :=
  [(0x01, ⟨63, 6, 0, 1, 1, 7, 0xFFFFFFFF⟩), (0x02, ⟨5, 6, 7, 0, 0, 7, 0⟩), (0x03, ⟨5, 6, 7, 0, 0, 6, 0⟩), (0x04, ⟨5, 6, 7, 0, 0, 0, 0⟩),
   (0x05, ⟨5, 6, 0, 1, 1, 0, 1⟩), (0x06, ⟨5, 6, 7, 0, 0, 6, 0⟩), (0x07, ⟨5, 6, 7, 0, 0, 7, 0⟩), (0x08, ⟨5, 6, 7, 0, 0, 2, 0⟩),
   (0x09, ⟨5, 6, 7, 0, 0, 3, 0⟩), (0x0A, ⟨5, 6, 0, 1, 1, 1, 9⟩), (0x0B, ⟨5, 6, 7, 0, 0, 1, 0⟩), (0x0C, ⟨5, 6, 7, 0, 0, 0, 0⟩),
   (0x0D, ⟨5, 6, 7, 0, 0, 0, 0⟩), (0x0E, ⟨5, 6, 0, 1, 0, 3, 31⟩), (0x0F, ⟨5, 6, 0, 1, 0, 2, 32⟩), (0x10, ⟨5, 6, 0, 1, 0, 0, 63⟩),
   (0x11, ⟨5, 6, 0, 1, 0, 0, 64⟩), (0x12, ⟨5, 6, 7, 0, 0, 0, 0⟩), (0x13, ⟨5, 6, 7, 0, 0, 0, 0⟩), (0x14, ⟨5, 6, 7, 0, 0, 0, 0⟩),
   (0x15, ⟨5, 6, 7, 0, 0, 0, 0⟩), (0x16, ⟨5, 6, 0, 0, 0, 0, 0⟩), (0x17, ⟨5, 6, 0, 0, 0, 0, 0⟩), (0x18, ⟨5, 6, 0, 0, 0, 0, 0⟩),
   (0x19, ⟨5, 6, 0, 1, 0, 0, 0x043C⟩), (0x1A, ⟨5, 6, 0, 1, 0, 0, 0x0000⟩), (0x1B, ⟨5, 6, 0, 1, 0, 0, 0x013F⟩), (0x1C, ⟨5, 6, 7, 0, 1, 3, 0xFFFFFFFF⟩),
   (0x1D, ⟨5, 0, 0, 1, 1, 0, 0xFFFFFFFF⟩), (0x1E, ⟨5, 6, 7, 0, 0, 0, 0⟩), (0x1F, ⟨5, 6, 7, 0, 0, 9, 0⟩), (0x23, ⟨0, 6, 0, 0, 1, 0, 4⟩),
   (0x25, ⟨0, 6, 0, 0, 0, 0, 4⟩), (0x26, ⟨0, 0, 0, 0, 0, 0, 0⟩), (0x28, ⟨0, 0, 0, 1, 0, 0, 1024⟩), (0x30, ⟨5, 6, 7, 0, 0, 0, 0⟩),
   (0x31, ⟨0, 6, 7, 0, 0, 0, 0⟩), (0x32, ⟨0, 6, 0, 0, 0, 0, 0⟩), (0x33, ⟨0, 0, 0, 0, 0, 0, 0⟩), (0x34, ⟨0, 0, 0, 0, 0, 0, 0⟩),
   (0x35, ⟨0, 0, 0, 1, 0, 0, 65535⟩), (0x36, ⟨0, 0, 0, 0, 0, 0, 0⟩), (0x37, ⟨5, 0, 0, 0, 0, 0, 0⟩)]

/-- The clauses of ScalarArithmetic, ScalarLogicShiftsAndFields and ScalarAddressSelectCompare each have a legal syllable. -/
theorem witness_scalar_syllables : saLegal.all (fun p => (Syll.sa p.1 p.2).fits && (Syll.sa p.1 p.2).legal) = true := by decide

/-- ScalarAddressSelectCompare: both sides of sel and of cmp, at equal operands. -/
theorem witness_select_and_compare :
    (st [(6, 1)]).rS 6 ≠ 0 ∧ (st []).rS 6 = 0 ∧ holds 9 ((st [(6, 1)]).rS 6) ((st [(6, 1)]).rS 7) ∧ ¬ holds 9 ((st []).rS 6) ((st []).rS 7) ∧
    holds 8 ((st []).rS 6) ((st []).rS 7) ∧ ¬ holds 2 ((st []).rS 6) ((st []).rS 7) := by simp only [holds]; decide

/-- ScalarTransfersAndLoops: taken and not taken branches, targets inside and outside the address space, a counter that ends and one that does
not, and ROT with and without a rotating region. -/
theorem witness_transfers :
    Legal (.sb 0x20 ⟨5, 6, 9, 0, 0xFFFFFFC0⟩) ∧ holds 9 ((st [(5, 1)]).rS 5) ((st [(5, 1)]).rS 6) ∧ ¬ holds 9 ((st []).rS 5) ((st []).rS 6) ∧
    Legal (.sb 0x21 ⟨5, 0, 1, 0, 8⟩) ∧ Legal (.sb 0x21 ⟨5, 0, 0, 0, 8⟩) ∧ (st []).rS 5 = 0 ∧ (st [(5, 1)]).rS 5 ≠ 0 ∧
    Legal (.sb 0x22 ⟨0, 0, 0, 0, 4⟩) ∧ Legal (.sb 0x24 ⟨0, 0, 0, 0, 4⟩) ∧ Legal (.sb 0x27 ⟨5, 0, 3, 0, 4⟩) ∧
    ((st [(6, 0xFFFFFFFFFFFC)]).rS 6 + imm ⟨0, 6, 0, 0, 0, 0, 0⟩ 0).toNat = 2 ^ 48 - 4 ∧
    ¬ (((st [(6, 0x1000000000000)]).rS 6 + imm ⟨0, 6, 0, 0, 0, 0, 0⟩ 0).toNat < 2 ^ 48) ∧
    ¬ (((st [(6, 2)]).rS 6 + imm ⟨0, 6, 0, 0, 0, 0, 0⟩ 0).toNat % 4 = 0) ∧ ((st [(63, 0x40000000)]).rS 63).toNat % 4 = 0 ∧
    ¬ (((st [(63, 1)]).rS 63).toNat % 4 = 0) := by simp only [holds]; decide

/-- RotsetSetsTheRotatingRegion: the largest count, and counts above it and between multiples of 8; a core that carries the latch. -/
theorem witness_rotset :
    Legal (.sa 0x28 ⟨0, 0, 0, 1, 0, 0, 1024⟩) ∧ Legal (.sa 0x28 ⟨0, 0, 0, 1, 0, 0, 0⟩) ∧ ¬ Legal (.sa 0x28 ⟨0, 0, 0, 1, 0, 0, 1028⟩) ∧
    ¬ Legal (.sa 0x28 ⟨0, 0, 0, 1, 0, 0, 1032⟩) ∧
    (∃ k : CoreSt, k.th.latchRot = (after (execRotset ⟨0, 0, 0, 1, 0, 0, 1024⟩ (st [])) (st [])).th.latchRot ∧ k.th.latchX = none ∧
      k.th.latchCsr = none) := by
  refine ⟨by decide, by decide, by decide, by decide, (after (execRotset ⟨0, 0, 0, 1, 0, 0, 1024⟩ (st [])) (st [])).core 3, by decide, by decide, by decide⟩

/-- A launch none of whose strands has exited. -/
def launchFull : Launch := { launch0 with record := { rec0 with strands := 1 }, strands := [(0, { st := .running })] }

/-- An evsig of core 3 on its way. -/
def withSignal (s : State) : State := { s with mem := { s.mem with net := [{ core := 3, launch := 7, kind := .signal 5 1 }] } }

/-- StrandsSpawnAndLeave, spawn: with and without an evsig on its way, a launch with an exited record, one with none, targets that fit and do not. -/
theorem witness_spawn :
    onSlot 7 launch0 (st [(6, 0x40000000)]) ∧ lowestExited launch0 1 ∧ ((st [(6, 0xFFFFFFFFFFFC)]).rS 6).toNat % 4 = 0 ∧
    ((st [(6, 0xFFFFFFFFFFFC)]).rS 6).toNat < 2 ^ 48 ∧ onSlot 7 launchFull (stateOf (core0 (th0 [(6, 4)])) launchFull) ∧ noneExited launchFull ∧
    ¬ (((st [(6, 2)]).rS 6).toNat % 4 = 0) ∧ (st []).signalOpen 3 = false ∧ (withSignal (st [])).signalOpen 3 = true := by
  refine ⟨by decide, ⟨by decide, by decide, ?_⟩, by decide, by decide, by decide, ?_, by decide, by decide, by decide⟩
  · intro j hj; interval_cases j; decide
  · intro j hj
    have : j = 0 := by simpa [launchFull, rec0] using hj
    subst this; decide

/-- A core whose strand holds accumulator bank 0. -/
def coreAcc (th : Thread) : CoreSt := { core0 th with ctx := { (core0 th).ctx with held := [(0, 1)] } }

/-- StrandsSpawnAndLeave: every way off the core at the edge of its operands, and every trap. -/
theorem witness_leaving :
    (st []).th.th = false ∧ holdsNoBank (st []) ∧ (stHandler []).th.th = true ∧
    ((st [(6, 0xFF01), (7, 0xFFFFFFFF)]).rS 6).toNat = 1 + 256 * 255 ∧ ((st [(6, 0xFF01), (7, 0xFFFFFFFF)]).rS 7).toNat = 2 ^ 32 - 1 ∧
    ((st [(6, 2), (7, 0xFFFFFFFFFFFF)]).rS 6).toNat = 2 ∧ ((st [(6, 2), (7, 0xFFFFFFFFFFFF)]).rS 7).toNat < 2 ^ 48 ∧
    ((st [(6, 0xFFFFFFFFFFF0)]).rS 6).toNat % 16 = 0 ∧ ((st [(6, 0xFFFFFFFFFFF0)]).rS 6).toNat < 2 ^ 48 ∧
    (stateOf (core0 (th0 [])) { launch0 with record := { rec0 with bkt := true } }).launch.record.bkt = true ∧
    (st []).launch.record.bkt = false ∧ (st []).launch.record.gang = false ∧ (stateOf (coreAcc (th0 [])) launch0).holdsAcc = true ∧
    (stateOf (coreAcc (th0 [])) { launch0 with record := { rec0 with gang := true } }).launch.record.gang = true ∧
    ¬ (((st [(6, 3)]).rS 6).toNat % 256 = 1) ∧ ¬ (((st [(6, 3)]).rS 6).toNat = 2) ∧ ¬ (((st [(6, 8)]).rS 6).toNat % 16 = 0) := by decide

/-- TrapRaisesTrapi: with a handler, in the handler, and in a launch without one. -/
theorem witness_trap :
    Legal (.sa 0x35 ⟨0, 0, 0, 1, 0, 0, 65535⟩) ∧ (st []).th.slot = 0 ∧ (st []).launch.record.trapv ≠ 0 ∧ (st []).th.th = false ∧
    onSlot 7 launch0 (stHandler []) ∧ launch0.ended = none ∧ (stHandler []).th.th = true ∧
    (let l := { launch0 with record := { rec0 with trapv := 0 } }; onSlot 7 l (stateOf (core0 (th0 [])) l) ∧ l.ended = none ∧ l.record.trapv = 0) := by
  decide

/-- StampReadsTime, ControlRegistersReadAndWritten and CoreRegisterNamesTheCore: legal forms, MAB and another register, the last core. -/
theorem witness_control_registers :
    Legal (.sa 0x37 ⟨5, 0, 0, 0, 0, 0, 0⟩) ∧ Legal (.sc 0x38 ⟨5, 0, 0x041, 0⟩) ∧ Legal (.sc 0x39 ⟨5, 6, 0x001, 4⟩) ∧ Legal (.sc 0x3A ⟨5, 6, 0x002, 1⟩) ∧
    Legal (.sc 0x3A ⟨5, 6, 0x061, 1⟩) ∧ Legal (.sc 0x3B ⟨5, 6, 0x030, 1⟩) ∧ Legal (.sc 0x3B ⟨5, 6, 0x060, 1⟩) ∧ Legal (.sc 0x38 ⟨5, 0, 0x050, 0⟩) ∧
    ({ st [] with cur := 599 } : State).cur < 600 ∧ ((0x0009000000000004 : Word).toNat / 2 ^ 48 % 16 ≤ 9 ∧ (0x0009000000000004 : Word).toNat % 4 = 0) ∧
    ¬ ((0x000A000000000000 : Word).toNat / 2 ^ 48 % 16 ≤ 9) ∧ ¬ ((0x0000000000000002 : Word).toNat % 4 = 0) := by decide

/-! Witnesses: bundles, traps and the step. -/

/-- A plane whose window 0x4000 holds these bytes at offset 0x200. -/
def planeOf (b : List Byte) : Plane := { window := some 0x4000, text := Memory.writeN [] 0x200 b, lines := [3, 4, 5, 6], full := true }

/-- The state about to issue these bytes as code. -/
def stCode (b : List Byte) (r : SMap Word) : State := stateOf { core0 (th0 r) with active := planeOf b } launch0

/-- A bundle of one scalar syllable: add.i32 s5,s6,-1. -/
def addBundle : List Byte := natLe 4 1 ++ natLe 8 0xFFFFFFFF24018501

/-- That state with S occupied for one more cycle. -/
def stOccupied : State := stateOf (core0 { th0 [(6, 1)] with busy := [(0, 1)] }) launch0

/-- StepRunsTheDecodedInstruction: a bundle of one syllable stands at the PC of a core that may issue; its slot is free or occupied. -/
theorem witness_step :
    let s := stCode addBundle [(6, 1)]
    let c := { s.tick with cur := s.agent }
    s.agenda = [] ∧ s.agent < 600 ∧ mayIssue c ∧ oneSyllableAt (readHeader 1) .s 0xFFFFFFFF24018501 0x4000020C c ∧
      decodeSyll .s 0xFFFFFFFF24018501 = .ok (.add ⟨5, 6, 0, 1, 0, 2, 0xFFFFFFFF⟩) ∧ SMap.get c.th.busy 0 0 = 0 := by decide

/-- The same with the slot occupied. -/
theorem witness_step_occupied :
    let s := stOccupied.modCore 3 fun k => { k with active := planeOf addBundle }
    let c := { s.tick with cur := s.agent }
    s.agenda = [] ∧ s.agent < 600 ∧ mayIssue c ∧ oneSyllableAt (readHeader 1) .s 0xFFFFFFFF24018501 0x4000020C c ∧
      SMap.get c.th.busy 0 0 ≠ 0 := by decide

/-- SlotsAreOccupiedForTheGroup: nothing occupied on a fresh core. R398's example, vcvt.e4m3.fp32 v8:g2, v16, occupies 8 cycles; the
slot is free again in the eighth after its own. -/
theorem test_vcvt_occupies_eight :
    (th0 []).busy = [] ∧ Machine.Instr.occupancy (.vcvt ⟨3, 8, 16, 0, 0, 0, 1, 0⟩) = 8 ∧
      (Nat.iterate Thread.slotCycle 7 ((th0 []).occupy 1 8)).busy = [(1, 1)] ∧ (Nat.iterate Thread.slotCycle 8 ((th0 []).occupy 1 8)).busy = [] := by decide

/-- StepRunsTheNextEvent: an agenda of one event. -/
theorem witness_event :
    ({ st [] with agenda := [.event .timeWake {}] } : State).agenda = [.event .timeWake {}] ∧ Machine.Instr.happens .timeWake = true := by decide

/-- Proem thread 0 at address 0 before these four bytes. -/
def stProem (lo hi : Nat) : State :=
  { st [] with agent := 600, hif := { State.reset.hif with sram := Memory.writeN [] 0 (natLe 2 lo ++ natLe 2 hi) } }

/-- StepRunsTheProemInstruction: an extension word, a base word and a compressed one. -/
theorem witness_proem :
    [stProem 0x850B 0x0005, stProem 0x0513 0x0010, stProem 0x4501 0x0000].all (fun s =>
      s.agenda == [] && decide (600 ≤ s.agent ∧ s.agent < 728) && s.tick.proemRuns && !(s.thread s.proemNo).halted &&
      (s.proemRead s.proemNo (s.thread s.proemNo).pc.toNat 2).isSome && (s.proemRead s.proemNo ((s.thread s.proemNo).pc.toNat + 2) 2).isSome) = true ∧
    decodeRV 0x0005850B = some (.pwait ⟨10, 11, 0, 0⟩) ∧ 0x850B % 4 = 3 ∧ decodeRV 0x00100513 = none ∧ 0x0513 % 4 = 3 ∧ 0x4501 % 4 ≠ 3 ∧
    (rvExpand 0x4501).isSome = true := by decide

/-- A result on its way to s5. -/
def inflight5 : Landing := { due := 100, bundle := 7, dst := some (.s 5), val := 9, mask := lowMask 64 }

/-- ExposedResultsLand: nothing in flight on a fresh core; a core that drains and one that does not. -/
theorem witness_landing :
    (core0 (th0 [])).th.inflight = [] ∧
    (let s := { stateOf (core0 { th0 [] with drain := .handler, inflight := [inflight5] }) launch0 with ev := { a := 3 } }
     (s.core s.ev.a).draining = true ∧ (s.core s.ev.a).freeze = 0) ∧
    (let s := { st [] with ev := { a := 3 } }; (s.core s.ev.a).draining = false) := by decide

/-- EmptyAndIllegalBundles, TrapsAreEnteredAndLeft: with a handler and out of it; in it; without one; a class above 4. -/
theorem witness_traps :
    (st []).th.latchX = none ∧ (st []).th.latchCsr = none ∧ (st []).th.latchRot = none ∧ (st []).th.inflight = [] ∧
    (st []).launch.record.trapv ≠ 0 ∧ (st []).th.th = false ∧ 0x0407 / 256 % 8 ≤ 4 ∧ onSlot 7 launch0 (stHandler []) ∧ (stHandler []).th.th = true ∧
    4 < 0x0501 / 256 % 8 ∧ onSlot 7 launch0 (st []) ∧
    (let l := { launch0 with record := { rec0 with trapv := 0 } }; onSlot 7 l (stateOf (core0 (th0 [])) l) ∧ l.record.trapv = 0) := by decide

/-- TrapsAreEnteredAndLeft, the return: with and without a write to TRS in the handler. BundleEndAppliesTheLatch: every latch. -/
theorem witness_latches :
    (core0 { th0 [] with trsWritten := true, heldRot := some 0x100000 }).th.trsWritten = true ∧
    (core0 { th0 [] with trsWritten := true, heldRot := some 0x100000 }).th.heldRot = some 0x100000 ∧ (core0 (th0 [])).th.trsWritten = false ∧
    (core0 { th0 [] with latchX := some (.jump 0x40) }).th.latchX = some (.jump 0x40) ∧ (core0 { th0 [] with latchRot := some 9 }).th.latchRot = some 9 ∧
    (core0 { th0 [] with latchCsr := some (0x003, 9) }).th.latchCsr = some (0x003, 9) ∧ (core0 (th0 [])).th.posTaken = 0 := by decide

/-- IllegalEncodingsTrapIllop: a syllable of every kind it names. -/
theorem witness_illegal :
    let l : List (Instr × Syll) :=
      [(.add ⟨5, 6, 7, 0, 0, 8, 0⟩, .sa 0x01 ⟨5, 6, 7, 0, 0, 8, 0⟩), (.jmp ⟨1, 0, 0, 0, 0⟩, .sb 0x22 ⟨1, 0, 0, 0, 0⟩), (.csrr ⟨5, 0, 5, 0⟩, .sc 0x38 ⟨5, 0, 5, 0⟩),
       (.cpy ⟨1, 10, 11, 12, 0⟩, .c 0x01 ⟨1, 10, 11, 12, 0⟩), (.kzero ⟨0, 0, 0, 0⟩, .k 5 ⟨0, 0, 0, 0⟩), (.zset ⟨3, 5, 1⟩, .z 3 ⟨3, 5, 1⟩),
       (.fence ⟨3, 0, 0⟩, .yf 1 ⟨3, 0, 0⟩), (.pfence ⟨0, 0, 1, 0⟩, .yp 2 ⟨0, 0, 1, 0⟩), (.cbinit ⟨3, 4, 1, 0⟩, .yh 3 ⟨3, 4, 1, 0⟩), (.bkacq ⟨5, 1⟩, .yb 8 ⟨5, 1⟩),
       (.bar ⟨2, 1⟩, .yg 11 ⟨2, 1⟩), (.aballoc ⟨5, 6, 3, 0⟩, .ya 12 ⟨5, 6, 3, 0⟩), (.evsig ⟨7, 5, 1⟩, .ye 15 ⟨7, 5, 1⟩), (.swaptok ⟨1, 7, 0, 0⟩, .yr 16 ⟨1, 7, 0, 0⟩),
       (.vadd ⟨6, 8, 16, 32, 0, 0, 0, 0⟩, .v 0x01 ⟨6, 8, 16, 32, 0, 0, 0, 0⟩), (.macc ⟨1, 3, 0, 0, 0, 0, 0, 1⟩, .m 4 ⟨1, 3, 0, 0, 0, 0, 0, 1⟩)]
    l.all (fun p => syllOf p.1 == some p.2 && !(p.2.fits && p.2.legal)) = true := by decide

/-! Witnesses: vector slots. -/

/-- A state whose vector registers hold `v`, with an immediate of `x` above the header. -/
def stV (v : SMap VWord) (r : SMap Word) (x : BitVec 16) : State := stateOf (core0 { th0 r with v := v, xi := x }) launch0

/-- A legal V syllable of every op: integer and float formats, one register and groups of eight, the last predicate. -/
def vLegal : List (Nat × VOp) :=
  [(0x01, ⟨9, 8, 16, 32, 0, 15, 3, 1⟩), (0x01, ⟨5, 8, 16, 32, 0, 15, 3, 3⟩), (0x81, ⟨11, 8, 16, 0, 0, 0, 0, 0⟩), (0x81, ⟨0, 8, 16, 0, 0, 0, 0, 1⟩),
   (0x02, ⟨10, 8, 16, 32, 0, 0, 0, 1⟩), (0x02, ⟨1, 8, 16, 32, 0, 0, 0, 2⟩), (0x82, ⟨12, 8, 16, 0, 0, 0, 0, 0⟩), (0x82, ⟨2, 8, 16, 0, 0, 0, 0, 0⟩),
   (0x03, ⟨13, 8, 16, 32, 0, 0, 0, 0⟩), (0x03, ⟨3, 8, 16, 32, 0, 0, 0, 0⟩), (0x83, ⟨14, 8, 16, 0, 0, 0, 0, 1⟩), (0x83, ⟨4, 8, 16, 0, 0, 0, 0, 0⟩),
   (0x04, ⟨0, 8, 16, 32, 40, 1, 0, 3⟩), (0x05, ⟨1, 8, 16, 32, 40, 1, 1, 0⟩), (0x06, ⟨5, 8, 16, 32, 40, 1, 2, 0⟩), (0x07, ⟨9, 8, 16, 32, 0, 0, 0, 0⟩),
   (0x87, ⟨0, 8, 16, 0, 0, 0, 0, 0⟩), (0x08, ⟨3, 8, 16, 32, 0, 0, 0, 0⟩), (0x88, ⟨11, 8, 16, 0, 0, 0, 0, 0⟩), (0x09, ⟨9, 8, 16, 0, 0, 0, 0, 0⟩),
   (0x09, ⟨0, 8, 16, 0, 0, 0, 0, 0⟩), (0x0A, ⟨13, 8, 16, 0, 0, 0, 0, 0⟩), (0x0A, ⟨5, 8, 16, 0, 0, 0, 0, 0⟩), (0x0B, ⟨0, 8, 16, 32, 0, 0, 0, 0⟩),
   (0x0C, ⟨2, 8, 16, 0, 0, 0, 0, 0⟩), (0x0D, ⟨14, 8, 16, 32, 0, 0, 0, 0⟩), (0x8D, ⟨9, 8, 16, 0, 0, 0, 0, 0⟩), (0x0E, ⟨9, 8, 16, 32, 0, 0, 0, 0⟩),
   (0x8E, ⟨9, 8, 16, 0, 0, 0, 0, 0⟩), (0x0F, ⟨9, 8, 16, 32, 0, 0, 0, 0⟩), (0x8F, ⟨9, 8, 16, 0, 0, 0, 0, 0⟩), (0x10, ⟨11, 8, 16, 0, 0, 0, 0, 0⟩),
   (0x11, ⟨11, 8, 16, 32, 0, 0, 0, 0⟩), (0x91, ⟨11, 8, 16, 0, 0, 0, 0, 0⟩), (0x12, ⟨9, 8, 16, 32, 0, 0, 0, 0⟩), (0x92, ⟨9, 8, 16, 0, 0, 0, 0, 0⟩),
   (0x13, ⟨9, 8, 16, 32, 0, 0, 0, 0⟩), (0x93, ⟨9, 8, 16, 0, 0, 0, 0, 0⟩), (0x14, ⟨12, 8, 16, 32, 0, 0, 0, 0⟩), (0x15, ⟨0, 3, 16, 32, 9, 0, 0, 0⟩),
   (0x95, ⟨9, 15, 16, 0, 0, 0, 0, 0⟩), (0x16, ⟨0, 8, 16, 32, 15, 0, 3, 0⟩), (0x17, ⟨0, 8, 16, 0, 5, 0, 0, 3⟩), (0x18, ⟨0, 8, 16, 32, 1, 0, 3, 0⟩),
   (0x19, ⟨5, 8, 16, 0, 3, 0, 2, 0⟩), (0x1A, ⟨3, 8, 16, 1, 0, 0, 0, 0⟩), (0x1A, ⟨6, 8, 16, 0, 31, 0, 0, 1⟩), (0x1B, ⟨6, 16, 8, 0, 31, 0, 0, 1⟩),
   (0x1C, ⟨0, 8, 16, 0, 0, 0, 0, 0⟩), (0x1D, ⟨1, 8, 16, 0, 0, 0, 0, 0⟩), (0x1E, ⟨2, 8, 16, 0, 0, 0, 0, 0⟩), (0x1F, ⟨0, 8, 16, 0, 0, 0, 0, 0⟩),
   (0x20, ⟨0, 8, 16, 0, 0, 0, 0, 0⟩), (0x21, ⟨0, 8, 16, 5, 6, 0, 0, 0⟩), (0x22, ⟨9, 8, 16, 0, 0, 0, 3, 0⟩), (0x23, ⟨0, 8, 16, 0, 0, 0, 0, 0⟩),
   (0x24, ⟨5, 8, 16, 0, 0, 0, 0, 0⟩), (0x25, ⟨0, 8, 16, 0, 0, 0, 0, 0⟩), (0x26, ⟨0, 40, 8, 0, 60, 3, 0, 0⟩), (0x27, ⟨1, 40, 8, 0, 60, 0, 3, 0⟩),
   (0x28, ⟨0, 8, 16, 32, 60, 0, 0, 0⟩), (0x29, ⟨0, 40, 16, 0, 60, 0, 0, 0⟩), (0x2A, ⟨0, 17, 16, 21, 0, 1, 0, 0⟩), (0x2B, ⟨11, 8, 0, 0, 60, 0, 0, 0⟩),
   (0x2C, ⟨1, 8, 0, 0, 60, 0, 0, 0⟩), (0x2D, ⟨9, 8, 16, 32, 0, 0, 0, 0⟩), (0x2E, ⟨0, 8, 16, 32, 40, 0, 0, 0⟩), (0x2F, ⟨11, 8, 16, 5, 0, 0, 0, 0⟩),
   (0xAF, ⟨11, 10, 8, 0, 0, 0, 0, 0⟩), (0x30, ⟨0, 8, 16, 32, 5, 0, 0, 0⟩), (0x31, ⟨0, 8, 5, 0, 0, 0, 3, 0⟩), (0xB1, ⟨1, 8, 0, 0, 0, 0, 0, 0⟩),
   (0x32, ⟨0, 8, 5, 6, 0, 0, 0, 0⟩), (0x33, ⟨11, 63, 16, 5, 0, 0, 0, 0⟩), (0x34, ⟨0, 8, 16, 0, 0, 0, 0, 0⟩), (0x35, ⟨9, 8, 0, 0, 0, 0, 0, 0⟩),
   (0x36, ⟨0, 8, 16, 0, 3, 0, 0, 0⟩), (0x37, ⟨0, 8, 16, 0, 3, 0, 0, 0⟩), (0x38, ⟨0, 8, 16, 32, 0, 0, 2, 0⟩), (0x39, ⟨0, 8, 16, 32, 0, 0, 2, 0⟩),
   (0x3A, ⟨0, 15, 1, 2, 0, 0, 0, 0⟩), (0x3B, ⟨0, 3, 1, 2, 0, 0, 0, 0⟩), (0x3C, ⟨0, 3, 1, 2, 0, 0, 0, 0⟩), (0x3D, ⟨0, 3, 1, 0, 0, 0, 0, 0⟩),
   (0x3E, ⟨5, 3, 6, 0, 0, 0, 0, 0⟩), (0xBE, ⟨0, 5, 0, 0, 0, 0, 0, 0⟩), (0x3F, ⟨9, 5, 1, 0, 0, 0, 0, 0⟩), (0x40, ⟨5, 5, 1, 0, 0, 0, 0, 0⟩)]

/-- The clauses of the vector statements each have a legal syllable whose names map. -/
theorem witness_vector_syllables :
    vLegal.all (fun p => (Syll.v p.1 p.2).fits && (Syll.v p.1 p.2).legal && !((vRow (vBase p.1)).onlyVA && (st []).th.slot == 2) &&
      vAllNames (st []).th.rot p.1 p.2) = true := by decide

/-- The immediate forms: an immediate that is a value, a shift count at and above the bound. -/
theorem witness_vector_immediates :
    [0, 1, 2, 4, 9, 11, 12, 14].all (fun n => !vImmBad n (st []).th.xi) = true ∧ (stV [] [] 63).th.xi.toNat < 64 ∧ 64 ≤ (stV [] [] 64).th.xi.toNat ∧
    fmtI 9 = true ∧ fmtI 14 = true ∧ fmtI 5 = false ∧ fmtF 0 = true ∧ fmtF 5 = true ∧ fmtB 6 = true ∧ fmtB 3 = false := by decide

/-- A draw-control register of level `n`. -/
def drawControl (n : Nat) : VWord := BitVec.ofNat 2048 (n * 2 ^ 80)

/-- VectorDrawsAndTop: levels at and above the bound; a sum tree whose total is NaN, zero and positive. -/
theorem witness_vector_draws :
    (ctl ⟨0, 40, 16, 0, 60, 0, 0, 0⟩ (stV [(60, drawControl 0x2F)] [] 0)).lvl ≤ 0x2F ∧
    0x2F < (ctl ⟨0, 40, 16, 0, 60, 0, 0, 0⟩ (stV [(60, drawControl 0x30)] [] 0)).lvl ∧
    (let total (x : Nat) := (ffmt 0).decode (((stV [(16, BitVec.ofNat 2048 (x * 2 ^ 2016))] [] 0).lanes 0 16 1).getD 63 0)
     (total 0x7FC00000).isNan = true ∧ (total 0).isNan = false ∧ (total 0).isZero = true ∧ (total 0x3F800000).isNan = false ∧
     (total 0x3F800000).sign = false ∧ (total 0x3F800000).isZero = false) := by decide

/-- PredicateForms: no lane, the first lane and the last one of q1 at FP32. -/
theorem witness_predicates :
    let lane (q : BitVec 256) (i : Nat) : Bool := q.getLsbD (i % perReg 0 * fmtBits 0 / 8)
    (List.range (perReg 0)).all (fun i => !lane 0 i) = true ∧ lane 1 0 = true ∧ lane (BitVec.ofNat 256 (2 ^ 252)) 63 = true ∧
    (List.range 63).all (fun i => !lane (BitVec.ofNat 256 (2 ^ 252)) i) = true := by decide

/-! Witnesses: matrix and scale slots, accumulator memory. -/

/-- Tile 0 bound on plane P, activations and weights of BF16. -/
def mtx0 : Matrix := { latch := [(0, { tag := 1 })], tag := [(0, 1)], tile := [(0, some 0)] }

/-- MatrixPassesAndBindings, the pushes: a slot that may be read, the last row that fits, a slot that waits, a row past the end. -/
theorem witness_pushes :
    Legal (.m 1 ⟨1, 0, 0, 0, 127, 0, 1, 0⟩) ∧ Legal (.m 2 ⟨6, 0, 1, 31, 0, 1, 0, 0⟩) ∧ slotReady 0 (stM [] dFull mtx0) ∧ slotReady 1 (stM [] dFull mtx0) ∧
    127 + hSize ((stM [] dFull mtx0).ctx.setupOf 0) / 256 ≤ 128 ∧ 1 < hSize ((stM [] dFull mtx0).ctx.setupOf 1) / 256 ∧
    hSize ((stM [] dFull mtx0).ctx.setupOf 0) / 256 ≤ 1 ∧ (stM []).handleOk 0 = true ∧ ((stM []).ctx.handle 0).atCp = none ∧
    128 < 126 + hSize ((stM [] dFull mtx0).ctx.setupOf 1) / 256 := by
  refine ⟨by decide, by decide, ⟨by decide, by decide, ?_⟩, ⟨by decide, by decide, ?_⟩, by decide, by decide, by decide, by decide, by decide, by decide⟩
  · intro o h1 h2
    have e : (stM [] dFull mtx0).ctx.slotOff 0 ((stM [] dFull mtx0).ctx.handle 0).cp + hSize ((stM [] dFull mtx0).ctx.setupOf 0) = 256 := by decide
    rw [e] at h2
    have key : ∀ o, o < 256 → ((stM [] dFull mtx0).ctx.spadPhys o).isSome = true := by decide
    exact key o h2
  · intro o h1 h2
    have e : (stM [] dFull mtx0).ctx.slotOff 1 ((stM [] dFull mtx0).ctx.handle 1).cp + hSize ((stM [] dFull mtx0).ctx.setupOf 1) = 0x700 := by decide
    have z : (stM [] dFull mtx0).ctx.spadPhys o = some (3 * 0x4000 + o) := by
      have hb : o / 0x4000 = 0 := by omega
      have hm : o % 0x4000 = o := by omega
      unfold CoreCtx.spadPhys
      rw [hb, hm]; rfl
    rw [z]; rfl

/-- MatrixPassesAndBindings, the beats: a bound tile whose tags match, tags that do not, no binding; a plane of which the strand holds tile 0, one
of which it holds none. -/
theorem witness_beats :
    Legal (.m 4 ⟨1, 2, 0, 0, 127, 0, 0, 0⟩) ∧ tileOf 0 0 (stM [] dFull mtx0) ∧ (SMap.get (stM [] dFull mtx0).ctx.matrix.latch 0 {}).tag = 1 ∧
    SMap.get (stM [] dFull mtx0).ctx.matrix.tag 0 0 = 1 ∧ (SMap.get (stM [] dFull mtx0).ctx.matrix.latch 0 {}).tag ≠ 2 ∧
    (stM []).ctx.matrix.bound 0 = none ∧ Legal (.m 6 ⟨0, 0, 0, 0, 127, 0, 0, 0⟩) ∧ Legal (.m 3 ⟨0, 0, 0, 0, 127, 0, 0, 0⟩) ∧
    Legal (.m 7 ⟨0, 0, 0, 0, 0, 0, 0, 0⟩) ∧ Legal (.m 7 ⟨0, 0, 0, 0, 0, 1, 0, 0⟩) ∧ (stM []).holdsTile (128 * 0 + 32 * 0) = true ∧
    (∀ k, k < 4 → (stM []).holdsTile (128 * 1 + 32 * k) = false) ∧ Legal (.m 8 ⟨0, 0, 0, 0, 0, 0, 1, 0⟩) ∧ Legal (.m 8 ⟨0, 0, 0, 0, 0, 0, 0, 0⟩) := by decide

/-- MatrixDrainsAndAccumulators: a drain of the last row into a free slot and into one that is full; accumulator addresses at both ends. -/
theorem witness_drain_and_accumulators :
    Legal (.m 5 ⟨1, 0, 0, 0, 127, 0, 0, 0⟩) ∧ (stM [] {} mtx0).ctx.matrix.bound 0 = some 0 ∧ (stM [] {} mtx0).handleOk 0 = true ∧
    hSize ((stM [] {} mtx0).ctx.setupOf 0) % (16 * fmtBits 1) = 0 ∧ ((stM [] {} mtx0).ctx.handle 0).writable 0 = true ∧
    ((stM [] { st := [(0, 2)] } mtx0).ctx.handle 0).writable 0 = false ∧ ((stM [] {} mtx0).ctx.spadPhys 0).isSome = true ∧
    ((stM [] {} mtx0).ctx.spadPhys 255).isSome = true ∧ Legal (.l 6 ⟨0, 8, 6, 0, 0, 0, 0, 0, 0, 0, 0⟩) ∧ Legal (.w 6 ⟨0, 8, 6, 0, 0, 0, 0, 0, 0, 0, 0⟩) ∧
    vnamesOk (stM []).th.rot 8 1 = true ∧ lwAddress ⟨0, 8, 6, 0, 0, 0, 0, 0, 0, 0, 0⟩ (stM [(6, 0xFF00)]) = 0xFF00 ∧
    SMap.get (stM []).ctx.held (0xFF00 / 2048) 0 = (stM []).strandNo + 1 ∧ ¬ (SMap.get (stM []).ctx.held (0x7FF00 / 2048) 0 = (stM []).strandNo + 1) ∧
    lwAddress ⟨0, 8, 6, 0, 0, 0, 0, 0, 0, 0, 0⟩ (stM [(6, 0xFF01)]) % 256 ≠ 0 ∧ acqOf ⟨0, 8, 6, 0, 0, 0, 0, 0, 0, 0, 0⟩ = false ∧
    relOf ⟨0, 8, 6, 0, 0, 0, 0, 0, 0, 0, 0⟩ = false ∧ relOf ⟨0, 8, 6, 0, 0, 2, 0, 0, 0, 0, 0⟩ = true ∧ (stM []).lsbuOpen = false := by decide

/-- ScaleSetAndMove, ScaleAdjustClampsExponents and ScaleLoadsFromScratchpad: legal forms, both forms of zgen, the first and last addresses. -/
theorem witness_scale :
    Legal (.z 3 ⟨31, 63, 0⟩) ∧ Legal (.z 4 ⟨3, 31, 0⟩) ∧ Legal (.z 5 ⟨3, 5, 0xFFFF⟩) ∧ Legal (.z 5 ⟨3, 5, 0x1FFFE⟩) ∧ 0xFFFF / 2 ^ 16 = 0 ∧
    0x1FFFE / 2 ^ 16 = 1 ∧ Legal (.z 1 ⟨3, 6, 0⟩) ∧ Legal (.z 2 ⟨3, 6, 0⟩) ∧ scaleAddress 0x7FFE00000000 66 0xC000 (stM [(6, 0x7FFE00000000)]) ∧
    scaleAddress 0x7FFE00003FFE 2 0xFFFE (stM [(6, 0x7FFE00003FFE)]) ∧ ¬ (0x7FFE00000000 ≤ 0x7FFE00200000 ∧ 0x7FFE00200000 < 0x7FFE00200000) ∧
    0x7FFE00000001 % 2 ≠ 0 := by decide

/-! Witnesses: loads and stores. -/

/-- A plain load or store syllable. -/
def lw (ty d : Nat) (fe : Nat := 0) (ord : Nat := 0) (idx : Nat := 0) : LW := ⟨ty, d, 6, idx, 0, ord, 0, fe, 0, 0, 0⟩

/-- ScratchpadAccesses: the last aligned bytes of a bank, full and empty granules, earlier accesses open. -/
theorem witness_scratchpad :
    AccessLegal (.l 1 (lw 7 63)) 63 0 (stM []) ∧ AccessLegal (.l 4 (lw 7 5)) 5 0 (stM []) ∧ AccessLegal (.l 2 (lw 0 1023)) 1023 1 (stM []) ∧
    AccessLegal (.l 3 (lw 3 1016)) 1016 8 (stM []) ∧ AccessLegal (.l 7 (lw 0 15)) 15 0 (stM []) ∧ AccessLegal (.w 1 (lw 7 63)) 63 0 (stM []) ∧
    AccessLegal (.w 4 (lw 6 5)) 5 0 (stM []) ∧ AccessLegal (.w 2 (lw 0 8)) 8 1 (stM []) ∧ AccessLegal (.w 3 (lw 3 8)) 8 8 (stM []) ∧
    AccessLegal (.w 7 (lw 0 15)) 15 0 (stM []) ∧ AccessLegal (.w 1 (lw 7 5 0 2)) 5 0 (stM []) ∧
    onScratchpad (based (lw 7 5) (stM [(6, 0x7FFE00003FF8)])) 8 0xFFF8 false (stM [(6, 0x7FFE00003FF8)]) ∧
    onScratchpad (indexed (lw 7 5) (stM [(6, 0x7FFE00000000)])) 8 0xC000 true (stM [(6, 0x7FFE00000000)]) ∧
    onScratchpad (based (lw 3 8) (stM [(6, 0x7FFE00003800)])) 2048 0xF800 true (stM [(6, 0x7FFE00003800)]) ∧
    onScratchpad (based (lw 0 8) (stM [(6, 0x7FFE00003F00)])) 256 0xFF00 false (stM [(6, 0x7FFE00003F00)]) ∧
    onScratchpad (based (lw 0 8) (stM [(6, 0x7FFE00003FE0)])) 32 0xFFE0 false (stM [(6, 0x7FFE00003FE0)]) ∧
    (lw 7 5).fe = 0 ∧ (stM []).lsbuOpen = false ∧ (stM []).lsbuBefore (stM []).cur (stM []).mem.nextReq = false := by decide

/-- The state with the granule at 0xC000 full. -/
def stGranule : State := stOn { coreM (th0 [(6, 0x7FFE00000000)]) {} {} with full := [0xC00] }

/-- ScratchpadAccesses, full-empty modes: an empty granule holds a load back, a full one a store of mode 1. -/
theorem witness_full_empty :
    ¬ fullEnough (lw 7 5 1) 0xC000 8 (stM []) ∧ ¬ emptyEnough (lw 7 5 1) 0xC000 8 stGranule ∧ fullEnough (lw 7 5 2) 0xC000 8 stGranule ∧
    emptyEnough (lw 7 5 1) 0xC000 8 (stM []) := by
  have t : touched 0xC000 8 0xC00 := by decide
  refine ⟨?_, ?_, .inr ?_, .inr ?_⟩
  · rintro (h | h)
    · exact absurd h (by decide)
    · exact absurd (h 0xC00 t) (by decide)
  · rintro (h | h)
    · exact absurd rfl h
    · exact absurd (show 0xC00 ∈ (stGranule.core stGranule.cur).full by decide) (h 0xC00 t)
  · intro g hg
    obtain ⟨h1, h2⟩ := hg
    have : g = 0xC00 := by omega
    subst this; decide
  · intro g _
    have : ((stM []).core (stM []).cur).full = [] := by decide
    rw [this]; simp

/-- A state with a store of this core still on its way in the home slices. -/
def stBusy (kind : ReqKind) (n : Nat) : State :=
  { stM [(6, 0x7FFE00000000)] with mem := { (stM []).mem with net := List.replicate n { core := 3, kind := kind, parts := [{ addr := 0x40000000, len := 8 }] } } }

/-- A page's one piece of 8 bytes, as the tables give it. -/
def piecesAt (ea n : Nat) (w : Bool) : List Piece := match cutAccess (stM []) ((stM []).who (stM []).launch) w ea n with | .ok ps => ps | .error _ => []

/-- HomeSliceAccesses: an address that translates, an active byte, outstanding results below and at the bound. -/
theorem witness_home_slices :
    onMemory (lw 7 5) (based (lw 7 5) (stM [(6, 0x40000078)])) 8 false (piecesAt 0x40000078 8 false) (stM [(6, 0x40000078)]) ∧
    onMemory (lw 7 5) (indexed (lw 7 5) (stM [(6, 0x40000078)])) 8 true (piecesAt 0x40000078 8 true) (stM [(6, 0x40000078)]) ∧
    onMemory (lw 0 8) (based (lw 0 8) (stM [(6, 0x40000100)])) 256 true (piecesAt 0x40000100 256 true) (stM [(6, 0x40000100)]) ∧
    onMemory (lw 3 8) (based (lw 3 8) (stM [(6, 0x40000000)])) 2048 false (piecesAt 0x40000000 2048 false) (stM [(6, 0x40000000)]) ∧
    onMemory (lw 0 8) (based (lw 0 8) (stM [(6, 0x40000020)])) 32 false (piecesAt 0x40000020 32 false) (stM [(6, 0x40000020)]) ∧
    ((stM []).th.rQ 0).getLsbD (7 % 256) = true ∧ (stM []).th.outstanding < 64 ∧ (stM []).th.outstanding + 8 ≤ 64 ∧
    noCipherHit (piecesAt 0x40000078 8 false) (stM []) ∧ someActive (lw 7 5) 8 (piecesAt 0x40000078 8 true) (stM []) ∧
    (∀ p, p ∈ piecesAt 0xC0000000 256 true → p.x.cn = true) ∧ (stM []).storesOut (stM []).cur < 128 ∧ 128 ≤ (stBusy .store 128).storesOut 3 ∧
    64 ≤ (stOn (coreM { th0 [] with pend := [{ id := 1, regs := (List.range 64).map Reg.v, bundle := 1 }] } {} {})).th.outstanding := by decide

/-- AccessChecksComeInOrder: an encoding, an alignment, a translation, a full-empty mode on memory, a count on a page that is not consumable, a
bank the launch does not own. -/
theorem witness_access_checks :
    ¬ AccessLegal (.l 1 (lw 7 64)) 64 0 (stM []) ∧ (Syll.l 1 (lw 7 63 3)).fits = true ∧ ¬ AccessLegal (.l 1 (lw 7 63 3)) 63 0 (stM []) ∧ ¬ (0x40000001 % min 8 16 = 0) ∧
    cutAccess (stM []) ((stM []).who (stM []).launch) false 0x100000000 8 = .error (0x0101, 1, 0x100000000) ∧
    cutAccess (stM []) ((stM []).who (stM []).launch) true 0x80000000 8 = .error (0x0102, 1, 0x80000000) ∧
    cutAccess (stM []) ((stM []).who (stM []).launch) false 0x40000078 8 = .ok (piecesAt 0x40000078 8 false) ∧
    (∃ p, p ∈ piecesAt 0x40000078 8 false ∧ p.spad = none) ∧ (lw 7 5 1).fe ≠ 0 ∧ (lw 0 8 0 0 3).idx ≠ 0 ∧
    ((piecesAt 0x40000000 256 true).find? fun p => !p.x.cn).isSome = true ∧ (piecesAt 0x7FFE00010000 8 false).length = 1 ∧
    (stM []).ctx.spadPhys 0x10000 = none := by decide

/-! Witnesses: buffers and bank operations. -/

/-- A buffer-slot syllable: handle h, offset off, .cons with x. -/
def cb (d h x off : Nat) : LW := ⟨0, d, 0, h, x, 0, 0, 0, 0, 0, off⟩

/-- BufferForms, the slots: the last 256 bytes of a slot, counts above 1, at 1 and at 0, a slot that waits, a handle that is not configured. -/
theorem witness_buffer_slots :
    AccessLegal (.l 5 (cb 1023 1 0 512)) 1023 1 (stM []) ∧ AccessLegal (.l 5 (cb 8 0 1 0)) 8 1 (stM []) ∧ AccessLegal (.w 5 (cb 8 1 0 512)) 8 1 (stM []) ∧
    onSlotAt (cb 8 1 0 512) 0 0xC600 (stM []) ∧ onSlotAt (cb 8 0 1 0) 0 0xC000 (stM []) ∧ dFull.atCp = some true ∧
    (stM [] dFull).spadHeld false = false ∧ (stM [] dFull).spadHeld true = false ∧ ((stM [] dFull).ctx.handle 0).atCp = some true ∧
    1 < ({ st := [(0, 3)], cnt := [(0, 2)] } : Handle).count 0 ∧ ({ st := [(0, 3)], cnt := [(0, 1)] } : Handle).count 0 = 1 ∧ dFull.count 0 = 0 ∧
    ((stM []).ctx.handle 0).atCp = none ∧ ((stM []).ctx.handle 1).writable 0 = true ∧ dFull.writable 0 = false ∧ nothingBefore (cb 8 1 0 512) (stM []) ∧
    (stM []).handleOk 5 = false ∧ (stM []).handleOk 8 = false := by decide

/-- A bank-operation syllable on S[6] with operand register `idx`. -/
def bk (ty d idx : Nat) : LW := ⟨ty, d, 6, idx, 0, 0, 0, 0, 0, 0, 0⟩

/-- What a bank operation at 0x40000100 meets, over `n` bytes. -/
def bankPieces (n : Nat) : List Piece := piecesAt 0x40000100 n true

/-- BankOperationsAreSent: every op with its last type code, and both queues below and at their bounds. -/
theorem witness_bank_operations :
    let s := stM [(6, 0x40000100)]
    [(8, bk 7 63 7), (10, bk 6 5 7), (11, bk 5 5 7), (12, bk 4 5 7), (13, bk 0 5 7), (14, bk 7 5 7), (15, bk 7 5 7), (16, bk 7 5 7), (17, bk 7 5 0),
      (18, bk 0 5 7), (19, bk 0 5 0), (20, bk 0 1023 7)].all (fun p =>
      decide (AccessLegal (.w p.1 p.2) p.2.d 0 s ∧ bankMay p.1 p.2 (operandBytes p.1 p.2.ty) (bankPieces (operandBytes p.1 p.2.ty)) s)) = true ∧
    AccessLegal (.w 9 (bk 1 8 7)) 8 1 s ∧ bankMay 9 (bk 1 8 7) 128 (bankPieces 128) s ∧ ((stM []).th.rQ 0).getLsbD 0 = true ∧ s.th.outstanding < 64 ∧
    64 ≤ (stOn (coreM { th0 [] with pend := [{ id := 1, regs := (List.range 64).map Reg.v, bundle := 1 }] } {} {})).th.outstanding := by decide

/-! Witnesses: home slices and what completes accesses. -/

/-- A request of core 3 with one part of `n` bytes at `a`, on a consumable page or not. -/
def reqOf (k : ReqKind) (a n : Nat) (cn : Bool) (pend : Option Nat) : Req :=
  { id := 9, core := 3, launch := 7, kind := k, parts := [{ addr := a, len := n, va := a, ok := 1, cn := cn, tag := 5 }]
    data := List.replicate n 1, mask := List.replicate n true, pend := pend, ty := 7 }

/-- The state in which HOME_SLICE_ACCEPT names part 0 of it; the line at 0x40000100 holds count `c`. -/
def stReq (r : Req) (c : Nat := 0) : State :=
  { stM [] with ev := { a := 9 }, mem := { (stM []).mem with net := [r], lines := if c = 0 then [] else [(0x800002, { count := c })] } }

/-- A request whose only part is part 0 has no other. -/
theorem lastPart_one (r : Req) (p : Part) (s : State) (h : r.parts = [p]) (e : s.ev.b = 0) : lastPart r s := by
  intro j q hj hne
  rw [h] at hj
  cases j with
  | zero => exact absurd e.symm hne
  | succ j => simp at hj

/-- MemoryEventsHappen, home slices: stores, loads of lines with counts 0, 1 and 2, bank operations. -/
theorem witness_home_slice_accept :
    (let r := reqOf .store 0x40000100 128 false none
     accepted r (r.parts.headD {}) (stReq r) ∧ r.fault = none ∧ (stReq r).zeroMarked 0x40000100 = false ∧
       ((stReq r).line 0x40000100).writeFault true = none) ∧
    (let r := reqOf .load 0x40000108 8 true (some 9)
     accepted r (r.parts.headD {}) (stReq r 2) ∧ accepted r (r.parts.headD {}) (stReq r 1) ∧ (stReq r 2).segWaits 0x40000108 = none ∧
       ((stReq r 2).line 0x40000108).readFault false = none ∧ ((stReq r 1).line 0x40000108).readFault false = none ∧ r.pend.isSome = true ∧
       1 < ((stReq r 2).line 0x40000108).count ∧ ((stReq r 1).line 0x40000108).count = 1 ∧ ((stReq r).line 0x40000108).count = 0) ∧
    (let r := reqOf (.bank 17 7) 0x40000100 8 false (some 9)
     accepted r (r.parts.headD {}) (stReq r) ∧ ∀ q, q ∈ r.parts → ((stReq r).line q.addr).readFault false = none) ∧
    (let r := reqOf (.bank 19 0) 0x40000100 16 false (some 9)
     let s := { stReq r with mem := { (stReq r).mem with bytes := Memory.writeN tables 0x40000100 (natLe 4 3 ++ natLe 4 4 ++ natLe 4 0x180 ++ natLe 4 0) } }
     accepted r (r.parts.headD {}) s ∧ s.physLe 0x40000100 4 ≤ s.physLe 0x40000104 4 ∧
       s.physLe 0x40000108 4 + 8 * s.physLe 0x40000104 4 ≤ 0x200000 ∧ s.physLe 0x40000108 4 % 8 = 0 ∧ s.physLe 0x4000010C 4 = 0 ∧
       0 < s.physLe 0x40000100 4) := by decide

theorem witness_last_part : lastPart (reqOf .load 0x40000108 8 true (some 9)) (stReq (reqOf .load 0x40000108 8 true (some 9)) 1) :=
  lastPart_one _ _ _ rfl rfl

/-- A load that has come back for s63. -/
def stFill : State :=
  { stOn (coreM { th0 [(5, 77)] with pend := [{ id := 9, regs := [.s 63], bundle := 4 }] } {} {}) with
    ev := { a := 9 }, mem := { (stM []).mem with net := [{ reqOf .load 0x40000108 8 false (some 9) with ready := true }] } }

/-- MemoryEventsHappen, LOAD_FILL. -/
theorem witness_load_fill :
    let r := { reqOf .load 0x40000108 8 false (some 9) with ready := true }
    stFill.req stFill.ev.a = some r ∧ r.ready = true ∧ (stFill.core r.core).freeze = 0 ∧
    ((stFill.core r.core).th.pend.find? fun p => p.id == r.id) = some { id := r.id, regs := [.s 63], bundle := 4 } ∧ r.kind = .load ∧ r.ty ≤ 7 := by
  decide

/-- A core to which a late fault has been reported. -/
def stLate : State :=
  { stOn (coreM { th0 [] with late := [{ cause := 0x0406, late := true, tva := 0x1234, owner := some 0 }] } {} {}) with
    ev := { a := 3 }, mem := { (stM []).mem with zeroFill := [3] } }

/-- MemoryEventsHappen: a late fault of the last class, a page to zero, segments that load, fail once and twice. -/
theorem witness_memory_events :
    (stLate.core 3).th.late = [{ cause := 0x0406, late := true, tva := 0x1234, owner := some 0 }] ∧ (stLate.core 3).th.drain = .none ∧
    stLate.engineOn 3 = true ∧ (stLate.core 3).strand.isSome = true ∧ (stLate.core 3).th.th = false ∧
    ({ stLate with cur := 3 } : State).launch.record.trapv ≠ 0 ∧ causeClass 0x0406 ≤ 4 ∧ stLate.ev.a ∈ stLate.mem.zeroFill := by decide

/-- Segment 0 being loaded, tried before or not, with content `b` and an expected hash `h`. -/
def stSeg (b h : List Byte) (flag retried : Bool) : State :=
  { stM [] with
    ev := { a := 0, flag := flag, bytes := b }
    mem := { (stM []).mem with segs := [(0, { st := 1, page := 0x40000000, retried := retried, hash := h })] } }

/-- Whatever a page holds, a segment whose hash is that of its content loads; one fails once and twice. -/
theorem witness_segment (b : List Byte) :
    ((stSeg b (sha256 b) false false).seg 0).st = 1 ∧ (stSeg b (sha256 b) false false).ev.flag = false ∧
    sha256 (stSeg b (sha256 b) false false).ev.bytes = ((stSeg b (sha256 b) false false).seg 0).hash ∧ ((stSeg b [] true false).seg 0).st = 1 ∧
    (stSeg b [] true false).ev.flag = true ∧ ((stSeg b [] true false).seg 0).retried = false ∧ ((stSeg b [] true true).seg 0).st = 1 ∧
    (stSeg b [] true true).ev.flag = true ∧ ((stSeg b [] true true).seg 0).retried = true :=
  ⟨rfl, rfl, rfl, rfl, rfl, rfl, rfl, rfl, rfl⟩

theorem witness_segment_page : ∃ b : List Byte, (stSeg b (sha256 b) false false).ev.bytes.length = 0x200000 :=
  ⟨List.replicate 0x200000 0, List.length_replicate ..⟩


/-! Witnesses: the synchronisation slot. -/

/-- Scalar registers of these tests. -/
def regs : SMap Word :=
  [(1, 1), (2, 0x80000005), (3, 0x100000000), (4, 4), (5, 40), (6, 3), (8, 129), (9, 0x10005), (10, 0x7FC00000), (11, 2), (12, 0x1000000000000),
   (13, 0x8000000000000000)]

/-- A load or store of core 3 that is not performed. -/
def ld (id : Nat) : Req := { reqOf .load 0x40000108 8 false (some id) with id := id }
def sto (id : Nat) : Req := { reqOf .store 0x40000108 8 false none with id := id }

/-- The state with these accesses in the net; the bundle that issues began at identifier `rs`. -/
def withNet (l : List Req) (rs : Nat) (s : State) : State :=
  { s with mem := { s.mem with net := l, nextReq := 9 } }.modTh fun th => { th with reqStart := rs }

/-- The state with another launch record. -/
def withL (f : Launch → Launch) (s : State) : State := { s with circ := { s.circ with launches := [(7, some (f launch0))] } }

/-- Group 3 of the launch, and the barrier wait of the strand. -/
def stGroup (g : Group) (gang : Bool) (w : List (Nat × Nat)) : State :=
  (withL (fun l => { l with groups := [(3, g)], events := [(5, 7)], record := { l.record with gang := gang, bkt := gang } }) (stM regs)).modTh fun th =>
    { th with barWait := w }

/-- The state at the issue of a bundle that began at identifier 9. -/
def s9 (l : List Req) : State := withNet l 9 (stM regs)

/-- Fences and pfences: with nothing before them, with an access of an earlier bundle, with one of the same bundle. -/
theorem witness_fences :
    Legal (.yf 1 ⟨0, 0, 0⟩) ∧ Legal (.yf 1 ⟨1, 1, 0⟩) ∧ Legal (.yf 1 ⟨0, 2, 0⟩) ∧ (s9 [ld 3]).fenceOpen 3 0 9 = true ∧ (s9 []).fenceOpen 3 0 9 = false ∧
    (withNet [ld 8] 8 (stM regs)).fenceOpen 3 1 8 = false ∧ (withNet [ld 8] 8 (stM regs)).fenceOpen 3 1 9 = true ∧
    Legal (.yp 2 ⟨0, 1, 1, 0⟩) ∧ Legal (.yp 2 ⟨0, 1, 2, 0⟩) ∧ Legal (.yp 2 ⟨0, 1, 4, 0⟩) ∧ (s9 [ld 3]).pathsBusy 3 1 9 9 0 = true ∧
    (s9 []).pathsBusy 3 1 9 9 0 = false ∧ (withNet [ld 8] 8 (stM regs)).pathsBusy 3 1 8 9 0 = false ∧
    (withNet [ld 8] 8 (stM regs)).pathsBusy 3 1 9 9 0 = true := by decide

/-- Events: amounts 1, the largest and one above it; a count reached, just missed and not reached. -/
theorem witness_events :
    let s := stGroup {} false []
    let l := s.launch
    onSlot 7 l s ∧ Legal (.ye 15 ⟨255, 1, 0⟩) ∧ Legal (.ye 14 ⟨0, 3, 0⟩) ∧ (s.rS 1).toNat < 2 ^ 32 ∧ 2 ^ 32 ≤ (s.rS 3).toNat ∧
      s.releaseOpen 3 s.mem.nextReq = false ∧ (s9 [sto 3]).releaseOpen 3 9 = true ∧ s.signalOpen 3 = false ∧ (withSignal s).signalOpen 3 = true ∧ (l.event 5 - (s.rS 1).setWidth 32).toNat < 2 ^ 31 ∧
      2 ^ 31 ≤ (l.event 5 - (s.rS 8).setWidth 32).toNat := by decide

/-- Groups and barriers: arrived before and let go or not, not a member, alone or not without a gang, the last to arrive, alone, the first. -/
theorem witness_groups :
    let g0 : Group := { members := [0], phase := 2 }
    let g1 : Group := { members := [0, 1], phase := 2, phaseMembers := some [0, 1], arrived := [1] }
    let g2 : Group := { members := [0, 1], phase := 2 }
    Legal (.yg 9 ⟨15, 0⟩) ∧ Legal (.yg 10 ⟨0, 0⟩) ∧ Legal (.yg 11 ⟨3, 0⟩) ∧
    ((stGroup g0 true [(3, 1)]).th.barWait.find? fun b => b.1 == 3) = some (3, 1) ∧ 1 < ((stGroup g0 true [(3, 1)]).launch.group 3).phase ∧
    ((stGroup g0 true [(3, 2)]).th.barWait.find? fun b => b.1 == 3) = some (3, 2) ∧ ((stGroup g0 true [(3, 2)]).launch.group 3).phase ≤ 2 ∧
    ((stGroup g0 true []).th.barWait.find? fun b => b.1 == 3) = none ∧ (stGroup g0 true []).strandNo = 0 ∧
    0 ∉ ((stGroup {} true []).launch.group 3).members ∧ ((stGroup g1 false []).launch.group 3).members ≠ [0] ∧
    (stGroup g1 true []).signalOpen 3 = false ∧ (withSignal (stGroup g1 true [])).signalOpen 3 = true ∧
    (s9 [sto 3]).releaseOpen 3 9 = true ∧ (stGroup g1 true []).releaseOpen 3 (stGroup g1 true []).th.reqStart = false ∧
    ((stGroup g1 true []).launch.group 3).phaseMembers = some [0, 1] ∧ (∀ i, i ∈ [0, 1] → i = 0 ∨ i ∈ ((stGroup g1 true []).launch.group 3).arrived) ∧
    ((stGroup g0 false []).launch.group 3).phaseMembers = none ∧ ((stGroup g0 false []).launch.group 3).members = [0] ∧
    ((stGroup g0 false []).launch.group 3).next = [] ∧ ((stGroup g2 true []).launch.group 3).phaseMembers = none ∧
    ∃ i, i ∈ ((stGroup g2 true []).launch.group 3).members ∧ i ≠ 0 := by
  repeat' first | exact ⟨1, by decide⟩ | apply And.intro | decide

/-- seqwait with operands 0 and 1 under a bucket table, with writes on their way or none; swaptok below 2^48 and not aligned. -/
theorem witness_seqwait :
    Legal (.yr 0x18 ⟨0, 1, 0, 0⟩) ∧ (stGroup {} true []).launch.record.bkt = true ∧ (stGroup {} true []).rS 0 = 0 ∧ (stGroup {} true []).rS 1 = 1 ∧
    ((stGroup {} true []).core 3).seqWrites = [] ∧ (stOn { coreM (th0 regs) {} {} with seqWrites := [(true, 1)] }).rS 0 = 0 ∧
    ((stOn { coreM (th0 regs) {} {} with seqWrites := [(true, 1)] }).core 3).seqWrites ≠ [] ∧ (stM regs).launch.record.bkt = false ∧
    Legal (.yr 0x10 ⟨0, 4, 0, 0⟩) ∧ ((stM regs).rS 4).toNat % 4 = 0 ∧ ((stM regs).rS 4).toNat < 2 ^ 48 ∧
    ¬ (((stM regs).rS 6).toNat % 4 = 0 ∧ ((stM regs).rS 6).toNat < 2 ^ 48) ∧ ¬ (((stM regs).rS 12).toNat % 4 = 0 ∧ ((stM regs).rS 12).toNat < 2 ^ 48) := by
  decide

/-- Handles: a ring that ends with the scratchpad, one that does not fit, an operation that names the handle. -/
theorem witness_handle_setup :
    let w := setupWord 256 4096 0 1
    let s := stM [(6, w), (7, setupWord 256 4352 0 1)]
    let busy := s.modCtx fun x => { x with copyq := [{ op := 1, f := 0, mw := 1 }] }
    Legal (.yh 3 ⟨7, 6, 0, 0⟩) ∧ setupReserved w ∧ 7 < s.launch.record.hnd ∧ ringFits w s ∧ s.handleBusy 3 0 = false ∧ busy.handleBusy 3 0 = true ∧
    ¬ ringFits (s.rS 7) s ∧ ¬ setupReserved 0x2000 ∧ s.handleOk 5 = false ∧ s.handleOk 2 = true := by decide

/-- Producers and consumers: slots free, full and draining, closed handles, counts with and without CNT, held writes, closing at once or later. -/
theorem witness_handle_moves :
    let s := stM [(6, 15)]
    let held := { s with mem := { s.mem with net := [{ sto 3 with parts := [{ addr := 2 ^ 50 + 0xC000, len := 8 }] }] } }
    Legal (.yh 4 ⟨2, 0, 0, 0⟩) ∧ Legal (.yh 5 ⟨2, 6, 0, 0⟩) ∧ Legal (.yh 6 ⟨2, 0, 0, 0⟩) ∧ (s.ctx.handle 2).closed = false ∧
    (s.ctx.handle 2).writable 0 = true ∧ dFull.writable 0 = false ∧ dFull.atCp = some true ∧ (s.ctx.handle 2).atCp = none ∧
    ((s.rS 6).toNat ≤ 15 ∧ hCnt (s.ctx.setupOf 2) = true ∧ writesMade 2 s ∧ ¬ writesMade 2 held ∧
      ({ closed := true } : Handle).closed = true ∧ ({ closed := true } : Handle).atCp = some false) := by decide

/-- A release of a line on a consumable page and on another. -/
theorem witness_line_release :
    Legal (.yh 6 ⟨0, 6, 1, 0⟩) ∧
    (∃ p, cutAccess (stM []) ((stM []).who (stM []).launch) false 0xC0000100 1 = .ok [p] ∧ p.x.cn = true) ∧
    ∃ p, cutAccess (stM []) ((stM []).who (stM []).launch) false 0x40000100 1 = .ok [p] ∧ p.x.cn = false := by
  refine ⟨by decide, ⟨_, rfl, by decide⟩, ⟨_, rfl, by decide⟩⟩

/-- Scratchpad banks: the last of the launch and the first beyond it, owned or not, being released, with an operation under way. -/
theorem witness_scratchpad_banks :
    let s := stM []
    let busy := s.modCtx fun x => { x with copyq := [{ op := 1, a := 0x7FFE00000000, b := 0x40000000, n := 256, id := 4, running := true }] }
    let freed := s.modCtx fun x => { x with rp := [(3, [], [4])] }
    Legal (.yb 7 ⟨127, 0⟩) ∧ Legal (.yb 8 ⟨63, 0⟩) ∧ s.launch.record.spb = 64 ∧ 63 ∉ s.ctx.own ∧ 3 ∈ s.ctx.own ∧ s.ctx.releasing 3 = false ∧
    freed.ctx.releasing 3 = true ∧ s.heldOfBank 3 3 = [] ∧ s.opsOfBank 3 3 = [] ∧
    busy.bankDone 3 (0, busy.heldOfBank 3 0, busy.opsOfBank 3 0) = false := by decide

/-- Accumulator banks: counts 0, 1, 128 and 129, a run in the second plane, banks held and not. -/
theorem witness_accumulator_banks :
    let s := stM regs
    Legal (.ya 12 ⟨7, 1, 2, 0⟩) ∧ Legal (.ya 12 ⟨7, 8, 1, 0⟩) ∧ Legal (.ya 13 ⟨0, 1, 0, 0⟩) ∧ (s.rS 0).toNat = 0 ∧ 128 < (s.rS 8).toNat ∧
    (s.rS 1).toNat = 1 ∧ s.ctx.banksUsed + 1 ≤ s.launch.record.acc ∧ bankRun 2 1 32 s ∧ (∀ c, c < 32 → ¬ bankRun 2 1 c s) ∧ bankRun 1 128 128 s ∧
    s.launch.record.acc < s.ctx.banksUsed + 128 ∧ (s.rS 0).toNat + 1 ≤ 256 ∧ (∀ i, i < 1 → SMap.get s.ctx.held (0 + i) 0 = s.strandNo + 1) ∧
    SMap.get s.ctx.held 40 0 ≠ s.strandNo + 1 := by decide

/-- A node of the Grader. -/
def gn (i p : BitVec 16) (f : BitVec 32) : GNode := { id := i, parent := p, prio := f }

/-- The Grader: its largest capacity, both directions, a NaN, a full and an empty Grader, a chain of parents. -/
theorem witness_grader :
    let s := (stM ((14, 1024) :: (15, 0x3F800000) :: regs)).modCtx fun x => { x with gnodes := [gn 3 0 0x3F000000, gn 1 3 0x3E000000, gn 2 1 0], gcap := 3 }
    Legal (.yr 0x11 ⟨0, 14, 1, 0⟩) ∧ (s.rS 14).toNat ≤ 1024 ∧ (s.rS 1).toNat ≤ 1 ∧ Legal (.yr 0x12 ⟨0, 9, 15, 0⟩) ∧ (s.rS 9).toNat < 2 ^ 32 ∧
    ((ffmt 0).decode 0x7FC00000).isNan = true ∧ ((ffmt 0).decode 0x3F800000).isNan = false ∧ ranked false s.ctx.gnodes ∧
    (s.ctx.gnodes.map (·.id)).Nodup ∧ Legal (.yr 0x13 ⟨7, 0, 0, 0⟩) ∧ (stM []).ctx.gnodes = [] ∧ Legal (.yr 0x14 ⟨7, 11, 0, 0⟩) ∧
    Legal (.yr 0x15 ⟨0, 11, 0, 0⟩) ∧ (s.rS 11).toNat < 2 ^ 16 := by decide

/-- grprune 0xFFFF spares the nodes without a parent (17 R490 R491); grprune of a parent takes its children's children too. -/
theorem test_grprune_no_parent :
    let s := (stM [(1, 0xFFFF), (2, 3)]).modCtx fun x => { x with gnodes := [gn 3 0xFFFF 0x3F000000, gn 1 3 0x3E000000, gn 2 1 0], gcap := 3 }
    nextIs (execGrprune ⟨0, 1, 0, 0⟩ s) (fun t => t.ctx.gnodes.length == 3) = true ∧
      nextIs (execGrprune ⟨0, 2, 0, 0⟩ s) (fun t => t.ctx.gnodes.isEmpty) = true := by decide

/-- A held fault, taken or not. -/
def heldFault (b : Bool) : Option (TrapInfo × Bool) := some ({ cause := 0x0101 }, b)

/-- Stopped operations of the three engines. -/
def stStopped : State := (stM regs).modCtx fun x =>
  { x with copyq := [{ id := 2 }, { id := 1, op := 1, f := 3, mw := 1, row := 9, fault := heldFault true }], streamq := [{ id := 3, f := 4, row := 8, fault := heldFault false }],
           cipherq := [{ id := 5, f := 6, buf := true, row := 0x100000007, fault := heldFault true }] }

/-- Row progress: of each engine, kept and dropped. -/
theorem witness_row_progress :
    let s := stStopped
    Legal (.yr 0x16 ⟨7, 11, 0, 0⟩) ∧ Legal (.yr 0x17 ⟨0, 6, 13, 0⟩) ∧ (s.rS 11).toNat = 2 ∧ (s.rS 6).toNat = 3 ∧ (s.rS 4).toNat = 4 ∧
    (s.rS 1).toNat < 2 ∧ 4 < (s.rS 5).toNat ∧ (∀ o, o ∈ (stM regs).ctx.copyq → o.fault = none) ∧
    (s.ctx.copyq.find? (·.fault.isSome)).isSome = true ∧ (s.ctx.streamq.find? (·.fault.isSome)).isSome = true ∧
    (s.ctx.cipherq.find? (·.fault.isSome)).isSome = true ∧ (s.rS 5).toNat < 2 ^ 63 ∧ 2 ^ 63 ≤ (s.rS 13).toNat := by decide

/-! Witnesses: copy and cipher slots, Proem's extensions. -/

/-- Scalar registers of the copy slot's tests. -/
def cregs : SMap Word :=
  [(1, 0x40000100), (2, 0x40000180), (3, 256), (4, 0), (5, 0x40000101), (6, 100), (7, 0x100000000), (8, 128), (9, 4096), (10, 65536), (11, 512),
   (12, 0x400001080503), (13, 0x400001040503), (14, 0x3000040)]

/-- Queues of these lengths. -/
def stQueues (n m k : Nat) : State :=
  (stM cregs).modCtx fun x => { x with copyq := List.replicate n {}, streamq := List.replicate m {}, fabricq := List.replicate k {} }

/-- Copies: to a slot of handle 1 up to its end, from it, between addresses, stores that are and are not lines, counts of zero and beyond. -/
theorem witness_copies :
    let s := stQueues 31 0 0
    Legal (.c 1 ⟨1, 11, 1, 3, 1⟩) ∧ cpyOperands ⟨1, 11, 1, 3, 1⟩ s ∧ cpyOperands ⟨1, 1, 4, 3, 2⟩ s ∧ Legal (.c 1 ⟨0, 1, 2, 3, 0⟩) ∧
    cpyOperands ⟨0, 1, 2, 3, 0⟩ s ∧ s.ctx.copyq.length < 32 ∧ ¬ (stQueues 32 0 0).ctx.copyq.length < 32 ∧ cpyOperands ⟨0, 1, 2, 4, 0⟩ s ∧
    Legal (.c 1 ⟨0, 1, 2, 3, 8⟩) ∧ (s.rS 1).toNat % 128 = 0 ∧ (s.rS 3).toNat % 128 = 0 ∧ cpyOperands ⟨0, 1, 2, 6, 8⟩ s ∧ (s.rS 6).toNat % 128 ≠ 0 ∧
    ¬ cpyOperands ⟨1, 1, 2, 3, 1⟩ s ∧ ¬ cpyOperands ⟨0, 1, 2, 7, 0⟩ s := by decide

/-- Streams, prefetches, gathers, scatters, streaming lists and fabric operations, at their largest counts and at the bounds of the queues. -/
theorem witness_copy_queues :
    let s := stQueues 31 15 63
    Legal (.c 2 ⟨2, 1, 8, 3, 0x1300F⟩) ∧ s.handleOk 2 = true ∧ hSize (s.ctx.setupOf 2) % 256 = 0 ∧ hCnt (s.ctx.setupOf 2) = true ∧
    s.ctx.streamq.length < 16 ∧ 16 ≤ (stQueues 0 16 0).ctx.streamq.length ∧ hCnt (s.ctx.setupOf 0) = false ∧ Legal (.c 3 ⟨0, 1, 3, 0, 0⟩) ∧
    Legal (.c 4 ⟨1, 1, 2, 9, 0⟩) ∧ (s.rS 9).toNat = 4096 ∧ s.handleOk 1 = true ∧ Legal (.c 5 ⟨1, 1, 2, 9, 0⟩) ∧ (s.rS 4).toNat = 0 ∧
    Legal (.c 9 ⟨0, 1, 10, 0, 0⟩) ∧ (s.rS 10).toNat = 65536 ∧ s.ctx.copyq.length < 32 := by decide

theorem witness_fabric_queue :
    let s := stQueues 31 15 63
    Legal (.c 6 ⟨0, 12, 1, 8, 5⟩) ∧ Legal (.c 6 ⟨0, 12, 1, 14, 0x80000000⟩) ∧ Legal (.c 7 ⟨0, 12, 1, 8, 5⟩) ∧ Legal (.c 7 ⟨0, 12, 1, 14, 0x80000000⟩) ∧
    (s.rS 8).toNat % 2 ^ 24 ≠ 0 ∧ (s.rS 8).toNat / 2 ^ 24 = 0 ∧ (s.rS 14).toNat % 2 ^ 24 ≠ 0 ∧ (s.rS 12).toNat / 2 ^ 16 % 8 = 0 ∧
    (s.rS 13).toNat / 2 ^ 16 % 8 ≠ 0 ∧ s.ctx.fabricq.length < 64 ∧ 64 ≤ (stQueues 0 0 64).ctx.fabricq.length ∧ Legal (.c 8 ⟨0, 1, 2, 8, 0x500000⟩) ∧
    (s.rS 8).toNat % 8 = 0 := by decide

/-- Scalar registers of the cipher slot's tests, under a house launch or not. -/
def stCipher (d a w : Word) (house : Bool) : State := withL (fun l => { l with house := house, keySlot := 77 }) (stM [(4, d), (5, a), (6, w)])

/-- Cipher forms: the longest runs, aligned and not, to and from slots, with and without the right to a key, operands that break the rules. -/
theorem witness_ciphers :
    Legal (.k 1 ⟨0, 4, 0, 0⟩) ∧ cipherOperands ⟨0, 4, 0, 0⟩ 63 128 128 0x80000000 0x40000200 (stCipher 0x40000100 0x40000200 0x80000000 false) ∧
    notScratchpad 0x40000100 ∧ notScratchpad 0x7FFE00200000 ∧ ¬ notScratchpad 0x7FFE001FFF80 ∧ (0x40000100 % 128 = 0 ∧ 0x40000101 % 128 ≠ 0) ∧
    Legal (.k 2 ⟨0, 4, 5, 0⟩) ∧ cipherOperands ⟨0, 4, 5, 0⟩ 63 128 128 0x80000000 128 (stCipher 128 0x40000100 0x8000000000000080 true) ∧
    ¬ cipherOperands ⟨0, 4, 5, 0⟩ 63 128 128 0x80000000 128 (stCipher 128 0x40000100 0x8000000000000100 true) ∧
    (stCipher 0 0 0 true).launch.house = true ∧ (stCipher 0 0 0 false).launch.house = false ∧ Legal (.k 3 ⟨1, 4, 0, 0⟩) ∧
    cipherOperands ⟨1, 4, 0, 0⟩ 62 64 0 0x100000000 0 (stCipher 0x40000100 0 0xC0000000000000C0 false) ∧
    cipherOperands ⟨0, 4, 0, 0⟩ 62 64 0 0x100000000 0 (stCipher 0x40000100 0 0 false) ∧ Legal (.k 4 ⟨0, 4, 4095, 0⟩) ∧ 0x40000120 % 32 = 0 ∧
    Legal (.k 5 ⟨0, 0, 1, 0⟩) := by decide

/-- Thread 3 of Proem with these registers and wait packets. -/
def stProemThread (r : SMap Word) (ps : List Word) (tm : Option Nat := none) : State :=
  { State.reset with
    agent := 603, ev := { a := 3 }, time := 50
    hif := { State.reset.hif with threads := [(3, { x := r, pc := 0x1000, mtvec := 0x2001, packets := ps, timer := tm })] } }

/-- Proem: the third packet is the first that is wanted, none is, masks 0 and 32, sinks 1, 3 and 4, records that are and are not aligned. -/
theorem witness_proem_extensions :
    Legal (.rv 0 ⟨31, 6, 0, 0⟩) ∧ (thr (stProemThread [(6, 16)] [2, 1, 4, 3])).packets = [2, 1] ++ 4 :: [3] ∧
    ([2, 1] : List Word).all (fun x => 16 / 2 ^ (x.toNat % 16) % 2 != 1) = true ∧ 16 / 2 ^ ((4 : Word).toNat % 16) % 2 = 1 ∧
    (thr (stProemThread [] [5, 15])).packets.all (fun x => 31 / 2 ^ (x.toNat % 16) % 2 != 1) = true ∧ Legal (.rv 1 ⟨0, 6, 7, 0⟩) ∧
    ((stProemThread [(6, 0)] []).proemRead 3 0 64).isSome = true ∧ 600 ≤ (stProemThread [] []).agent ∧ Legal (.rv 2 ⟨5, 0, 0, 0⟩) ∧
    ((stProemThread [] [] (some 50)).thread 3).timer = some 50 ∧ 50 ≤ (stProemThread [] []).time.toNat := by decide

/-! Witnesses: starts, power, temperature and hardware errors. -/

/-- A package at this stage of a start, in this mode. -/
def stStart (st mode : Nat) : State :=
  { stM [] with pkg := { State.reset.pkg with held := false, stage := st, mode := mode, early := 1, stageAt := 123456789 }, flash := { State.reset.flash with fails := 2, fwSvn := 3 } }

/-- Its stage begins now. -/
theorem notPast (st mode : Nat) : ¬ pastBound (stStart st mode) := by
  rintro ⟨b, -, h⟩
  have e : (stStart st mode).pkg.stageAt = (stStart st mode).time.toNat := rfl
  omega

/-- Starts: RESET_N held, every stage, third failures, a written floor, requests and time-outs at their bounds. -/
theorem witness_starts :
    State.reset.pkg.held = true ∧ clocksRun (stStart 8 1) ∧ 2 ≤ (stStart 2 0).pkg.stage ∧ (0xABC5752 : Word).toNat % 2 ^ 16 = 0x5752 ∧
    (0x5753 : Word).toNat % 2 ^ 16 ≠ 0x5752 ∧ [1, 2, 3, 4, 5, 6, 7].all (fun n => decide (starting n (stStart n 0))) = true ∧
    (stStart 2 0).pkg.romWrote = false ∧ (stStart 2 0).pkg.early < 3 ∧ (stStart 2 0).ev.flag = false ∧ (stStart 2 0).ev.a = 0 ∧
    (stStart 2 0).flash.fails < 3 ∧ (∀ m, (stStart 2 0).flash.mac = some m → m = (stStart 2 0).flash.blockMac) ∧ (stStart 3 0).flash.next = none ∧ (SMap.get (stStart 3 0).flash.slots 0 {}).valid = false ∧
    [2, 3, 4, 5, 6, 7].all (fun n => decide ((stStart n 0).pkg.stageAt = (stStart n 0).time.toNat)) = true ∧
    (stStart 7 0).prot.chip.failed = [] ∧
    (let s := { stStart 2 0 with pkg := { (stStart 2 0).pkg with early := 3, startAt := 1000 }, time := 2000001000, ev := { flag := true, a := 1 },
                                 flash := { (stStart 2 0).flash with fails := 3 } }
     starting 2 s ∧ 3 ≤ s.pkg.early ∧ s.ev.flag = true ∧ s.ev.a ≠ 0 ∧ 3 ≤ s.flash.fails ∧ s.pkg.startAt + 2000000000 ≤ s.time.toNat ∧
     (2, 5) ∈ [(2, 5), (3, 150), (4, 50), (5, 20), (6, 300), (7, 20)] ∧ s.pkg.stageAt + 1000000 * 5 < s.time.toNat) := by decide

/-- Firmware whose signature verifies, with an SVN on the floor and below it; what verifies is outside the model. -/
theorem witness_firmware (image : List Byte) (h : Config.firmwareSigned image = true) :
    let slot : FwSlot := { valid := true, image := image }
    let s (floor : Nat) := { stStart 3 0 with flash := { (stStart 3 0).flash with slots := [(0, slot)], fwSvn := floor } }
    (∀ n, starting 3 (s n) ∧ ¬ pastBound (s n) ∧ SMap.get (s n).flash.slots ((s n).flash.next.getD (s n).flash.active) {} = slot) ∧ slot.valid = true ∧
    Config.firmwareSigned slot.image = true ∧ (s (Config.firmwareSvn image % 2 ^ 16)).flash.fwSvn ≤ Config.firmwareSvn slot.image % 2 ^ 16 ∧
    Config.firmwareSvn slot.image % 2 ^ 16 < (s 65536).flash.fwSvn :=
  ⟨fun n => ⟨by simp only [starting, clocksRun]; exact ⟨by decide, by decide, by decide⟩, notPast 3 0, rfl⟩, rfl, h, Nat.le_refl _, Nat.mod_lt _ (by decide)⟩

/-- A blob of the wrong magic number; of a blob that passes, any SVN is below, on or above some floor. -/
theorem witness_blob (b : List Byte) :
    let s (blob : List Byte) (n : Nat) := { stStart 4 0 with flash := { (stStart 4 0).flash with blob := blob, cfgSvn := n } }
    starting 4 (s [] 0) ∧ (s [] 0).blobOk (s [] 0).flash.blob = false ∧
    ((s b 0).blobOk (s b 0).flash.blob = true → starting 4 (s b 0) ∧ (s b 0).flash.cfgSvn ≤ leAt (s b 0).flash.blob 6 2) :=
  ⟨by decide, by decide, fun _ => ⟨by simp only [starting, clocksRun]; exact ⟨by decide, by decide, by decide⟩, Nat.zero_le _⟩⟩

/-- Power and temperature: estimates within and after 1 ms, a full sweep, the last HBM stack. -/
theorem witness_power :
    let s := { stStart 8 1 with time := 1000000, ev := { a := 11, readings := List.replicate 617 1840 } }
    clocksRun s ∧ 2 ≤ s.pkg.stage ∧ s.pkg.powerLevelAt + 1000000 ≤ s.time.toNat ∧
    ({ s with time := 999999 } : State).time.toNat < s.pkg.powerLevelAt + 1000000 ∧ s.ev.readings.length = 617 ∧ s.ev.a < 12 ∧
    SMap.get s.pkg.thermal 3 0 ≤ 3 ∧ SMap.get s.pkg.thermal 4 0 ≤ 3 := by decide

/-- Errors: on a core, on the last line of the Stacks and the first of HBM, on a clean entry, on a placed segment. -/
theorem witness_errors :
    let s (x : Struck) := { stM [] with ev := { a := 3, struck := x }, mem := { (stM []).mem with segs := [(65535, { st := 2, page := 0x40000000 })] } }
    (s (.coreOwned 3)).ev.struck = .coreOwned 3 ∧ (s (.line 0x80000000)).ev.struck = .line 0x80000000 ∧ 0x7FFFFFFF < 0x80000000 ∧
    ((s (.line 0x7FFFFFFF)).line 0x7FFFFFFF).tag = 0x3FFE ∧ (s .clean).ev.struck = .clean ∧ (s (.segment 65535)).ev.struck = .segment 65535 ∧
    ((s (.segment 65535)).seg 65535).page ≠ 0 := by decide

/-! Witnesses: the host interface. -/

/-- A packet with OP `op`, no completion record, and these operand bytes from byte 32 on. -/
def pkt (op : Nat) (operands : List Byte) : List Byte :=
  BitVec.ofNat 8 op :: List.replicate 31 0 ++ operands ++ List.replicate (32 - operands.length) 0

/-- Mapped queue 5 of the PF, at whose head packet `b` stands; more host memory is put in front. -/
def stHost (b : List Byte) (more : List (Nat × List Byte) := []) : State :=
  let s := stM []
  { s with
    pkg := { s.pkg with mode := 1, stage := 8 }, ev := { a := 5 }
    mem := { s.mem with host := more.foldl (fun m x => Memory.writeN m x.1 x.2) (Memory.writeN [] 0x1000 b) }
    hif := { s.hif with
      link := true, nextCmd := 9, numVfs := 2, fns := [(0, { enabled := true }), (1, { enabled := true })], stage2 := [(10, { v := true, mq := some 5, tail := 1, qcb := 0x7000 })]
      mqs := [(5, { vqn := some 10, base := 0x1000, part := 1, mask := 0xFF, ceiling := 9, mcxBase := 4, mcxCount := 8 })] } }

/-- The conditions of `packetWaits`, as a Boolean. -/
def packetStays (op : Nat) (b : List Byte) (s : State) : Bool :=
  let x := s.mq s.ev.a
  decide (served s ∧ s.ev.a < 128 ∧ x.reload = none) &&
  (match x.vqn with
    | some q => decide ((s.st2 q).v = true ∧ (s.st2 q).stopping = false ∧ (s.st2 q).tail < 2 ^ x.log ∧ x.head ≠ (s.st2 q).tail)
    | none => false) &&
  decide (s.hostRead x.fn (x.base + 64 * x.head) 64 = some b ∧ leAt b 0 1 = op ∧ leAt b 1 1 % 2 = 0 ∧ packetAligned b = true ∧
    packetReservedOk b = true ∧ classOk x op = true) && s.hif.cmds.all (fun d => d.op != 0x21)

/-- The conditions of `packetAt`, as a Boolean. -/
def packetStands (op : Nat) (b : List Byte) (s : State) : Bool :=
  packetStays op b s && decide (s.hif.fwPhase = .idle ∧ (s.thread s.ev.a).halted = false)

theorem packetWaits_of_stays (op : Nat) (b : List Byte) (s : State) (h : packetStays op b s = true) : packetWaits op b s := by
  simp only [packetStays, Bool.and_eq_true, decide_eq_true_eq, List.all_eq_true, bne_iff_ne] at h
  obtain ⟨⟨⟨⟨h1, h2, h3⟩, hq⟩, h5, h6, h7, h8, h9, h10⟩, h11⟩ := h
  refine ⟨h1, h2, h3, ?_, h5, h6, h7, h8, h9, h10, h11⟩
  cases hv : (s.mq s.ev.a).vqn with
  | none => rw [hv] at hq; cases hq
  | some q => rw [hv] at hq; exact ⟨q, rfl, of_decide_eq_true hq⟩

theorem packetAt_of_stands (op : Nat) (b : List Byte) (s : State) (h : packetStands op b s = true) : packetAt op b s := by
  simp only [packetStands, Bool.and_eq_true, decide_eq_true_eq] at h
  exact ⟨packetWaits_of_stays op b s h.1, h.2⟩

/-- Little-endian fields next to each other. -/
def fields (l : List (Nat × Nat)) : List Byte := l.flatMap fun x => natLe x.1 x.2

/-- NOP; LAUNCH of the last micro-context of the queue and of one after it. -/
theorem witness_nop_launch :
    packetStands 0x08 (pkt 0x08 []) (stHost (pkt 0x08 [])) = true ∧
    (let b := pkt 0x01 (fields [(2, 11), (6, 0), (8, 0x2000)])
     let s := stHost b
     packetStands 0x01 b s = true ∧ (s.mq 5).mcxOk 11 = true ∧ (s.mq 5).mcxOk 12 = false ∧ (s.hostRead 0 0x2000 128).isSome = true ∧
       (parseRecord (List.replicate 128 0)).crec % 64 = 0 ∧ (parseRecord (List.replicate 128 0)).sigAddr % 8 = 0) := by decide +kernel

/-- Catalog entry 0x107 of binding 9 for micro-context 5, in a packet. -/
def catPkt : List Byte := pkt 0x02 (natLe 8 (0x107 + 9 * 2 ^ 32 + 2 ^ 47 + 5 * 2 ^ 48) ++ natLe 8 1)

/-- A Catalog whose set has these entries in its first ways. -/
def stCat (b : List Byte) (l : List CatalogEntry) (link : Option Nat) : State :=
  let s := stHost b
  { s with
    eth := { s.eth with catalog := ((List.range 4).map (4 * catalogSet 9 0x107 + ·)).zip l }
    prot := { s.prot with mcbs := [(5, { part := 1, ptRoot := 0x100000, st := 1, backLink := link })] } }

/-- CATALOG_SET over an entry and into the last way; CATALOG_DEL. -/
theorem witness_catalog :
    let i := 4 * catalogSet 9 0x107
    let mine : CatalogEntry := { v := true, part := 1, mcx := 6, bind := 9, func := 0x107 }
    let other : CatalogEntry := { v := true, part := 1, mcx := 6, bind := 8, func := 0x107 }
    packetStands 0x02 catPkt (stCat catPkt [other, mine] none) = true ∧ entryBad catPkt = false ∧ (packetEntry catPkt).mcx = 5 ∧
    (packetEntry catPkt).part = 1 ∧ ((stCat catPkt [other, mine] none).mcb 5).st ≠ 0 ∧ (stCat catPkt [other, mine] none).catLookup 9 0x107 = some (i + 1) ∧
    (stCat catPkt [other, other, other] none).catLookup 9 0x107 = none ∧ ((stCat catPkt [other, other, other] none).catEntry (i + 3)).v = false ∧
    (∀ v, v < 3 → ((stCat catPkt [other, other, other] none).catEntry (i + v)).v = true) ∧
    (let b := pkt 0x03 (fields [(2, 9), (2, 0), (4, 0x107)])
     packetStands 0x03 b (stCat b [other, mine] none) = true ∧ (stCat b [other, mine] none).catLookup 9 0x107 = some (i + 1)) := by decide +kernel

/-- An MCB for micro-context 6 of partition 1, READY. -/
def mcb6 : List Byte := fields [(2, 6), (1, 1), (1, 1), (1, 9), (1, 0), (2, 29), (8, 0x200000), (4, 10)] ++ List.replicate 236 0

/-- MCB_WRITE with the queue's highest priority and the partition's last key slot. -/
theorem witness_mcb_write :
    let b := pkt 0x04 (fields [(2, 6), (6, 0), (8, 0x2000)])
    let s := stHost b [(0x2000, mcb6)]
    let s := { s with prot := { s.prot with parts := [(1, { st := 2, mcxBase := 4, mcxCount := 8, keyBase := 10, keyCount := 20 })] } }
    packetStands 0x04 b s = true ∧ (s.mq 5).mcxOk 6 = true ∧ s.hostRead 0 0x2000 256 = some mcb6 ∧ mcbBad mcb6 6 = false ∧ leAt mcb6 2 1 = 1 ∧
    (parseMcb mcb6 (s.mcb 6)).reqLr = 0 ∧ s.mcbDenied (s.mq 5) 6 1 (parseMcb mcb6 (s.mcb 6)) = false := by decide +kernel

/-- COPY_IN of three bytes over the end of a line, COPY_OUT of a line in its encrypted form. -/
theorem witness_copy_in_out :
    (let b := pkt 0x05 (fields [(2, 5), (2, 0), (4, 3), (8, 0x2000), (8, 0x400000FF)])
     let s := stHost b
     packetStands 0x05 b s = true ∧ copyBad b = false ∧ s.protectedRuns 5 = false ∧ (s.hostRead 0 0x2000 3).isSome = true ∧
     (match cutAccess s (s.mcxWho 5) true 0x400000FF 3 with
      | .ok ps => ps.length == 2 && ps.all (fun p => match p.pa with | some a => (s.line a).writeFault (p.len == 128) == none | none => false) &&
          decide (ps.Pairwise fun p q => overlap (p.pa.getD 0) p.len (q.pa.getD 0) q.len = false ∧ p.pa.getD 0 / 128 ≠ q.pa.getD 0 / 128)
      | .error _ => false) = true) ∧
    (let b := pkt 0x06 (fields [(2, 5), (2, 0), (4, 128), (8, 0x2000), (8, 0x40000100)])
     let s := { stHost b with mem := { (stHost b).mem with lines := [(0x800002, { cipher := true })] } }
     packetStands 0x06 b s = true ∧
     (match cutAccess s (s.mcxWho 5) false 0x40000100 128 with
      | .ok ps => ps.all fun p => match p.pa with
          | some a => s.segWaits a == none && (s.line a).cipher && !p.x.cn && !(s.line a).poison && !(s.line a).tomb
          | none => false
      | .error _ => false) = true) := by decide +kernel

/-- KEY_IMPORT: a handle to mint for the last slot of the partition, and one for another partition. -/
theorem witness_key_import :
    let h (p : Nat) : List Byte := fields [(2, 29), (1, 0), (1, p), (2, 6)] ++ List.replicate 26 0
    let b := pkt 0x07 (fields [(2, 29), (6, 0), (8, 0x2000)])
    let s (p : Nat) : State :=
      let s := stHost b [(0x2000, h p)]
      { s with prot := { s.prot with parts := [(1, { st := 2, mcxBase := 4, mcxCount := 8, keyBase := 10, keyCount := 20 })] } }
    packetStands 0x07 b (s 1) = true ∧ (s 1).hostRead 0 0x2000 32 = some (h 1) ∧ ((h 1).drop 8).all (· == 0) = true ∧
    (s 1).importStatus 29 (h 1) 1 true = 0 ∧ (s 2).importStatus 29 (h 2) 1 true = 2 := by decide +kernel

/-- A partition with twenty key slots. -/
def stKeys : State := { stM [] with prot := { (stM []).prot with parts := [(1, { st := 2, keyBase := 10, keyCount := 20 })] } }

/-- KEY_IMPORT of a handle that is not one to mint passes when its tag is right. -/
theorem witness_key_import_sealed (tag : List Byte) :
    let h : List Byte := fields [(2, 29), (1, 0), (1, 1), (2, 6), (2, 0), (8, 7)]
    (h.drop 8).all (· == 0) = false ∧
      ∀ g, g = h ++ tag → stKeys.prot.vault.handleTag g = slice g 16 16 → stKeys.importStatus 29 g 1 false = 0 := by
  refine ⟨by decide, fun g hg ht => ?_⟩
  have e0 : leAt g 0 2 = 29 := by subst hg; rfl
  have e2 : leAt g 2 1 = 0 := by subst hg; rfl
  have e3 : leAt g 3 1 = 1 := by subst hg; rfl
  have e4 : leAt g 4 2 = 6 := by subst hg; rfl
  have e6 : leAt g 6 2 = 0 := by subst hg; rfl
  have p1 : SMap.get stKeys.prot.parts 1 {} = { st := 2, keyBase := 10, keyCount := 20 } := rfl
  have p2 : stKeys.keySlotAt 29 = {} := rfl
  simp only [State.importStatus, ht, p1, p2, hdReserved, hdPurposeOk, hdPurpose, hdP, hdMcx, hdSlot, hdPart, e0, e2, e3, e4, e6]
  simp [fld, bitOf]

/-- QUEUE_BIND at the ends of two functions' ranges; QUEUE_UNBIND with and without commands. -/
theorem witness_queue_bind :
    let b := pkt 0x20 (fields [(4, 41), (4, 0), (8, 0x3000), (2, 1), (1, 1), (1, 0), (1, 3), (1, 9), (2, 4), (2, 8)])
    let s := stHost b
    let s := { s with hif := { s.hif with fns := [(0, { enabled := true }), (1, { vqBase := 40, vqCount := 2, enabled := true })] } }
    packetStands 0x20 b s = true ∧ privBad b = false ∧ (s.fn 1).vqBase ≤ 41 ∧ 41 < (s.fn 1).vqBase + (s.fn 1).vqCount ∧ (s.st2 41).v = false ∧
    (s.hostRead 1 (0x3000 + 32) 16).isSome = true ∧
    (let b := pkt 0x21 (natLe 4 11)
     let t := { stHost b with hif := { (stHost b).hif with cmds := [{ id := 8, vqn := 11 }] } }
     packetStands 0x21 b (stHost b) = true ∧ (stHost b).hif.cmds = [] ∧ packetStands 0x21 b t = true ∧
       t.hif.cmds.any (fun d => d.vqn == 11 && d.id < t.hif.nextCmd) = true) := by decide +kernel

/-- VF_SETUP of the last function up to the last VQN. -/
theorem witness_vf_setup :
    let b := pkt 0x22 (fields [(2, 64), (2, 0), (2, 65535), (4, 1)])
    let s := stHost b
    let s := { s with hif := { s.hif with fns := [(0, { enabled := true }), (1, { vqBase := 40, vqCount := 2 })] } }
    packetStands 0x22 b s = true ∧ 65535 + 1 ≤ 65536 ∧ (∀ w, w < 65 → w ≠ 64 → overlap 65535 1 (s.fn w).vqBase (s.fn w).vqCount = false) ∧
    s.hif.stage2.all (fun e => !e.2.v || !(decide ((s.fn 64).vqBase ≤ e.1 ∧ e.1 < (s.fn 64).vqBase + (s.fn 64).vqCount))) = true := by decide +kernel

/-- A partition of core 599 and the last micro-contexts and key slots. -/
def part2 : List Byte :=
  List.replicate 74 0 ++ [0x80] ++ List.replicate 261 0 ++ fields [(1, 56), (1, 0), (2, 0), (2, 8191), (2, 1), (2, 4095), (2, 1)] ++
    List.replicate 164 0

/-- PARTITION_SET, both actions. -/
theorem witness_partition :
    (let b := pkt 0x23 (fields [(1, 31), (1, 0), (6, 0), (8, 0x2000)])
     let s := stHost b [(0x2000, part2)]
     packetStands 0x23 b s = true ∧ (s.part 31).st = 0 ∧ s.hostRead 0 0x2000 512 = some part2 ∧ partBad part2 = false ∧
       s.partClash (parsePart part2) = false ∧ (parsePart part2).cores.getLsbD 599 = true ∧ (s.core 599).failed = false) ∧
    (let b := pkt 0x23 (fields [(1, 1), (1, 1)])
     let s := { stHost b with prot := { (stHost b).prot with mcbs := [] } }
     packetStands 0x23 b s = true ∧ actionBad b = false ∧ (s.part 1).st = 2 ∧ s.prot.mcbs = []) := by decide +kernel

/-- Firmware commands: the last page of a slot, an activation of an image that does not pass, both sides of the 50 ms. -/
theorem witness_firmware_commands :
    (let b := pkt 0x24 (fields [(4, 0xFFF000), (4, 4096), (8, 0x2000)])
     let s := stHost b
     packetStands 0x24 b s = true ∧ packetStays 0x24 b { s with hif := { s.hif with fwPhase := .paused } } = true ∧ 4096 % 4096 = 0 ∧ 0xFFF000 + 4096 ≤ 2 ^ 24 ∧ s.hif.link = true) ∧
    (let b := pkt 0x25 [0]
     packetStands 0x25 b (stHost b) = true ∧ (stHost b).stagedOk = false) ∧
    packetStands 0x25 (pkt 0x25 [1]) (stHost (pkt 0x25 [1])) = true ∧ packetStands 0x26 (pkt 0x26 []) (stHost (pkt 0x26 [])) = true ∧
    packetStands 0x27 (pkt 0x27 []) (stHost (pkt 0x27 [])) = true ∧
    (let s := { stHost [] with time := 50000000, hif := { (stHost []).hif with fwPhase := .paused } }
     s.hif.fwPhase = .paused ∧ s.time.toNat ≤ s.hif.fwPauseAt + 50000000 ∧ s.hif.fwPauseAt + 50000000 ≤ s.time.toNat) := by decide +kernel

/-- An image that passes is staged where one stands whose signature verifies; what verifies is outside the model. -/
theorem witness_staged (image : List Byte) (h : Config.firmwareSigned image = true) :
    ({ stHost [] with flash := { (stHost []).flash with slots := [(1, { valid := true, image := image })], fwSvn := 0 } } : State).stagedOk = true := by
  simp [State.stagedOk, State.fwSlot, stHost, stM, stOn, stateOf, State.reset, SMap.get, h]

/-- The state with a token `d` in host memory behind a packet. -/
def stToken (b d : List Byte) : State :=
  { stHost b with mem := { (stHost b).mem with host := Memory.writeN (Memory.writeN [] 0x2000 d) 0x1000 b } }

/-- A token in host memory is read as it stands there. -/
theorem stToken_reads (b d : List Byte) (hb : b.length = 64) (n : Nat) (hd : d.length = n) (hn : n ≤ 2 ^ 20) :
    (stToken b d).hostRead 0 0x2000 n = some d ∧ (stToken b d).hostRead 0 0x1000 64 = some b := by
  have up : (stToken b d).hostUp 0 = true := rfl
  have bad : (stToken b d).mem.hostBad = [] := rfl
  have mem : (stToken b d).mem.host = Memory.writeN (Memory.writeN [] 0x2000 d) 0x1000 b := rfl
  constructor
  · have c : ¬ 2 ^ 64 < 0x2000 + n := by omega
    simp only [State.hostRead, up, bad, mem, Bool.not_true, Bool.false_or, List.any_nil, Bool.or_false, decide_eq_true_eq, c, if_false]
    rw [show hostKey 0 0x2000 = 0x2000 from rfl, Laws.readN_writeN_other _ _ _ _ _ (by omega), ← hd, Laws.readN_writeN]
  · simp only [State.hostRead, up, bad, mem]
    rw [show hostKey 0 0x1000 = 0x1000 from rfl, ← hb, Laws.readN_writeN]
    simp [hb]

theorem stToken_class (b d : List Byte) : classOk ((stToken b d).mq (stToken b d).ev.a) 0x26 = true := by
  have e : (stToken b d).mq (stToken b d).ev.a = { vqn := some 10, base := 0x1000, part := 1, mask := 0xFF, ceiling := 9, mcxBase := 4, mcxCount := 8 } := rfl
  rw [e]; decide

/-- RECOVER and OPKEY_ENROL run where some token is authentic; which ones are is outside the model. -/
theorem witness_tokens (d : List Byte) (b : List Byte) (hb : b = pkt 0x26 (natLe 8 0 ++ natLe 8 0x2000)) (hd : d.length = 29864)
    (h : (stHost b).tokenOk d 0x56524A46 40 72 = true) :
    packetAt 0x26 b (stToken b d) ∧ (stToken b d).hostRead 0 0x2000 29864 = some d ∧ (stToken b d).tokenOk d 0x56524A46 40 72 = true := by
  subst hb
  obtain ⟨r1, r2⟩ := stToken_reads (pkt 0x26 (natLe 8 0 ++ natLe 8 0x2000)) d rfl 29864 hd (by omega)
  refine ⟨⟨⟨⟨rfl, rfl, rfl⟩, by show 5 < 128; decide, rfl, ⟨10, rfl, rfl, rfl, by show 1 < 2 ^ 4; decide, by show (0 : Nat) ≠ 1; decide⟩, r2,
    by decide, by decide, by decide, by decide, stToken_class _ _, ?_⟩, rfl, rfl⟩, r1, ?_⟩
  · intro x hx; exact absurd hx (List.not_mem_nil)
  · simp only [State.tokenOk, stToken] at h ⊢; exact h

/-- A state whose host interface is changed. -/
def stHif (f : Hif → Hif) (e : EventArgs) : State :=
  let s := stHost []
  { s with ev := e, time := 5000, hif := f s.hif }

/-- Doorbells of the first and last guest queue, one not mapped and one mapped; tails in the ring and the one that asks for a reload. -/
theorem witness_doorbell :
    let s (b : Nat) := stHif (fun h => { h with
      fns := [(2, { vqBase := 8, vqCount := 4, s1 := [(0, 0x80000002), (4095, 0x80000003)], enabled := true })]
      mqs := [(6, { vqn := some 10, log := 16, head := 7 })]
      stage2 := [(10, { v := true, fn := 2, mq := some 6, tail := 9 }), (11, { v := true, fn := 2 })] }) { a := 2, b := b, c := 4, value := 0xFFFFFFFF }
    served (s 0x100000) ∧ (s 0x100000).fnUp 2 = true ∧ 0x1FFF00 = 0x100000 + 0x100 * 4095 ∧
    (SMap.get ((s 0x1FFF00).fn 2).s1 4095 0).toNat / 2 ^ 31 = 1 ∧ (SMap.get ((s 0x1FFF00).fn 2).s1 4095 0).toNat % 2 ^ 16 < 4 ∧
    ((s 0x1FFF00).st2 11).v = true ∧ ((s 0x1FFF00).st2 11).fn = 2 ∧ ((s 0x1FFF00).st2 11).mq = none ∧
    (SMap.get ((s 0x100000).fn 2).s1 0 0).toNat % 2 ^ 16 = 2 ∧ ((s 0x100000).st2 10).mq = some 6 ∧ ((s 0x100000).mq 6).vqn = some 10 ∧
    ((s 0x100000).mq 6).reload = none ∧ ((s 0x100000).st2 10).tail < 2 ^ ((s 0x100000).mq 6).log ∧ 65535 < 2 ^ ((s 0x100000).mq 6).log ∧
    ((s 0x100000).mq 6).head ≠ ((s 0x100000).st2 10).tail ∧
    (let t := stHif (fun h => { h with mqs := [(6, { vqn := some 10, head := 9 })], stage2 := [(10, { v := true, mq := some 6, tail := 9 })] }) {}
     (t.mq 6).head = (t.st2 10).tail) := by decide

/-- A QCB whose ring has 2^16 entries. -/
def qcbBytes : List Byte := natLe 8 0x9000 ++ [16, 3, 0, 4, 9, 0, 0, 0, 17, 0, 0, 0] ++ List.replicate 12 0 ++ [0, 0, 1, 0, 4, 0xFF, 4, 0, 8, 0] ++ List.replicate 22 0

/-- A pending queue, its QCB in host memory, one mapped queue taken. -/
def stLoad (digest : Nat) : State :=
  let s := stHost [] [(0x7000, qcbBytes)]
  { s with hif := { s.hif with stage2 := [(10, { v := true, p := true, tail := 1, qcb := 0x7000, digest := digest })], mqs := [(0, { vqn := some 3 })] } }

theorem witness_queue_load (d : Nat) (h : qcbDigest 10 (slice qcbBytes 32 16) = d) :
    served (stLoad d) ∧ (stLoad d).nextPending = some 10 ∧ (stLoad d).hostRead 0 0x7000 64 = some qcbBytes ∧
    qcbDigest 10 (slice qcbBytes 32 16) = ((stLoad d).st2 10).digest ∧ leAt qcbBytes 0 8 % 64 = 0 ∧ leAt qcbBytes 10 2 ≤ 1024 ∧ leAt qcbBytes 20 12 = 0 ∧ 4 ≤ leAt qcbBytes 8 1 ∧ leAt qcbBytes 8 1 ≤ 16 ∧
    ((stLoad d).mq 1).vqn = none ∧ ∀ j, j < 1 → ((stLoad d).mq j).vqn ≠ none := by
  refine ⟨⟨rfl, rfl, rfl⟩, rfl, ?_, h, by decide, by decide, by decide, by decide, by decide, rfl, ?_⟩
  · have e : (stLoad d).hostRead 0 0x7000 64 = (stLoad 0).hostRead 0 0x7000 64 := rfl
    rw [e]; decide +kernel
  · intro j hj; match j, hj with | 0, _ => exact fun e => by cases e

/-- An interrupt window that ends now, on the last vector of a virtual function, its mask bit set and clear; a pending vector unmasked. -/
theorem witness_interrupt_window :
    let s (m : List Nat) := stHif (fun h => { h with
      stage2 := [(10, { v := true, fn := 2, irqs := 1, window := 2, irqAt := 3000, vector := 63 })], fns := [(2, { unmasked := m, enabled := true })] }) { a := 10 }
    ((s []).st2 10).irqs ≠ 0 ∧ ((s []).st2 10).window ≠ 0 ∧ ((s []).st2 10).irqAt + 1000 * ((s []).st2 10).window ≤ (s []).time.toNat ∧
    63 < 64 ∧ 63 ∈ ((s [63]).fn 2).unmasked ∧ 63 ∉ ((s []).fn 2).unmasked ∧ (s []).hif.link = true ∧ (s []).fnUp 2 = true ∧
    (let t := stHif (fun h => { h with fns := [(0, { pba := [127], enabled := true })] }) { b := 3, c := 127 }
     served t ∧ t.ev.c < 128 ∧ t.ev.flag = false ∧ t.ev.c ∈ (t.fn t.ev.a).pba ∧ t.hif.link = true ∧ t.fnUp 0 = true) := by decide

/-- Event-ring heads that wrap, counters, the power cap at its bounds and outside, configuration requests, resets of functions. -/
theorem witness_registers :
    let s := stHif (fun h => { h with fns := [(0, { evHead := 14, evTail := 4 })] }) { a := 0, b := 8, bytes := natLe 8 2600, value := 4 }
    4 < 2 ^ (s.fn 0).evLog ∧ 4 ≠ (s.fn 0).evHead ∧ (4 + 16 - (s.fn 0).evHead) % 16 ≤ ((s.fn 0).evTail + 16 - (s.fn 0).evHead) % 16 ∧ served s ∧
    s.pkg.stuckPower = false ∧ s.ev.a = 0 ∧ s.ev.bytes.length = 8 ∧ leNat s.ev.bytes % 4096 = 2600 ∧ leNat (natLe 8 599) % 4096 < 600 ∧
    2600 < leNat (natLe 8 (4096 + 2601)) % 4096 ∧ State.reset.pkg.mode = 0 ∧ served (stHif id { b := 1 }) ∧ 1 ≤ 64 ∧
    (let t := { stStart 4 0 with hif := { (stStart 4 0).hif with link := false } }; t.hif.link = false ∧ t.pkg.held = false ∧ 4 ≤ t.pkg.stage) := by decide

/-! Witnesses: the mailbox. -/

/-- A mailbox message at this connection state, with sessions and a message in progress. -/
def stMail (b : List Byte) (st : Nat) (ext : Bool) (xs : List SpdmSession) (chunk : Option (List Byte)) : State :=
  stHif (fun h => { h with spdmState := st, spdmExt := ext, spdm := xs, spdmIn := chunk, spdmOut := chunk }) { bytes := b }

/-- Requests outside a session: each code, with and without the extended algorithms, three and four sessions, chunks. -/
theorem witness_requests :
    [0x84, 0xE1, 0xE3, 0x81, 0x82, 0x83, 0xE0, 0xE4, 0x85, 0x86].all (fun c =>
      decide (request c (stMail [0, BitVec.ofNat 8 c, 0, 0, 0x34, 0x12] 3 true [] none))) = true ∧
    leAt (stMail [0, 0x82, 0x10] 3 true [] none).ev.bytes 2 1 % 16 = 0 ∧ (stMail [] 3 true [{}, {}, {}] none).hif.spdm.length < 4 ∧
    4 ≤ (stMail [] 3 true [{}, {}, {}, {}] none).hif.spdm.length ∧ (stMail [] 3 false [] none).hif.spdmExt = false ∧
    leAt [0, 0xE0, 2, 4] 2 1 % 2 = 0 ∧ leAt [0, 0xE0, 2, 4] 3 1 = 4 ∧
    (stMail [] 1 true [] (some (List.replicate 4080 0))).hif.spdmOut = some (List.replicate 4080 0) ∧
    (let b : List Byte := [0, 0xE1] ++ List.replicate 4095 0
     4096 < b.length ∧ leAt b 1 1 = 0xE1 ∧ (stMail b 1 true [] none).hif.spdmIn ≠ some b) := by decide +kernel

/-- Requests in a session that is and that is not established; key updates 1 to 3; IDE_KM of the last stream. -/
theorem witness_session_requests :
    let x : SpdmSession := { sid := 0x11234, established := true }
    let y : SpdmSession := { sid := 0x20001 }
    let s (b : List Byte) := stMail b 3 true [x, y] none
    inSession y 0xE5 (s [1, 0, 2, 0, 0, 0xE5]) ∧ [0xE8, 0xE9, 0xEC].all (fun c => decide (inSession x c (s [0x34, 0x12, 1, 0, 0, BitVec.ofNat 8 c]))) = true ∧
    leAt ([0x34, 0x12, 1, 0, 0, 0xE9, 3].drop 4) 2 1 = 3 ∧ leAt ([0x34, 0x12, 1, 0, 0, 0xE9, 1].drop 4) 2 1 = 1 ∧
    (let b : List Byte := [0x34, 0x12, 1, 0, 0, 2, 0, 0, 4, 0, 1]
     (s b).hif.spdm.find? (fun z => z.sid == leAt b 0 4) = some x ∧ leAt (b.drop 4) 1 1 = 2 ∧ leAt (b.drop 4) 4 1 = 4) := by decide

/-! Witnesses: the Ethernet engine. -/

/-- A client of partition 1. -/
def client : Peer := { port := 0, mac := 0x20001, srcIp := 0x0A000001, dstIp := 0x0A000002, udp := 4000, part := 1 }

/-- An MRP header of type `ty`: fragment 0 of `count`, these lengths, session 0x4001, SEQ 1. -/
def header (ty count blen func reqid tlen : Nat) (sid : Nat := 0x4001) (seq : Nat := 1) : List Byte := mrpHeader ty 0 count blen sid seq func reqid tlen

/-- A READY package whose port 0 has this datagram in queue 63; session slot 1 as `e`. -/
def stGram (b : List Byte) (e : Session) (reqs : SMap (Option Request) := []) : State :=
  let s := stM []
  { s with
    pkg := { s.pkg with mode := 1, stage := 8 }, time := 5000000000, ev := { a := 0 }
    eth := { s.eth with
      ports := [(0, { link := true, pointer := 63 })], queues := [(63, [{ peer := client, payload := b }])], sessions := [(1, e)], requests := reqs
      catalog := [(4 * catalogSet 9 0x107, { v := true, part := 1, mcx := 5, bind := 9, func := 0x107 })]
      pools := [(1, { count := 4, slot := 1, sessMax := 100, held := [0] })] } }

/-- Session 0x4001 in a state. -/
def sess1 (st : SessState) : Session := { st := st, sid := 0x4001, part := 1, binding := 9, kCd := List.replicate 32 0, saltCd := List.replicate 4 0 }

/-- A HEARTBEAT with its tag. -/
def beat : List Byte := header 7 1 0 0 0 0 ++ [176, 177, 205, 27, 155, 3, 239, 43, 203, 68, 136, 146, 146, 149, 31, 172]

theorem beat_opens : gcmOpen (List.replicate 32 0) (List.replicate 4 0 ++ natBe 8 1) (header 7 1 0 0 0 0) []
    [176, 177, 205, 27, 155, 3, 239, 43, 203, 68, 136, 146, 146, 149, 31, 172] = some [] := by decide +kernel

theorem witness_heartbeat : datagram 7 63 client beat (stGram beat (sess1 .openS)) ∧ opens .openS 1 [] client beat (stGram beat (sess1 .openS)) ∧
    (sess1 .openS).sent < 2 ^ 48 :=
  ⟨by decide, ⟨by decide, by decide, by decide, by decide, by decide, by decide, by decide, beat_opens⟩, by decide⟩

theorem beAt_append (h r : List Byte) (o n : Nat) (e : o + n ≤ h.length) : beAt (h ++ r) o n = beAt h o n := by
  simp only [beAt, slice]
  rw [List.drop_append_of_le_length (by omega), List.take_append_of_le_length (by rw [List.length_drop]; omega)]

theorem readMrp_append (h r : List Byte) (e : h.length = 32) : readMrp (h ++ r) = readMrp h := by
  simp only [readMrp, beAt_append h r _ _ (show 0 + 1 ≤ h.length by omega), beAt_append h r _ _ (show 1 + 1 ≤ h.length by omega),
    beAt_append h r _ _ (show 2 + 2 ≤ h.length by omega), beAt_append h r _ _ (show 4 + 8 ≤ h.length by omega),
    beAt_append h r _ _ (show 12 + 8 ≤ h.length by omega), beAt_append h r _ _ (show 20 + 4 ≤ h.length by omega),
    beAt_append h r _ _ (show 24 + 4 ≤ h.length by omega), beAt_append h r _ _ (show 28 + 4 ≤ h.length by omega)]

/-- The parts of a datagram of session 0x4001 with this header, ciphertext and tag that are sealed right. -/
theorem gram_opens (ty : Nat) (st : SessState) (h ct tag : List Byte) (hh : h.length = 32) (ht : tag.length = 16) (hb : (readMrp h).blen = ct.length)
    (hty : (readMrp h).ty = ty) (hok : mrpOk (h ++ ct ++ List.replicate 16 0) = true)
    (hs : (readMrp h).sid = 0x4001) (hq : (readMrp h).seq = 1)
    (e : gcmTag (aesKeys (List.replicate 32 0)) (List.replicate 4 0 ++ natBe 8 1) h ct = tag) :
    datagram ty 63 client (h ++ ct ++ tag) (stGram (h ++ ct ++ tag) (sess1 st)) ∧
    ∃ body, opens st 1 body client (h ++ ct ++ tag) (stGram (h ++ ct ++ tag) (sess1 st)) := by
  have r (x : List Byte) : readMrp (h ++ ct ++ x) = readMrp h := by rw [List.append_assoc, readMrp_append _ _ hh]
  have hok' : mrpOk (h ++ ct ++ tag) = true := by
    simp only [mrpOk, r, List.length_append, List.length_replicate, ht] at hok ⊢
    exact hok
  have t1 : (h ++ ct ++ tag).take 32 = h := by rw [List.append_assoc, ← hh, List.take_left]
  have t2 : slice (h ++ ct ++ tag) 32 ct.length = ct := by
    simp only [slice]; rw [List.append_assoc, ← hh, List.drop_left, List.take_left]
  have t3 : (h ++ ct ++ tag).drop (32 + ct.length) = tag := by
    rw [← hh, ← List.length_append, List.drop_left]
  refine ⟨⟨⟨rfl, rfl, rfl, rfl⟩, by show 0 < 4; decide, rfl, rfl, by rw [r]; exact hty, hok'⟩, gcmCtr (aesKeys (List.replicate 32 0))
    (List.replicate 4 0 ++ natBe 8 1) ((ct.length + 15) / 16) 2 ct, ?_⟩
  simp only [opens, r, hs, hq]
  refine ⟨trivial, rfl, rfl, rfl, by show 0 < 1 + 1024; decide, List.not_mem_nil, by decide, ?_⟩
  rw [hb, t1, t2, t3]
  show gcmOpen (List.replicate 32 0) (List.replicate 4 0 ++ natBe 8 1) h ct tag = _
  simp only [gcmOpen, e, beq_self_eq_true, if_true]

/-- CONFIRM, CLOSE and a REQUEST of one datagram and of the first of two, where their tags are those of their ciphertexts. -/
theorem witness_protected (tag : List Byte) (n : tag.length = 16) :
    let tagOf (h ct : List Byte) := gcmTag (aesKeys (List.replicate 32 0)) (List.replicate 4 0 ++ natBe 8 1) h ct
    let ok (ty : Nat) (st : SessState) (h ct : List Byte) := tagOf h ct = tag → datagram ty 63 client (h ++ ct ++ tag) (stGram (h ++ ct ++ tag) (sess1 st)) ∧
      ∃ body, opens st 1 body client (h ++ ct ++ tag) (stGram (h ++ ct ++ tag) (sess1 st))
    ok 3 .half (header 3 1 32 0 0 32) (List.replicate 32 7) ∧ ok 9 .openS (header 9 1 0 0 0 0) [] ∧ ok 4 .openS (header 4 1 2 0x107 3 2) [5, 6] ∧
    ok 4 .openS (header 4 2 2 0x107 3 4) [5, 6] := by
  refine ⟨gram_opens 3 .half _ _ tag ?_ n ?_ ?_ ?_ ?_ ?_, gram_opens 9 .openS _ _ tag ?_ n ?_ ?_ ?_ ?_ ?_, gram_opens 4 .openS _ _ tag ?_ n ?_ ?_ ?_ ?_ ?_,
    gram_opens 4 .openS _ _ tag ?_ n ?_ ?_ ?_ ?_ ?_⟩ <;> decide

/-- A frame with its FCS. -/
def framed (b : List Byte) : List Byte := b ++ natLe 4 (crc32 b).toNat

/-- A READY package whose port 3 has its link up and takes a frame. -/
def stFrame (bs : List Byte) (addr : SMap EthAddr) (q : SMap (List Datagram)) : State :=
  let s := stM []
  { s with
    pkg := { s.pkg with mode := 1, stage := 8, macBase := 0x10000 }, ev := { a := 3, bytes := bs, value := 0x8CA00005 }
    eth := { s.eth with ports := [(3, { en := true, link := true })], addr := addr, queues := q } }

/-- The address 10.0.0.2 in entry 31 of port 3. -/
def addr2 : SMap EthAddr := [(127, { ip := 0xFFFF0A000002, flags := 1, part := 1, queue := 63 })]

/-- An MRP frame for 10.0.0.2 with `n` bytes, an ARP request and an IPv4 packet that is too short. -/
def mrpFrame (n : Nat) : List Byte :=
  etherFrame 0x10003 0x20001 none 0x0800 (ipPacket false 0x0A000001 0x0A000002 0 17 (udpPacket false 0x0A000001 0x0A000002 4000 0xB8C5 (List.replicate n 7)))
def arpFrame : List Byte := etherFrame 0x10003 0x20001 none 0x0806 (natBe 8 0x0001080006040001 ++ natBe 6 0x20001 ++ natBe 4 0x0A000001 ++ natBe 6 0 ++ natBe 4 0x0A000002)
def shortFrame : List Byte := etherFrame 0x10003 0x20001 none 0x0800 [0x45, 0, 0, 10]

/-- What the receive path makes of a frame, as a number: 0 MRP, 1 slow path, 2 + k a drop that counts k. -/
def verdictOf (b : List Byte) : Nat :=
  match (readFrame ((framed b).take ((framed b).length - 4))).verdict 3 (framed b).length 0xB8C5 with
  | .mrp _ _ _ => 0
  | .slow => 1
  | .drop k => 2 + k

/-- Frames: too short at layer 2, the three verdicts, an entry of the address table in its last place and none. -/
theorem witness_frames :
    let s := stFrame (framed (mrpFrame 32)) addr2 []
    etherUp s ∧ (s.port 3).link = true ∧ s.ev.a = 3 ∧ (stFrame [] [] []).layer2Ok 3 [] = false ∧
    s.layer2Ok 3 (framed (mrpFrame 32)) = true ∧ s.layer2Ok 3 (framed arpFrame) = true ∧ s.layer2Ok 3 (framed shortFrame) = true ∧
    verdictOf (mrpFrame 32) = 0 ∧ verdictOf arpFrame = 1 ∧ verdictOf shortFrame = 4 ∧ (s.addrFor 3 false 0x0A000002 none).isSome = true ∧
    s.addrFor 3 false 0x0A000003 none = none ∧ (s.port 3).slow.length < 256 ∧ s.slowAnswer 3 shortFrame = none := by decide +kernel

theorem witness_slow_path : ((stFrame [] addr2 []).slowAnswer 3 arpFrame).isSome = true := by decide +kernel

/-- Link changes and writes of ETH.PCTL: MTU 9000 with and without EN. -/
theorem witness_ports :
    let s := stFrame [] [] []
    (3 : Nat) < 4 ∧ fld s.ev.value.toNat 18 14 = 9000 ∧ (s.port 3).en = true ∧ etherUp s ∧ ({ s with ev := { a := 3, flag := true } } : State).ev.flag = true ∧
    s.ev.flag = false := by decide

/-- A HELLO of one datagram: its body `x` is that of a client that knows the static key, or of one that does not. -/
theorem witness_hello (x : List Byte) (n : x.length = 3180) :
    let b := header 1 1 3180 0 0 3180 0 0 ++ x
    let s := { stGram b (sess1 .half) with prot := { (stGram b (sess1 .half)).prot with vault := { slots := [(20, { st := 1, purp := 1, part := 1 })] } } }
    datagram 1 63 client b s ∧ (readMrp b).count = 1 ∧ b.drop 32 = x ∧ s.sessCount (fun e => e.st == SessState.half) < 1024 ∧
    s.sessCount (fun e => e.st != SessState.free && e.part == client.part) < min 16384 (s.epool client.part).sessMax ∧
    ((s.keySlotAt 20).st = 1 ∧ (s.keySlotAt 20).purp = 1 ∧ (s.keySlotAt 20).part = client.part) ∧ (s.sess 0).st = .free ∧
    ∀ k : List Byte, k.length = 8 → x = natBe 2 20 ++ natBe 2 10 ++ k ++ List.replicate 3168 0 →
      beAt x 0 2 = 20 ∧ beAt x 2 2 = 10 ∧ slice x 4 8 = k := by
  intro b s
  have r : readMrp b = readMrp (header 1 1 3180 0 0 3180 0 0) := readMrp_append _ _ (by decide)
  refine ⟨⟨⟨rfl, rfl, rfl, rfl⟩, by show 0 < 4; decide, rfl, rfl, by rw [r]; decide, ?_⟩, by rw [r]; decide, ?_, by show 1 < 1024; decide,
    by show 1 < min 16384 100; decide, ⟨rfl, rfl, rfl⟩, rfl, ?_⟩
  · have l : b.length = 3212 := by simp only [b, List.length_append, n]; decide
    simp only [mrpOk, r, l]; decide
  · show (header 1 1 3180 0 0 3180 0 0 ++ x).drop 32 = x
    rw [show 32 = (header 1 1 3180 0 0 3180 0 0).length by decide, List.drop_left]
  · intro k hk hx
    subst hx
    match k, hk with
    | [a, b, c, d, e, f, g, h], _ => exact ⟨rfl, rfl, rfl⟩

/-- CERTREQs, the thousandth of a second and one more; timers of sessions at their bounds and before. -/
theorem witness_certreq_timers :
    let b := header 10 1 0 0 3 0 0 0
    let s (n : Nat) := { stGram b (sess1 .openS) with eth := { (stGram b (sess1 .openS)).eth with ports := [(0, { link := true, pointer := 63, certSecond := 5, certCount := n })] } }
    datagram 10 63 client b (s 999) ∧ (s 999).time.toNat / 1000000000 = ((s 999).port 0).certSecond ∧ ((s 999).port 0).certCount < 1000 ∧
    datagram 10 63 client b (s 1000) ∧ 1000 ≤ ((s 1000).port 0).certCount ∧
    (let e := { sess1 .openS with period := 10, lastAt := 4969999999 }
     let t := { stGram [] e with ev := { a := 1 } }
     (t.sess 1).st = .openS ∧ (t.sess 1).lastAt + 3 * ((t.sess 1).period * 1000000) < t.time.toNat) ∧
    (let e := { sess1 .half with lastAt := 4900000000 }
     let t := { stGram [] e with ev := { a := 1 } }
     (t.sess 1).st = .half ∧ (t.sess 1).lastAt + 100000000 ≤ t.time.toNat ∧ (t.sess 2).st ≠ .half ∧ (t.sess 2).st ≠ .openS) := by decide

/-- What the datagrams of `witness_protected` find: a function that is in the Catalog and one that is not, a free pair, a request in
reassembly; requests at 10 ms. -/
theorem witness_requests_found :
    let s := stGram [] (sess1 .openS)
    let r : Request := { slot := 1, func := 0x107, reqid := 3, tlen := 4, frags := 3, firstAt := 4990000000 }
    let t := { stGram [] (sess1 .openS) [(6, some r)] with ev := { a := 6 } }
    s.ereqOf 1 3 = none ∧ s.catLookup 9 0x108 = none ∧ s.catLookup 9 0x107 = some (4 * catalogSet 9 0x107) ∧
    (s.catEntry (4 * catalogSet 9 0x107)).part = (s.sess 1).part ∧ s.freePairOf 1 = some 1 ∧ 2 ≤ (s.epool 1).slotBytes - 128 ∧
    t.ereqOf 1 3 = some (6, r) ∧ SMap.get r.bodies 0 none = none ∧ (SMap.put r.bodies 0 (some [5, 6])).length ≠ r.frags ∧
    t.ereq 6 = some r ∧ r.complete = false ∧ r.firstAt + 10000000 ≤ t.time.toNat ∧
    ({ t with time := 4999999999 } : State).time.toNat < r.firstAt + 10000000 := by decide +kernel

/-! Witnesses: Smivy. -/

/-- A Smivy port whose link is up, with this send queue. -/
def port (n : Nat) (q : List SendPkt := []) : SlPort := { link := true, en := true, peer := 2 + n, sendq := q, lastFlit := 123400000 }

/-- Package 1, with endpoint 0 of micro-context 5 at micro-context 9 of package 2, reached over port 1; these fabric operations on core 3. -/
def stFab (b : List Byte) (ops : List FabricOp := []) (lines : SMap LineState := []) : State :=
  let s := (stM []).modCtx fun x => { x with fabricq := ops }
  { s with
    ev := { a := 0, bytes := b }
    mem := { s.mem with lines := lines, bytes := Memory.writeN s.mem.bytes 0x300000 (natLe 2 0x8002 ++ natLe 2 9 ++ natLe 4 7) }
    prot := { s.prot with mcbs := [(5, { part := 1, ptRoot := 0x100000, st := 1, epTab := 0x300000, fwBase := 0x40000000, fwLen := 0x10000 })] }
    sl := { s.sl with pkg := 1, ports := [(0, port 0), (1, port 1)], route := [(2, 2)] } }

/-- A packet of a kind from that peer: window offset `off`, 5 bytes, this pairing tag. -/
def pkOf (k off tag : Nat) (d : Nat := 1) : Pk :=
  { ((({ kind := k, part := 3, dpkg := d, spkg := 2, dmcx := 5, smcx := 9, opid := 99 } : Pk).setArg 16 8 off).setArg 24 4 5).setArg 28 4 tag with
    data := natLe 224 0x1234 }

/-- A packet of a kind that uses only its first four bytes of KARG. -/
def pkSmall (k x st : Nat) : Pk :=
  { kind := k, part := 3, dpkg := 1, spkg := 2, dmcx := 5, smcx := 9, opid := 99, status := st, karg := natLe 16 x, data := natLe 224 0 }

theorem witness_packets_arrive :
    (let p := pkOf 1 0x40 7
     let s := stFab p.bytes
     forUs 1 p s ∧ way p.spkg 1 1 s ∧ s.accepts p true = true ∧
       ((s.windowPieces 5 0x40 5 true).map fun ps => ps.map fun q => (q.pa, q.len)) = some [(some 0x40000040, 5)] ∧
       (s.line 0x40000040).writeFault false = none) ∧
    (let p := pkOf 1 0x40 8
     let s := stFab p.bytes
     forUs 1 p s ∧ s.accepts p true = false) ∧
    (let p := pkOf 1 0xFFFE 7
     let s := stFab p.bytes
     forUs 1 p s ∧ s.accepts p true = true ∧ s.windowPieces 5 0xFFFE 5 true = none) := by decide +kernel

theorem witness_reads_arrive :
    (let p := pkOf 2 0x40 7
     let s := stFab p.bytes [] [(0x800000, { cipher := true })]
     forUs 2 p s ∧ way p.spkg 1 1 s ∧ s.accepts p true = true ∧
       ((s.windowPieces 5 0x40 5 false).map fun ps => ps.map fun q => (q.pa, q.x.cn)) = some [(some 0x40000040, false)] ∧
       s.segWaits 0x40000040 = none ∧ (s.line 0x40000040).cipher = true ∧ (s.line 0x40000040).poison = false ∧
       (s.line 0x40000040).tomb = false) ∧
    (let p := pkOf 2 0x40 8
     let s := stFab p.bytes
     forUs 2 p s ∧ s.accepts p true = false) ∧
    (let p := pkOf 2 0xFFFE 7
     let s := stFab p.bytes
     forUs 2 p s ∧ s.windowPieces 5 0xFFFE 5 false = none) := by decide +kernel

theorem witness_messages_arrive :
    (let p := { pkOf 5 4 7 with karg := natLe 4 4 ++ natLe 4 0 ++ natLe 4 5 ++ natLe 4 7 }
     let s := stFab p.bytes
     forUs 5 p s ∧ s.accepts p true = true) ∧
    (let p := { pkOf 5 4 7 with karg := natLe 4 4 ++ natLe 4 0 ++ natLe 4 5 ++ natLe 4 6 }
     let s := stFab p.bytes
     forUs 5 p s ∧ s.accepts p true = false ∧ way p.spkg 1 1 s) ∧
    (let p := pkSmall 6 3 0
     forUs 6 p (stFab p.bytes) ∧ (stFab p.bytes).accepts p false = true) ∧
    (let p := pkOf 7 4 7
     let s := stFab p.bytes
     forUs 7 p s ∧ s.accepts p true = true) ∧
    (let p := pkOf 7 4 6
     let s := stFab p.bytes
     forUs 7 p s ∧ s.accepts p true = false ∧ way p.spkg 1 1 s) ∧
    (let p := pkSmall 8 3 0
     forUs 8 p (stFab p.bytes) ∧ (stFab p.bytes).accepts p false = true) ∧
    (let p := pkOf 1 0x40 7 2
     let s := stFab p.bytes
     arrives 1 p s ∧ way p.dpkg p.part 1 s ∧ fabricIdle s) ∧
    (readPk [1] = none ∧ leAt ([1] : List Byte) 0 1 = 1 ∧ fabricIdle (stFab [1])) := by decide +kernel

/-- An RMA operation that waits for one answer. -/
def rmaOp : FabricOp :=
  { id := 4, op := 7, rma := true, running := true, sent := true, opid := 99, waits := 1, len := 5, addr := 0x40000200, off := 0x40, event := 3
    peer := (2, 9) }

theorem witness_answers_arrive :
    (let s (p : Pk) := stFab p.bytes [rmaOp]
     [0, 2].all (fun st => decide (arrives 4 (pkSmall 4 0 st) (s (pkSmall 4 0 st)) ∧ waitsFor 3 5 rmaOp (s (pkSmall 4 0 st)))) = true ∧
     (let p := pkOf 3 0x40 0
      [p, { p with status := 2 }].all (fun q => decide (arrives 3 q (s q) ∧ waitsFor 3 5 rmaOp (s q))) = true)) ∧
    (let s := stFab (pkOf 3 0x40 0).bytes [rmaOp]
     let s₁ := (heardState (pkOf 3 0x40 0) s).alive 2 9
     match s₁.fabricWrite 3 (rmaOp.addr + (0x40 - rmaOp.off)) [1, 2, 3, 4, 5] with | .done _ _ => true | _ => false) = true := by
  decide +kernel

/-- A state whose port 0 is `x`. -/
def stPort (x : SlPort) : State := let s := stFab []; { s with sl := { s.sl with ports := [(0, x), (1, port 1)] } }

/-- A queued packet of a kind with `n` bytes, at the head without credit since `w`. -/
def waitingPk (k n : Nat) (w : Option Nat) : SendPkt := { pk := { pkSmall k 0 0 with data := natLe n 5 }, waitAt := w }

theorem witness_smivy_ports :
    ((stPort {}).ev.a = 0 ∧ fabricIdle (stPort {})) ∧
    (let x : SlPort := { en := true, lanesBad := 0x30 }
     x.en = true ∧ x.link = false ∧ x.latchedDown = false ∧ lanesWhole x.lanesBad = true) ∧
    lanesWhole (0x30 ||| 0x80) = true ∧ lanesWhole (0x30 ||| 0x01) = false ∧
    (let x := { port 0 with replays := 7 }
     x.link = true ∧ 8 ≤ x.replays + 1 ∧ (port 0).replays + 1 < 8) ∧
    ({ port 0 with lastFlit := 123356789 }.lastFlit + 100000 ≤ (stPort {}).time.toNat) ∧ (port 0).lastFlit + 100000 > (stPort {}).time.toNat ∧
    ((port 0).sendq = [] ∧ (port 0).pick = none) ∧
    (let x := port 0 [waitingPk 4 5 none, waitingPk 1 500 none]
     (x.pick.map fun p => p.1) = some 0 ∧ (x.share (waitingPk 4 5 none)).isSome = true ∧ (waitingPk 4 5 none).pk.flits ≤ 1) ∧
    (let x := port 0 [waitingPk 1 500 none]
     (x.pick.map fun p => p.1) = some 0 ∧ (x.share (waitingPk 1 500 none)).isSome = true ∧ 1 < (waitingPk 1 500 none).pk.flits) ∧
    ¬ waitedOut 123456789 (waitingPk 4 5 (some 122456790)) ∧ (stFab []).time.toNat = 123456789 ∧
    (waitingPk 1 5 (some 122456789)).waitAt = some 122456789 ∧ 122456789 + 1000000 ≤ (stFab []).time.toNat ∧
    (waitingPk 1 5 none).pk.isRequest = true ∧ (waitingPk 4 5 none).pk.isRequest = false ∧ way 2 3 1 (stPort (port 0)) := by
  refine ⟨by decide, by decide, by decide, by decide, by decide, by decide, by decide, by decide, by decide +kernel, by decide +kernel, ?_,
    by decide, rfl, by decide, by decide, by decide, by decide⟩
  rintro ⟨w, h, h'⟩
  cases h
  omega

theorem witness_time :
    (let p := { pkSmall 9 0 0 with karg := natLe 8 1000 ++ natLe 8 0 }
     arrives 9 p (stFab p.bytes) ∧ p.arg 24 8 = 0) ∧
    (let p := { pkSmall 9 0 0 with karg := natLe 8 123456800 ++ natLe 8 123456700 }
     let s := stFab p.bytes
     arrives 9 p s ∧ p.arg 24 8 ≠ 0 ∧ s.sl.master = false ∧ s.upPorts = [0, 1] ∧
       ∀ k, k ∈ s.upPorts → k ≠ 0 → (s.slp k).hops = 0xFF) := by decide +kernel

/-- The number of hops that the peer reports is free; a known one is less than the 255 of an unknown one. -/
theorem witness_time_hops (h : Config.peerHops 0 % 256 < 0xFF) :
    let s := stFab []
    Config.peerHops s.free % 256 < 0xFF ∧ ∀ k, k ∈ s.upPorts → k ≠ 0 → Config.peerHops s.free % 256 < (s.slp k).hops := by
  refine ⟨h, fun k _ e => Nat.lt_of_lt_of_le h ?_⟩
  have : k = 1 := by
    have hk : (stFab []).upPorts = [0, 1] := by decide
    rename_i m
    rw [hk] at m
    simp at m
    omega
  subst this
  decide

theorem witness_faults :
    ([(1, 5), (2, 5)].all fun x =>
      let p := { faultPk x.1 0 x.2 9 4 77 with dpkg := 1, data := natLe 224 0 }
      decide (arrives 10 p (stFab p.bytes) ∧ (fld (p.arg 18 2) 0 11, p.arg 22 2) ∉ (stFab p.bytes).sl.faultsSeen ∧ fabricIdle (stFab p.bytes))) = true := by
  decide +kernel

/-- A state whose core 3 has this fabric operation. -/
def stOp (o : FabricOp) : State := { stFab [] [o] with ev := { a := 3, b := 4 } }

theorem witness_operations_end :
    (stOp rmaOp).fabricOp 3 4 = some rmaOp ∧ rmaOp.at_ + 10000000 ≤ (stOp rmaOp).time.toNat ∧
    (let o := { rmaOp with op := 6, rma := false, sent := false }
     (stOp o).fabricOp 3 4 = some o ∧ o.running = true ∧ o.result = none) ∧
    (let o := { rmaOp with result := some (2, 5, true), status := 0 }
     (stOp o).fabricOp 3 4 = some o ∧ o.status = 0 ∧ ((stOp o).core 3).launch = some 7) ∧
    (let o := { rmaOp with result := some (2, 5, true), status := 0x40000100 }
     (stOp o).fabricOp 3 4 = some o ∧
       (match (stOp o).fabricWrite 3 o.status (natLe 8 (o.statusWord 2 5 true)) with | .done _ _ => true | _ => false) = true) ∧
    (let o := { rmaOp with running := false, ep := 7 }
     (stOp o).fabricOp 3 4 = some o ∧ (stOp o).mcxOf 3 = some 5 ∧ (stOp o).fabricMay 3 o = true ∧ ((stOp o).endpoint 5 7).1 = false ∧
       ∀ p, p ∈ (stOp o).sl.rx → p.kind ≠ 2) := by decide +kernel

/-! Witnesses: Circulation. -/

/-- A READY package with no dirty unit, these launches and claims; cores 0 to 6 are in partition 1. -/
def stCirc (ls : SMap (Option Launch)) (ow : SMap (Option Nat)) (f : Circ → Circ := id) : State :=
  let s := stM []
  { s with
    ev := { a := 3, flag := true }
    prot := { s.prot with
      chip := { s.prot.chip with dirty := [] }
      parts := [(1, { banks := BitVec.allOnes 1024, st := 2, mcxBase := 4, mcxCount := 8, cores := 0x7F })] }
    mem := { s.mem with saveBase := 0x1000000000, saveCount := 3 }
    circ := f { s.circ with launches := ls, owner := ow } }

/-- A house launch at intake that wants at least `n` cores and at most `m`. -/
def intake (n m : Nat) : Intake := { record := { rec0 with cmin := n, cores := m, kind := 2, hpart := 1 }, house := true }

/-- A launch bound on cores 0 to 2. -/
def held3 : Launch := { launch0 with cores := [0, 1, 2], prio := 3, record := { rec0 with cmin := 1, cores := 4 }, bindNo := 3 }

/-- The Ethernet lane holds this launch and one more. -/
def atEth (x : Intake) (s : State) : State := { s with circ := { s.circ with ethLane := [x, {}] } }

theorem witness_bindings :
    (let x := { intake 1 1 with record := { rec0 with kind := 5 } }
     let s := atEth x (stCirc [] [])
     circUp s ∧ atLane x [{}] s ∧ s.stageC x = some 1 ∧ x.request = none) ∧
    (let x := intake 1 3
     let s := atEth x (stCirc [] [])
     circUp s ∧ atLane x [{}] s ∧ s.freeSlot = some 0 ∧ s.recordSplit (partOf x s) x.record.strands = some (4, 0) ∧
       s.stageC x = none ∧ x.record.cmin ≤ (s.usable (partOf x s)).length ∧ roomy x s 0 ∧ 0 ∈ s.usable (partOf x s) ∧
       x.record.cmin ≤ (s.freeCores x.record (partOf x s) none).length) := by decide +kernel

theorem witness_bindings_on_victims :
    (let x := intake 5 6
     let s := atEth x (stCirc [(7, some held3)] [(0, some 7), (1, some 7), (2, some 7)])
     let free := s.freeCores x.record (partOf x s) none
     circUp s ∧ atLane x [{}] s ∧ s.stageC x = none ∧ s.freeSlot = some 0 ∧ s.recordSplit (partOf x s) x.record.strands = some (4, 0) ∧
       free.length = 4 ∧ s.victims (prioOf x s) (partOf x s) (x.record.cmin - free.length) = some [2] ∧ roomy x s 0 ∧
       x.record.cmin ≤ (s.usable (partOf x s)).length) ∧
    (let x := intake 6 7
     let s := atEth x (stCirc [(7, some { held3 with prio := 16 })] [(0, some 7), (1, some 7), (2, some 7)])
     let free := s.freeCores x.record (partOf x s) none
     circUp s ∧ s.stageC x = none ∧ s.freeSlot = some 0 ∧ free.length = 4 ∧
       s.victims (prioOf x s) (partOf x s) (x.record.cmin - free.length) = none ∧
       (SMap.get s.circ.waits (waitKey (partOf x s)) []).length < 256) := by decide +kernel

/-- A launch that waits for `n` cores, has `cs`, and has a record tied to core 4. -/
def waiter (n : Nat) (cs : List Nat) : Launch :=
  { launch0 with st := .waiting, cores := cs, prio := 3, aged := 3, record := { rec0 with cmin := n, cores := 3 }, strands := [(0, { st := .ready, tie := some 4 })] }

/-- A launch takes the free core of the event. -/
def takesIt (n : Nat) (s : State) : Bool := match s.launchAt n with | some l => s.freeTo l.record l.part (some n) s.ev.a | none => false

theorem witness_free_cores :
    ([1, 2].all fun n =>
      let s := stCirc [(7, some (waiter n []))] [] fun c => { c with waits := [(1, [7])] }
      decide (circUp s ∧ s.waitHead (s.partOfCore 3) = some 7 ∧ takesIt 7 s = true)) = true ∧
    (let s := stCirc [(8, some held3)] []
     circUp s ∧ s.waitHead (s.partOfCore 3) = none ∧ s.shortCarrels (s.partOfCore 3) = [8] ∧ takesIt 8 s = true) ∧
    (let s := stCirc [] []
     s.waitHead (s.partOfCore 3) = none ∧ s.shortCarrels (s.partOfCore 3) = []) ∧
    (let s := stCirc [(3, some (waiter 1 []))] [] fun c => { c with waits := [(1, [3])] }
     s.launchAt 3 = some (waiter 1 []) ∧ 3 ∈ SMap.get s.circ.waits (waitKey (waiter 1 []).part) [] ∧ (waiter 1 []).prio ≤ 15) := by
  decide +kernel

/-- Core 3 with its planes filled this far; no unit is dirty. -/
def stLoad3 (loaded full : Bool) (shadow : Plane) (dirty : SMap UnitSet := []) : State :=
  let s := stM []
  let s := { s with ev := { a := 3 }, prot := { s.prot with chip := { s.prot.chip with dirty := dirty } } }
  s.modCore 3 fun k => { k with loaded := loaded, active := { window := some 0x4000, lines := [4, 5], full := full }, shadow := shadow }

theorem witness_loader :
    (let s := stLoad3 false false {}
     (s.core 3).launch = some 7 ∧ s.launchAt 7 = some launch0 ∧ launch0.st = .bound ∧ s.owner 3 = some 7 ∧ (s.core 3).freeze = 0 ∧
       (s.core 3).loaded = false ∧ s.coreClean 3 (s.freshCtx 3 rec0) = true ∧ ((s.loadTable launch0).toOption.map fun x => (x.1, x.2 == s)) = some (none, true) ∧
       (s.loadLines (s.who launch0) (0x40000200 / 0x10000) (firstLines 0x40000200) { window := some 0x4000 }).2.bad = []) ∧
    (let s := stLoad3 false false {} [(0, { but := [3] })]
     s.coreClean 3 (s.freshCtx 3 rec0) = false) ∧
    (let s := stLoad3 true true {}
     (s.core 3).active.full = true ∧ (s.core 3).shadow.window ≠ some (s.core 3).shadowWants) ∧
    (let s := stLoad3 true true { window := some 0x4001, full := true }
     (s.core 3).shadow.window = some (s.core 3).shadowWants) := by decide +kernel

/-- An idle core 3 and strand 1 as given, ready or unstarted. -/
def stPick (r : Strand) (saves : SMap (Option Save)) (ready : List Nat) : State :=
  let s := stM []
  let s := { s with
    saves := saves, ev := { a := 3 }
    circ := { s.circ with launches := [(7, some { launch0 with strands := [(0, { st := .exited }), (1, r), (2, { st := .exited }), (3, { st := .exited })], ready := ready })] } }
  s.modCore 3 fun k => { k with strand := none }

/-- The launch of such a state. -/
def launchOf (s : State) : Launch := (s.launchAt 7).getD {}

theorem witness_strands :
    ([(({ st := .unstarted } : Strand), ([] : List Nat)), ({ st := .ready, pc := 0x40000300, c1 := 5 }, [1])].all fun p =>
      let s := stPick p.1 [] p.2
      decide ((s.core 3).launch = some 7 ∧ s.mayTake 7 3 (launchOf s) = true ∧ (launchOf s).nextRecord 3 = some 1 ∧
        SMap.get (launchOf s).coreSaves 3 none = none ∧ ((launchOf s).strand 1).save = none)) = true ∧
    (let v : Save := { area := 0x1000000000, launch := 7, core := 3, th := some (th0 [(3, 9)]) }
     let s := stPick { st := .ready, save := some 0 } [(0, some v)] [1]
     s.mayTake 7 3 (launchOf s) = true ∧ (launchOf s).nextRecord 3 = some 1 ∧ ((launchOf s).strand 1).save = some 0 ∧
       SMap.get s.saves 0 none = some v ∧ v.th = some (th0 [(3, 9)]) ∧ s.savePoisoned (some 0) = false ∧
       ((launchOf s).strand 1).st ≠ .unstarted) ∧
    (let s := stPick { st := .waiting, wkind := 2, arg := 123456789 } [] []
     ((launchOf s).strand 1).st = .waiting ∧ timeMet s.time.toNat ((launchOf s).strand 1).arg = true) := by decide +kernel

/-- A pre-emption of core 3 as far as `p`. -/
def stPre (p : Preempt) (b : Nat) (d : Drain) (ls : SMap (Option Launch) := []) : State :=
  let s := stCirc (ls ++ [(7, some launch0)]) [(3, some 7)] fun c => { c with preempts := [(3, some p)] }
  { s with ev := { a := 3, b := b } }.modCore 3 fun k => { k with th := { k.th with drain := d } }

theorem witness_preemption :
    ((stPre { victim := 7 } 0 .none).preempt 3 = some { victim := 7 } ∧ ((stPre { victim := 7 } 0 .none).core 3).strand = some 0) ∧
    (let p : Preempt := { victim := 7, asked := true, acks := [1] }
     let s := stPre p 0 .preempt
     s.preempt 3 = some p ∧ 0 ∉ p.acks ∧ (s.core 3).stopped = true ∧ ∃ j, j < 6 ∧ j ≠ 0 ∧ j ∉ p.acks) ∧
    (let p : Preempt := { victim := 7, asked := true, acks := [1, 2, 3, 4, 5] }
     let s := stPre p 0 .preempt
     s.preempt 3 = some p ∧ (s.core 3).stopped = true ∧ (∀ j, j < 6 → j = 0 ∨ j ∈ p.acks) ∧ s.freeSaves = [0, 1, 2] ∧
       (s.core 3).resident = none ∧ s.launchAt p.victim = some launch0 ∧ (s.core 3).strand = some 0) ∧
    (let p : Preempt := { incoming := some 2, victim := 7, asked := true, acks := [0, 1, 2, 3, 4] }
     let s := stPre p 5 .preempt [(2, some (waiter 1 []))]
     s.preempt 3 = some p ∧ (∀ j, j < 6 → j = 5 ∨ j ∈ p.acks) ∧ s.freeSaves = [0, 1, 2] ∧ s.launchAt 2 = some (waiter 1 []) ∧
       s.launchAt p.victim = some launch0) := by
  refine ⟨by decide, ⟨by decide, by decide, by decide, 2, by decide⟩, by decide +kernel, by decide +kernel⟩

/-- Launch slot 7 alone. -/
def stSlot7 (l : Launch) (reports : List Nat := []) : State := { stCirc [(7, some l)] [] (fun c => { c with reports := reports }) with ev := { a := 7 } }

/-- A launch parked at 0x40000000 a millisecond ago. -/
def parked (st : LaunchState) : Launch := { launch0 with st := st, parkAddr := some 0x40000000, parkNo := 2, parkAt := 122456789 }

/-- A launch whose deadline of 123 ms has passed. -/
def overdue (st : LaunchState) (f : Option Nat) : Launch := { launch0 with st := st, record := { rec0 with deadline := 123456 }, firstAt := f }

/-- A launch whose strands have all exited. -/
def allOut (st : LaunchState) : Launch :=
  { launch0 with st := st, strands := [(0, { st := .exited }), (1, { st := .exited }), (2, { st := .exited }), (3, { st := .exited })] }

theorem witness_launches_end :
    (stSlot7 (parked .parked) [5]).parkedOn 5 = [] ∧ (stSlot7 (parked .parked) [0x40000000]).parkedOn 0x40000000 = [7] ∧
    (stSlot7 (parked .bound) [0x40000000]).parkedOn 0x40000000 = [7] ∧
    (parked .parked).parkAt + 1000000 ≤ (stSlot7 (parked .parked)).time.toNat ∧
    ([((.waiting, none) : LaunchState × Option Nat), (.bound, some 5)].all fun p =>
      let l := overdue p.1 p.2
      decide (l.record.deadline ≠ 0 ∧ l.parkNo = 0 ∧ l.st ≠ .retiring ∧
        l.deadlineFrom + 1000 * l.record.deadline ≤ (stSlot7 l).time.toNat)) = true ∧
    ((stSlot7 (allOut .retiring)).launchAt 7 = some (allOut .retiring) ∧ (stSlot7 (allOut .retiring)).mem.net = []) ∧
    (let s := stSlot7 (allOut .bound)
     (allOut .bound).allExited = true ∧ s.heldFault 7 = none ∧ s.launchQuiet 7 = true) ∧
    launch0.st ≠ .retiring ∧ launch0.allExited = false := by decide +kernel

/-- A state with this dirty unit, and these that have failed once. -/
def stDirty (k u : Nat) (fl : Bool) (once : List Nat) : State :=
  let s := stM []
  { s with
    ev := { a := k, b := u, flag := fl, value := 5 }
    prot := { s.prot with chip := { s.prot.chip with dirty := [(k, { but := [u] })], once := [(k, once)] } } }

theorem witness_scrubs :
    ([(0, 3), (1, 387), (4, 512), (7, 9)].all fun p =>
      let s := stDirty p.1 p.2 true []
      decide (s.isDirty p.1 p.2 = true ∧ s.pkg.held = false ∧ s.pkg.tripped = false ∧ ∀ e, e ∈ s.prot.mcbs → e.2.scrubbing = false)) = true ∧
    3 ∉ SMap.get (stDirty 0 3 false []).prot.chip.once 0 [] ∧ 3 ∈ SMap.get (stDirty 0 3 false [3]).prot.chip.once 0 [] ∧
    (stDirty 0 3 false []).isDirty 0 4 = false ∧ (((stM []).setKeySlot 3 { st := 2 }).keySlotAt 3).st = 2 ∧
    ((stM []).keySlotAt 3).st ≠ 2 ∧ (stDirty 0 3 false []).prot.chip.tmBusy = false ∧ fld 5 0 14 < 0x2000 ∧ 0x2000 ≤ fld 0x2000 0 14 := by
  decide +kernel

/-! Witnesses: the engines of a core. -/

/-- Core 3's engine queues, with 700 bytes at 0x40000140. -/
def stEng (cs : List CopyOp) (ss : List StreamOp) (ks : List CipherOp) (h : Handle := dFull) (lines : SMap LineState := []) : State :=
  let s := (stM [] h).modCtx fun x => { x with copyq := cs, streamq := ss, cipherq := ks }
  { s with
    ev := { a := 3, b := 9 }
    mem := { s.mem with lines := lines, bytes := Memory.writeN s.mem.bytes 0x40000140 (natLe 8 0x123456789ABCDEF) } }

/-- A copy of 300 bytes. -/
def copyOp : CopyOp := { id := 9, op := 1, a := 0x40000500, b := 0x40000150, n := 300, pc := 0x44 }

/-- The pieces of a range, none where it does not translate. -/
def piecesOf (s : State) (w : Bool) (va n : Nat) : List Piece := match enginePieces s (s.engineWho 3) w va n with | .ok ps => ps | .error _ => []

/-- The cause, level and address of a range that does not translate. -/
def errorAt (s : State) (w : Bool) (va n : Nat) : Option (Nat × Nat × Nat) :=
  match enginePieces s (s.engineWho 3) w va n with | .ok _ => none | .error e => some e

/-- Every piece lies in memory on a line of state `p`. -/
def inMemory (p : Nat → LineState → Bool) (s : State) (ps : List Piece) : Bool :=
  !ps.isEmpty && ps.all fun q => match q.pa with | some a => (s.segWaits a).isNone && p a (s.line a) && !q.x.cn | none => false

/-- A line that holds plaintext. -/
def plainLine (_ : Nat) (l : LineState) : Bool := l == {}

theorem witness_copy_rows :
    [((0 : Nat), (256 : Nat)), (1, 44)].all (fun p =>
      let o : CopyOp := { copyOp with row := p.1 }
      let s := stEng [o] [] []
      let src := piecesOf s false (o.b + 256 * o.row) p.2
      let dst := piecesOf s true (o.a + 256 * o.row) p.2
      (s.core 3).ctx.copyq.find? (fun e => e.id == s.ev.b) == some o && s.copyMay 3 o && decide (256 * o.row < o.n) &&
        inMemory plainLine s src && inMemory plainLine s dst &&
        decide (dst.Pairwise fun x y => overlap (x.pa.getD 0) x.len (y.pa.getD 0) y.len = false ∧ x.pa.getD 0 / 128 ≠ y.pa.getD 0 / 128)) = true ∧
    (let o : CopyOp := { copyOp with b := 0x100000000 }
     let s := stEng [o] [] []
     s.copyMay 3 o = true ∧ (errorAt s false o.b 256).isSome = true ∧ ∀ e, e ∈ (s.core 3).ctx.copyq → e.fault = none) ∧
    (let o : CopyOp := { copyOp with op := 3, mw := 1 }
     (stEng [o] [] []).copyMay 3 o = true) := by decide +kernel

/-- A stream of five rows of 256 bytes into handle 1. -/
def streamOp : StreamOp := { id := 9, f := 1, base := 0x40000150, stride := 0x100, rows := 5, len := 256, cnt := 4 }

theorem witness_streams :
    [((none : Option Nat), (0 : Nat), ({ st := [] } : Handle)), (some 1, 2, dFull), (some 1, 4, dFull)].all (fun p =>
      let o : StreamOp := { streamOp with slot := p.1, row := p.2.1 }
      let i := p.1.getD 0
      let s := { stEng [] [o] [] p.2.2 with ev := { a := 3, b := 9, flag := true } }
      let x := (s.core 3).ctx
      let q := hSize (x.setupOf o.f) / o.len
      let fill := if o.row + 1 = o.rows then hSize (x.setupOf o.f) - (o.row % q + 1) * o.len else 0
      let dst := piecesOf s true (x.slotVa o.f i + o.row % q * o.len) (o.len + fill)
      let spot (p : Piece) : Option Nat := match p.x.dest with | .spad a => x.spadPhys a | _ => none
      s.streamMay 3 o && decide (o.slot = some i ∨ (o.slot = none ∧ i = (x.handle o.f).pp ∧ (x.handle o.f).state i = 0)) &&
        inMemory plainLine s (piecesOf s false ((o.base + o.row * o.stride) % 2 ^ 64) o.len) && !dst.isEmpty && dst.all (fun p => (spot p).isSome) &&
        decide (dst.Pairwise fun a b => overlap ((spot a).getD 0) a.len ((spot b).getD 0) b.len = false)) = true := by
  decide +kernel

theorem witness_slots_and_banks :
    (let o : StreamOp := { streamOp with advance := true, slot := some 1, row := 5 }
     let s := stEng [] [o] []
     let x := (s.core 3).ctx
     x.streamq.find? (fun e => e.id == s.ev.b && e.advance && e.fault.isNone) = some o ∧ x.copyq = [] ∧ x.cipherq = [] ∧ x.streamq = [o] ∧
       (s.core 3).th.draining o.f (x.handle o.f).pp = false ∧ o.rows ≤ o.row ∧ 2 < streamOp.rows) ∧
    (let s := { stEng [copyOp] [] [] { dFull with filling := [(1, 7, [], [8]), (0, 3, [], [9])] } with ev := { a := 3, b := 1 } }
     s.slotDone 3 1 (1, 7, [], [8]) = true ∧ s.slotDone 3 1 (0, 3, [], [9]) = false) ∧
    ([([] : List Nat), [9]].all fun ids =>
      let s := ({ stEng [copyOp] [] [] with ev := { a := 3, b := 1 } }).modCtx fun x => { x with rp := [(1, ids, ids)] }
      decide (((s.core 3).ctx.rp.find? fun r => r.1 == s.ev.b) = some (1, ids, ids)) && (s.bankDone 3 (1, ids, ids) == ids.isEmpty)) = true ∧
    (let s := stEng [] [] []
     ((s.core 3).ctx.rp.find? fun r => r.1 == s.ev.b) = none) := by decide +kernel

/-- A cipher operation on two lines. -/
def cipherOp (op a b : Nat) : CipherOp := { id := 9, op := op, dst := a, src := b, len := 256, tile := 5, key := 3 }

/-- Key slot 3 in state `st`, bound `n` times. -/
def withKey (st n : Nat) (s : State) : State := s.setKeySlot 3 { st := st, binds := n, key := natLe 64 7, part := 1, mcx := 5 }

/-- What every block needs: the operation at the head, its engine on, nothing held back. -/
def mayCipher (o : CipherOp) (s : State) : Bool :=
  (s.core 3).ctx.cipherq == [o] && o.fault.isNone && s.engineOn 3 && !(s.classStopped 3 3) && !(s.heldBack 3 4 o.seq true)

theorem witness_seal :
    let o := cipherOp 1 0x40000500 0x40000190
    let s := withKey 1 0 (stEng [] [] [o])
    mayCipher o s = true ∧ (piecesOf s true o.dst 128).map (fun p => (p.pa, p.len, p.off, p.x.key)) = [(some 0x40000500, 128, 0, 0)] ∧
      s.zeroMarked 0x40000500 = false ∧ inMemory plainLine s (piecesOf s false o.src 128) = true ∧
      (piecesOf s false o.src 128).all (fun p => p.x.key == 0) = true ∧ s.lineKey 3 = some (natLe 64 7) := by decide +kernel

/-- The line at 0x40000180 holds ciphertext with integrity value `v`, and a block of `open` reads it. -/
def stOpen (v : BitVec 32) : State := withKey 1 0 (stEng [] [] [cipherOp 2 0x40000500 0x40000180] dFull [(0x800003, { cipher := true, icv := v })])

/-- A block of `open` can be taken at this integrity value. -/
def openable (v : BitVec 32) : Bool :=
  mayCipher (cipherOp 2 0x40000500 0x40000180) (stOpen v) && inMemory plainLine (stOpen v) (piecesOf (stOpen v) true 0x40000500 128) &&
    (piecesOf (stOpen v) false 0x40000180 128).map (fun p => (p.pa, p.len)) == [(some 0x40000180, 128)] &&
    inMemory (fun _ l => l.cipher && !l.poison && !l.tomb) (stOpen v) (piecesOf (stOpen v) false 0x40000180 128)

/-- The right integrity value of that line. -/
def rightIcv : BitVec 32 := lineIcv (natLe 64 7) 5 ((stOpen 0).phys 0x40000180 128)

theorem openLine (v : BitVec 32) : ((stOpen v).line 0x40000180).icv = v := rfl

theorem openBytes (v w : BitVec 32) : (stOpen v).phys 0x40000180 128 = (stOpen w).phys 0x40000180 128 := by
  have h : (stOpen v).mem.bytes = (stOpen w).mem.bytes := rfl
  simp only [State.phys, h]

theorem witness_open_right : openable rightIcv = true ∧ ((stOpen rightIcv).line 0x40000180).icv = rightIcv ∧
    (stOpen rightIcv).phys 0x40000180 128 = (stOpen 0).phys 0x40000180 128 := ⟨by decide +kernel, openLine _, openBytes _ _⟩

theorem witness_open_wrong : openable (rightIcv + 1) = true ∧ ((stOpen (rightIcv + 1)).line 0x40000180).icv = rightIcv + 1 ∧
    (stOpen (rightIcv + 1)).phys 0x40000180 128 = (stOpen 0).phys 0x40000180 128 ∧ rightIcv ≠ rightIcv + 1 :=
  ⟨by decide +kernel, openLine _, openBytes _ _, by generalize rightIcv = v; intro h; bv_omega⟩

theorem witness_kzero :
    [((0 : Nat), (1 : Nat), (0 : Nat)), (0, 1, 1), (1, 0, 0), (1, 2, 0)].all (fun p =>
      let o := { cipherOp 5 0 0 with row := p.1 }
      let s := withKey p.2.1 p.2.2 (stEng [] [] [o])
      mayCipher o s && decide ((s.keySlotAt 3).st = p.2.1 ∧ (s.keySlotAt 3).binds = p.2.2)) = true := by decide +kernel

/-! Witnesses: frames, and the invariants of every step. -/

/-- The state where every scalar register is `a`. -/
def stAll (a : Word) : State := stM ((List.range 63).map fun i => (i + 1, a))

/-- Forms of each shape complete without a trap: scalar, stamp, transfers, vector, predicate, loads and stores in memory and in the scratchpad. -/
theorem witness_frames_hold :
    ([.add ⟨5, 6, 7, 0, 0, 0, 0⟩, .stamp ⟨5, 0, 0, 0, 0, 0, 0⟩, .csrr ⟨5, 0, 0x050, 0⟩, .br ⟨5, 6, 9, 0, 4⟩, .jmpr ⟨0, 6, 0, 0, 0, 0, 0⟩,
        .vadd ⟨0, 8, 9, 10, 0, 0, 0, 0⟩, .qset ⟨0, 5, 6, 0, 0, 0, 0, 0⟩, .lds ⟨7, 11, 5, 0, 0, 0, 0, 0, 0, 0, 0⟩,
        .ldv ⟨0, 12, 4, 0, 0, 0, 0, 0, 0, 0, 0⟩, .stv ⟨0, 8, 6, 0, 0, 0, 0, 0, 0, 0, 0⟩, .stq ⟨0, 3, 6, 0, 0, 0, 0, 0, 0, 0, 0⟩] : List Instr).all
      (fun i => [0x40000400, 0x7FFE00000400].all fun a => nextIs (exec i (stAll a)) fun t => !t.th.trapped) = true ∧
    (stAll 0x7FFE00000400).ctx.spadPhys 0x400 = some 0xC400 := by decide +kernel

/-- A well-formed syllable and a well-formed Proem instruction. -/
theorem witness_well_formed : wellFormed (.add ⟨5, 6, 0, 1, 0, 2, 0xFFFFFFFF⟩) = true ∧ (Machine.syllOf (.add ⟨5, 6, 0, 1, 0, 2, 0xFFFFFFFF⟩)).isSome = true ∧
    wellFormed (.pwait ⟨10, 11, 0, 0⟩) = true ∧ (Machine.syllOf (.pwait ⟨10, 11, 0, 0⟩)).isSome = true := by decide

/-- The invariants hold at reset, and steps from reset and from a running state go on. -/
theorem witness_steps : State.reset.bootOk ∧ Memory.wf State.reset.mem.bytes = true ∧ nextIs (step State.reset) (fun _ => true) = true ∧
    Memory.wf (stM []).mem.bytes = true ∧ nextIs (step { stM [] with agenda := [.event .powerLoss {}] }) (fun _ => true) = true := by
  refine ⟨⟨by decide, by decide, by decide, by decide, by decide, by decide, fun _ => Nat.zero_le 3, by decide, by decide⟩, by decide,
    by decide +kernel, by decide +kernel, by decide +kernel⟩

/-! Worked examples of the spec. -/

/-- The value of the newest exposed result. -/
def newest (r : Res) : Nat := match r with | .next t => (t.th.inflight.getLast?.map fun x => x.val.toNat).getD 0 | _ => 0

/-- 13 R374: bfx.i s5, s6, 60, 4. -/
theorem test_bfx_example : newest (exec (.bfxI ⟨5, 6, 0, 1, 0, 0, 0x043C⟩) (st [(6, 0xA000000000000000)])) = 0xFFFFFFFFFFFFFFFA := by decide

/-- 14 R430: qset.fp32 q5, 10 sets bits 39 to 0. -/
theorem test_qset_example : newest (exec (.qset ⟨0, 5, 6, 0, 0, 0, 0, 0⟩) (st [(6, 10)])) = 2 ^ 40 - 1 := by decide

/-- 13 R391: CORE on c437. -/
theorem test_core_example : coreWord 437 = 0x008909B5 := by decide

/-- 01 R23: TAR on c437 at the end of sweep 0x01A3. -/
theorem test_tar_example :
    let s := State.reset
    let t (x : Int) : TempEntry := { v := true, t := BitVec.ofInt 16 x }
    ({ s with
      pkg := { s.pkg with temp := [(437, t 1460), (602, t 1488), (613, t 1376)], tarRfx := 0x200, sweep := 0x01A3 }
      prot := { s.prot with parts := [(1, { st := 2, cores := 2 ^ 437, hbm := 2 ^ (64 * 9) })] } } : State).tar 437 = 0x020012181B0001A3 := by
  decide +kernel

/-- 10 R285: FP32 300.0 is 0x79 in E4M3 under RNE. -/
theorem test_convert_example : (cvtElem 0 3 rne 0x43960000 0).1 = 0x79 := by decide

/-- 10 R286: an accumulator of 2^24 and two products of 1.0 give 16,777,218. -/
theorem test_beat_example :
    let one := (ffmt 0).decode 0x3F800000
    cellBeat 0 3 [one, one] [one, one] 0x4B800000 = 0x4B800001 := by decide +kernel

/-- 10 R300: MERGE of (17, 3.0) and (42, 1.0) at the two coins around 0x400000. -/
theorem test_merge_example :
    mergePair (17, 0x40400000) (42, 0x3F800000) 0x3FFFFF = ((42, 0x40800000), false) ∧
    mergePair (17, 0x40400000) (42, 0x3F800000) 0x400000 = ((17, 0x40800000), false) := by decide +kernel

/-- 03 R79: the tree over four ranks. -/
theorem test_four_ranks : combineElem 0 0 [0x4B800000, 0x3F800000, 0x3F800000, 0xCB800000] = 0x3F800000 := by decide +kernel

/-- 14 R412: vquant.sx4.fp32 of 12.0, -3.0, 1.0, 0.75, then 0.3125, 0.09375, -0.1875 from element 8 on. -/
theorem test_quant_example :
    let xs := [0x41400000, 0xC0400000, 0x3F800000, 0x3F400000, 0, 0, 0, 0, 0x3EA00000, 0x3DC00000, 0xBE400000] ++ List.replicate 501 0
    let r := quantReg 6 rne 0 (xs.map (decodeElem 0))
    (r.1.map (·.1)).take 11 = [7, 0xB, 1, 1, 0, 0, 0, 0, 7, 4, 0xE] ∧ r.2.1.toNat = 0xE0 + 0x36 * 2 ^ 8 + 0x80 * 2 ^ 512 ∧
      orFlags (r.1.map (·.2)) &&& 0x21 = 0x01 ∧ r.2.2 = 0 := by
  decide +kernel

/-- 07 R179 to R181: the first three words of a suspended strand's record. -/
theorem test_record_example :
    let r : Strand := { st := .waiting, pc := 0x40000240, wkind := 1, evt := 7, arg := 12, gsum := 9 }
    r.word0 false = 0x0400000040000240 ∧ r.word1 = 0x0C0701 ∧ r.word2 0x0123 0x00035012 = 0x0009012300035012 := by decide

/-- 06 R172: the sequencer's word s4 at OCC 13 and DLEN 5, and at OCC 0. -/
theorem test_sequencer_example :
    let l (occ : BitVec 16) : Launch := { launch0 with
      table := some { finish := 0x40000F00, t := [2, 4, 8, 16, 32, 64, 128], d := [2, 4, 6], map := (List.replicate 32 0).set 14 2, entries := [0x100, 0x200, 0x300] }
      step := 41, occ := occ, dlen := 5, strands := [(0, { st := .held }), (1, { st := .exited }), (2, { st := .exited }), (3, { st := .exited })] }
    ((l 13).sequence.strand 0).c4 = 0x000002320000002A ∧ ((l 13).sequence.strand 0).pc = 0x300 ∧
    ((l 0).sequence.strand 0).c4 = 0x00000A000000002A ∧ ((l 0).sequence.strand 0).pc = 0x40000F00 := by decide +kernel

/-- 08 R213: virtual 0x40200000 of micro-context 0x0123 through its level-2 leaf. -/
theorem test_translate_example :
    let s := State.reset
    let m := putEntry 0x100000 0 (1 + 0x101 * 128) (putEntry 0x101000 1 (1 + 0x102 * 128) (putEntry 0x102000 1 0x048C1043E783000A []))
    let s := { s with
      mem := { s.mem with bytes := m }
      prot := { s.prot with parts := [(1, { banks := BitVec.allOnes 1024, st := 2, hbm := 2 ^ (64 * 9 + 5), keyBase := 0x40, keyCount := 2 })], mcbs := [(0x123, { part := 1, ptRoot := 0x100000, st := 1 })] } }
    (translate s (s.mcxWho 0x123) 0x40200000 false).toOption.map (fun x => (x.dest, x.key, x.ok, x.ro, x.cn)) =
      some (.mem 0x7CF0600000, 0x41, 1, false, false) := by decide +kernel

/-- 04 R100: VF 5's doorbell at offset 0x102300 puts tail 17 into VQN 0x1441. -/
theorem test_doorbell_example :
    let s := State.reset
    let s := { s with
      pkg := { s.pkg with held := false, stage := 8, mode := 1 }
      hif := { s.hif with
        link := true, numVfs := 5, fns := [(5, { enabled := true, vqBase := 0x1400, vqCount := 256, s1 := [(0x23, 0x80000041)] })], stage2 := [(0x1441, { v := true, fn := 5 })] } }
    ((s.ringDoorbell 5 0x102300 4 17).st2 0x1441).tail = 17 := by decide +kernel

/-- 07 R206: the range of an OFF21 relocation ends below 0x100000. -/
theorem test_relocation_example : (wofField 8).map (·.2) = some (some (-0x100000, 0xFFFFF)) := by decide

/-- 02 R44: the header of the second datagram of a request of 20,000 bytes. -/
theorem test_header_example :
    let h := readMrp [0x14, 0x12, 0x20, 0x00, 0x5C, 0x3E, 0x91, 0xA0, 0x4B, 0x27, 0x0A, 0x11, 0, 0, 0, 0, 0, 0, 0, 0x41, 0, 0, 1, 7, 0, 0, 0x3A, 2,
      0, 0, 0x4E, 0x20]
    h.ver = 1 ∧ h.ty = 4 ∧ h.frag = 1 ∧ h.count = 3 ∧ h.blen = 8192 ∧ h.sid = 0x5C3E91A04B270A11 ∧ h.seq = 65 ∧ h.func = 0x107 ∧
      h.reqid = 0x3A02 ∧ h.tlen = 20000 := by decide

/-- The bundle of 11 R313 at 0x40000100: add s5,s5,64; vfma.fp32 v8,v9,v10,v11; ldv v20,[s7+0]; stv [s6+0],v12. -/
def trapBundle : List Byte :=
  natLe 4 0x33 ++ natLe 8 (encode (.add ⟨5, 5, 0, 1, 0, 0, 64⟩)) ++ natLe 8 (encode (.vfma ⟨0, 8, 9, 10, 11, 0, 0, 0⟩)) ++
    natLe 8 (encode (.ldv ⟨0, 20, 7, 0, 0, 0, 0, 0, 0, 0, 0⟩)) ++ natLe 8 (encode (.stv ⟨0, 12, 6, 0, 0, 0, 0, 0, 0, 0, 0⟩))

/-- Core 3 at that bundle; the page at s7 is unmapped at level 2. -/
def stTrap : State :=
  let k := coreM { th0 [(5, 9), (6, 0x40000400), (7, 0x100000000)] with pc := 0x40000100, mab := BitVec.allOnes 128 } {} {}
  let s := stOn { k with active := { window := some 0x4000, text := Memory.writeN [] 0x100 trapBundle, lines := [2, 3], full := true } }
  { s with mem := { s.mem with bytes := putEntry 0x101000 4 (1 + 0x102 * 128) s.mem.bytes } }

/-- 11 R313: the add and the vfma commit; the load's trap is taken. -/
theorem test_trap_example : nextIs (step stTrap) (fun t =>
    t.th.swd == 0x0000010104200002 && t.th.tva == 0x100000000 && t.th.trs == 0x0004000040000100 &&
      t.th.rS 5 == 73 && t.th.pc == 0x40001000 &&
      t.th.th && t.th.inflight.map (fun x => x.dst) == [some (.v 8)]) = true := by decide +kernel

/-! Witnesses: what waits, what is turned away, and what the starts and the links of the package do about it. -/

/-- Bank 50, past the five that the launch has, as a copy's source, a list's table and a binding's handle. -/
theorem witness_bank_not_owned :
    let s := stM [(1, 0x40000100), (2, 0x7FFE000C8010), (3, 256), (4, 2)]
    let rs := s.copyRanges 3 { op := 1, a := 0x40000100, b := 0x7FFE000C8010, n := 256 }
    rs = [(0xC8010, 256)] ∧ windowRange 0x7FFE000C8010 (8 * 2) = [(0xC8010, 16)] ∧ windowRange 0x7FFE000C8020 32 = [(0xC8020, 32)] ∧
      ¬ ownsBank s 50 ∧ ∀ n, 1 ≤ n → n ≤ 0x3FF0 → names [(0xC8010, n)] 50 ∧ ∀ c, names [(0xC8010, n)] c → c = 50 := by
  refine ⟨by decide, by decide, by decide, by decide, fun n h h' => ⟨⟨_, List.mem_singleton.mpr rfl, ?_⟩, ?_⟩⟩
  · dsimp only; omega
  · rintro c ⟨r, hr, h0, h1, h2⟩
    obtain rfl := List.mem_singleton.mp hr
    dsimp only at h1 h2
    omega

/-- A launch that owns every bank its ranges name: four of them. -/
theorem witness_banks_owned : owned [(0x3FF0, 0x8000)] (stM []) := by
  rintro b ⟨r, hr, h0, h1, h2⟩
  obtain rfl := List.mem_singleton.mp hr
  dsimp only at h1 h2
  have : b = 0 ∨ b = 1 ∨ b = 2 := by omega
  obtain rfl | rfl | rfl := this <;> decide

/-- Proem's record is with its sink: each sink, and a completion whose command is in progress. -/
theorem witness_posting (b : List Byte) (k : Nat) (h : (Config.postedCompletion b).2.1 = 77) :
    let c : Cmd := { id := 8, vqn := (Config.postedCompletion b).1, packet := pkt 8 [] |>.set 4 77 }
    let s := stProemThread [(6, 64)] []
    let t := { s with hif := { s.hif with cmds := [c], threads := [(3, { x := [(6, 64)], posting := some (k, b) })] } }
    (thr s).posting = none ∧ (thr t).posting = some (k, b) ∧
      t.hif.cmds.find? (fun c => c.vqn == (Config.postedCompletion b).1 && c.tag == (Config.postedCompletion b).2.1) = some c := by
  have e : ∀ q, ({ id := 8, vqn := q, packet := (pkt 8 []).set 4 77 } : Cmd).tag = 77 := fun _ => rfl
  refine ⟨rfl, rfl, ?_⟩
  simp only [List.find?, h, e, beq_self_eq_true, Bool.and_self]

/-- An earlier fence holds the matrix unit's passes back; an acquire of the same bundle holds a store to scratchpad. -/
theorem witness_held_back :
    (let s := stM [] dFull
     { s with mem := { s.mem with net := [{ ld 2 with core := 3 }, { id := 3, core := 3, launch := 7, kind := .pfence 1 8 }], nextReq := 9 } }.fetchHeld = true ∧
       s.fetchHeld = false) ∧
    (let s := stM []
     let r : Req := { id := 9, core := 3, launch := 7, acq := true, parts := [{ addr := 0x40000000, len := 8, ok := 1 }] }
     let t := { s with mem := { s.mem with net := [r], nextReq := 10 } }.modTh fun th => { th with reqStart := 9 }
     t.acquireOpen t.cur t.th.reqStart t.mem.nextReq = true ∧ ¬ nothingBefore (lw 7 5) t ∧ t.lsbuOpen = false) := by
  refine ⟨by decide, by decide, ?_, by decide⟩
  rintro ⟨-, h⟩
  exact absurd h (by decide)

/-- A store past the house's segment table, on a page that is clean, by a tenant; a list whose entries meet no fault. -/
theorem witness_store_may_be_made :
    let r := reqOf .store 0x40000100 128 false none
    (stReq r).pageDirty 0x40000100 5 = false ∧ offTheTable r (r.parts.headD {}) (stReq r) ∧
      (stReq (reqOf (.bank 19 0) 0x40000100 16 false (some 9))).entryFault 19 0x40000100 = none := by
  exact ⟨by decide, .inl (by decide), by decide⟩

/-- A segment that loads over a link: its content still on the way, and given up; which entries have two sources. -/
theorem witness_peer_segment (b h : List Byte) :
    let s (g : Segment) : State := { stM [] with ev := { a := 0 }, mem := { (stM []).mem with segs := [(0, { g with st := 1, page := 0x40000000 })] } }
    segmentLoads (stSeg b h false false) ∧ ¬ loadFailed (stSeg b h false false) ∧ loadFailed (stSeg b h true false) ∧
      (let g := s { fromPeer := true, got := 0x1FFFFF, sources := 3 }
       segmentLoads g ∧ (g.seg 0).fromPeer = true ∧ (g.seg 0).failed = false ∧ (g.seg 0).got < 0x200000 ∧ (g.seg 0).sources % 4 = 3) ∧
      (let g := s { fromPeer := true, failed := true, sources := 2 }
       segmentLoads g ∧ loadFailed g ∧ (g.seg 0).retried = false) := by
  have none_ : ∀ (x : State), x.mem.segBase = none → ∀ b, x.mem.segBase = some b → (x.seg x.ev.a).page + 0x200000 ≤ b ∨ b + 64 * 65536 ≤ (x.seg x.ev.a).page :=
    fun x e b h => by rw [e] at h; cases h
  refine ⟨⟨rfl, by show 0 < 65536; omega, fun i hi => absurd hi List.not_mem_nil, none_ _ rfl⟩, (fun h => by cases h), rfl,
    ⟨⟨rfl, by show 0 < 65536; omega, fun i hi => absurd hi List.not_mem_nil, none_ _ rfl⟩, rfl, rfl, ?_, rfl⟩,
    ⟨rfl, by show 0 < 65536; omega, fun i hi => absurd hi List.not_mem_nil, none_ _ rfl⟩, rfl, rfl⟩
  show 0x1FFFFF < 0x200000
  omega

/-- The replay-protected block carries the right HMAC, and a wrong one. -/
theorem witness_block_mac (f : Flash) :
    ({ f with mac := some f.blockMac } : Flash).mac = some ({ f with mac := some f.blockMac } : Flash).blockMac ∧
      ∃ m, ({ f with mac := some (0 :: f.blockMac) } : Flash).mac = some m ∧ m ≠ ({ f with mac := some (0 :: f.blockMac) } : Flash).blockMac :=
  ⟨rfl, _, rfl, List.cons_ne_self 0 f.blockMac⟩

/-- LAUNCH of a record whose CREC is not aligned; COPY_OUT from a segment that is not there; KEY_IMPORT while a key in flight is lost. -/
theorem witness_commands_turned_away :
    ¬ ((parseRecord (List.replicate 80 0 ++ [1] ++ List.replicate 47 0)).crec % 64 = 0 ∧
       (parseRecord (List.replicate 80 0 ++ [1] ++ List.replicate 47 0)).sigAddr % 8 = 0) ∧
    (let b := pkt 0x06 (fields [(2, 5), (2, 0), (4, 128), (8, 0x2000), (8, 0x40000100)])
     let s := { stHost b with mem := { (stHost b).mem with segs := [(9, { page := 0x40000000 })] } }
     packetStands 0x06 b s = true ∧ s.segWaits 0x40000100 = some false ∧
       (match cutAccess s (s.mcxWho 5) false 0x40000100 128 with | .ok ps => ps.map fun p => p.pa | .error _ => []) = [some 0x40000100]) ∧
    (let b := pkt 0x07 (fields [(2, 29), (6, 0), (8, 0x2000)])
     let s := stHost b [(0x2000, List.replicate 32 0)]
     let s := { s with prot := { s.prot with vault := { s.prot.vault with struck := true } } }
     packetStands 0x07 b s = true ∧ s.prot.vault.struck = true ∧ (s.hostRead 0 0x2000 32).isSome = true) := by decide +kernel

/-- Chunks: one that overflows the largest message whatever it holds, and, where a chunk holds at most 4,096 bytes, one that does not. -/
theorem witness_chunks (field : List Byte) (h : field.length ≤ 4096) :
    131072 < ((stMail [] 1 true [] (some (List.replicate 131073 0))).hif.spdmIn.getD [] ++ field).length ∧
      ((stMail [] 1 true [] none).hif.spdmIn.getD [] ++ field).length ≤ 131072 ∧
      (let all := (stMail [] 3 true [] (some [0x12, 0x81])).hif.spdmIn.getD [] ++ field
       leAt all 1 1 = 0x81 ∧ all.length ≤ 131072) := by
  refine ⟨?_, ?_, rfl, ?_⟩
  · show 131072 < (List.replicate 131073 (0 : Byte) ++ field).length
    rw [List.length_append, List.length_replicate]
    omega
  · show ([] ++ field).length ≤ 131072
    simp only [List.nil_append]; omega
  · show ([0x12, 0x81] ++ field).length ≤ 131072
    simp only [List.length_append, List.length_cons, List.length_nil]; omega

/-- The last line of a WRITE that has arrived, at its home slice; another before it; a WRITE of no bytes. -/
theorem witness_arriving_lines :
    let p := pkOf 1 0x40 7
    let r (d : Bool) : Req :=
      { id := 9, core := 700, launch := 2 ^ 20, kind := .arriving p none, data := List.replicate 13 7, mask := List.replicate 13 true
        parts := [{ addr := 0x4000007B, len := 5, va := 0x4000007B, ok := 1, tag := 5, done := d }, { addr := 0x40000080, len := 8, off := 5, va := 0x40000080, ok := 1, tag := 5 }] }
    let s (d : Bool) : State := { stFab [] with ev := { a := 9, b := 1 }, mem := { (stFab []).mem with net := [r d] } }
    [true, false].all (fun d => (s d).req 9 == some (r d) && (s d).mayPerform (r d) 1 && !((s d).pageDirty 0x40000080 5) && !((s d).zeroMarked 0x40000080) &&
      ((s d).line 0x40000080).writeFault false == none && ((s d).launchAt (2 ^ 20)).isNone && decide (fabricIdle (s d))) = true ∧
    ((r true).donePart 1).performed = true ∧ ((r false).donePart 1).performed = false ∧ (∀ o, placeOf 0x40000080 ≠ .house o ∧ placeOf 0x40000080 ≠ .host o) ∧
    (let p := (pkOf 1 0x40 7).setArg 24 4 0
     forUs 1 p (stFab p.bytes) ∧ ((stFab p.bytes).windowPieces 5 0x40 0 true) = some []) := by
  refine ⟨by decide +kernel, by decide, by decide, fun o => ⟨?_, ?_⟩, by decide +kernel⟩ <;> intro h <;> cases h

/-- Flits to be sent again, a request for them, links in READY and before it. -/
theorem witness_replay :
    (let x : SlPort := { port 0 with retry := [(4, [4]), (5, [5]), (6, [6])], resend := [(5, [5]), (6, [6])], replays := 8 }
     x.link = true ∧ x.retry = [(4, [4])] ++ (5, [5]) :: [(6, [6])] ∧ (∀ g, g ∈ [((4 : Nat), ([4] : List Byte))] → g.1 ≠ 5) ∧ 8 ≤ x.replays) ∧
    (let s := stPort { en := true }
     etherUp { s with pkg := { s.pkg with stage := 8, mode := 1 } } ∧ ({ s with pkg := { s.pkg with mode := 2 } } : State).pkg.mode = 2) := by
  decide

/-- A peer that knows no hops, and no other port that does: no parent is left. -/
theorem witness_no_parent (h : Config.peerHops 0 % 256 = 0xFF) :
    let s := stFab []
    Config.peerHops s.free % 256 = 0xFF ∧ s.sl.master = false ∧ ∀ k, k ∈ s.upPorts → k ≠ 0 → (s.slp k).hops = 0xFF :=
  ⟨h, rfl, by decide⟩

/-- The loader waits for a segment, at the first bundle and at the rest of its window. -/
theorem witness_loader_waits :
    let seg (s : State) : State := { s with mem := { s.mem with segs := [(9, { page := 0x40000000 })] } }
    let code := (firstLines 0x40000200).map fun i => (0x40000000 + 128 * i, 128)
    let s := seg (stLoad3 false false {})
    let t := seg (stLoad3 true false {})
    s.waitsOn (s.who launch0).outside code = some 0x40000200 ∧ s.coreClean 3 (s.freshCtx 3 rec0) = true ∧
      t.waitsOn (t.who launch0).outside [(0x40000000, 0x10000)] = some 0x40000000 ∧ (t.core 3).active.full = false ∧ (t.core 3).active.window = some 0x4000 := by
  decide +kernel

/-- A strand whose store is not performed; one whose save area the fabric class holds; areas on which it does, and does not, wait. -/
theorem witness_resumption_waits :
    (let s := stPick { st := .ready } [] [1]
     let s := { s with mem := { s.mem with net := [{ core := 4, launch := 7, strand := 1, kind := .store, parts := [{ addr := 0x40000000, len := 8 }] }] } }
     s.mayTake 7 3 (launchOf s) = true ∧ (launchOf s).nextRecord 3 = some 1 ∧ s.mayResume 7 3 1 (launchOf s) = false) ∧
    ([false, true].all fun w =>
      let v : Save := { area := 0x1000000000, launch := 7, core := 3, th := some (th0 []), fabWait := w }
      let s := stPick { st := .ready, save := some 0 } [(0, some v)] [1]
      s.mayResume 7 3 1 (launchOf s) == !w) = true ∧
    Memory.wf (stPick { st := .ready } [] [1]).mem.bytes = true := by decide +kernel

/-- A class that may not acknowledge yet: the core's store is not performed; the fabric class's late acknowledgement. -/
theorem witness_acknowledgements :
    (let p : Preempt := { victim := 7, asked := true, acks := [1] }
     let s := stPre p 4 .preempt
     let s := { s with mem := { s.mem with net := [{ core := 3, launch := 7, kind := .store, parts := [{ addr := 0x40000000, len := 8 }] }] } }
     s.preempt 3 = some p ∧ s.mayAck 3 0 = false ∧ s.mayAck 3 4 = false) ∧
    (let p : Preempt := { victim := 7, asked := true, acks := [1, 2, 3, 4, 5] }
     let s := stPre p 0 .preempt
     s.mayAck 3 0 = true ∧ (∀ l, s.launchAt p.victim = some l → l.st ≠ .retiring)) ∧
    (let v : Save := { launch := 7, core := 3, th := some (th0 []), fabWait := true }
     let s := { stPick {} [(0, some v)] [] with ev := { a := 3, b := 6 } }
     s.preempt 3 = none ∧ SMap.get s.saves 0 none = some v ∧ v.core = 3) := by
  refine ⟨by decide, ⟨by decide, ?_⟩, by decide⟩
  intro l h
  have e : (stPre { victim := 7, asked := true, acks := [1, 2, 3, 4, 5] } 0 .preempt).launchAt 7 = some launch0 := by decide
  rw [e] at h
  cases h
  decide

/-- A key slot whose turn to be scrubbed has not come: another before it is dirty. -/
theorem witness_scrub_turn :
    let s := { stDirty 7 9 true [] with prot := { (stM []).prot with chip := { (stM []).prot.chip with dirty := [(7, { but := [3, 9] })] } } }
    s.isDirty 7 9 = true ∧ s.scrubTurn 7 9 = false ∧ s.scrubTurn 7 3 = true := by decide

/-- Late faults are pending on a core: one of an earlier moment, one of a later path of the same. -/
theorem witness_late_faults :
    let f : TrapInfo := { cause := 0x0302, late := true, path := 4 }
    let a : TrapInfo := { cause := 0x0101, late := true, path := 5, at_ := 10 }
    let b : TrapInfo := { cause := 0x0101, late := true, path := 9, at_ := 20 }
    joins f 20 [a, b] [a, { f with at_ := 20 }, b] ∧ (insertLate [a, b] { f with at_ := 20 }) = [a, { f with at_ := 20 }, b] := by
  refine ⟨⟨[_], [_], rfl, rfl, ?_, ?_⟩, by decide⟩
  · intro e he
    obtain rfl := List.mem_singleton.mp he
    exact .inl (by decide)
  · intro e he
    cases he
    exact .inr (by decide)

/-! Witnesses: the traps and waits of vector, accumulator, scale, memory and bank forms. -/

/-- VectorSyllablesThatTrap: a format no float form takes, a form of VA alone in VB, a name outside the rotating region, a NaN for E2M1. -/
theorem witness_vector_traps :
    ¬ VLegal 0x04 ⟨9, 8, 16, 32, 40, 0, 0, 0⟩ (st []) ∧ ¬ VLegal 0x26 ⟨0, 40, 8, 0, 60, 3, 0, 0⟩ ((st []).modTh fun th => { th with slot := 2 }) ∧
    ¬ VLegal 0x01 ⟨0, 1500, 16, 32, 0, 0, 0, 0⟩ (st []) ∧ ¬ ImmLegal ⟨5, 8, 16, 0, 0, 0, 0, 0⟩ (stV [] [] 0x7FFF) ∧
    ImmLegal ⟨0, 8, 16, 0, 0, 0, 0, 0⟩ (stV [] [] 0x7FFF) := by decide

/-- A state in which an earlier bundle's access to the scratchpad, and one to memory, are not performed. -/
def stHeld (r : SMap Word) : State :=
  { stM r with mem := { (stM r).mem with net := [{ core := 3, kind := .store, parts := [{ addr := 2 ^ 50 + 3 * 2 ^ 21, len := 8, ok := 0 }] }] } }.modTh
    fun th => { th with reqStart := 9 }

/-- MatrixDrainsAndAccumulators: a name that does not map, an address past the last row and one that is not aligned, a release that waits. -/
theorem witness_accumulator_traps :
    vnamesOk (stM []).th.rot 1500 1 = false ∧ Legal (.l 6 (lw 0 1500)) ∧ Legal (.w 6 (lw 0 1500)) ∧
    lwAddress (lw 0 8) (stM [(6, 0x80000)]) % 256 = 0 ∧ ¬ (lwAddress (lw 0 8) (stM [(6, 0x80000)]) ≤ 0x7FF00) ∧
    lwAddress (lw 0 8) (stM [(6, 0xFFFF)]) % 256 ≠ 0 ∧ (stHeld []).lsbuOpen = true ∧ Legal (.l 6 (lw 0 8 0 1)) := by decide

/-- ScratchpadAccesses, the scale loads: across a bank, in a bank that is not owned, behind an access that is held. -/
theorem witness_scale_traps :
    ¬ ((0x7FFE00003FC0 - 0x7FFE00000000) % 0x4000 + 66 ≤ 0x4000) ∧ (0x7FFE00003FBE - 0x7FFE00000000) % 0x4000 + 66 ≤ 0x4000 ∧
    (stM []).ctx.spadPhys (0x7FFE00010000 - 0x7FFE00000000) = none ∧ (stHeld []).spadHeld false = true ∧
    (stHeld []).ctx.spadPhys 0 ≠ none := by decide

/-- HomeSliceAccesses: no byte active under q1, of a load and of a store. -/
theorem witness_inactive :
    (List.range 256).all (fun i => !((stM []).th.rQ 1).getLsbD (i % 256)) = true ∧
    (piecesAt 0x40000100 256 true).all (fun p => !(slice (activeBytes { lw 0 8 with qp := 1 } 256 (stM [])) p.off p.len).any id) = true ∧
    AccessLegal (.l 2 { lw 0 8 with qp := 1 }) 8 1 (stM []) ∧ AccessLegal (.w 2 { lw 0 8 with qp := 1 }) 8 1 (stM []) := by decide

/-- BankOperationsAreSent, the checks: an encoding, an alignment, a translation, a consumable page, HBM for a free list, the scratchpad. -/
theorem witness_bank_checks :
    (Syll.w 8 (bk 0 5 7)).fits = true ∧ ¬ AccessLegal (.w 8 (bk 0 5 7)) 5 0 (stM []) ∧ 0x40000104 % operandBytes 8 7 ≠ 0 ∧
    cutAccess (stM []) ((stM []).who (stM []).launch) true 0x80000000 8 = .error (0x0102, 1, 0x80000000) ∧
    (piecesAt 0xC0000000 8 true).any (fun p => p.x.cn) = true ∧ (piecesAt 0x7FFE00000000 8 true).any (fun p => p.spad.isSome) = true ∧
    (piecesAt 0x7FFE00000000 8 true).all (fun p => !(p.x.cn || (decide (18 ≤ 8) && p.spad.isNone && !p.inStacks))) = true := by decide

/-- The frame of every syllable at issue: forms of the synchronisation, copy and matrix slots go on. -/
theorem witness_frame_of_syllables :
    nextIs (exec (.bkrel ⟨1, 0⟩) (stM [])) (fun t => !t.th.trapped) = true ∧ nextIs (exec (.grinit ⟨0, 4, 0, 0⟩) (stM [(4, 4)])) (fun t => !t.th.trapped) = true ∧
    nextIs (exec (.cprefetch ⟨0, 6, 7, 0, 0⟩) (stM [(6, 0x40000000)])) (fun t => !t.th.trapped) = true ∧
    nextIs (exec (.mwswap ⟨0, 0, 0, 0, 0, 0, 1, 0⟩) (stM [])) (fun t => !t.th.trapped) = true := by decide

/-- MemoryEventsHappen, home slices: off the house's table, on a page that is not dirty. -/
theorem witness_store_page :
    let r := reqOf .store 0x40000100 128 false none
    ((stReq r).launchAt r.launch).isSome = true ∧ (((stReq r).launchAt r.launch).getD {}).house = false ∧ (stReq r).pageDirty 0x40000100 5 = false := by decide

/-- EngineOperationsAreQueued: counts and lengths past their limits, handles that are not configured, records that are not aligned. -/
theorem witness_copy_slot_traps :
    let s := stM [(1, 0x100000000), (2, 4097), (3, 65537), (4, 0x1000001), (5, 0x12)]
    2 ^ 32 ≤ (s.rS 1).toNat ∧ ¬ ((s.rS 2).toNat ≤ 4096) ∧ s.handleOk 5 = false ∧ ¬ (1 ≤ (s.rS 0).toNat) ∧ ¬ ((s.rS 3).toNat ≤ 65536) ∧
    (s.rS 0).toNat % 2 ^ 24 = 0 ∧ (s.rS 4).toNat / 2 ^ 24 ≠ 0 ∧ (s.rS 5).toNat % 8 ≠ 0 ∧ Legal (.c 6 ⟨0, 12, 1, 4, 5⟩) ∧
    Legal (.c 4 ⟨5, 1, 2, 9, 0⟩) ∧ Legal (.c 5 ⟨5, 1, 2, 9, 0⟩) := by decide
end Sys2Proof.Tests
end

section
/-! Every instruction of the opcode table answers a next state (O55). The guards that the instructions share (legality, room, ownership,
access checks) trap, wait or hand on to what follows; so an instruction goes on as soon as what follows its guards does. -/
namespace Sys2Proof.Proofs

open Sys2Proof.Machine Sys2Proof.Laws

/-- The answer is a next state: neither a fault nor a refusal. -/
def GoesOn (r : Res) : Prop := ∃ t, r = .next t

/-! The answers. -/

theorem goesOn_next (t : State) : GoesOn (.next t) := ⟨t, rfl⟩

theorem goesOn_trap (cause detail tva path : Nat) (s : State) : GoesOn (trap cause detail tva path s) := goesOn_next _

theorem goesOn_illop (y : Syll) (s : State) : GoesOn (illop y s) := goesOn_trap ..

theorem goesOn_stall (s : State) : GoesOn (stall s) := goesOn_next _

theorem goesOn_overRead (path : Nat) (s : State) : GoesOn (overRead path s) := goesOn_next _

theorem goesOn_ite {c : Prop} [Decidable c] {a b : Res} (ha : GoesOn a) (hb : GoesOn b) : GoesOn (if c then a else b) := by
  split
  · exact ha
  · exact hb

/-! The guards of every slot. -/

theorem goesOn_checked {y : Syll} {s : State} {k : State → Res} (h : GoesOn (k s)) : GoesOn (checked y s k) := by
  rcases checked_cases y s k with e | e
  · exact e ▸ h
  · exact e ▸ goesOn_next _

theorem goesOn_circPass {s : State} {k : State → Res} (h : GoesOn (k s)) : GoesOn (circPass s k) := goesOn_ite (goesOn_stall s) h

theorem goesOn_ownsBanks {path : Nat} {rs : List (Nat × Nat)} {s : State} {k : State → Res} (h : GoesOn (k s)) :
    GoesOn (ownsBanks path rs s k) := by
  dsimp only [ownsBanks]
  split
  · exact h
  · exact goesOn_trap ..

/-! The scalar slot. -/

theorem goesOn_toRegister {y : Syll} {t : Nat} {s : State} {k : State → Res} (h : GoesOn (k s)) : GoesOn (toRegister y t s k) :=
  goesOn_ite h (goesOn_illop y s)

theorem goesOn_suspendCheck {y : Syll} {s : State} {k : State → Res} (h : GoesOn (k s)) : GoesOn (suspendCheck y s k) :=
  goesOn_ite (goesOn_illop y s) (goesOn_ite (goesOn_trap ..) h)

theorem goesOn_spawn (f : SA) (s : State) : GoesOn (execSpawn f s) :=
  goesOn_checked <| goesOn_toRegister <| goesOn_circPass <| by
    split
    · exact goesOn_next _
    · exact goesOn_next _

theorem goesOn_suspend (f : SA) (s : State) : GoesOn (execSuspend f s) :=
  goesOn_checked <| goesOn_suspendCheck <| by
    split
    · exact goesOn_next _
    · exact goesOn_illop ..

/-! The vector slots. -/

theorem goesOn_vChecked {op : Nat} {f : VOp} {s : State} {k : State → Res} (h : GoesOn (k s)) : GoesOn (vChecked op f s k) :=
  goesOn_ite h (goesOn_illop ..)

theorem goesOn_vDraw {op : Nat} {f : VOp} {s : State} {k : DrawCtl → State → Res} (h : ∀ c, GoesOn (k c s)) : GoesOn (vDraw op f s k) :=
  goesOn_vChecked <| goesOn_ite (goesOn_illop ..) (h _)

theorem goesOn_vUnary (op : Nat) (f : VOp) (lat : Nat) (rounds : Bool) (g : Rnd → Nat → Nat → Elem) (s : State) :
    GoesOn (vUnary op f lat rounds g s) :=
  goesOn_vChecked (goesOn_next _)

theorem goesOn_vBinary (op : Nat) (f : VOp) (lat : Nat) (rounds zero : Bool) (g : Rnd → Nat → Nat → Nat → Elem) (s : State) :
    GoesOn (vBinary op f lat rounds zero g s) :=
  goesOn_vChecked <| goesOn_ite (goesOn_illop ..) (goesOn_next _)

theorem goesOn_vShift (op : Nat) (f : VOp) (g : Nat → Nat → Nat) (s : State) : GoesOn (vShift op f g s) :=
  goesOn_vChecked <| goesOn_ite (goesOn_illop ..) (goesOn_next _)

theorem goesOn_vCompare (op : Nat) (f : VOp) (s : State) : GoesOn (vCompare op f s) :=
  goesOn_vChecked <| goesOn_ite (goesOn_illop ..) (goesOn_next _)

theorem goesOn_vMove (op : Nat) (f : VOp) (lat span : Nat) (qp : BitVec 256) (g : Nat → Nat) (s : State) :
    GoesOn (vMove op f lat span qp g s) :=
  goesOn_vChecked (goesOn_next _)

theorem goesOn_vConvert (op : Nat) (f : VOp) (src dst span lat : Nat) (r : Rnd) (a : List Nat) (rounds : Bool) (s : State) :
    GoesOn (vConvert op f src dst span lat r a rounds s) :=
  goesOn_vChecked (goesOn_next _)

/-! The matrix slot. -/

theorem goesOn_pushForm {op : Nat} {f : MOp} {ok : Nat → Bool} {s : State} {k : Nat → State → Res} (h : ∀ slot t, GoesOn (k slot t)) :
    GoesOn (pushForm op f ok s k) :=
  goesOn_checked <| goesOn_ite (goesOn_illop ..) <| by
    dsimp only
    split
    · exact goesOn_stall s
    · exact goesOn_overRead ..
    · refine goesOn_ite (goesOn_stall s) ?_
      split
      · exact goesOn_trap ..
      · exact h _ _

theorem goesOn_macc (f : MOp) (s : State) : GoesOn (execMacc f s) :=
  goesOn_checked <| by
    dsimp only
    split
    · exact goesOn_illop ..
    · exact goesOn_ite (goesOn_illop ..) (goesOn_next _)

theorem goesOn_mdrain (f : MOp) (s : State) : GoesOn (execMdrain f s) :=
  goesOn_checked <| by
    dsimp only
    split
    · exact goesOn_illop ..
    · refine goesOn_ite (goesOn_illop ..) (goesOn_ite (goesOn_stall s) ?_)
      split
      · exact goesOn_trap ..
      · exact goesOn_next _

/-! The load and store slots (16 R451): an access that passes its checks, and what it then does. -/

theorem goesOn_accessChecks {a : Access} {s : State} {k : List Piece → State → Res} (h : ∀ ps, GoesOn (k ps s)) :
    GoesOn (accessChecks a s k) := by
  refine goesOn_ite (goesOn_trap ..) ?_
  split
  · exact goesOn_trap ..
  · split
    · exact goesOn_trap ..
    · refine goesOn_ite (goesOn_trap ..) (goesOn_ite (goesOn_trap ..) ?_)
      split
      · exact goesOn_trap ..
      · split
        · exact goesOn_trap ..
        · exact h _

theorem goesOn_checkedAccess {a : Access} {names : Bool} {s : State} {k : List Piece → State → Res} (h : ∀ ps, GoesOn (k ps s)) :
    GoesOn (checkedAccess a names s k) :=
  goesOn_ite (goesOn_accessChecks h) (goesOn_trap ..)

theorem goesOn_spadLoad (a : Access) (ty off : Nat) (act : List Bool) (s : State) : GoesOn (spadLoad a ty off act s) :=
  goesOn_ite (goesOn_stall s) (goesOn_next _)

theorem goesOn_memLoad (a : Access) (ty : Nat) (ps : List Piece) (act : List Bool) (s : State) : GoesOn (memLoad a ty ps act s) := by
  refine goesOn_ite (goesOn_stall s) (goesOn_ite (goesOn_next s) (goesOn_ite ?_ (goesOn_next _)))
  split
  · exact goesOn_next _
  · exact goesOn_next _

theorem goesOn_loadForm (op ty : Nat) (f : LW) (ea n span : Nat) (s : State) : GoesOn (loadForm op ty f ea n span s) :=
  goesOn_checkedAccess fun ps => by
    split
    · exact goesOn_spadLoad ..
    · exact goesOn_memLoad ..

theorem goesOn_memStore (a : Access) (ps : List Piece) (bs : List Byte) (act : List Bool) (s : State) : GoesOn (memStore a ps bs act s) :=
  goesOn_ite (goesOn_stall s) (goesOn_next _)

theorem goesOn_storeForm (op : Nat) (f : LW) (ea : Nat) (bs : List Byte) (names : Bool) (count : Nat) (s : State) :
    GoesOn (storeForm op f ea bs names count s) :=
  goesOn_checkedAccess fun ps => by
    split
    · exact goesOn_ite (goesOn_stall s) (goesOn_next _)
    · exact goesOn_memStore ..

theorem goesOn_bufferChecks {y : Syll} {f : LW} {slot : Handle → Nat} {s : State} {k : Nat → Handle → State → Res}
    (h : ∀ o d, GoesOn (k o d s)) : GoesOn (bufferChecks y f slot s k) :=
  goesOn_ite (goesOn_illop ..) (goesOn_ite (goesOn_trap ..) (goesOn_ite (goesOn_trap ..) (h _ _)))

theorem goesOn_ldcb (f : LW) (s : State) : GoesOn (execLdcb f s) :=
  goesOn_bufferChecks fun _ d => by
    split
    · exact goesOn_stall s
    · exact goesOn_overRead ..
    · exact goesOn_ite (goesOn_stall s) (goesOn_next _)

theorem goesOn_accChecks {y : Syll} {f : LW} {s : State} {k : Nat → State → Res} (h : ∀ x, GoesOn (k x s)) : GoesOn (accChecks y f s k) :=
  goesOn_ite (goesOn_trap ..) (goesOn_ite (goesOn_trap ..) (goesOn_ite (goesOn_trap ..) (h _)))

theorem goesOn_bankForm (op : Nat) (f : LW) (returns : Bool) (data : List Byte) (act : List Bool) (opB : Word) (s : State) :
    GoesOn (bankForm op f returns data act opB s) :=
  goesOn_checkedAccess fun _ => goesOn_ite (goesOn_stall s) (goesOn_ite (goesOn_next s) (goesOn_next _))

/-! The copy slot. -/

theorem goesOn_copyRoom {s : State} {k : State → Res} (h : GoesOn (k s)) : GoesOn (copyRoom s k) := goesOn_ite (goesOn_stall s) h

theorem goesOn_fabricRoom {s : State} {k : State → Res} (h : GoesOn (k s)) : GoesOn (fabricRoom s k) := goesOn_ite (goesOn_stall s) h

theorem goesOn_fabricForm (op : Nat) (rma : Bool) (f : COp) (s : State) : GoesOn (fabricForm op rma f s) :=
  goesOn_checked <| goesOn_ite (goesOn_illop ..) <| goesOn_ite (goesOn_trap ..) <| goesOn_fabricRoom (goesOn_next _)

/-! The cipher slot. -/

theorem goesOn_queueOwned (o : CipherOp) (s : State) (k : State → State) : GoesOn (queueOwned o s k) := goesOn_ownsBanks (goesOn_next _)

/-! The synchronisation slot. -/

theorem goesOn_handleForm {y : Syll} {h : Nat} {s : State} {k : State → Res} (hk : GoesOn (k s)) : GoesOn (handleForm y h s k) :=
  goesOn_checked <| goesOn_ite hk (goesOn_illop y s)

theorem goesOn_cbwaitFull (f : YH) (s : State) : GoesOn (execCbwaitFull f s) :=
  goesOn_handleForm <| by
    split
    · exact goesOn_stall s
    · exact goesOn_overRead ..
    · exact goesOn_next _

theorem goesOn_cbadvCons (f : YH) (s : State) : GoesOn (execCbadvCons f s) :=
  goesOn_handleForm <| by
    dsimp only
    split
    · exact goesOn_stall s
    · exact goesOn_overRead ..
    · exact goesOn_next _

theorem goesOn_cbrelLine (f : YH) (s : State) : GoesOn (execCbrelLine f s) :=
  goesOn_checked <| by
    dsimp only
    split
    · exact goesOn_trap ..
    · split
      · exact goesOn_trap ..
      · exact goesOn_next _

theorem goesOn_bar (f : YG) (s : State) : GoesOn (execBar f s) :=
  goesOn_checked <| by
    split
    · exact goesOn_ite (goesOn_next _) (goesOn_stall s)
    · exact goesOn_ite (goesOn_trap ..) <| goesOn_ite (goesOn_trap ..) <| goesOn_ite (goesOn_stall s) <|
        goesOn_ite (goesOn_next _) (goesOn_stall _)

theorem goesOn_aballoc (f : YA) (s : State) : GoesOn (execAballoc f s) :=
  goesOn_checked <| goesOn_ite (goesOn_illop ..) <| by
    dsimp only
    split
    · exact goesOn_next _
    · exact goesOn_next _

theorem goesOn_grpop (f : YR) (s : State) : GoesOn (execGrpop f s) :=
  goesOn_checked <| by
    split
    · exact goesOn_next _
    · exact goesOn_next _

theorem goesOn_rowsave (f : YR) (s : State) : GoesOn (execRowsave f s) :=
  goesOn_checked <| by
    dsimp only
    split
    · exact goesOn_next _
    · exact goesOn_illop ..

theorem goesOn_rowrest (f : YR) (s : State) : GoesOn (execRowrest f s) :=
  goesOn_checked <| by
    split
    · exact goesOn_next _
    · exact goesOn_next _
    · exact goesOn_next _
    · exact goesOn_illop ..

/-! The scale slot. -/

theorem goesOn_scaleLoad (op : Nat) (f : ZOp) (n lo : Nat) (s : State) : GoesOn (scaleLoad op f n lo s) :=
  goesOn_checked <| goesOn_ite (goesOn_trap ..) <| goesOn_ite (goesOn_trap ..) <| by
    dsimp only
    split
    · exact goesOn_trap ..
    · exact goesOn_ite (goesOn_stall s) (goesOn_next _)

/-! Proem threads, and COPY_OUT, the one command that a copy under way may take up before a packet is read. -/

theorem goesOn_ppost (f : RV) (s : State) : GoesOn (execPpost f s) := by
  refine goesOn_ite (goesOn_next _) (goesOn_ite (goesOn_next _) ?_)
  split
  · exact goesOn_next _
  · split
    · exact goesOn_next _
    · exact goesOn_next _

theorem goesOn_copyOut (s : State) : GoesOn (execCopyOut s) := by
  unfold execCopyOut
  split
  · exact goesOn_next _
  · exact goesOn_next _

/-! The table. -/

/-- Every meaning goes on: events by their definition, a syllable because its guards hand on to an effect that does. -/
theorem goesOn_exec (i : Instr) (s : State) : GoesOn (exec i s) := by
  cases i with dsimp only [exec]
  -- Events and host commands: what cannot happen leaves the state, so one next state covers every branch.
  | resetNRelease | powerLoss | stagePower | stageRom | stageFw | stageCfg | stageClocks | stageHbm | stageScrub | stageTimeout
  | startWatchdog | warmReset | pkgResetWrite | powerEstimate | sweepEnd | hbmRefreshBoundary | correctableError | freezeEnd
  | uncorrectableError | pcieConfigRequest | pcieHotReset | vfFlr | pcieLinkUp | doeDiscovery | getVersion | getCapabilities
  | negotiateAlgorithms | getDigests | getCertificate | challenge | getMeasurements | keyExchange | finish | spdmHeartbeat | keyUpdate
  | endSession | chunkSend | chunkGet | doorbell | queueLoad | launch | catalogSet | catalogDel | mcbWrite | copyIn | keyImport | nop
  | queueBind | queueUnbind | vfSetup | partitionDefine | partitionWithdraw | fwStage | fwActivateLive | fwActivateNextStart
  | fwNewImageStart | fwActivateWatchdog | recover | opkeyEnrol | interruptWindowExpiry | bucketTick | fnEvheadWrite | counterRead
  | ethPctlWrite | slPctlWrite | chpTmarkWrite | registerWrite | ethLinkChange | frameReceive | slowPathFrame | hello | confirm
  | request | heartbeat | close | certreq | sessionLapseTimeout | halfTimeout | reassemblyTimeout | laneFailure | linkReplay
  | livenessTimeout | creditFlit | stalldropTimeout | fabricResponseTimeout | csendCreditTimeout | fabWrite | fabRead | fabReadResp
  | fabWriteAck | fabSend | fabRecvCred | fabColl | fabAbandon | fabTimesync | timesyncExchange | fabFault | binding
  | corePreemptRequest | collectorAck | coreFree | waitListAging | strandPickup | timeWake | parkWake | parkTimeout | deadlineExpiry
  | launchRetire | planeFillDone | unitScrubDone | zeroFillDone | keyZeroiseDone | segmentLoadDone | homeSliceAccept | loadFill
  | lateTrap | copyRow | streamSlotAdvance | cipherBlock | fabricOpComplete | slotFull | bankOwnClear | accBanksFree | proemTimer
  | slLinkUp | wheelSlot | creditReturn | exposedResultLanding | tmarkScanDone | ideKm | emptyBundle | illbundle => exact goesOn_next _
  | copyOut => exact goesOn_copyOut s
  -- Proem words.
  | pwait f | ptid f => exact goesOn_ite (goesOn_next _) (goesOn_next _)
  | ppost f => exact goesOn_ppost f s
  -- Syllables of the scalar, matrix and scale slots with one outcome once they are legal.
  | add f | sub f | mul f | mulhI f | mulhN f | divI f | divN f | remI f | remN f | sAnd f | sOr f | sXor f | sAndn f | shl f | shr f
  | sar f | rol f | minI f | minN f | maxI f | maxN f | clz f | ctz f | popc f | bfxI f | bfxN f | bfi f | lea f | li f | sel f | cmp f
  | br f | brz f | jmp f | call f | loop f | rotset f | trap f | stamp f | csrr f | csrw f | csrs f | csrc f | mshift f | mwswap f
  | mwswapHome f | zset f | zmov f | zgenG f | zgenB f =>
    apply goesOn_checked
    exact goesOn_next _
  -- The scalar slot: targets in registers, strands, traps.
  | jmpr f | callr f | ret f => exact goesOn_checked <| goesOn_toRegister (goesOn_next _)
  | spawn f => exact goesOn_spawn f s
  | suspend f => exact goesOn_suspend f s
  | yield f | seqnext f => exact goesOn_checked <| goesOn_suspendCheck <| goesOn_ite (goesOn_next _) (goesOn_illop ..)
  | exitStrand f => exact goesOn_checked <| goesOn_ite (goesOn_illop ..) <| goesOn_ite (goesOn_trap ..) (goesOn_next _)
  | rett f | swaptok f => exact goesOn_checked <| goesOn_ite (goesOn_next _) (goesOn_illop ..)
  -- The vector slots.
  | vabs f | vneg f | vclass f | vnot f | vexp2 f | vlog2 f | vrcp f | vrsq f | vsqrt f | vexpd f => exact goesOn_vUnary ..
  | vadd f | vaddImm f | vsub f | vsubImm f | vmul f | vmulImm f | vmin f | vminImm f | vmax f | vmaxImm f | vcpysgn f | vand f
  | vandImm f | vor f | vorImm f | vxor f | vxorImm f | vmulh f => exact goesOn_vBinary ..
  | vshl f | vshlImm f | vshr f | vshrImm f | vsar f | vsarImm f => exact goesOn_vShift ..
  | vcmp f | vcmpImm f => exact goesOn_vCompare ..
  | vcvt f | vpack f | vunpack f => exact goesOn_vConvert ..
  | vperm f | vshuf f | vrot f | vrotImm f | vslide f | vbcast f | vmov f | viota f | vcompress f | vexpand f | vzip f | vunzip f =>
    exact goesOn_vMove ..
  | vfma f | vfms f | vfnma f | vsel f | vdequant f | vsum f | vmaxr f | vminr f | vscan f | vtop f | vins f | vext f | qand f | qor f
  | qxor f | qnot f | qset f | qsetImm f | qcount f | qfirst f =>
    apply goesOn_vChecked
    exact goesOn_next _
  | vquant f => exact goesOn_vChecked <| goesOn_ite (goesOn_next _) (goesOn_next _)
  | vbcastImm f => exact goesOn_vChecked <| goesOn_ite (goesOn_illop ..) (goesOn_vMove ..)
  | vdraw f | vdrawl f | vdmerge f | vdescend f | vrand f | vrandf f => exact goesOn_vDraw fun _ => goesOn_next _
  -- The matrix slot.
  | mpushw f | mpusha f => exact goesOn_pushForm fun _ _ => goesOn_next _
  | macc f => exact goesOn_macc f s
  | mdrain f => exact goesOn_mdrain f s
  | mclr f | mplane f =>
    refine goesOn_checked ?_
    split
    · exact goesOn_illop ..
    · exact goesOn_next _
  -- The load and store slots.
  | lds f | ldv f | ldvg f | ldx f | ldq f => exact goesOn_loadForm ..
  | sts f | stv f | stvg f | stx f | stq f => exact goesOn_storeForm ..
  | ldcb f => exact goesOn_ldcb f s
  | stcb f => exact goesOn_bufferChecks fun _ _ => goesOn_ite (goesOn_stall s) (goesOn_next _)
  | ldacc f => exact goesOn_accChecks fun _ => goesOn_next _
  | stacc f => exact goesOn_accChecks fun _ => goesOn_ite (goesOn_stall s) (goesOn_next _)
  | aadd f | aaddf f | aand f | aor f | axor f | amin f | amax f | aswp f | acas f | adec f | alpush f | alpop f | adraw f =>
    exact goesOn_bankForm ..
  -- The copy slot.
  | cpy f =>
    exact goesOn_checked <| goesOn_ite (goesOn_illop ..) <| goesOn_ite (goesOn_trap ..) <| goesOn_ite (goesOn_next _) <|
      goesOn_ownsBanks <| goesOn_copyRoom (goesOn_next _)
  | cgather f | cscatter f =>
    exact goesOn_checked <| goesOn_ite (goesOn_illop ..) <| goesOn_ite (goesOn_next _) <|
      goesOn_ownsBanks <| goesOn_copyRoom (goesOn_next _)
  | cskid f => exact goesOn_checked <| goesOn_ite (goesOn_illop ..) <| goesOn_ownsBanks <| goesOn_copyRoom (goesOn_next _)
  | cstream f => exact goesOn_checked <| goesOn_ite (goesOn_illop ..) <| goesOn_ownsBanks <| goesOn_ite (goesOn_stall s) (goesOn_next _)
  | cprefetch f => exact goesOn_checked <| goesOn_ite (goesOn_illop ..) <| goesOn_copyRoom (goesOn_next _)
  | csend f | csendRma f | crecv f | crecvRma f => exact goesOn_fabricForm ..
  | ccoll f => exact goesOn_checked <| goesOn_ite (goesOn_trap ..) <| goesOn_fabricRoom (goesOn_next _)
  -- The cipher slot.
  | cipherSeal f | cipherOpen f =>
    exact goesOn_checked <| goesOn_ite (goesOn_illop ..) <| goesOn_ite (goesOn_trap ..) <|
      goesOn_ite (goesOn_trap ..) (goesOn_queueOwned ..)
  | shablk f => exact goesOn_checked <| goesOn_ite (goesOn_illop ..) (goesOn_queueOwned ..)
  | kbind f => exact goesOn_checked <| goesOn_ite (goesOn_trap ..) <| goesOn_ite (goesOn_trap ..) (goesOn_queueOwned ..)
  | kzero f => exact goesOn_checked <| goesOn_ite (goesOn_trap ..) (goesOn_next _)
  -- The synchronisation slot.
  | fence f | pfence f => exact goesOn_checked <| goesOn_ite (goesOn_stall _) (goesOn_next _)
  | cbinit f | seqwait f => exact goesOn_checked <| goesOn_ite (goesOn_illop ..) <| goesOn_ite (goesOn_stall s) (goesOn_next _)
  | cbwaitFree f => exact goesOn_handleForm <| goesOn_ite (goesOn_illop ..) <| goesOn_ite (goesOn_stall s) (goesOn_next _)
  | cbwaitFull f => exact goesOn_cbwaitFull f s
  | cbadvProd f => exact goesOn_handleForm <| goesOn_ite (goesOn_illop ..) (goesOn_next _)
  | cbadvCons f => exact goesOn_cbadvCons f s
  | cbrel f => exact goesOn_handleForm (goesOn_next _)
  | cbrelLine f => exact goesOn_cbrelLine f s
  | bkrel f => exact goesOn_checked <| goesOn_ite (goesOn_trap ..) <| goesOn_ite (goesOn_next _) (goesOn_next _)
  | bkacq f =>
    exact goesOn_checked <| goesOn_ite (goesOn_trap ..) <| goesOn_ite (goesOn_next _) <| goesOn_ite (goesOn_stall s) (goesOn_trap ..)
  | join f | leave f => exact goesOn_checked <| goesOn_circPass (goesOn_next _)
  | bar f => exact goesOn_bar f s
  | aballoc f => exact goesOn_aballoc f s
  | abfree f => exact goesOn_checked <| goesOn_ite (goesOn_next _) <| goesOn_ite (goesOn_trap ..) (goesOn_next _)
  | evwait f => exact goesOn_checked <| goesOn_ite (goesOn_illop ..) <| goesOn_circPass <| goesOn_ite (goesOn_next _) (goesOn_stall s)
  | evsig f | grpush f => exact goesOn_checked <| goesOn_ite (goesOn_illop ..) <| goesOn_ite (goesOn_next _) (goesOn_next _)
  | grinit f | grbud f | grprune f => exact goesOn_checked <| goesOn_ite (goesOn_illop ..) (goesOn_next _)
  | grpop f => exact goesOn_grpop f s
  | rowsave f => exact goesOn_rowsave f s
  | rowrest f => exact goesOn_rowrest f s
  -- The scale slot's loads.
  | zld f | zldg f => exact goesOn_scaleLoad ..

/-- Settles O55: no meaning ends in a fault or a refusal, whatever the instruction and the state. -/
theorem everyInstructionGoesOn : Obligations.EveryInstructionGoesOn := goesOn_exec

end Sys2Proof.Proofs
end

section
/-! The start state under the operations (for O57, O39, O40). The package registers and the boot flash change only where a start, a power
estimate, a sensor sweep, a register write or a host command changes them. Every other operation of the model leaves both as they were:
one rule per operation, in the order of the model's files. -/
namespace Sys2Proof.Proofs
open Sys2Proof.Machine Sys2Proof.Laws

/-- `t` has the package registers and the boot flash of `s`. -/
@[simp] abbrev StartKept (s t : State) : Prop := t.pkg = s.pkg ∧ t.flash = s.flash

@[simp] theorem pkg_ite (c : Prop) [Decidable c] (a b : State) : (if c then a else b).pkg = if c then a.pkg else b.pkg := apply_ite ..
@[simp] theorem flash_ite (c : Prop) [Decidable c] (a b : State) : (if c then a else b).flash = if c then a.flash else b.flash := apply_ite ..

theorem StartKept.trans {s t u : State} (h : StartKept s t) (k : StartKept t u) : StartKept s u := ⟨k.1.trans h.1, k.2.trans h.2⟩

@[simp] theorem startKept_foldl {α : Type} {f : State → α → State} (h : ∀ s a, StartKept s (f s a)) (l : List α) (s : State) :
    StartKept s (l.foldl f s) := by
  induction l generalizing s with
  | nil => exact ⟨rfl, rfl⟩
  | cons a l ih => exact ⟨(ih _).1.trans (h s a).1, (ih _).2.trans (h s a).2⟩

variable (s : State)

/-! Machine/Ops -/

@[simp] theorem startKept_endLaunch (n cause : Nat) (strand : Option Nat) : StartKept s (endLaunch n cause strand s) := by
  unfold endLaunch; split <;> simp
@[simp] theorem startKept_takeTrap (t : TrapInfo) (pc slotRes : Nat) (s : State) : StartKept s (takeTrap t pc slotRes s) := by
  simp [takeTrap]
@[simp] theorem startKept_trapAt (cause detail tva path : Nat) : StartKept s (trapAt cause detail tva path s) := by simp [trapAt]
@[simp] theorem startKept_countErr (k : Nat) : StartKept s (s.countErr k) := ⟨rfl, rfl⟩

/-! Machine/Memory -/

@[simp] theorem startKept_tlbFill (w : Who) (va : Nat) : StartKept s (s.tlbFill w va) := by unfold State.tlbFill; (repeat' split) <;> simp
@[simp] theorem startKept_tlbFlush (tag : Nat) : StartKept s (s.tlbFlush tag) := ⟨rfl, rfl⟩
@[simp] theorem startKept_consume (pa : Nat) (cn : Bool) : StartKept s (s.consume pa cn) := by simp [State.consume]
@[simp] theorem startKept_tagPage (pa tag : Nat) : StartKept s (s.tagPage pa tag) := by simp [State.tagPage]
@[simp] theorem startKept_putLine (pa : Nat) (bs : List Byte) (mask : List Bool) (stamp tag : Nat) :
    StartKept s (s.putLine pa bs mask stamp tag) := by simp [State.putLine]
@[simp] theorem startKept_houseLines (pa block : Nat) (bs : List Byte) : StartKept s (s.houseLines pa block bs) := by simp [State.houseLines]
@[simp] theorem startKept_send (r : Req) : StartKept s (s.send r) := ⟨rfl, rfl⟩
@[simp] theorem startKept_invalidate (c : Nat) : StartKept s (s.invalidate c) := ⟨rfl, rfl⟩
@[simp] theorem startKept_moveFences (n a b : Nat) : StartKept s (s.moveFences n a b) := ⟨rfl, rfl⟩
@[simp] theorem startKept_cleanNet (s : State) : StartKept s s.cleanNet :=
  startKept_foldl (fun s f => by (repeat' split) <;> simp) _ _
@[simp] theorem startKept_bankWrite (pa : Nat) (bs : List Byte) (tag : Nat) : StartKept s (s.bankWrite pa bs tag) := by simp [State.bankWrite]
@[simp] theorem startKept_listPush (h v tag : Nat) : StartKept s (listPush s h v tag).1 := by unfold listPush; (repeat' split) <;> simp
@[simp] theorem startKept_listPop (h tag : Nat) : StartKept s (listPop s h tag).1 := by unfold listPop; (repeat' split) <;> simp
@[simp] theorem startKept_drawCell (a p k : Nat) (key : BitVec 128) (tag : Nat) :
    StartKept s (drawCell s a p k key tag).1 := by simp only [drawCell]; (repeat' split) <;> simp

/-! Machine/Buffers -/

@[simp] theorem startKept_underRead (n : Nat) : StartKept s (s.underRead n) := by simp [State.underRead]
@[simp] theorem startKept_fillSlots (c h : Nat) : StartKept s (s.fillSlots c h) := ⟨rfl, rfl⟩

/-! Machine/Packets -/

@[simp] theorem startKept_queueAt (n : Nat) (p : Pk) : StartKept s (s.queueAt n p) := ⟨rfl, rfl⟩
@[simp] theorem startKept_routed (s : State) (p : Pk) : StartKept s (s.routed p).2 := by
  unfold State.routed; (repeat' split) <;> simp
theorem startKept_routed_some {s t u : State} {p : Pk} (h : s.routed p = (some t, u)) : StartKept s t := by
  grind [State.routed, startKept_queueAt]
@[simp] theorem startKept_sendFlit (n : Nat) (flit : List Byte) : StartKept s (s.sendFlit n flit) := ⟨rfl, rfl⟩
@[simp] theorem startKept_resendFlit (n : Nat) (bs : List Byte) : StartKept s (s.resendFlit n bs) := ⟨rfl, rfl⟩

/-! Machine/Access -/

@[simp] theorem startKept_segLoad (i : Nat) (fromPeer retried : Bool) :
    StartKept s (s.segLoad i fromPeer retried) := by simp only [State.segLoad]; (repeat' split) <;> simp
@[simp] theorem startKept_segStart (i : Nat) : StartKept s (s.segStart i) := by simp [State.segStart]
@[simp] theorem startKept_segmentData (p : Pk) : StartKept s (s.segmentData p) := by unfold State.segmentData; split <;> simp
@[simp] theorem startKept_skidRun (list : List Nat) (s : State) : StartKept s (skidRun list s) := by
  induction list generalizing s with
  | nil => exact ⟨rfl, rfl⟩
  | cons i r ih => simp [skidRun, ih]
@[simp] theorem startKept_skidder : StartKept s s.skidder := by simp [State.skidder]
@[simp] theorem startKept_hurry (pa : Nat) : StartKept s (s.hurry pa) := by unfold State.hurry; split <;> simp
@[simp] theorem startKept_fillStart (pa : Nat) : StartKept s (s.fillStart pa) := ⟨rfl, rfl⟩
@[simp] theorem startKept_fillDone (page : Nat) : StartKept s (s.fillDone page) := ⟨rfl, rfl⟩
@[simp] theorem startKept_reportLate (c : Nat) (t : TrapInfo) : StartKept s (s.reportLate c t) := ⟨rfl, rfl⟩
@[simp] theorem startKept_cacheFill (c pa : Nat) : StartKept s (s.cacheFill c pa) := by simp [State.cacheFill]

/-- `P` holds where a row stops, and of what it hands on. -/
def RowAll {α : Type} (P : State → Prop) (out : α → State) : RowM α → Prop
  | .ok x => P (out x)
  | .error (.wait t) => P t
  | .error (.fault _ _ _ t) => P t

section
variable {P Q : State → Prop} {α β : Type} {out : α → State} {out' : β → State} {r : RowM α} {k : α → RowM β}

theorem RowAll.stop {e : RowStop} (hr : RowAll P out r) (h : r = .error e) : RowAll P out' (.error e) := by
  subst h
  match e with
  | .wait _ => exact hr
  | .fault _ _ _ _ => exact hr

theorem RowAll.ok {x : α} (hr : RowAll P out r) (h : r = .ok x) : P (out x) := by
  subst h; exact hr

theorem RowAll.mono (hr : RowAll P out r) (h : ∀ t, P t → Q t) : RowAll Q out r := by
  match r with
  | .ok x => exact h _ hr
  | .error (.wait t) => exact h _ hr
  | .error (.fault _ _ _ t) => exact h _ hr
end

theorem rowAll_rowPieces (w : Who) (c : Nat) (write : Bool) (rs : List (Nat × Nat)) :
    RowAll (StartKept s) (fun _ => s) (rowPieces s w c write rs) := by
  induction rs with
  | nil => exact ⟨rfl, rfl⟩
  | cons r rest ih =>
    unfold rowPieces
    split
    · exact ⟨rfl, rfl⟩
    · split
      · exact ⟨rfl, rfl⟩
      · split
        · next h => exact ih.stop h
        · exact ⟨rfl, rfl⟩

theorem rowAll_rowSegments (ps : List Piece) : RowAll (StartKept s) (fun _ => s) (rowSegments s ps) := by
  unfold rowSegments; split
  · exact ⟨rfl, rfl⟩
  · exact startKept_hurry ..
  · exact ⟨rfl, rfl⟩

theorem rowAll_rowForms (ps : List Piece) (keeps : Piece → Bool) : RowAll (StartKept s) (fun _ => s) (rowForms s ps keeps) := by
  unfold rowForms; split
  · exact ⟨rfl, rfl⟩
  · exact ⟨rfl, rfl⟩

theorem rowAll_rowDests (ps : List Piece) : RowAll (StartKept s) (fun _ => s) (rowDests s ps) := by
  unfold rowDests; (repeat' split) <;> exact ⟨rfl, rfl⟩

theorem rowAll_readLines (ps : List Piece) (seen : List Nat) : RowAll (StartKept s) id (readLines ps seen s) := by
  induction ps generalizing seen s with
  | nil => exact ⟨rfl, rfl⟩
  | cons p rest ih => 
    unfold readLines
    split
    · exact ih ..
    · split
      · exact ih ..
      · split
        · exact ⟨rfl, rfl⟩
        · exact (ih ..).mono fun t h => (startKept_consume ..).trans h

theorem startKept_writePieces {win : Piece → List Byte → State → State} (hw : ∀ p b s, StartKept s (win p b s)) (s : State) (c stamp : Nat)
    (ps : List Piece) (bs : List Byte) : StartKept s (s.writePieces c stamp win ps bs) :=
  startKept_foldl (fun s p => by dsimp only; split <;> simp [hw]) _ _

/-! Machine/HostLib -/

@[simp] theorem startKept_hostWrite (fn a : Nat) (bs : List Byte) : StartKept s (s.hostWrite fn a bs) := by simp [State.hostWrite]
@[simp] theorem startKept_hostReport (fn a : Nat) (bs : List Byte) : StartKept s (s.hostReport fn a bs) := by simp [State.hostReport]
@[simp] theorem startKept_waitPacket (t source : Nat) : StartKept s (s.waitPacket t source) := ⟨rfl, rfl⟩
@[simp] theorem startKept_houseWait (source : Nat) : StartKept s (s.houseWait source) := ⟨rfl, rfl⟩
@[simp] theorem startKept_putEvent (v ty detail vqn arg : Nat) : StartKept s (s.putEvent v ty detail vqn arg) := by simp [State.putEvent]
@[simp] theorem startKept_eventLost (v : Nat) : StartKept s (s.eventLost v) := ⟨rfl, rfl⟩
@[simp] theorem startKept_hostLostFirst : StartKept s s.hostLostFirst := by unfold State.hostLostFirst; split <;> simp
@[simp] theorem startKept_post (v ty detail vqn arg : Nat) : StartKept s (s.post v ty detail vqn arg) := by simp [State.post]
@[simp] theorem startKept_postQueue (v ty detail q arg : Nat) : StartKept s (s.postQueue v ty detail q arg) := by simp [State.postQueue]
@[simp] theorem startKept_postStartKept (qs : List Nat) (v : Nat) (s : State) : StartKept s (postKept qs v s) := by
  induction qs generalizing s with
  | nil => exact ⟨rfl, rfl⟩
  | cons q r ih => unfold postKept; (repeat' split) <;> simp [ih]
@[simp] theorem startKept_ringFreed (v : Nat) : StartKept s (s.ringFreed v) := by simp [State.ringFreed]
@[simp] theorem startKept_raiseVector (v n : Nat) : StartKept s (s.raiseVector v n) := by simp [State.raiseVector]
@[simp] theorem startKept_maskVector (v n : Nat) (masked : Bool) : StartKept s (s.maskVector v n masked) := by simp [State.maskVector]
@[simp] theorem startKept_sendIrq (q : Nat) : StartKept s (s.sendIrq q) := by simp [State.sendIrq]
@[simp] theorem startKept_countIrq (q : Nat) : StartKept s (s.countIrq q) := by simp [State.countIrq]
@[simp] theorem startKept_evict (m : Nat) : StartKept s (s.evict m) := by unfold State.evict; split <;> simp
@[simp] theorem startKept_unmap (q : Nat) : StartKept s (s.unmap q) := by unfold State.unmap; split <;> simp
@[simp] theorem startKept_reportAt (fn crec sig sigVal : Nat) (record : List Byte) :
    StartKept s (s.reportAt fn crec sig sigVal record) := by simp [State.reportAt]
@[simp] theorem startKept_finishCmd (c : Cmd) (status detail : Nat) (l : LaunchDone) :
    StartKept s (s.finishCmd c status detail l) := by simp [State.finishCmd]
@[simp] theorem startKept_settleUnbind (s : State) (n : Nat) : StartKept s (s.settleUnbind n) := by
  induction n generalizing s with
  | zero => exact ⟨rfl, rfl⟩
  | succ n ih => unfold State.settleUnbind; split <;> simp [ih]
@[simp] theorem startKept_complete (c : Cmd) (status detail : Nat) : StartKept s (s.complete c status detail) := by simp [State.complete]
@[simp] theorem startKept_completeLaunch (c : Cmd) (status detail : Nat) (l : LaunchDone) : StartKept s (s.completeLaunch c status detail l) := by
  simp [State.completeLaunch]
@[simp] theorem startKept_completeNowhere (c : Cmd) (status : Nat) : StartKept s (s.completeNowhere c status) := by simp [State.completeNowhere]

/-! Machine/Vault -/

@[simp] theorem startKept_random (n : Nat) : StartKept s (s.random n).2 := ⟨rfl, rfl⟩
@[simp] theorem startKept_loadKey (k : Nat) (h : List Byte) : StartKept s (s.loadKey k h) := ⟨rfl, rfl⟩
@[simp] theorem startKept_zeroise (k : Nat) : StartKept s (s.zeroise k) := ⟨rfl, rfl⟩
@[simp] theorem startKept_vaultDone : StartKept s s.vaultDone.2 := ⟨rfl, rfl⟩

/-! Machine/Chipper -/

@[simp] theorem startKept_markDirty (k : Nat) (us : List Nat) : StartKept s (s.markDirty k us) := ⟨rfl, rfl⟩
@[simp] theorem startKept_scrubMem (a n : Nat) : StartKept s (s.scrubMem a n) := ⟨rfl, rfl⟩
@[simp] theorem startKept_scrubPage (page : Nat) : StartKept s (s.scrubPage page) := ⟨rfl, rfl⟩
@[simp] theorem startKept_freePair (p pair : Nat) : StartKept s (s.freePair p pair) := by simp [State.freePair]
@[simp] theorem startKept_scrubUnit (k u : Nat) : StartKept s (s.scrubUnit k u) := by unfold State.scrubUnit; split <;> simp
@[simp] theorem startKept_dirtyPart (p : Nat) : StartKept s (s.dirtyPart p) := by
  simp only [StartKept, State.dirtyPart, startKept_markDirty, and_self]
@[simp] theorem startKept_dropPart (p : Nat) : StartKept s (s.dropPart p) := by simp [State.dropPart]
@[simp] theorem startKept_settlePart (p : Nat) : StartKept s (s.settlePart p) := by simp only [State.settlePart]; (repeat' split) <;> simp
@[simp] theorem startKept_dirtySlots (p pair : Nat) : StartKept s (s.dirtySlots p pair) := ⟨rfl, rfl⟩
@[simp] theorem startKept_dropEreq (id : Nat) : StartKept s (s.dropEreq id) := by unfold State.dropEreq; split <;> simp
@[simp] theorem startKept_settleSess (i : Nat) : StartKept s (s.settleSess i) := by simp [State.settleSess]
@[simp] theorem startKept_lapse (i : Nat) : StartKept s (s.lapse i) := by simp [State.lapse]
@[simp] theorem startKept_withdrawBinding (k : Nat) : StartKept s (s.withdrawBinding k) := by simp [State.withdrawBinding]
@[simp] theorem startKept_zeroiseSlot (k : Nat) : StartKept s (s.zeroiseSlot k) := by simp [State.zeroiseSlot]
@[simp] theorem startKept_modMcb (m : Nat) (g : Mcb → Mcb) : StartKept s (s.modMcb m g) := by simp only [State.modMcb]; (repeat' split) <;> simp
@[simp] theorem startKept_freeMcb (m : Nat) : StartKept s (s.freeMcb m) := by simp [State.freeMcb]
@[simp] theorem startKept_dropArriving (m : Nat) : StartKept s (s.dropArriving m) := ⟨rfl, rfl⟩
@[simp] theorem startKept_teardown (m : Nat) : StartKept s (s.teardown m) := by simp only [State.teardown]; (repeat' split) <;> simp
@[simp] theorem startKept_segStored (base i : Nat) : StartKept s (s.segStored base i) := by simp [State.segStored]
@[simp] theorem startKept_segStore (pa n : Nat) : StartKept s (s.segStore pa n) := by unfold State.segStore; split <;> simp
@[simp] theorem startKept_mcbStore (pa : Nat) (bs : List Byte) (mask : List Bool) :
    StartKept s (s.mcbStore pa bs mask) := by unfold State.mcbStore; split <;> simp
@[simp] theorem startKept_failUnit (k u : Nat) : StartKept s (s.failUnit k u) := by unfold State.failUnit; split <;> simp
@[simp] theorem startKept_settleParts : StartKept s s.settleParts := by simp [State.settleParts]
@[simp] theorem startKept_afterScrub (k u : Nat) : StartKept s (s.afterScrub k u) := by simp [State.afterScrub]
@[simp] theorem startKept_writeTmark (v : Nat) : StartKept s (s.writeTmark v) := by simp [State.writeTmark]

/-! Machine/LoadStore -/

@[simp] theorem startKept_acquireNow (acq : Bool) : StartKept s (acquireNow acq s) := by simp [acquireNow]
@[simp] theorem startKept_spadStore (p : Nat) (bs : List Byte) (act : List Bool) (rel : Bool) (fe : Nat) :
    StartKept s (spadStore p bs act rel fe s) := by simp [spadStore]
@[simp] theorem startKept_landBytes (n ty d : Nat) (bs : List Byte) (act : List Bool) : StartKept s (landBytes n ty d bs act s) := by simp [landBytes]
@[simp] theorem startKept_cacheStore (c pa : Nat) (bs : List Byte) (act : List Bool) : StartKept s (cacheStore c pa bs act s) := ⟨rfl, rfl⟩
@[simp] theorem startKept_cacheDrop (c : Nat) (lines : List Nat) : StartKept s (cacheDrop c lines s) := ⟨rfl, rfl⟩

/-! Machine/Matrix -/

@[simp] theorem startKept_modMatrix (g : Machine.Matrix → Machine.Matrix) : StartKept s (s.modMatrix g) := ⟨rfl, rfl⟩

/-! Machine/Strands -/

@[simp] theorem startKept_signal (slot e n : Nat) : StartKept s (s.signal slot e n) := by simp [State.signal]
@[simp] theorem startKept_takeSeqWrite (c : Nat) : StartKept s (s.takeSeqWrite c) := by simp only [State.takeSeqWrite]; (repeat' split) <;> simp
@[simp] theorem startKept_takeSeqWrites (c : Nat) : StartKept s (s.takeSeqWrites c) := by simp [State.takeSeqWrites]

/-! Machine/Sync -/

@[simp] theorem startKept_waitPasses (before : Nat) : StartKept s (s.waitPasses before) := ⟨rfl, rfl⟩
@[simp] theorem startKept_advanceHandle (w : Who) (c h n : Nat) (held : List Nat) : StartKept s (s.advanceHandle w c h n held) := ⟨rfl, rfl⟩

/-! Machine/Copy -/

@[simp] theorem startKept_stampSeq : StartKept s s.stampSeq := ⟨rfl, rfl⟩
@[simp] theorem startKept_queueCopy (o : CopyOp) : StartKept s (s.queueCopy o) := ⟨rfl, rfl⟩
@[simp] theorem startKept_queueStream (o : StreamOp) : StartKept s (s.queueStream o) := ⟨rfl, rfl⟩
@[simp] theorem startKept_queueFabric (o : FabricOp) : StartKept s (s.queueFabric o) := ⟨rfl, rfl⟩
@[simp] theorem startKept_claimAtPp (h : Nat) : StartKept s (s.claimAtPp h) := ⟨rfl, rfl⟩

/-! Machine/Cipher -/

@[simp] theorem startKept_queueCipher (o : CipherOp) : StartKept s (s.queueCipher o) := ⟨rfl, rfl⟩

/-! Machine/EthLib -/

@[simp] theorem startKept_sendFrame (n : Nat) (bs : List Byte) : StartKept s (s.sendFrame n bs) := ⟨rfl, rfl⟩
@[simp] theorem startKept_sendUdp (p : Peer) (payload : List Byte) : StartKept s (s.sendUdp p payload) := by unfold State.sendUdp; split <;> simp
@[simp] theorem startKept_sendPlain (p : Peer) (ty sid reqid b : Nat) (body : List Byte) :
    StartKept s (s.sendPlain p ty sid reqid b body) := by simp [State.sendPlain]
@[simp] theorem startKept_sendSealed (i : Nat) (p : Peer) (ty func reqid b : Nat) (body : List Byte) :
    StartKept s (s.sendSealed i p ty func reqid b body) := by simp [State.sendSealed]
@[simp] theorem startKept_sendReply (i : Nat) (p : Peer) (ty func reqid b : Nat) (body : List Byte) (k : Nat) :
    StartKept s (s.sendReply i p ty func reqid b body k) := by simp [State.sendReply]
@[simp] theorem startKept_sendError (i : Nat) (p : Peer) (func reqid code detail : Nat) :
    StartKept s (s.sendError i p func reqid code detail) := by simp [State.sendError]
@[simp] theorem startKept_errorFor (r : Request) (code detail : Nat) : StartKept s (s.errorFor r code detail) := by simp [State.errorFor]
@[simp] theorem startKept_failEreq (id code detail : Nat) : StartKept s (s.failEreq id code detail) := by unfold State.failEreq; split <;> simp
@[simp] theorem startKept_setCat (i : Nat) (e : CatalogEntry) : StartKept s (s.setCat i e) := ⟨rfl, rfl⟩
@[simp] theorem startKept_reply (id : Nat) (faultClass : Option Nat) (key : Option (List Byte)) :
    StartKept s (s.reply id faultClass key) := by unfold State.reply; (repeat' split) <;> simp

/-! Machine/Circ -/

@[simp] theorem startKept_enterWait (n : Nat) : StartKept s (s.enterWait n) := by unfold State.enterWait; split <;> simp
@[simp] theorem startKept_leaveWait (n : Nat) : StartKept s (s.leaveWait n) := ⟨rfl, rfl⟩
@[simp] theorem startKept_tagLines (tag first n : Nat) : StartKept s (s.tagLines tag first n) := ⟨rfl, rfl⟩
@[simp] theorem startKept_putArea (tag pa : Nat) (bs : List Byte) : StartKept s (s.putArea tag pa bs) := ⟨rfl, rfl⟩
@[simp] theorem startKept_putBank (tag pa n : Nat) (cells : List Host.Cell) : StartKept s (s.putBank tag pa n cells) := ⟨rfl, rfl⟩
@[simp] theorem startKept_spillBanks (k : CoreSt) (x : CoreCtx) (tag area : Nat) : StartKept s (s.spillBanks k x tag area) := by
  simp [State.spillBanks]
@[simp] theorem startKept_spill (c : Nat) : StartKept s (s.spill c) := by simp only [State.spill]; (repeat' split) <;> simp
@[simp] theorem startKept_retie (n old new : Nat) : StartKept s (s.retie n old new) := by simp [State.retie]
@[simp] theorem startKept_joinCore (n c : Nat) : StartKept s (s.joinCore n c) := by simp only [State.joinCore]; (repeat' split) <;> simp
@[simp] theorem startKept_movePointer (cs : List Nat) : StartKept s (s.movePointer cs) := by unfold State.movePointer; split <;> simp
@[simp] theorem startKept_joinCores (n : Nat) (cs : List Nat) : StartKept s (s.joinCores n cs) := by simp [State.joinCores]
@[simp] theorem startKept_askPreempt (s : State) (cs : List Nat) (incoming : Option Nat) : StartKept s (s.askPreempt cs incoming) :=
  startKept_foldl (fun s c => by split <;> simp) _ _
@[simp] theorem startKept_commit (x : Intake) (n own shared : Nat) (st : LaunchState) :
    StartKept s (s.commit x n own shared st) := by simp [State.commit]
@[simp] theorem startKept_reportLaunch (r : LaunchRec) (cmd : Option Nat) (house : Bool) (mcx status detail : Nat) (l : LaunchDone) :
    StartKept s (s.reportLaunch r cmd house mcx status detail l) := by simp only [State.reportLaunch]; (repeat' split) <;> simp
@[simp] theorem startKept_refuse (x : Intake) (cause : Nat) : StartKept s (s.refuse x cause) := by unfold State.refuse; split <;> simp
@[simp] theorem startKept_bindWait (x : Intake) (part : Option Nat) :
    StartKept s (s.bindWait x part) := by unfold State.bindWait; (repeat' split) <;> simp
@[simp] theorem startKept_bindNow (x : Intake) (part : Option Nat) (cs vs : List Nat) :
    StartKept s (s.bindNow x part cs vs) := by unfold State.bindNow; split <;> simp
@[simp] theorem startKept_bindLaunch (x : Intake) : StartKept s (s.bindLaunch x) := by simp only [State.bindLaunch]; (repeat' split) <;> simp
@[simp] theorem startKept_startHead (n : Nat) : StartKept s (s.startHead n) := by unfold State.startHead; split <;> simp

/-! Machine/Ether -/

@[simp] theorem startKept_writeEthPctl (n : Nat) (v : Word) : StartKept s (s.writeEthPctl n v) := ⟨rfl, rfl⟩
@[simp] theorem startKept_setRxQueue (n q : Nat) (l : List Datagram) : StartKept s (s.setRxQueue n q l) := ⟨rfl, rfl⟩
theorem startKept_mrpTake {k : Peer → Mrp → List Byte → State → State} (hk : ∀ p h b s, StartKept s (k p h b s)) (s : State) (ty : Nat) :
    StartKept s (s.mrpTake ty k) := by
  unfold State.mrpTake; dsimp only; (repeat' split) <;> simp [hk]
theorem startKept_verify {k : Nat → List Byte → State → State} (hk : ∀ i b s, StartKept s (k i b s)) (s : State) (p : Peer) (h : Mrp)
    (b : List Byte) : StartKept s (s.verify p h b k) := by
  unfold State.verify; dsimp only; (repeat' split) <;> simp [hk]
@[simp] theorem startKept_helloBody (p : Peer) (b : List Byte) :
    StartKept s (s.helloBody p b) := by simp only [State.helloBody]; (repeat' split) <;> simp
@[simp] theorem startKept_sendHback (i : Nat) (p : Peer) : StartKept s (s.sendHback i p) := by simp [State.sendHback]
@[simp] theorem startKept_fillSlot (r : Request) (body : List Byte) :
    StartKept s (s.fillSlot r body) := by simp only [State.fillSlot]; (repeat' split) <;> simp
@[simp] theorem startKept_requestDone (id : Nat) (r : Request) : StartKept s (s.requestDone id r) := by simp [State.requestDone]
@[simp] theorem startKept_requestFirst (i : Nat) (p : Peer) (h : Mrp) (body : List Byte) :
    StartKept s (s.requestFirst i p h body) := by simp only [State.requestFirst]; (repeat' split) <;> simp

/-! Machine/Retire -/

@[simp] theorem startKept_writeLines (s : State) (ps : List Piece) (bs : List Byte) (key : Option (List Byte)) :
    StartKept s (s.writeLines ps bs key) :=
  startKept_foldl (fun s p => by (repeat' split) <;> simp) _ _
@[simp] theorem startKept_dump (n : Nat) : StartKept s (s.dump n).1 := by simp only [State.dump]; (repeat' split) <;> simp
@[simp] theorem startKept_dirtyBanks (c : Nat) (x : CoreCtx) : StartKept s (s.dirtyBanks c x) := ⟨rfl, rfl⟩
@[simp] theorem startKept_dropCore (s : State) (c : Nat) : StartKept s (s.dropCore c) := by
  simp only [StartKept, State.dropCore, modCore_pkg, modCore_flash, setOwner_pkg, setOwner_flash, startKept_markDirty, startKept_dirtyBanks, and_self]
@[simp] theorem startKept_freeSave (i : Nat) : StartKept s (s.freeSave i) := ⟨rfl, rfl⟩
@[simp] theorem startKept_dropSaved (s : State) (n : Nat) : StartKept s (s.dropSaved n) := by
  have h (t : State) (l) := startKept_foldl (f := fun (s : State) (c : Nat) => match (s.core c).resident with
    | some (_, x) => ((s.markDirty 1 (x.banks.map (128 * c + ·))).markDirty 2 ((x.held.filter fun p => p.2 != 0).map fun p => 256 * c + p.1)).modCore
        c fun k => { k with resident := none }
    | none => s) (fun s c => by split <;> simp) l t
  exact ⟨(h _ _).1.trans (by simp), (h _ _).2.trans (by simp)⟩
@[simp] theorem startKept_dropFences (n : Nat) : StartKept s (s.dropFences n) := ⟨rfl, rfl⟩
@[simp] theorem startKept_endCore (c : Nat) : StartKept s (s.endCore c) := by simp only [State.endCore]; (repeat' split) <;> simp
@[simp] theorem startKept_dissolve (n : Nat) : StartKept s (s.dissolve n) := by unfold State.dissolve; split <;> simp
@[simp] theorem startKept_landCores (n : Nat) : StartKept s (s.landCores n) := by simp [State.landCores]
@[simp] theorem startKept_retire (n : Nat) : StartKept s (s.retire n) := by simp only [State.retire]; (repeat' split) <;> simp
@[simp] theorem startKept_endUnstarted (n cls : Nat) : StartKept s (s.endUnstarted n cls) := by unfold State.endUnstarted; (repeat' split) <;> simp
@[simp] theorem startKept_endAny (n cause unrun : Nat) : StartKept s (s.endAny n cause unrun) := by unfold State.endAny; split <;> simp
@[simp] theorem startKept_terminate (m cause : Nat) : StartKept s (s.terminate m cause) := by simp [State.terminate]

/-! Machine/HostQueues -/

@[simp] theorem startKept_settleReload (m : Nat) : StartKept s (s.settleReload m) := by simp [State.settleReload]
@[simp] theorem startKept_newTail (q tail : Nat) : StartKept s (s.newTail q tail) := by simp only [State.newTail]; (repeat' split) <;> simp
@[simp] theorem startKept_ringDoorbell (v off size : Nat) (value : Word) :
    StartKept s (s.ringDoorbell v off size value) := by unfold State.ringDoorbell; (repeat' split) <;> simp
theorem startKept_findMq {s t : State} {m : Nat} (h : s.findMq = some (m, t)) : StartKept s t := by
  unfold State.findMq at h
  (repeat' split at h) <;> simp_all <;> simp [← h.2]
@[simp] theorem startKept_mapQueue (q m : Nat) (b : List Byte) : StartKept s (s.mapQueue q m b) := ⟨rfl, rfl⟩
@[simp] theorem startKept_evictFn (v : Nat) : StartKept s (s.evictFn v) := by simp [State.evictFn]
@[simp] theorem startKept_tickBucket (v : Nat) : StartKept s (s.tickBucket v) := by simp [State.tickBucket]
@[simp] theorem startKept_writeEvHead (v x : Nat) : StartKept s (s.writeEvHead v x) := by simp [State.writeEvHead]
theorem startKept_takePacket_ok {s : State} {t : State} {m : Nat} {want : List Byte → Bool} {c : Cmd} (h : s.takePacket m want = .ok (t, c)) :
    StartKept s t := by
  unfold State.takePacket at h
  dsimp only at h
  (repeat' split at h) <;> cases h
  exact ⟨rfl, rfl⟩

theorem startKept_takePacket_error {s : State} {t : State} {m : Nat} {want : List Byte → Bool} (h : s.takePacket m want = .error t) :
    StartKept s t := by
  unfold State.takePacket at h
  dsimp only at h
  (repeat' split at h) <;> cases h <;> simp

@[simp] theorem startKept_clearQueues (p : Nat → Bool) : StartKept s (s.clearQueues p) := ⟨rfl, rfl⟩
@[simp] theorem startKept_loseCmds (p : Nat → Bool) : StartKept s (s.loseCmds p) := by simp [State.loseCmds]

/-! Machine/Vector -/

@[simp] theorem startKept_landLanes (n fd vd span : Nat) (out : List Elem) (act : List Bool) (rounds : Bool) (mode : Nat) :
    StartKept s (s.landLanes n fd vd span out act rounds mode) := ⟨rfl, rfl⟩
@[simp] theorem startKept_landPair (n vd ibase : Nat) (p : Pair) (bad : Bool) : StartKept s (s.landPair n vd ibase p bad) := ⟨rfl, rfl⟩

/-! Machine/SmivyLib -/

@[simp] theorem startKept_keepPk (p : Pk) : StartKept s (s.keepPk p) := ⟨rfl, rfl⟩
@[simp] theorem startKept_deliver (p : Pk) : StartKept s (s.deliver p) := by simp [State.deliver]
@[simp] theorem startKept_sendAnswer (p : Pk) : StartKept s (s.sendAnswer p) := by
  unfold State.sendAnswer
  split
  · simp
  · split
    · next h => exact startKept_routed_some h
    · next h => simpa [h] using startKept_routed s p
@[simp] theorem startKept_failPk (p : Pk) (status : Nat) : StartKept s (s.failPk p status) := by simp [State.failPk]
@[simp] theorem startKept_forward (p : Pk) : StartKept s (s.forward p) := by
  unfold State.forward
  split
  · next h => exact startKept_routed_some h
  · next h => simpa [h] using startKept_routed s p
@[simp] theorem startKept_sendArriving (p : Pk) (op : Option Nat) (ps : List Piece) (bs : List Byte) :
    StartKept s (s.sendArriving p op ps bs) := ⟨rfl, rfl⟩
@[simp] theorem startKept_targetWrite (p : Pk) : StartKept s (s.targetWrite p) := by simp only [State.targetWrite]; (repeat' split) <;> simp
@[simp] theorem startKept_targetRead (p : Pk) : StartKept s (s.targetRead p).1 := by
  unfold State.targetRead
  dsimp only
  split
  · exact ⟨rfl, rfl⟩
  · split
    · exact ⟨rfl, rfl⟩
    · split
      · next h => exact StartKept.trans ((rowAll_rowSegments ..).stop (out' := fun _ => s) (β := Unit) h) (startKept_keepPk ..)
      · exact ⟨rfl, rfl⟩
      · split
        · exact ⟨rfl, rfl⟩
        · split
          · exact ⟨rfl, rfl⟩
          · next h => exact (rowAll_readLines ..).ok h
@[simp] theorem startKept_alive (pkg mcx : Nat) : StartKept s (s.alive pkg mcx) := by simp [State.alive]
@[simp] theorem startKept_arrive (p : Pk) : StartKept s (s.arrive p) := by unfold State.arrive; (repeat' split) <;> simp
@[simp] theorem startKept_launchPk (p : Pk) : StartKept s (s.launchPk p) := by simp [State.launchPk]
@[simp] theorem startKept_setFabric (c : Nat) (o : FabricOp) : StartKept s (s.setFabric c o) := ⟨rfl, rfl⟩
@[simp] theorem startKept_mapFabric (f : Option Nat → FabricOp → FabricOp) : StartKept s (s.mapFabric f) := ⟨rfl, rfl⟩
@[simp] theorem startKept_takeAnswers (opid : Nat) : StartKept s (s.takeAnswers opid).2 := ⟨rfl, rfl⟩
@[simp] theorem startKept_fabricBegin (c m : Nat) (o : FabricOp) : StartKept s (s.fabricBegin c m o) := by simp [State.fabricBegin]
/-- `P` holds where a local access of the fabric engine waits, and of what it hands on. -/
def LocalAll {α : Type} (P : State → Prop) : Local α → Prop
  | .wait t => P t
  | .ends _ => True
  | .done _ t => P t

section
variable {P Q : State → Prop} {α : Type} {r : Local α}

theorem LocalAll.wait {t : State} (hr : LocalAll P r) (h : r = .wait t) : P t := by
  subst h; exact hr

theorem LocalAll.done {x : α} {t : State} (hr : LocalAll P r) (h : r = .done x t) : P t := by
  subst h; exact hr

theorem LocalAll.mono (hr : LocalAll P r) (h : ∀ t, P t → Q t) : LocalAll Q r := by
  match r with
  | .wait t => exact h _ hr
  | .ends _ => trivial
  | .done _ t => exact h _ hr

end

theorem localAll_fabricRead (c va n : Nat) (leaves : Bool) : LocalAll (StartKept s) (s.fabricRead c va n leaves) := by
  unfold State.fabricRead
  split
  · trivial
  dsimp only
  split
  · next h => exact (rowAll_rowSegments ..).stop (out' := fun _ => s) (β := Unit) h
  · trivial
  split
  · trivial
  split
  · trivial
  · next h => exact (rowAll_readLines ..).ok h

theorem localAll_fabricWrite (c va : Nat) (bs : List Byte) : LocalAll (StartKept s) (s.fabricWrite c va bs) := by
  unfold State.fabricWrite
  split
  · trivial
  split
  · next h => exact (rowAll_rowDests ..).stop (out' := fun _ => s) (β := Unit) h
  · trivial
  · exact startKept_writePieces (fun _ _ _ => ⟨rfl, rfl⟩) ..

theorem localAll_fabricWrites (c : Nat) (ws : List (Nat × List Byte)) : LocalAll (StartKept s) (s.fabricWrites c ws) := by
  induction ws generalizing s with
  | nil => exact ⟨rfl, rfl⟩
  | cons w ws ih =>
    unfold State.fabricWrites
    split
    · next h => exact (localAll_fabricWrite ..).wait h
    · trivial
    · next h => exact (ih _).mono fun _ => ((localAll_fabricWrite ..).done h).trans
@[simp] theorem startKept_fabricSend (c m : Nat) (o : FabricOp) : StartKept s (s.fabricSend c m o) := by
  unfold State.fabricSend
  dsimp only
  split
  · simp
  · split
    · next h => exact (localAll_fabricRead ..).wait h
    · simp
    · next h => exact ((localAll_fabricRead ..).done h).trans (by simp)
@[simp] theorem startKept_fabricAnswers (s : State) (c : Nat) (o : FabricOp) (ps : List Pk) : StartKept s (s.fabricAnswers c o ps) := by
  induction ps generalizing s o with
  | nil => exact ⟨rfl, rfl⟩
  | cons p rest ih =>
    unfold State.fabricAnswers
    dsimp only
    split
    · simp [ih]
    split
    · simp [ih]
    split
    · simp [ih]
    split
    · next h => exact ((localAll_fabricWrite ..).wait h).trans (startKept_keepPk ..)
    · simp [ih]
    · next h => exact ((localAll_fabricWrite ..).done h).trans (by simp [ih])
@[simp] theorem startKept_takeParts (s : State) (c : Nat) (o : FabricOp) (total : Nat) (ps : List Pk) :
    StartKept s (s.takeParts c o total ps).1 := by
  induction ps generalizing s o with
  | nil => exact ⟨rfl, rfl⟩
  | cons p rest ih => unfold State.takeParts; dsimp only; (repeat' split) <;> simp [ih]
@[simp] theorem startKept_fabricReceive (c m : Nat) (o : FabricOp) :
    StartKept s (s.fabricReceive c m o) := by simp only [State.fabricReceive]; (repeat' split) <;> simp
@[simp] theorem startKept_contribute (m : Nat) (o : FabricOp) (bs : List Byte) : StartKept s (s.contribute m o bs) :=
  startKept_foldl (fun s r => by dsimp only; split <;> simp) _ _
@[simp] theorem startKept_dropColl (m : Nat) (o : FabricOp) : StartKept s (s.dropColl m o) := ⟨rfl, rfl⟩
@[simp] theorem startKept_collAbandon (c m : Nat) (o : FabricOp) : StartKept s (s.collAbandon c m o) := by
  unfold State.collAbandon
  split
  · next h => exact (localAll_fabricWrites ..).wait h
  · simp
  · next h => simpa using (localAll_fabricWrites ..).done h
@[simp] theorem startKept_collBegin (c m : Nat) (o : FabricOp) (key : BitVec 128) : StartKept s (s.collBegin c m o key) := by
  unfold State.collBegin
  dsimp only
  split
  · exact ⟨rfl, rfl⟩
  split
  · next h => exact (localAll_fabricRead ..).wait h
  · simp
  next h =>
  refine StartKept.trans ((localAll_fabricRead ..).done h) ?_
  split
  · simp
  split
  · next h => exact (localAll_fabricRead ..).wait h
  · simp
  next h =>
  refine StartKept.trans ((localAll_fabricRead ..).done h) ?_
  split
  · simp
  split
  · simp
  split
  · simp
  split
  · next h =>
    have ht := (localAll_fabricRead ..).wait h
    exact ⟨ht.1, ht.2⟩
  · simp
  · next h =>
    have ht := (localAll_fabricRead ..).done h
    simp [ht]

theorem localAll_chunkParts (c m k : Nat) (o : FabricOp) (rs : List Nat) {r : Local (List (List Byte))}
    (h : s.chunkParts c m o k rs = some r) : LocalAll (StartKept s) r := by
  induction rs generalizing s r with
  | nil => cases h; exact ⟨rfl, rfl⟩
  | cons i rest ih =>
    have next_ (b : List Byte) (t : State) (ht : StartKept s t) {r : Local (List (List Byte))}
        (h : (match t.chunkParts c m o k rest with | some (.done bs u) => some (.done (b :: bs) u) | x => x) = some r) :
        LocalAll (StartKept s) r := by
      split at h
      · next e => cases h; exact ht.trans (ih t e)
      · exact (ih t h).mono fun _ => ht.trans
    unfold State.chunkParts at h
    dsimp only at h
    split at h
    · split at h
      · next e => cases h; exact (localAll_fabricRead ..).wait e
      · cases h; trivial
      · next e => exact next_ _ _ ((localAll_fabricRead ..).done e) h
    · split at h
      · split at h
        · exact next_ _ _ ⟨rfl, rfl⟩ h
        · cases h
      · cases h

@[simp] theorem startKept_collWork (s : State) (c m : Nat) (key : BitVec 128) (n : Nat) (o : FabricOp) :
    StartKept s (s.collWork c m key n o) := by
  induction n generalizing s o with
  | zero => exact ⟨rfl, rfl⟩
  | succ n ih =>
    unfold State.collWork
    dsimp only
    split
    · simp
    split
    · simp
    split
    · split <;> simp
    split
    · split <;> simp
    split
    · exact ⟨rfl, rfl⟩
    · next h => exact localAll_chunkParts _ _ _ _ _ _ h
    · simp
    next h =>
    have ht : StartKept s _ := localAll_chunkParts _ _ _ _ _ _ h
    split
    · next h => exact ht.trans ((localAll_fabricWrites ..).wait h)
    · simp
    · next h => exact ht.trans (StartKept.trans ((localAll_fabricWrites ..).done h) (by simp [ih]))
@[simp] theorem startKept_fabricWork (c : Nat) (o : FabricOp) :
    StartKept s (s.fabricWork c o) := by simp only [State.fabricWork]; (repeat' split) <;> simp
@[simp] theorem startKept_fabricLeft (c id : Nat) : StartKept s (s.fabricLeft c id) := by unfold State.fabricLeft; split <;> simp
@[simp] theorem startKept_retryReads : StartKept s s.retryReads := by simp [State.retryReads]
@[simp] theorem startKept_fabricPump : StartKept s s.fabricPump :=
  (startKept_retryReads s).trans (startKept_foldl (fun s x => by split <;> simp) _ _)
@[simp] theorem startKept_arrived (r : Req) : StartKept s (s.arrived r) := by unfold State.arrived; (repeat' split) <;> simp
@[simp] theorem startKept_flood (p : Pk) (ports : List Nat) : StartKept s (s.flood p ports) := by simp [State.flood]
@[simp] theorem startKept_faultEffect (p : Pk) : StartKept s (s.faultEffect p) := by simp only [State.faultEffect]; (repeat' split) <;> simp
@[simp] theorem startKept_raiseFault (cls port mcx : Nat) : StartKept s (s.raiseFault cls port mcx) := by simp [State.raiseFault]
@[simp] theorem startKept_learnParent : StartKept s s.learnParent := by unfold State.learnParent; (repeat' split) <;> simp
@[simp] theorem startKept_linkDown (n : Nat) : StartKept s (s.linkDown n) := by simp [State.linkDown]
@[simp] theorem startKept_abandonAll (m : Nat) : StartKept s (s.abandonAll m) := by simp [State.abandonAll]
@[simp] theorem startKept_terminateMcx (m cause : Nat) : StartKept s (s.terminateMcx m cause) := by simp [State.terminateMcx]

/-! Machine/Smivy -/

theorem startKept_receivePk {g : Pk → State → State} (hg : ∀ p s, StartKept s (g p s)) (kind : Nat) : StartKept s (s.receivePk kind g) := by
  unfold State.receivePk; dsimp only; (repeat' split) <;> simp [hg]
@[simp] theorem startKept_correctTime (e : Int) : StartKept s (s.correctTime e) := by simp [State.correctTime]
@[simp] theorem startKept_writeSlPctl (n : Nat) (v : Word) : StartKept s (s.writeSlPctl n v) := by simp [State.writeSlPctl]

/-! Machine/Start -/

@[simp] theorem startKept_lastWords : StartKept s s.lastWords := by simp [State.lastWords]
@[simp] theorem startKept_loadFirmware (image : List Byte) : StartKept s (s.loadFirmware image) := ⟨rfl, rfl⟩
@[simp] theorem startKept_startScrub : StartKept s s.startScrub := ⟨rfl, rfl⟩
@[simp] theorem startKept_markRotations : StartKept s s.markRotations :=
  startKept_foldl (fun s e => by dsimp only; (repeat' split) <;> simp) _ _

/-! Machine/Regs -/

@[simp] theorem startKept_clearBar0 (o : Nat) : StartKept s (s.clearBar0 o) := by simp [State.clearBar0]
@[simp] theorem startKept_clearBlock (w : Win) (o : Nat) : StartKept s (s.clearBlock w o) := by unfold State.clearBlock; split <;> simp
@[simp] theorem startKept_winRead (s : State) (w : Win) (fuel o n : Nat) : StartKept s (State.winRead w fuel o n s).1 := by
  induction fuel generalizing s o n with
  | zero => exact ⟨rfl, rfl⟩
  | succ fuel ih => unfold State.winRead; split <;> simp [ih]
@[simp] theorem startKept_writeAddr (n k : Nat) (b : List Byte) : StartKept s (s.writeAddr n k b) := by simp [State.writeAddr]
@[simp] theorem startKept_writePool (p v : Nat) : StartKept s (s.writePool p v) := by simp [State.writePool]
@[simp] theorem startKept_writeWheel (n : Nat) (b : List Byte) : StartKept s (s.writeWheel n b) := by
  unfold State.writeWheel; dsimp only; split
  · exact ⟨rfl, rfl⟩
  · exact ⟨rfl, rfl⟩
@[simp] theorem startKept_writeEth (o v : Nat) : StartKept s (s.writeEth o v) := by simp [State.writeEth]
@[simp] theorem startKept_writeSl (o v : Nat) : StartKept s (s.writeSl o v) := by simp [State.writeSl]
@[simp] theorem startKept_writeHif (o v : Nat) : StartKept s (s.writeHif o v) := by simp [State.writeHif]
@[simp] theorem startKept_writeFn (v o x : Nat) : StartKept s (s.writeFn v o x) := by simp [State.writeFn]
@[simp] theorem startKept_busRead (t : Target) (n : Nat) : StartKept s (s.busRead t n).1 := by unfold State.busRead; (repeat' split) <;> simp

/-! Machine/CopyRows -/

theorem rowAll_rowRead (w : Who) (c : Nat) (keeps : Piece → Bool) (rs : List (Nat × Nat)) (dests : List Piece) :
    RowAll (StartKept s) (·.2) (rowRead s w c keeps rs dests) := by
  unfold rowRead
  split
  · next h => exact (rowAll_rowPieces ..).stop h
  dsimp only
  split
  · next h => exact (rowAll_rowSegments ..).stop h
  split
  · next h => exact (rowAll_rowForms ..).stop h
  split
  · next h => exact (rowAll_rowDests ..).stop h
  split
  · next h => exact (rowAll_readLines ..).stop h
  next t h => 
    exact StartKept.trans ((rowAll_readLines ..).ok h) (by simp)
@[simp] theorem startKept_moveForms (old new : State) (src dst : List Piece) : StartKept new (moveForms old new src dst) :=
  startKept_foldl (fun s d => by dsimp only; (repeat' split) <;> simp) _ _
theorem rowAll_decRow (w : Who) (c limit pos : Nat) (r : Run) (dests : List Piece) :
    RowAll (StartKept s) (·.2.2) (decRow s w c limit pos r dests) := by
  unfold decRow
  split
  · next h => exact (rowAll_rowPieces ..).stop h
  extract_lets m n
  clear_value n
  split
  · exact ⟨rfl, rfl⟩
  split
  · next h => exact (rowAll_rowRead ..).stop h
  · next h => exact (rowAll_rowRead ..).ok h

theorem rowAll_rowOutput (w : Who) (c : Nat) (o : CopyOp) (r : Run) (dst dests : List Piece) :
    RowAll (StartKept s) (·.2.2.2) (rowOutput s w c o r dst dests) := by
  unfold rowOutput
  extract_lets mw k n pos limit m block take_ keeps
  clear_value n pos limit m block
  split
  · split
    · next h => exact (rowAll_decRow ..).stop h
    · next h => exact (rowAll_decRow ..).ok h
  · split
    · split
      · split
        · next h => exact (rowAll_rowDests ..).stop h
        · exact ⟨rfl, rfl⟩
      · split
        · next h => exact (rowAll_rowRead ..).stop h
        · next h => exact (rowAll_rowRead ..).ok h
    · split
      · next h => exact (rowAll_rowRead ..).stop h
      · next h =>
        split
        · exact (rowAll_rowRead ..).ok h
        · exact (rowAll_rowRead ..).ok h

@[simp] theorem startKept_copyStop (c : Nat) (o : CopyOp) (cause detail tva : Nat) :
    StartKept s (s.copyStop c o cause detail tva) := by simp [State.copyStop]
@[simp] theorem startKept_copyOver (c : Nat) (o : CopyOp) : StartKept s (s.copyOver c o) := ⟨rfl, rfl⟩
theorem rowAll_copySlot (c : Nat) (o : CopyOp) : RowAll (StartKept s) (·.2) (copySlot s c o) := by
  unfold copySlot; dsimp only; (repeat' split) <;> exact ⟨rfl, rfl⟩

theorem rowAll_copyTable (w : Who) (c : Nat) (o : CopyOp) : RowAll (StartKept s) (·.2) (copyTable s w c o) := by
  unfold copyTable
  split
  · split
    · next h => exact (rowAll_rowRead ..).stop h
    · next h => exact (rowAll_rowRead ..).ok h
  · exact ⟨rfl, rfl⟩
@[simp] theorem startKept_prefetch (c : Nat) (o : CopyOp) : StartKept s (s.prefetch c o) := by
  unfold State.prefetch
  extract_lets w at_
  clear_value at_
  split
  · refine startKept_foldl (fun s va => ?_) _ _
    split <;> simp
  · refine startKept_foldl (fun s va => ?_) _ _
    (repeat' split) <;> simp
  · refine startKept_foldl (fun s va => ?_) _ _
    (repeat' split) <;> simp
  · exact ⟨rfl, rfl⟩
@[simp] theorem startKept_skidWork (c : Nat) (o : CopyOp) : StartKept s (s.skidWork c o) := by
  have hr := rowAll_rowRead s (s.engineWho c) c (fun _ => false) [(o.a, 8 * o.n)] []
  unfold State.skidWork
  extract_lets w
  split
  · next h => rw [h] at hr; exact hr
  · next h => rw [h] at hr; exact StartKept.trans hr (by simp)
  · next h => exact StartKept.trans (hr.ok h) (by simp)
@[simp] theorem startKept_streamStop (c : Nat) (o : StreamOp) (cause detail tva : Nat) :
    StartKept s (s.streamStop c o cause detail tva) := by simp [State.streamStop]
@[simp] theorem startKept_streamOver (c : Nat) (o : StreamOp) : StartKept s (s.streamOver c o) := ⟨rfl, rfl⟩

/-! Machine/CipherRows -/

@[simp] theorem startKept_cipherStop (c : Nat) (o : CipherOp) (cause detail tva : Nat) : StartKept s (s.cipherStop c o cause detail tva) :=
  ⟨rfl, rfl⟩
@[simp] theorem startKept_cipherOver (c : Nat) (o : CipherOp) : StartKept s (s.cipherOver c o) := ⟨rfl, rfl⟩
theorem rowAll_cipherSlot (c : Nat) (o : CipherOp) : RowAll (StartKept s) (·.2) (cipherSlot s c o) := by
  unfold cipherSlot; dsimp only; (repeat' split) <;> exact ⟨rfl, rfl⟩
@[simp] theorem startKept_putCipher (ps : List Piece) (icv : BitVec 32) : StartKept s (s.putCipher ps icv) :=
  startKept_foldl (fun s p => by dsimp only; split <;> simp) _ _
theorem rowAll_kbindRow (w : Who) (c : Nat) (o : CipherOp) : RowAll (StartKept s) id (kbindRow s w c o) := by
  unfold kbindRow
  split
  · next h => exact (rowAll_rowRead ..).stop h
  next h =>
  have ht := (rowAll_rowRead ..).ok h
  dsimp only
  split
  · exact ht
  · exact StartKept.trans ht (startKept_loadKey ..)

/-! Machine/MemEvents -/
@[simp] theorem startKept_settleReq (r : Req) : StartKept s (s.settleReq r) := by unfold State.settleReq; (repeat' split) <;> simp
@[simp] theorem startKept_performLoad (r : Req) (i : Nat) (p : Machine.Part) (pa : Nat) :
    StartKept s (performLoad s r i p pa) := by unfold performLoad; (repeat' split) <;> simp
@[simp] theorem startKept_performStore (r : Req) (i : Nat) (p : Machine.Part) (pa : Nat) :
    StartKept s (performStore s r i p pa) := by simp only [performStore]; (repeat' split) <;> simp
@[simp] theorem startKept_bankPerform (r : Req) (op ty : Nat) (p : Machine.Part) (pa : Nat) :
    StartKept s (bankPerform s r op ty p pa).1 := by simp only [bankPerform]; (repeat' split) <;> simp
@[simp] theorem startKept_performBank (r : Req) (op ty : Nat) (p : Machine.Part) (pa : Nat) :
    StartKept s (performBank s r op ty p pa) := by unfold performBank; split <;> simp
@[simp] theorem startKept_performHeld (r : Req) (i : Nat) (p : Machine.Part) : StartKept s (performHeld s r i p) := by
  unfold performHeld; split <;> simp
@[simp] theorem startKept_performRelease (r : Req) (i pa : Nat) : StartKept s (performRelease s r i pa) := by simp [performRelease]
@[simp] theorem startKept_performArriving (r : Req) (i : Nat) (p : Machine.Part) (pa : Nat) :
    StartKept s (performArriving s r i p pa) := by unfold performArriving; (repeat' split) <;> simp
@[simp] theorem startKept_acquired (r : Req) : StartKept s (s.acquired r) := by simp [State.acquired]
@[simp] theorem startKept_keepXlat (r : Req) (p : Machine.Part) : StartKept s (s.keepXlat r p) := by unfold State.keepXlat; split <;> simp
@[simp] theorem startKept_takeLate (c : Nat) : StartKept s (s.takeLate c) := by simp only [State.takeLate]; (repeat' split) <;> simp

/-! Machine/SaveArea -/

@[simp] theorem startKept_tagArea (tag area : Nat) : StartKept s (s.tagArea tag area) := ⟨rfl, rfl⟩
@[simp] theorem startKept_putPieces (tag area : Nat) (ps : List (Nat × List Byte)) : StartKept s (s.putPieces tag area ps) := by
  simp [State.putPieces]
@[simp] theorem startKept_writeSave (n area : Nat) (th : Option (Nat × Thread)) (x : CoreCtx) :
    StartKept s (s.writeSave n area th x) := by unfold State.writeSave; split <;> simp

/-! Machine/CircEvents -/

@[simp] theorem startKept_loadLines (who : Who) (w : Nat) (is : List Nat) (p : Plane) : StartKept s (s.loadLines who w is p).1 := by
  unfold State.loadLines
  induction is generalizing s p with
  | nil => exact ⟨rfl, rfl⟩
  | cons i is ih =>
    refine StartKept.trans ?_ (ih _ _)
    dsimp only; split <;> simp
@[simp] theorem startKept_fillPlane (who : Who) (w : Nat) : StartKept s (s.fillPlane who w).1 := by
  unfold State.fillPlane
  generalize List.range 512 = is
  exact startKept_loadLines s who w is { window := some w }
theorem startKept_loadBytes {s : State} {who : Who} {va n : Nat} {bs : List Byte} {t : State} (h : s.loadBytes who va n = .ok (bs, t)) :
    StartKept s t := by
  unfold State.loadBytes at h
  (repeat' split at h) <;> cases h
  simp
theorem startKept_loadTable {s : State} {l : Launch} {b : Option BucketTab} {t : State} (h : s.loadTable l = .ok (b, t)) : StartKept s t := by
  unfold State.loadTable at h
  split at h
  · cases h; exact ⟨rfl, rfl⟩
  split at h
  · cases h
  next e₁ =>
  extract_lets n at h
  split at h
  · cases h
  next e₂ =>
  have k := (startKept_loadBytes e₁).trans (startKept_loadBytes e₂)
  split at h <;> cases h
  exact k
@[simp] theorem startKept_dispatch (n c : Nat) (l : Launch) : StartKept s (s.dispatch n c l) := by
  unfold State.dispatch
  extract_lets fresh code w
  split
  · exact ⟨rfl, rfl⟩
  split
  · simp
  split
  · simp
  next r tab u h =>
  refine (startKept_loadTable h).trans ?_
  split
  next t p e =>
  have k := startKept_loadLines u (u.who l) w (firstLines l.record.entry) { window := some w }
  rw [e] at k
  split
  · exact k.trans (startKept_endLaunch ..)
  · exact k.trans (by simp)
theorem startKept_whenLoaded {fill : State} (hf : StartKept s fill) (who : Who) (w : Nat) : StartKept s (s.whenLoaded who w fill) := by
  unfold State.whenLoaded; split <;> simp [hf]
@[simp] theorem startKept_rotateAt (n c : Nat) : StartKept s (s.rotateAt n c) := by simp only [State.rotateAt]; (repeat' split) <;> simp
@[simp] theorem startKept_park (n a : Nat) : StartKept s (s.park n a) := by unfold State.park; split <;> simp
@[simp] theorem startKept_leave (c : Nat) (x : Xfer) : StartKept s (s.leave c x) := by simp only [State.leave]; (repeat' split) <;> simp
@[simp] theorem startKept_restoreCtx (c : Nat) (v : Save) : StartKept s (s.restoreCtx c v) := by unfold State.restoreCtx; split <;> simp
@[simp] theorem startKept_take (n c i : Nat) (l : Launch) : StartKept s (s.take n c i l) := by
  unfold State.take
  extract_lets r0 r saved s₁ s₂ s₃ s₄ taken
  clear_value r saved
  have h₁ : StartKept s s₁ := by
    unfold s₁
    split
    · split <;> simp
    · exact ⟨rfl, rfl⟩
  have h₂ : StartKept s s₂ := by
    unfold s₂
    split <;> simp [h₁]
  have h₃ : StartKept s s₃ := by
    unfold s₃
    split <;> simp [h₂]
  simp [s₄, h₃]
@[simp] theorem startKept_hardwareEnds (n : Nat) : StartKept s (s.hardwareEnds n) := by unfold State.hardwareEnds; split <;> simp
@[simp] theorem startKept_saveCore (c v i : Nat) (fab : Bool) :
    StartKept s (s.saveCore c v i fab) := by simp only [State.saveCore]; (repeat' split) <;> simp
@[simp] theorem startKept_carrelEmpty (v : Nat) : StartKept s (s.carrelEmpty v) := by unfold State.carrelEmpty; split <;> simp
@[simp] theorem startKept_release (c : Nat) (p : Preempt) : StartKept s (s.release c p) := by simp only [State.release]; (repeat' split) <;> simp
@[simp] theorem startKept_fabricAck (c : Nat) : StartKept s (s.fabricAck c) := ⟨rfl, rfl⟩
@[simp] theorem startKept_unpark (n : Nat) : StartKept s (s.unpark n) := by unfold State.unpark; split <;> simp

/-! Machine/HostCmds -/

theorem startKept_readTemplate {s : State} {m : Nat} {new : Mcb} {x : Option LaunchRec × State} (h : s.readTemplate m new = .ok x) :
    StartKept s x.2 := by
  unfold State.readTemplate at h
  dsimp only at h
  (repeat' split at h) <;> cases h <;> simp
@[simp] theorem startKept_applyMcb (m want : Nat) (new : Mcb) (t : Option LaunchRec) : StartKept s (s.applyMcb m want new t) := by
  simp [State.applyMcb]
@[simp] theorem startKept_copyOutLines (s : State) (ps : List Piece) : StartKept s (copyOutLines ps s).1 := by
  induction ps generalizing s with
  | nil => exact ⟨rfl, rfl⟩
  | cons p r ih =>
    unfold copyOutLines
    extract_lets a
    split <;> simp [ih]
@[simp] theorem startKept_postAll (ty detail arg : Nat) : StartKept s (s.postAll ty detail arg) := by simp [State.postAll]
@[simp] theorem startKept_measure (i : Nat) : StartKept s (s.measure i) := ⟨rfl, rfl⟩
@[simp] theorem startKept_resumeFw (detail status : Nat) :
    StartKept s (s.resumeFw detail status) := by simp only [State.resumeFw]; (repeat' split) <;> simp

/-! Machine/Errors -/

@[simp] theorem startKept_freezeCore (c : Nat) : StartKept s (s.freezeCore c) := ⟨rfl, rfl⟩
@[simp] theorem startKept_restartThread (t : Nat) : StartKept s (s.restartThread t) := by simp only [State.restartThread]; (repeat' split) <;> simp
@[simp] theorem startKept_refuseHead (item : Nat) : StartKept s (s.refuseHead item) := by unfold State.refuseHead; (repeat' split) <;> simp
@[simp] theorem startKept_restartPreempts : StartKept s s.restartPreempts := ⟨rfl, rfl⟩
@[simp] theorem startKept_restartLoads : StartKept s s.restartLoads := by simp [State.restartLoads]
@[simp] theorem startKept_restartBlock (block item : Nat) :
    StartKept s (s.restartBlock block item) := by unfold State.restartBlock; (repeat' split) <;> simp
@[simp] theorem startKept_reloadSegment (i : Nat) : StartKept s (s.reloadSegment i) := by simp [State.reloadSegment]
@[simp] theorem startKept_poisonLine (pa : Nat) : StartKept s (s.poisonLine pa) := ⟨rfl, rfl⟩
@[simp] theorem startKept_strikeTag (pa tag item : Nat) : StartKept s (s.strikeTag pa tag item) := by simp [State.strikeTag]
@[simp] theorem startKept_strikeLine (pa item : Nat) : StartKept s (s.strikeLine pa item) := by unfold State.strikeLine; (repeat' split) <;> simp
@[simp] theorem startKept_strikeReg (c n : Nat) : StartKept s (s.strikeReg c n) := ⟨rfl, rfl⟩
@[simp] theorem startKept_refetch (c line : Nat) (plane : Bool) : StartKept s (s.refetch c line plane) := ⟨rfl, rfl⟩
@[simp] theorem startKept_strikeLaunch (n : Nat) : StartKept s (s.strikeLaunch n) := by unfold State.strikeLaunch; split <;> simp
@[simp] theorem startKept_strikeIntake (lane index : Nat) :
    StartKept s (s.strikeIntake lane index) := by simp only [State.strikeIntake]; (repeat' split) <;> simp
@[simp] theorem startKept_strikeKey (k : Nat) : StartKept s (s.strikeKey k) := by simp [State.strikeKey]
@[simp] theorem startKept_strikeFlit (tag item : Nat) : StartKept s (s.strikeFlit tag item) := by simp [State.strikeFlit]

/-! Machine/Fetch -/

@[simp] theorem startKept_trapEarly (cause detail tva slot slotRes : Nat) :
    StartKept s (s.trapEarly cause detail tva slot slotRes) := by simp [State.trapEarly]
@[simp] theorem startKept_fetchTrap (line cause level : Nat) : StartKept s (s.fetchTrap line cause level) := by simp [State.fetchTrap]

/-! Machine/Issue -/


@[simp] theorem startKept_stallMove (fetch : Bool) : StartKept s (s.stallMove fetch) := by simp [State.stallMove]
@[simp] theorem startKept_stalledAt (t : State) : StartKept s (stalledAt s t) := by simp [stalledAt]
@[simp] theorem startKept_splitAt : StartKept s (splitAt s) := ⟨rfl, rfl⟩
@[simp] theorem startKept_markFirst : StartKept s s.markFirst := by simp [State.markFirst]
@[simp] theorem startKept_drained : StartKept s s.drained := ⟨rfl, rfl⟩

/-! Machine/Rv64 -/

theorem startKept_proemLoad {s : State} {t a n : Nat} {x : State × List Byte} (h : s.proemLoad t a n = some x) : StartKept s x.1 := by
  unfold State.proemLoad at h
  split at h
  · cases h; exact ⟨rfl, rfl⟩
  · cases h; exact ⟨rfl, rfl⟩
  · cases h; exact ⟨rfl, rfl⟩
  · cases h; exact startKept_busRead ..
  · obtain ⟨b, -, rfl⟩ := Option.map_eq_some_iff.1 h
    exact ⟨rfl, rfl⟩
@[simp] theorem startKept_endReservations (t : Nat) (place : ProemPlace) : StartKept s (s.endReservations t place) := ⟨rfl, rfl⟩
@[simp] theorem startKept_proemTrap (t cause : Nat) (tval : Word) : StartKept s (s.proemTrap t cause tval) := ⟨rfl, rfl⟩
@[simp] theorem startKept_rvRetire (t rd : Nat) (v next : Word) : StartKept s (s.rvRetire t rd v next) := ⟨rfl, rfl⟩
theorem startKept_rvLoad {k : State → Nat → State} (hk : ∀ s v, StartKept s (k s v)) (t a n : Nat) : StartKept s (rvLoad t a n s k) := by
  unfold rvLoad
  split
  · simp
  · split
    · simp
    · next h => exact StartKept.trans (startKept_proemLoad h) (hk _ _)

theorem startKept_rvCsrOp {illegal : State} (hi : StartKept s illegal) (t w : Nat) (next : Word) : StartKept s (rvCsrOp t w next illegal s) := by
  unfold rvCsrOp; dsimp only; (repeat' split) <;> simp [hi]
theorem startKept_rvSystem {illegal : State} (hi : StartKept s illegal) (t w : Nat) (next : Word) : StartKept s (rvSystem t w next illegal s) := by
  simp [rvSystem, hi, startKept_rvCsrOp]

/-! Machine/Proem -/

@[simp] theorem startKept_launchPort (b : List Byte) : StartKept s (s.launchPort b) := ⟨rfl, rfl⟩
@[simp] theorem startKept_completionPort (b : List Byte) : StartKept s (s.completionPort b) := by
  unfold State.completionPort; (repeat' split) <;> simp
@[simp] theorem startKept_postTo (sink : Nat) (b : List Byte) : StartKept s (s.postTo sink b) := by unfold State.postTo; split <;> simp

/-! Machine/Scalar -/

@[simp] theorem startKept_transfer (t : Nat) : StartKept s (transfer t s) := ⟨rfl, rfl⟩
@[simp] theorem startKept_latchEnd (x : Xfer) : StartKept s (latchEnd x s) := ⟨rfl, rfl⟩
@[simp] theorem startKept_returnLater (rd v : Nat) : StartKept s (s.returnLater rd v) := ⟨rfl, rfl⟩

/-! Machine/Spdm -/

@[simp] theorem startKept_spdmSend (bs : List Byte) : StartKept s (s.spdmSend bs) := by simp [State.spdmSend]
@[simp] theorem startKept_respond (code : Nat) (fields : List (List Byte)) : StartKept s (s.respond code fields) := by simp [State.respond]
@[simp] theorem startKept_spdmError (e : Nat) : StartKept s (s.spdmError e) := ⟨rfl, rfl⟩
@[simp] theorem startKept_setSpdm (x : SpdmSession) : StartKept s (s.setSpdm x) := ⟨rfl, rfl⟩
@[simp] theorem startKept_dropSpdm (sid : Nat) : StartKept s (s.dropSpdm sid) := ⟨rfl, rfl⟩

/-! Machine/Turn -/

@[simp] theorem startKept_tick : StartKept s s.tick := by simp [State.tick]

end Sys2Proof.Proofs
end

section
/-! The answers of instructions that leave the start state alone: the guards of the slots, and the forms that several instructions share. -/
namespace Sys2Proof.Proofs
open Sys2Proof.Machine Sys2Proof.Laws

/-- An answered next state has the package registers and the boot flash of `s`. -/
structure AnswersKept (s : State) (r : Res) : Prop where
  keeps : ∀ t, r = .next t → StartKept s t

@[simp] theorem answersKept_next (s t : State) : AnswersKept s (.next t) ↔ StartKept s t :=
  ⟨fun h => h.keeps t rfl, fun h => ⟨fun _ e => by cases e; exact h⟩⟩

@[simp] theorem answersKept_ite (s : State) (c : Prop) [Decidable c] (a b : Res) :
    AnswersKept s (if c then a else b) ↔ if c then AnswersKept s a else AnswersKept s b := by
  split <;> rfl

section
variable {s : State}

@[simp] theorem answersKept_trap (cause detail tva path : Nat) : AnswersKept s (trap cause detail tva path s) := by simp [trap]
@[simp] theorem answersKept_illop (y : Syll) : AnswersKept s (illop y s) := by simp [illop]
@[simp] theorem answersKept_stall (t : State) : AnswersKept s (stall t) ↔ StartKept s t := by simp [stall]
@[simp] theorem answersKept_proemIllegal (w : Nat) : AnswersKept s (proemIllegal w s) := by simp [proemIllegal]
@[simp] theorem answersKept_overRead (path : Nat) : AnswersKept s (overRead path s) := by simp [overRead]

/-! The guards of the slots hand on to `k`. -/

theorem answersKept_checked {y : Syll} {k : State → Res} (hk : AnswersKept s (k s)) : AnswersKept s (checked y s k) := by
  rcases checked_cases y s k with e | e
  · exact e ▸ hk
  · simp [e]
theorem answersKept_circPass {k : State → Res} (hk : AnswersKept s (k s)) : AnswersKept s (circPass s k) := by
  simp [circPass, hk]
theorem answersKept_ownsBanks {path : Nat} {rs : List (Nat × Nat)} {k : State → Res} (hk : AnswersKept s (k s)) :
    AnswersKept s (ownsBanks path rs s k) := by
  dsimp only [ownsBanks]; split <;> simp [hk]
theorem answersKept_toRegister {y : Syll} {t : Nat} {k : State → Res} (hk : AnswersKept s (k s)) : AnswersKept s (toRegister y t s k) := by
  simp [toRegister, hk]
theorem answersKept_suspendCheck {y : Syll} {k : State → Res} (hk : AnswersKept s (k s)) : AnswersKept s (suspendCheck y s k) := by
  simp [suspendCheck, hk]
theorem answersKept_vChecked {op : Nat} {f : VOp} {k : State → Res} (hk : AnswersKept s (k s)) : AnswersKept s (vChecked op f s k) := by
  simp [vChecked, hk]
theorem answersKept_vDraw {op : Nat} {f : VOp} {k : DrawCtl → State → Res} (hk : ∀ c, AnswersKept s (k c s)) :
    AnswersKept s (vDraw op f s k) :=
  answersKept_vChecked (by simp [hk])
theorem answersKept_pushForm {op : Nat} {f : MOp} {ok : Nat → Bool} {k : Nat → State → Res}
    (hk : ∀ i, AnswersKept s (k i (s.modHandle f.f fun d => d.drainAt d.cp))) :
    AnswersKept s (pushForm op f ok s k) :=
  answersKept_checked (by dsimp only; (repeat' split) <;> simp [hk])
theorem answersKept_accessChecks {a : Access} {k : List Piece → State → Res} (hk : ∀ ps, AnswersKept s (k ps s)) :
    AnswersKept s (accessChecks a s k) := by
  unfold accessChecks; (repeat' split) <;> simp [hk]
theorem answersKept_checkedAccess {a : Access} {names : Bool} {k : List Piece → State → Res} (hk : ∀ ps, AnswersKept s (k ps s)) :
    AnswersKept s (checkedAccess a names s k) := by
  simp [checkedAccess, answersKept_accessChecks hk]
theorem answersKept_bufferChecks {y : Syll} {f : LW} {slot : Handle → Nat} {k : Nat → Handle → State → Res}
    (hk : ∀ o d, AnswersKept s (k o d s)) : AnswersKept s (bufferChecks y f slot s k) := by
  simp [bufferChecks, hk]
theorem answersKept_accChecks {y : Syll} {f : LW} {k : Nat → State → Res} (hk : ∀ x, AnswersKept s (k x s)) :
    AnswersKept s (accChecks y f s k) := by
  simp [accChecks, hk]
theorem answersKept_copyRoom {k : State → Res} (hk : AnswersKept s (k s)) : AnswersKept s (copyRoom s k) := by
  simp [copyRoom, hk]
theorem answersKept_fabricRoom {k : State → Res} (hk : AnswersKept s (k s)) : AnswersKept s (fabricRoom s k) := by
  simp [fabricRoom, hk]
theorem answersKept_queueOwned {o : CipherOp} {k : State → State} (hk : StartKept s (k s)) : AnswersKept s (queueOwned o s k) :=
  answersKept_ownsBanks (by simp [hk])
theorem answersKept_handleForm {y : Syll} {h : Nat} {k : State → Res} (hk : AnswersKept s (k s)) :
    AnswersKept s (handleForm y h s k) :=
  answersKept_checked (by simp [hk])

/-! The forms that several instructions share. -/

theorem answersKept_vUnary (op : Nat) (f : VOp) (lat : Nat) (rounds : Bool) (g : Rnd → Nat → Nat → Elem) :
    AnswersKept s (vUnary op f lat rounds g s) :=
  answersKept_vChecked (by simp)
theorem answersKept_vBinary (op : Nat) (f : VOp) (lat : Nat) (rounds zero : Bool) (g : Rnd → Nat → Nat → Nat → Elem) :
    AnswersKept s (vBinary op f lat rounds zero g s) :=
  answersKept_vChecked (by simp)
theorem answersKept_vShift (op : Nat) (f : VOp) (g : Nat → Nat → Nat) : AnswersKept s (vShift op f g s) :=
  answersKept_vChecked (by simp)
theorem answersKept_vCompare (op : Nat) (f : VOp) : AnswersKept s (vCompare op f s) :=
  answersKept_vChecked (by simp)
theorem answersKept_vMove (op : Nat) (f : VOp) (lat span : Nat) (qp : BitVec 256) (g : Nat → Nat) :
    AnswersKept s (vMove op f lat span qp g s) :=
  answersKept_vChecked (by simp)
theorem answersKept_vConvert (op : Nat) (f : VOp) (src dst span lat : Nat) (r : Rnd) (a : List Nat) (rounds : Bool) :
    AnswersKept s (vConvert op f src dst span lat r a rounds s) :=
  answersKept_vChecked (by simp)
@[simp] theorem answersKept_spadLoad (a : Access) (ty off : Nat) (act : List Bool) : AnswersKept s (spadLoad a ty off act s) := by
  simp [spadLoad]
@[simp] theorem answersKept_memLoad (a : Access) (ty : Nat) (ps : List Piece) (act : List Bool) : AnswersKept s (memLoad a ty ps act s) := by
  unfold memLoad; (repeat' split) <;> simp
theorem answersKept_loadForm (op ty : Nat) (f : LW) (ea n span : Nat) : AnswersKept s (loadForm op ty f ea n span s) :=
  answersKept_checkedAccess fun ps => by dsimp only; split <;> simp
@[simp] theorem answersKept_memStore (a : Access) (ps : List Piece) (bs : List Byte) (act : List Bool) :
    AnswersKept s (memStore a ps bs act s) := by
  unfold memStore
  dsimp only
  split
  · simp
  · refine (answersKept_next ..).2 (StartKept.trans ?_ (startKept_foldl (fun s p => ?_) _ _))
    · simp
    · split <;> simp
theorem answersKept_storeForm (op : Nat) (f : LW) (ea : Nat) (bs : List Byte) (names : Bool) (count : Nat) :
    AnswersKept s (storeForm op f ea bs names count s) :=
  answersKept_checkedAccess fun ps => by dsimp only; split <;> simp
theorem answersKept_bankForm (op : Nat) (f : LW) (returns : Bool) (data : List Byte) (act : List Bool) (opB : Word) :
    AnswersKept s (bankForm op f returns data act opB s) :=
  answersKept_checkedAccess fun ps => by simp
theorem answersKept_fabricForm (op : Nat) (rma : Bool) (f : COp) : AnswersKept s (fabricForm op rma f s) :=
  answersKept_checked (by simp [fabricRoom])
theorem answersKept_scaleLoad (op : Nat) (f : ZOp) (n lo : Nat) : AnswersKept s (scaleLoad op f n lo s) :=
  answersKept_checked (by dsimp only; (repeat' split) <;> simp)

/-! SPDM requests. -/

theorem answersKept_spdmRequest {code least : Nat} {k : State → State} (hk : StartKept s (k s)) :
    AnswersKept s (spdmRequest code least k s) := by
  simp [spdmRequest, hk]
theorem answersKept_sessionRequest {code : Nat} {est : Bool} {k : SpdmSession → List Byte → State → State}
    (hk : ∀ x m, StartKept s (k x m s)) : AnswersKept s (sessionRequest code est k s) := by
  unfold sessionRequest; dsimp only; (repeat' split) <;> simp [hk]

end
end Sys2Proof.Proofs
end

section
/-! The instructions that leave the start state alone: host commands, SPDM messages, and the table of all of them. -/
namespace Sys2Proof.Proofs
open Sys2Proof.Machine Sys2Proof.Laws

/-! Host commands. -/

/-- A command leaves the start state as its body does, or the packet was not taken up. -/
theorem runCmd_cases (m : Nat) (want bad : List Byte → Bool) (body : State → Mq → Cmd → State) (s : State) :
    ∃ t, runCmd m want bad body s = .next t ∧ (StartKept s t ∨ ∃ u x c, StartKept s u ∧ StartKept (body u x c) t) := by
  refine ⟨_, rfl, ?_⟩
  split
  · next h => exact .inl (startKept_takePacket_error h)
  next u c h =>
  have hu := startKept_takePacket_ok h
  dsimp only
  split
  · exact .inl (by simp [hu])
  split
  · exact .inl (by simp [hu])
  split
  · exact .inl (by simp [hu])
  split
  · exact .inl (by simp [hu])
  · exact .inr ⟨u, u.mq m, c, hu, startKept_settleReload ..⟩

section
variable {s : State}

theorem answersKept_runCmd {m : Nat} {want bad : List Byte → Bool} {body : State → Mq → Cmd → State}
    (hk : ∀ t x c, StartKept t (body t x c)) : AnswersKept s (runCmd m want bad body s) := by
  obtain ⟨t, e, h⟩ := runCmd_cases m want bad body s
  rw [e, answersKept_next]
  rcases h with h | ⟨u, x, c, hu, ht⟩
  · exact h
  · exact hu.trans ((hk u x c).trans ht)

theorem answersKept_launch : AnswersKept s (execLaunch s) :=
  answersKept_runCmd fun t x c => by dsimp only; (repeat' split) <;> simp
theorem answersKept_catalogSet : AnswersKept s (execCatalogSet s) :=
  answersKept_runCmd fun t x c => by
    extract_lets e old free b u
    clear_value old free b
    have hu : StartKept t u := by
      unfold u
      split
      · split <;> simp
      · exact ⟨rfl, rfl⟩
    clear_value u
    (repeat' split) <;> simp +contextual [hu]
theorem answersKept_mcbWrite : AnswersKept s (execMcbWrite s) :=
  answersKept_runCmd fun t x c => by
    dsimp only
    split
    · simp
    split
    · simp
    split
    · simp
    split
    · simp
    split
    · split
      · simp
      · next h => exact StartKept.trans (startKept_readTemplate h) (by simp)
    · simp
theorem answersKept_copyIn : AnswersKept s (execCopyIn s) :=
  answersKept_runCmd fun t x c => by dsimp only; (repeat' split) <;> simp
theorem answersKept_copyOut : AnswersKept s (execCopyOut s) := by
  unfold execCopyOut
  split
  · simp
  · exact answersKept_runCmd fun t x c => by dsimp only; (repeat' split) <;> simp
theorem startKept_modPart (s : State) (p : Nat) (g : Partition → Partition) : StartKept s (s.modPart p g) := by simp

theorem answersKept_partitionWithdraw : AnswersKept s (execPartitionWithdraw s) :=
  answersKept_runCmd fun t x c => by
    extract_lets p d wheels qs eth sl u v w
    clear_value d wheels qs eth sl
    have hv : StartKept u v := startKept_foldl (fun s i => by split <;> simp) _ u
    have hw : StartKept v w := startKept_foldl (fun s k => by split <;> simp) _ v
    have hu : StartKept t u := ⟨rfl, rfl⟩
    clear_value w v u
    split
    · simp
    split
    · simp
    · exact hu.trans (hv.trans (hw.trans ((startKept_dirtyPart w p).trans ((startKept_modPart ..).trans (startKept_settlePart ..)))))

/-! Large SPDM messages. -/

theorem answersKept_getCapabilities : AnswersKept s (execGetCapabilities s) := answersKept_spdmRequest (by simp)
theorem answersKept_negotiateAlgorithms : AnswersKept s (execNegotiateAlgorithms s) := answersKept_spdmRequest (by simp)
theorem answersKept_getDigests : AnswersKept s (execGetDigests s) := answersKept_spdmRequest (by simp)
theorem answersKept_getCertificate : AnswersKept s (execGetCertificate s) := answersKept_spdmRequest (by simp)
theorem answersKept_challenge : AnswersKept s (execChallenge s) := answersKept_spdmRequest (by simp)
theorem answersKept_getMeasurements : AnswersKept s (execGetMeasurements s) := answersKept_spdmRequest (by simp)
theorem answersKept_keyExchange : AnswersKept s (execKeyExchange s) := answersKept_spdmRequest (by simp)

@[simp] theorem startKept_largeRequest (s : State) : StartKept s (largeRequest s) := by
  unfold largeRequest
  extract_lets r
  have hr : AnswersKept s r := by
    unfold r
    split
    · exact answersKept_getCapabilities
    · exact answersKept_negotiateAlgorithms
    · exact answersKept_getDigests
    · exact answersKept_getCertificate
    · exact answersKept_challenge
    · exact answersKept_getMeasurements
    · exact answersKept_keyExchange
    · simp
  clear_value r
  split
  · exact hr.keeps _ rfl
  · exact ⟨rfl, rfl⟩

@[simp] theorem startKept_handleLarge (s : State) (all : List Byte) : StartKept s (s.handleLarge all) := by
  simp [State.handleLarge]

theorem answersKept_chunkSend : AnswersKept s (execChunkSend s) := answersKept_spdmRequest (by simp)
theorem answersKept_chunkGet : AnswersKept s (execChunkGet s) := answersKept_spdmRequest (by split <;> simp)
theorem answersKept_keyUpdate : AnswersKept s (execKeyUpdate s) := answersKept_sessionRequest fun x m => by simp
theorem answersKept_ideKm : AnswersKept s (execIdeKm s) := by
  refine (answersKept_next ..).2 ?_
  split
  · simp
  split
  · simp
  · simp

theorem answersKept_queueLoad : AnswersKept s (execQueueLoad s) := by
  refine (answersKept_next ..).2 ?_
  split
  · simp
  split
  · simp
  dsimp only
  split
  · simp
  split
  · split <;> simp
  split
  · simp
  split
  · simp
  · next h => exact StartKept.trans (startKept_findMq h) (by split <;> simp)

theorem answersKept_request : AnswersKept s (execRequest s) :=
  (answersKept_next ..).2 <| startKept_mrpTake (fun p h b t => startKept_verify (fun i body u => by
    split
    · dsimp only; (repeat' split) <;> simp
    · simp) t p h b) s 4

theorem answersKept_creditFlit : AnswersKept s (execCreditFlit s) := by
  refine (answersKept_next ..).2 ?_
  split
  · simp
  split
  · simp
  split
  · exact startKept_sendFlit ..
  · simp

theorem answersKept_fabricOpComplete : AnswersKept s (execFabricOpComplete s) := by
  refine (answersKept_next ..).2 ?_
  dsimp only
  split
  · simp
  split
  · simp
  split
  · split <;> simp
  split
  · next h => exact (localAll_fabricWrite ..).wait h
  · split <;> simp
  · next h => exact StartKept.trans ((localAll_fabricWrite ..).done h) (by split <;> simp)

theorem startKept_modTh (t : State) (g : Thread → Thread) : StartKept t (t.modTh g) := by simp

theorem answersKept_grpush (f : YR) : AnswersKept s (execGrpush f s) :=
  answersKept_checked (by
    dsimp only
    split
    · simp
    split
    · exact (answersKept_next ..).2 (startKept_modTh ..)
    · simp)

/-! The table. -/

/-- The instructions that may change the package registers or the boot flash: starts and resets, power and temperature, register writes
from a bus, the copies and stores that may reach a register, and the commands that write flash. -/
def movesStart : Instr → Bool
  | .resetNRelease | .powerLoss | .stagePower | .stageRom | .stageFw | .stageCfg | .stageClocks | .stageHbm | .stageScrub | .stageTimeout
  | .startWatchdog | .warmReset | .pkgResetWrite | .powerEstimate | .sweepEnd | .hbmRefreshBoundary | .registerWrite | .copyRow
  | .cipherBlock | .homeSliceAccept | .fwStage | .fwActivateNextStart | .fwNewImageStart | .recover | .opkeyEnrol => true
  | _ => false

theorem answersKept_exec (i : Instr) (s : State) (h : movesStart i = false) : AnswersKept s (exec i s) := by
  cases i with dsimp only [exec]
  | resetNRelease | powerLoss | stagePower | stageRom | stageFw | stageCfg | stageClocks | stageHbm | stageScrub | stageTimeout
  | startWatchdog | warmReset | pkgResetWrite | powerEstimate | sweepEnd | hbmRefreshBoundary | registerWrite | copyRow | cipherBlock
  | homeSliceAccept | fwStage | fwActivateNextStart | fwNewImageStart | recover | opkeyEnrol => cases h
  -- Events: `simp` with the rules of the operations, per branch.
  | freezeEnd | pcieConfigRequest | pcieHotReset | vfFlr | pcieLinkUp | doeDiscovery | doorbell | fwActivateWatchdog
  | interruptWindowExpiry | bucketTick | fnEvheadWrite | counterRead | ethPctlWrite | slPctlWrite | chpTmarkWrite | ethLinkChange
  | sessionLapseTimeout | halfTimeout | laneFailure | linkReplay | livenessTimeout | timesyncExchange | timeWake
  | unitScrubDone | zeroFillDone | keyZeroiseDone | segmentLoadDone | slotFull | accBanksFree | slLinkUp | creditReturn
  | exposedResultLanding | tmarkScanDone | emptyBundle | illbundle =>
    exact (answersKept_next ..).2 (by simp)
  | correctableError | reassemblyTimeout | stalldropTimeout | fabricResponseTimeout | csendCreditTimeout | corePreemptRequest
  | collectorAck | waitListAging | parkTimeout | deadlineExpiry | loadFill | lateTrap | streamSlotAdvance | bankOwnClear | proemTimer =>
    exact (answersKept_next ..).2 (by split <;> simp)
  | uncorrectableError | binding | coreFree | strandPickup | parkWake | launchRetire | wheelSlot =>
    exact (answersKept_next ..).2 (by (repeat' split) <;> simp)
  | frameReceive | slowPathFrame => exact (answersKept_next ..).2 (by dsimp only; (repeat' split) <;> simp)
  | planeFillDone => exact (answersKept_next ..).2 (by (repeat' split) <;> simp [startKept_whenLoaded])
  | queueLoad => exact answersKept_queueLoad
  | creditFlit => exact answersKept_creditFlit
  | fabricOpComplete => exact answersKept_fabricOpComplete
  -- Packets and datagrams.
  | fabWrite | fabRead | fabReadResp | fabWriteAck | fabSend | fabRecvCred | fabColl | fabAbandon | fabTimesync | fabFault =>
    exact (answersKept_next ..).2 (startKept_receivePk _ (by simp) _)
  | hello | confirm | heartbeat | close | certreq =>
    exact (answersKept_next ..).2 (startKept_mrpTake (by simp [startKept_verify]) ..)
  | request => exact answersKept_request
  -- SPDM.
  | getVersion | getCapabilities | negotiateAlgorithms | getDigests | getCertificate | challenge | getMeasurements | keyExchange =>
    exact answersKept_spdmRequest (by simp)
  | finish | spdmHeartbeat | keyUpdate | endSession => exact answersKept_sessionRequest fun _ _ => by simp
  | chunkSend => exact answersKept_chunkSend
  | chunkGet => exact answersKept_chunkGet
  | ideKm => exact answersKept_ideKm
  -- Host commands.
  | launch => exact answersKept_launch
  | catalogSet => exact answersKept_catalogSet
  | mcbWrite => exact answersKept_mcbWrite
  | copyIn => exact answersKept_copyIn
  | copyOut => exact answersKept_copyOut
  | partitionWithdraw => exact answersKept_partitionWithdraw
  | nop | queueBind | queueUnbind | vfSetup | fwActivateLive => exact answersKept_runCmd fun _ _ _ => by simp
  | catalogDel => exact answersKept_runCmd fun _ _ _ => by (repeat' split) <;> simp
  | keyImport | partitionDefine => exact answersKept_runCmd fun _ _ _ => by dsimp only; (repeat' split) <;> simp
  -- Proem words.
  | pwait f | ptid f => exact (answersKept_ite ..).2 (by simp)
  | ppost f =>
    refine (answersKept_ite ..).2 ?_
    (repeat' split) <;> simp
  -- Syllables of the scalar, matrix and scale slots with one outcome once they are legal.
  | add f | sub f | mul f | mulhI f | mulhN f | divI f | divN f | remI f | remN f | sAnd f | sOr f | sXor f | sAndn f | shl f | shr f
  | sar f | rol f | minI f | minN f | maxI f | maxN f | clz f | ctz f | popc f | bfxI f | bfxN f | bfi f | lea f | li f | sel f | cmp f
  | br f | brz f | jmp f | call f | loop f | rotset f | trap f | stamp f | csrr f | csrw f | csrs f | csrc f | mshift f | mwswap f
  | mwswapHome f | zset f | zmov f | zgenG f | zgenB f =>
    apply answersKept_checked
    simp
  -- The scalar slot: targets in registers, strands, traps.
  | jmpr f | callr f | ret f => exact answersKept_checked <| answersKept_toRegister (by simp)
  | spawn f => exact answersKept_checked <| answersKept_toRegister <| answersKept_circPass <| by split <;> simp
  | suspend f => exact answersKept_checked <| answersKept_suspendCheck <| by split <;> simp
  | yield f | seqnext f => exact answersKept_checked <| answersKept_suspendCheck (by simp)
  | exitStrand f | rett f | swaptok f => exact answersKept_checked (by simp)
  -- The vector slots.
  | vabs f | vneg f | vclass f | vnot f | vexp2 f | vlog2 f | vrcp f | vrsq f | vsqrt f | vexpd f => exact answersKept_vUnary ..
  | vadd f | vaddImm f | vsub f | vsubImm f | vmul f | vmulImm f | vmin f | vminImm f | vmax f | vmaxImm f | vcpysgn f | vand f
  | vandImm f | vor f | vorImm f | vxor f | vxorImm f | vmulh f => exact answersKept_vBinary ..
  | vshl f | vshlImm f | vshr f | vshrImm f | vsar f | vsarImm f => exact answersKept_vShift ..
  | vcmp f | vcmpImm f => exact answersKept_vCompare ..
  | vcvt f | vpack f | vunpack f => exact answersKept_vConvert ..
  | vperm f | vshuf f | vrot f | vrotImm f | vslide f | vbcast f | vmov f | viota f | vcompress f | vexpand f | vzip f | vunzip f =>
    exact answersKept_vMove ..
  | vfma f | vfms f | vfnma f | vsel f | vdequant f | vsum f | vmaxr f | vminr f | vscan f | vtop f | vins f | vext f | qand f | qor f
  | qxor f | qnot f | qset f | qsetImm f | qcount f | qfirst f =>
    apply answersKept_vChecked
    simp
  | vquant f => exact answersKept_vChecked (by simp)
  | vbcastImm f => exact answersKept_vChecked <| (answersKept_ite ..).2 (by simp [answersKept_vMove])
  | vdraw f | vdrawl f | vdmerge f | vdescend f | vrand f | vrandf f => exact answersKept_vDraw fun _ => by simp
  -- The matrix slot.
  | mpushw f | mpusha f => exact answersKept_pushForm fun _ => by simp
  | macc f | mdrain f => exact answersKept_checked (by dsimp only; (repeat' split) <;> simp)
  | mclr f | mplane f => exact answersKept_checked (by split <;> simp)
  -- The load and store slots.
  | lds f | ldv f | ldvg f | ldx f | ldq f => exact answersKept_loadForm ..
  | sts f | stv f | stvg f | stx f | stq f => exact answersKept_storeForm ..
  | ldcb f => exact answersKept_bufferChecks fun _ _ => by (repeat' split) <;> simp
  | stcb f => exact answersKept_bufferChecks fun _ _ => by simp
  | ldacc f | stacc f => exact answersKept_accChecks fun _ => by simp
  | aadd f | aaddf f | aand f | aor f | axor f | amin f | amax f | aswp f | acas f | adec f | alpush f | alpop f | adraw f =>
    exact answersKept_bankForm ..
  -- The copy slot.
  | cpy f | cgather f | cscatter f | cskid f | cstream f | cprefetch f =>
    exact answersKept_checked (by dsimp only; (repeat' split) <;> simp [answersKept_ownsBanks, answersKept_copyRoom])
  | csend f | csendRma f | crecv f | crecvRma f => exact answersKept_fabricForm ..
  | ccoll f => exact answersKept_checked (by simp [answersKept_fabricRoom])
  -- The cipher slot.
  | cipherSeal f | cipherOpen f | shablk f | kbind f => exact answersKept_checked (by simp [answersKept_queueOwned])
  | kzero f => exact answersKept_checked (by simp)
  -- The synchronisation slot.
  | fence f | pfence f | cbinit f | seqwait f | bkrel f | bkacq f | abfree f | evsig f | grinit f | grbud f | grprune f =>
    exact answersKept_checked (by simp)
  | cbwaitFree f | cbadvProd f | cbrel f => exact answersKept_handleForm (by simp)
  | cbwaitFull f => exact answersKept_handleForm (by split <;> simp)
  | cbadvCons f => exact answersKept_handleForm (by dsimp only; split <;> simp)
  | join f | leave f => exact answersKept_checked <| answersKept_circPass (by simp)
  | grpush f => exact answersKept_grpush f
  | grpop f | rowrest f => exact answersKept_checked (by split <;> simp)
  | cbrelLine f | bar f | aballoc f | rowsave f => exact answersKept_checked (by dsimp only; (repeat' split) <;> simp)
  | evwait f => exact answersKept_checked (by simp [answersKept_circPass])
  -- The scale slot's loads.
  | zld f | zldg f => exact answersKept_scaleLoad ..

end
end Sys2Proof.Proofs
end

section
/-! The ranges of chapter 01 under the operations that change the start state: starts and resets, stages, power, sweeps, register windows. -/
namespace Sys2Proof.Proofs
open Sys2Proof Sys2Proof.Machine Sys2Proof.Laws

theorem StartKept.bootOk {s t : State} (k : StartKept s t) (h : s.bootOk) : t.bootOk := by
  obtain ⟨hp, hf⟩ := k
  unfold State.bootOk
  rw [hp, hf]
  exact h

section
variable {s : State}

/-! Starts and resets. -/

theorem bootOk_fresh (h : s.flash.fails ≤ 3) : s.fresh.bootOk where
  stage := Nat.zero_le _
  mode := Nat.zero_le _
  ready := nofun
  early := Nat.zero_le _
  fails := h
  power := Nat.zero_le _
  thermal _ := Nat.zero_le _
  capLow := show 600 ≤ 2600 by decide
  capHigh := Nat.le_refl 2600

theorem bootOk_warm (h : s.bootOk) : s.warm.bootOk :=
  have hk := startKept_lastWords s
  have hf : s.lastWords.flash.fails ≤ 3 := hk.2 ▸ h.fails
  have he : s.lastWords.pkg.early ≤ 3 := hk.1 ▸ h.early
  { bootOk_fresh hf with
    stage := show 2 ≤ 8 by decide
    early := he
    ready := nofun }

theorem bootOk_askReset (h : s.bootOk) : s.askReset.bootOk := by
  rcases askReset_cases s with e | e <;> rw [e]
  · exact bootOk_warm h
  · exact h

theorem bootOk_writeReset (h : s.bootOk) (v : Word) : (s.writeReset v).bootOk := by
  unfold State.writeReset
  split
  · exact bootOk_askReset h
  · exact h

/-- A write of the replay-protected block leaves the rest of the start state as it was. -/
theorem bootOk_writeBlock (h : s.bootOk) {g : Flash → Flash} (hg : (g s.flash).fails ≤ 3) : (s.writeBlock g).bootOk :=
  { h with fails := hg }

theorem bootOk_failStart (h : s.bootOk) (c : Nat) : (s.failStart c).bootOk := bootOk_warm (bootOk_writeBlock h h.fails)

theorem bootOk_enterMinimal (h : s.bootOk) (c : Nat) : (s.enterMinimal c).bootOk :=
  { (startKept_lastWords s).bootOk h with
    mode := Nat.le_refl 2
    ready := nofun }

theorem bootOk_timeOut (h : s.bootOk) : s.timeOut.bootOk := by
  unfold State.timeOut
  split
  · exact { h with }
  split
  · exact bootOk_warm { h with early := Nat.min_le_left .. }
  · exact bootOk_failStart h _

theorem bootOk_enterStage (h : s.bootOk) {n : Nat} (hn : n ≤ 8) (hm : s.pkg.mode = 1 → n = 8) : (s.enterStage n).bootOk :=
  { h with stage := hn, ready := hm }

/-- The work of a stage starts in a start in progress, whose mode is 0. -/
theorem bootOk_endStage (h : s.bootOk) {n : Nat} {k : State → State} (hk : s.pkg.mode = 0 → (k s).bootOk) : (s.endStage n k).bootOk := by
  unfold State.endStage
  split
  · exact h
  split
  · exact bootOk_timeOut h
  next hn _ =>
  have hm : s.pkg.mode = 0 := by
    simp [State.inStage] at hn
    exact hn.1.2
  exact hk hm

theorem bootOk_stageRom (h : s.bootOk) {t : State} (e : execStageRom s = .next t) : t.bootOk := by
  cases e
  refine bootOk_endStage h fun hm => ?_
  split
  · exact h
  split
  · exact bootOk_enterMinimal h _
  split
  · exact bootOk_failStart h _
  have hs : s.deriveSecrets.bootOk := { h with }
  extract_lets u f v
  split
  · exact bootOk_enterMinimal hs _
  have hv : v.bootOk := { hs with }
  split
  · exact bootOk_enterMinimal hv _
  next hn =>
  have hw : (v.writeBlock fun f => { f with fails := f.fails + 1, lastReason := 0x0A }).bootOk :=
    bootOk_writeBlock hv (by simpa [f, v] using hn)
  have hx : ((v.writeBlock fun f => { f with fails := f.fails + 1, lastReason := 0x0A }).modPkg fun p =>
      { p with romWrote := true, early := 0 }).bootOk := { hw with early := Nat.zero_le 3 }
  exact bootOk_enterStage hx (by decide) fun h1 => absurd (hm.symm.trans h1) (by decide)

theorem bootOk_stageFw (h : s.bootOk) {t : State} (e : execStageFw s = .next t) : t.bootOk := by
  cases e
  refine bootOk_endStage h fun hm => ?_
  extract_lets f u slot svn v
  have hu : u.bootOk := { h with }
  split
  · exact bootOk_failStart hu _
  split
  · exact bootOk_failStart hu _
  have hw : (u.modPkg fun p => { p with svn := svn, newFwSvn := svn }).bootOk := { hu with }
  have hv : v.bootOk := bootOk_enterStage hw (by decide) fun h1 => absurd (hm.symm.trans h1) (by decide)
  exact { hv with }

theorem bootOk_stageCfg (h : s.bootOk) {t : State} (e : execStageCfg s = .next t) : t.bootOk := by
  cases e
  refine bootOk_endStage h fun hm => ?_
  split
  · exact bootOk_failStart h _
  next hb =>
  split
  · exact bootOk_failStart h _
  have hcap : 600 ≤ leAt s.flash.blob 24 2 ∧ leAt s.flash.blob 24 2 ≤ 2600 := by
    simp [State.blobOk] at hb
    tauto
  have hv := bootOk_enterStage (s := s.modPkg fun p => { p with
      pcap := leAt s.flash.blob 24 2, macBase := beAt s.flash.blob 16 6, nVf := leAt s.flash.blob 26 2, newCfgSvn := leAt s.flash.blob 6 2 })
    { h with capLow := hcap.1, capHigh := hcap.2 } (n := 5) (by decide) fun h1 => absurd (hm.symm.trans h1) (by decide)
  exact { hv with }

theorem bootOk_stageClocks (h : s.bootOk) {t : State} (e : execStageClocks s = .next t) : t.bootOk := by
  cases e
  refine bootOk_endStage h fun hm => ?_
  split
  · exact bootOk_enterStage h (by decide) fun h1 => absurd (hm.symm.trans h1) (by decide)
  · exact bootOk_failStart h _

theorem bootOk_stageHbm (h : s.bootOk) {t : State} (e : execStageHbm s = .next t) : t.bootOk := by
  cases e
  refine bootOk_endStage h fun hm => ?_
  split
  · exact bootOk_enterStage h (by decide) fun h1 => absurd (hm.symm.trans h1) (by decide)
  · exact bootOk_failStart h _

theorem bootOk_stageScrub (h : s.bootOk) {t : State} (e : execStageScrub s = .next t) : t.bootOk := by
  cases e
  refine bootOk_endStage h fun _ => ?_
  split
  · exact bootOk_failStart h _
  · exact { h with
      stage := Nat.le_refl 8
      mode := show 1 ≤ 2 by decide
      ready := fun _ => rfl
      fails := Nat.zero_le _ }

/-! Power and temperature. -/

theorem powerStep_le {level : Nat} (h : level ≤ 3) (m pcap : Nat) : powerStep level m pcap ≤ 3 := by
  unfold powerStep
  (repeat' split) <;> omega

theorem thermalStep_le {level : Nat} (h : level ≤ 3) (t : Int) : thermalStep level t ≤ 3 := by
  unfold thermalStep
  split
  · next hl => simp at hl; omega
  split <;> omega

/-- A table whose entries are at most 3 keeps to it when one entry moves by a thermal step. -/
theorem get_upd_thermalStep_le {m : SMap Nat} (h : ∀ k, SMap.get m k 0 ≤ 3) (i : Nat) (t : Int) (k : Nat) :
    SMap.get (SMap.upd m i 0 fun l => thermalStep l t) k 0 ≤ 3 := by
  unfold SMap.upd
  by_cases hk : k = i
  · subst hk
    rw [get_set_same]
    exact thermalStep_le (h k) t
  · rw [get_set_other _ _ _ _ hk]
    exact h k

theorem bootOk_powerEstimate (h : s.bootOk) {t : State} (e : execPowerEstimate s = .next t) : t.bootOk := by
  unfold execPowerEstimate at e
  extract_lets m u l at e
  have hu : u.bootOk := ⟨h.stage, h.mode, h.ready, h.early, h.fails, h.power, h.thermal, h.capLow, h.capHigh⟩
  have hl : l ≤ 3 := powerStep_le hu.power _ _
  clear_value u l
  cases e
  split
  · exact h
  split
  · exact hu
  split
  · exact hu
  · exact ⟨hu.stage, hu.mode, hu.ready, hu.early, hu.fails, hl, hu.thermal, hu.capLow, hu.capHigh⟩

theorem bootOk_sweepEnd (h : s.bootOk) {t : State} (e : execSweepEnd s = .next t) : t.bootOk := by
  unfold execSweepEnd at e
  extract_lets r p level trip u v at e
  have hl {m : SMap Nat} (hm : ∀ i, SMap.get m i 0 ≤ 3) (k n : Nat) : ∀ i, SMap.get (level m k n) i 0 ≤ 3 :=
    get_upd_thermalStep_le hm k (r n)
  clear_value level trip r
  have hu : u.bootOk := ⟨h.stage, h.mode, h.ready, h.early, h.fails, h.power,
    hl (hl (hl (hl (hl h.thermal 0 600) 1 601) 2 602) 3 603) 4 616, h.capLow, h.capHigh⟩
  have hv : v.bootOk := ⟨hu.stage, hu.mode, hu.ready, hu.early, hu.fails, hu.power, hu.thermal, hu.capLow, hu.capHigh⟩
  clear_value v
  cases e
  split
  · exact h
  · exact (startKept_markRotations v).bootOk hv

/-! Register windows. -/

theorem bootOk_writePkg (h : s.bootOk) (house : Bool) (o v : Nat) : (s.writePkg house o v).bootOk := by
  unfold State.writePkg
  split
  · split
    · exact h
    · next hv =>
      simp at hv
      exact { h with capLow := hv.1.2, capHigh := hv.2 }
  split
  · exact bootOk_writeReset h _
  split
  · exact (startKept_writeTmark ..).bootOk h
  · exact h

theorem bootOk_writeBar0 (h : s.bootOk) (house : Bool) (o : Nat) (b : List Byte) : (s.writeBar0 house o b).bootOk := by
  unfold State.writeBar0
  split
  · exact bootOk_writePkg h ..
  split
  · refine StartKept.bootOk (s := s) ?_ h
    (repeat' split) <;> simp
  · exact (startKept_writeHif ..).bootOk h

theorem bootOk_writeBlockAt (h : s.bootOk) (w : Win) (o : Nat) (b : List Byte) : (s.writeBlockAt w o b).bootOk := by
  cases w with
  | bar0 => exact bootOk_writeBar0 h ..
  | house => exact bootOk_writeBar0 h ..
  | queue v => exact (startKept_writeFn ..).bootOk h

theorem bootOk_winWrite (h : s.bootOk) (w : Win) (fuel o : Nat) (bs : List Byte) : (State.winWrite w fuel o bs s).bootOk := by
  induction fuel generalizing s o bs with
  | zero => exact h
  | succ fuel ih =>
    unfold State.winWrite
    split
    · exact h
    · exact ih (bootOk_writeBlockAt h ..) ..

theorem bootOk_busWrite (h : s.bootOk) (t : Target) (bs : List Byte) : (s.busWrite t bs).bootOk := by
  unfold State.busWrite
  split
  · exact bootOk_winWrite h ..
  · exact (startKept_hostWrite ..).bootOk h
  · exact h

end
end Sys2Proof.Proofs
end

section
/-! The ranges of chapter 01 under what may write a register window from a core, and under the host commands that write flash. -/
namespace Sys2Proof.Proofs
open Sys2Proof Sys2Proof.Machine Sys2Proof.Laws

section
variable {s : State}

/-! The rows of the copy and cipher engines: a row that writes a device window writes registers. -/

theorem bootOk_rowWrite (h : s.bootOk) (c stamp : Nat) (pss : List (List Piece)) (data : List (List Byte)) :
    (rowWrite s c stamp pss data).bootOk := by
  refine List.foldlRecOn _ _ h fun t ht p _ => ?_
  refine List.foldlRecOn _ _ ht fun u hu q _ => ?_
  dsimp only
  split
  · exact StartKept.bootOk (by simp) hu
  · exact StartKept.bootOk (by simp) hu
  · exact bootOk_busWrite hu ..

theorem rowAll_bootOk {α : Type} {out : α → State} {r : RowM α} (hr : RowAll (StartKept s) out r) (h : s.bootOk) :
    RowAll State.bootOk out r :=
  hr.mono fun _ k => k.bootOk h

theorem rowAll_copyRow (h : s.bootOk) (w : Who) (c : Nat) (o : CopyOp) (r : Run) : RowAll State.bootOk (·.2) (copyRow s w c o r) := by
  unfold copyRow
  split
  · exact h
  extract_lets mw k n ranges first stamp
  have hf : RowAll State.bootOk (fun _ => s) first := by
    unfold first
    split
    · exact h
    split
    · next e => exact (rowAll_bootOk (rowAll_rowPieces ..) h).stop e
    · exact h
  clear_value first
  split
  · exact hf.stop rfl
  split
  · next e =>
    unfold rowDestPieces at e
    split at e
    · next e' => cases e; exact (rowAll_bootOk (rowAll_rowPieces ..) h).stop e'
    split at e <;> cases e
    exact h
  split
  · next e => exact (rowAll_bootOk (rowAll_rowOutput ..) h).stop e
  next u e =>
  have hu : u.bootOk := (rowAll_bootOk (rowAll_rowOutput ..) h).ok e
  extract_lets v x
  have hv : v.bootOk := bootOk_rowWrite hu ..
  show x.bootOk
  unfold x
  split
  · split
    · exact (startKept_moveForms ..).bootOk hv
    · exact hv
  · exact hv

theorem bootOk_copyWork (h : s.bootOk) (c : Nat) (o : CopyOp) : (s.copyWork c o).bootOk := by
  unfold State.copyWork
  extract_lets w stop
  have hs {α : Type} {out : α → State} {r : RowM α} (hr : RowAll State.bootOk out r) {e : RowStop} (he : r = .error e) (o : CopyOp) :
      (stop o e).bootOk := by
    subst he
    cases e with
    | wait t => exact StartKept.bootOk (s := t) (by simp [stop]) hr
    | fault cause detail tva t => exact StartKept.bootOk (s := t) (by simp [stop]) hr
  clear_value stop
  split
  · next e => exact hs (rowAll_bootOk (rowAll_copySlot ..) h) e _
  next t e =>
  have ht : t.bootOk := (rowAll_bootOk (rowAll_copySlot ..) h).ok e
  split
  · next e => exact hs (rowAll_bootOk (rowAll_copyTable ..) ht) e _
  next u e =>
  have hu : u.bootOk := (rowAll_bootOk (rowAll_copyTable ..) ht).ok e
  dsimp only
  split
  · exact (startKept_copyOver ..).bootOk hu
  split
  · next e => exact hs (rowAll_copyRow hu ..) e _
  next v e =>
  have hv : v.bootOk := (rowAll_copyRow hu ..).ok e
  split
  · exact (startKept_copyOver ..).bootOk hv
  · exact StartKept.bootOk (by simp) hv

theorem bootOk_streamWork (h : s.bootOk) (c : Nat) (o : StreamOp) : (s.streamWork c o).bootOk := by
  have hput (t : State) (o : StreamOp) (ht : t.bootOk) :
      (t.modCore c fun k => { k with ctx := k.ctx.setStream { o with running := true } }).bootOk :=
    StartKept.bootOk (by simp) ht
  unfold State.streamWork
  extract_lets w x d size put claimed
  split
  · exact h
  split
  · exact (startKept_streamOver ..).bootOk h
  have hc {o' : StreamOp} {t : State} (e : claimed = some (o', t)) : t.bootOk := by
    unfold claimed at e
    split at e
    · cases e; exact h
    split at e <;> cases e
    exact StartKept.bootOk (by simp) h
  clear_value claimed
  split
  · exact hput _ _ h
  next o' t =>
  have ht : t.bootOk := hc rfl
  extract_lets i q src dst last fill done
  have hd : RowAll State.bootOk id done := by
    unfold done
    split
    · next e => exact (rowAll_bootOk (rowAll_rowPieces ..) ht).stop e
    split
    · next e => exact (rowAll_bootOk (rowAll_rowPieces ..) ht).stop e
    split
    · next e => exact (rowAll_bootOk (rowAll_rowRead ..) ht).stop e
    · next e => exact bootOk_rowWrite ((rowAll_bootOk (rowAll_rowRead ..) ht).ok e) ..
  clear_value done
  split
  · exact hput _ _ hd
  · exact (startKept_streamStop ..).bootOk (hput _ _ hd)
  · exact hput _ _ hd

theorem rowAll_cipherChecks (s : State) (key cva : Nat) (write : Bool) (cs ps : List Piece) :
    RowAll (StartKept s) (fun _ => s) (cipherChecks s key cva write cs ps) := by
  unfold cipherChecks
  (repeat' split) <;> exact ⟨rfl, rfl⟩

theorem rowAll_cipherBlock (h : s.bootOk) (w : Who) (c : Nat) (o : CipherOp) : RowAll State.bootOk id (cipherBlock s w c o) := by
  unfold cipherBlock
  extract_lets enc cva pva i
  clear_value enc cva pva i
  split
  · next e => exact (rowAll_bootOk (rowAll_rowPieces ..) h).stop e
  split
  · next e => exact (rowAll_bootOk (rowAll_rowPieces ..) h).stop e
  split
  · next e => exact (rowAll_bootOk (rowAll_cipherChecks ..) h).stop e
  split
  · split
    · next e => exact (rowAll_bootOk (rowAll_rowRead ..) h).stop e
    · next e => exact (startKept_putCipher ..).bootOk (bootOk_rowWrite ((rowAll_bootOk (rowAll_rowRead ..) h).ok e) ..)
  split
  · exact h
  extract_lets icv
  split
  · next e => exact (rowAll_bootOk (rowAll_rowRead ..) h).stop e
  next e =>
  have ht := (rowAll_bootOk (rowAll_rowRead ..) h).ok e
  extract_lets line
  generalize lineIcv _ _ line = found
  split
  · exact ht
  · exact bootOk_rowWrite ht ..

theorem rowAll_shaRow (h : s.bootOk) (w : Who) (c : Nat) (o : CipherOp) : RowAll State.bootOk (·.2) (shaRow s w c o) := by
  unfold shaRow
  extract_lets n last begin
  have hb : RowAll State.bootOk (·.2) begin := by
    unfold begin
    split
    · exact h
    split
    · exact h
    split
    · next e => exact (rowAll_bootOk (rowAll_rowRead ..) h).stop e
    · next e => exact (rowAll_bootOk (rowAll_rowRead ..) h).ok e
  clear_value begin n last
  split
  · next e =>
    split at e
    · exact (rowAll_bootOk (rowAll_rowPieces ..) h).stop e
    · cases e
  split
  · exact hb.stop rfl
  next t =>
  have ht : t.bootOk := hb
  split
  · next e => exact (rowAll_bootOk (rowAll_rowRead ..) ht).stop e
  next e =>
  have hu := (rowAll_bootOk (rowAll_rowRead ..) ht).ok e
  extract_lets h'
  cases last with
  | true => exact bootOk_rowWrite hu ..
  | false => exact hu

theorem bootOk_cipherWork (h : s.bootOk) (c : Nat) (o : CipherOp) : (s.cipherWork c o).bootOk := by
  unfold State.cipherWork
  extract_lets w stop step_
  have hs {α : Type} {out : α → State} {r : RowM α} (hr : RowAll State.bootOk out r) {e : RowStop} (he : r = .error e) (o : CipherOp) :
      (stop o e).bootOk := by
    subst he
    cases e with
    | wait t => exact StartKept.bootOk (s := t) (by simp [stop]) hr
    | fault cause detail tva t => exact StartKept.bootOk (s := t) (by simp [stop]) hr
  have hn (o : CipherOp) {t : State} (ht : t.bootOk) : (step_ o t).bootOk := by
    refine StartKept.bootOk (s := t) ?_ ht
    unfold step_
    dsimp only
    split <;> simp
  clear_value stop step_
  split
  · refine StartKept.bootOk (s := s) ?_ h
    (repeat' split) <;> simp
  split
  · next e => exact hs (rowAll_bootOk (rowAll_cipherSlot ..) h) e _
  next e =>
  have ht := (rowAll_bootOk (rowAll_cipherSlot ..) h).ok e
  split
  · exact (startKept_cipherOver ..).bootOk ht
  split
  · split
    · next e => exact hs (rowAll_shaRow ht ..) e _
    · next e => exact hn _ ((rowAll_shaRow ht ..).ok e)
  have hr {o : CipherOp} {t : State} (ht : t.bootOk) : 
      RowAll State.bootOk id (if (o.op == 4) = true then kbindRow t w c o else cipherBlock t w c o) := by
    split
    · exact rowAll_bootOk (rowAll_kbindRow ..) ht
    · exact rowAll_cipherBlock ht ..
  split
  · next e => exact hs (hr ht) e _
  · next e => exact hn _ ((hr ht).ok e)

/-! Requests performed at their place. -/

theorem bootOk_performWindow (h : s.bootOk) (r : Req) (i : Nat) (p : Machine.Part) (t : Target) : (performWindow s r i p t).bootOk := by
  unfold performWindow
  split
  · exact StartKept.bootOk (by simp) h
  · exact StartKept.bootOk (by simp) h
  · exact (startKept_settleReq ..).bootOk (bootOk_busWrite h ..)

theorem bootOk_performPart (h : s.bootOk) (r : Req) (i : Nat) (p : Machine.Part) : (performPart s r i p).bootOk := by
  unfold performPart
  split
  · exact (startKept_performHeld ..).bootOk h
  split
  · exact bootOk_performWindow h ..
  · exact bootOk_performWindow h ..
  · refine StartKept.bootOk (s := s) ?_ h
    split <;> simp

theorem bootOk_homeSliceAccept (h : s.bootOk) {t : State} (e : execHomeSliceAccept s = .next t) : t.bootOk := by
  cases e
  split
  · exact h
  split
  · split
    · exact h
    · exact StartKept.bootOk (by simp) h
  split
  · split
    · next r _ _ _ _ p _ _ => exact StartKept.bootOk (by simp) (bootOk_performPart h r s.ev.b p)
    · exact h
  · exact h

theorem bootOk_execCopyRow (h : s.bootOk) {t : State} (e : execCopyRow s = .next t) : t.bootOk := by
  cases e
  split
  · split
    · split
      · exact bootOk_streamWork h ..
      · exact h
    · exact h
  split
  · split
    · exact h
    split
    · exact StartKept.bootOk (by simp) h
    split
    · exact (startKept_skidWork ..).bootOk h
    · exact bootOk_copyWork h ..
  · exact h

theorem bootOk_execCipherBlock (h : s.bootOk) {t : State} (e : execCipherBlock s = .next t) : t.bootOk := by
  cases e
  split
  · split
    · exact bootOk_cipherWork h ..
    · exact h
  · exact h

/-! Host commands. -/

theorem bootOk_runCmd (h : s.bootOk) {m : Nat} {want bad : List Byte → Bool} {body : State → Mq → Cmd → State}
    (hk : ∀ t x c, t.bootOk → (body t x c).bootOk) {t : State} (e : runCmd m want bad body s = .next t) : t.bootOk := by
  obtain ⟨t', e', h'⟩ := runCmd_cases m want bad body s
  cases e.symm.trans e'
  rcases h' with k | ⟨u, x, c, hu, ht⟩
  · exact k.bootOk h
  · exact ht.bootOk (hk u x c (hu.bootOk h))

theorem bootOk_fwStage (h : s.bootOk) {t : State} (e : execFwStage s = .next t) : t.bootOk := by
  refine bootOk_runCmd h (fun u x c hu => ?_) e
  split
  · exact (startKept_complete ..).bootOk hu
  split
  · exact (startKept_complete ..).bootOk hu
  · exact (startKept_complete ..).bootOk { hu with }

theorem bootOk_fwActivateNextStart (h : s.bootOk) {t : State} (e : execFwActivateNextStart s = .next t) : t.bootOk := by
  refine bootOk_runCmd h (fun u x c hu => ?_) e
  split
  · exact (startKept_complete ..).bootOk hu
  · exact (startKept_complete ..).bootOk { hu with }

theorem bootOk_fwNewImageStart (h : s.bootOk) {t : State} (e : execFwNewImageStart s = .next t) : t.bootOk := by
  cases e
  split
  · exact h
  · exact (startKept_resumeFw ..).bootOk ((startKept_measure ..).bootOk { h with })

theorem bootOk_recover (h : s.bootOk) {t : State} (e : execRecover s = .next t) : t.bootOk := by
  refine bootOk_runCmd h (fun u x c hu => ?_) e
  split
  · exact (startKept_complete ..).bootOk hu
  split
  · exact (startKept_complete ..).bootOk hu
  · exact (startKept_complete ..).bootOk (bootOk_writeBlock hu (Nat.zero_le 3))

theorem bootOk_opkeyEnrol (h : s.bootOk) {t : State} (e : execOpkeyEnrol s = .next t) : t.bootOk := by
  refine bootOk_runCmd h (fun u x c hu => ?_) e
  split
  · exact (startKept_complete ..).bootOk hu
  split
  · exact (startKept_complete ..).bootOk hu
  · exact (startKept_complete ..).bootOk (bootOk_writeBlock hu hu.fails)

end
end Sys2Proof.Proofs
end

section
/-! The ranges of chapter 01 under every instruction. -/
namespace Sys2Proof.Proofs
open Sys2Proof Sys2Proof.Machine Sys2Proof.Laws

section
variable {s : State}

/-! Proem words: a store to the house window writes registers. -/

theorem bootOk_proemWrite (h : s.bootOk) (t a : Nat) (bs : List Byte) : (s.proemWrite t a bs).bootOk := by
  unfold State.proemWrite
  split
  · exact { h with }
  · exact { h with }
  · exact StartKept.bootOk (by simp) h
  · exact StartKept.bootOk (by simp) h
  · exact bootOk_busWrite h ..
  · exact h

theorem bootOk_rvLoad (h : s.bootOk) {k : State → Nat → State} (hk : ∀ s v, StartKept s (k s v)) (t a n : Nat) : (rvLoad t a n s k).bootOk :=
  (startKept_rvLoad s hk t a n).bootOk h

theorem bootOk_rvStoreOk (h : s.bootOk) {k : State} (hk : k.bootOk) (t a n : Nat) : (rvStoreOk t a n s k).bootOk := by
  unfold rvStoreOk
  split
  · exact (startKept_proemTrap ..).bootOk h
  split
  · exact (startKept_proemTrap ..).bootOk h
  · exact hk

theorem bootOk_rvAtomic (h : s.bootOk) {illegal : State} (hi : illegal.bootOk) (t w : Nat) (next : Word) :
    (rvAtomic t w next illegal s).bootOk := by
  unfold rvAtomic
  extract_lets p f5 n a v g out done m new
  have hd {u : State} (hu : u.bootOk) (r : Word) : (done u r).bootOk := StartKept.bootOk (by simp [done]) hu
  clear_value done new
  split
  · exact hi
  split
  · exact (startKept_proemTrap ..).bootOk h
  split
  · split
    · exact hi
    · exact bootOk_rvLoad h (by simp) ..
  split
  · refine bootOk_rvStoreOk h ?_ ..
    split
    · exact hd (bootOk_proemWrite h ..) _
    · exact hd h _
  split
  · exact hi
  · exact bootOk_rvStoreOk h ((startKept_rvRetire ..).bootOk (bootOk_proemWrite h ..)) ..

theorem bootOk_rvExec (h : s.bootOk) (t w len raw : Nat) : (rvExec t w len raw s).bootOk := by
  unfold rvExec
  extract_lets p rd f3 a b next illegal give
  have hi : illegal.bootOk := (startKept_proemTrap ..).bootOk h
  have hr (d : Nat) (v next : Word) : (s.rvRetire t d v next).bootOk := (startKept_rvRetire ..).bootOk h
  have hg (r : Option Word) : (give r).bootOk := by
    unfold give
    split
    · exact hr ..
    · exact hi
  have hs : StartKept s illegal := startKept_proemTrap ..
  clear_value illegal give
  split
  · exact hr ..
  · exact hr ..
  · exact hr ..
  · split
    · exact hr ..
    · exact hi
  · split
    · exact hr ..
    · exact hi
  · split
    · exact hi
    · exact bootOk_rvLoad h (by simp) ..
  · split
    · exact hi
    · exact bootOk_rvStoreOk h (bootOk_proemWrite (hr ..) ..) ..
  · exact hg _
  · exact hg _
  · exact hg _
  · exact hg _
  · split
    · exact hr ..
    · exact hi
  · exact bootOk_rvAtomic h hi ..
  · exact (startKept_rvSystem s hs t w next).bootOk h
  · exact hi

/-! Every instruction. -/

theorem bootOk_ite {c : Prop} [Decidable c] {a b : State} (ha : a.bootOk) (hb : b.bootOk) : (if c then a else b).bootOk := by
  split
  · exact ha
  · exact hb

theorem bootOk_resetNRelease (h : s.bootOk) {t : State} (e : execResetNRelease s = .next t) : t.bootOk := by
  cases e
  split
  · exact { h with stage := show 1 ≤ 8 by decide, mode := Nat.zero_le 2, ready := nofun, early := Nat.zero_le 3 }
  · exact h

theorem bootOk_stagePower (h : s.bootOk) {t : State} (e : execStagePower s = .next t) : t.bootOk := by
  cases e
  split
  · next hn =>
    have hm : s.pkg.mode = 0 := by
      simp [State.inStage] at hn
      exact hn.1.2
    exact { h with stage := show 2 ≤ 8 by decide, ready := fun h1 => absurd (hm.symm.trans h1) (by decide) }
  · exact h

/-- The refresh rates are no part of what chapter 01 bounds. -/
theorem bootOk_refreshNow (h : s.bootOk) (r : Pkg → BitVec 12) : (s.modPkg fun p => { p with refreshNow := r p }).bootOk :=
  ⟨h.stage, h.mode, h.ready, h.early, h.fails, h.power, h.thermal, h.capLow, h.capHigh⟩

theorem bootOk_hbmRefreshBoundary (h : s.bootOk) {t : State} (e : execHbmRefreshBoundary s = .next t) : t.bootOk := by
  cases e
  exact bootOk_ite h (bootOk_refreshNow h _)

/-- An answered next state keeps the ranges of chapter 01. -/
structure AnswersBootOk (r : Res) : Prop where
  keeps : ∀ t, r = .next t → t.bootOk

theorem answersBootOk_next {t : State} (h : t.bootOk) : AnswersBootOk (.next t) := ⟨fun _ e => by cases e; exact h⟩

theorem answersBootOk_fault (f : Fault) : AnswersBootOk (.fault f) := ⟨fun _ e => by cases e⟩

theorem answersBootOk_exec (h : s.bootOk) (i : Instr) : AnswersBootOk (exec i s) := by
  by_cases hi : movesStart i = false
  · exact ⟨fun t e => ((answersKept_exec i s hi).keeps t e).bootOk h⟩
  refine ⟨fun t e => ?_⟩
  cases i with
  | resetNRelease => exact bootOk_resetNRelease h e
  | powerLoss => cases e; exact bootOk_fresh h.fails
  | stagePower => exact bootOk_stagePower h e
  | stageRom => exact bootOk_stageRom h e
  | stageFw => exact bootOk_stageFw h e
  | stageCfg => exact bootOk_stageCfg h e
  | stageClocks => exact bootOk_stageClocks h e
  | stageHbm => exact bootOk_stageHbm h e
  | stageScrub => exact bootOk_stageScrub h e
  | stageTimeout => cases e; exact bootOk_ite (bootOk_timeOut h) h
  | startWatchdog => cases e; exact bootOk_ite (bootOk_failStart h _) h
  | warmReset => cases e; exact bootOk_askReset h
  | pkgResetWrite => cases e; exact bootOk_writeReset h _
  | powerEstimate => exact bootOk_powerEstimate h e
  | sweepEnd => exact bootOk_sweepEnd h e
  | hbmRefreshBoundary => exact bootOk_hbmRefreshBoundary h e
  | registerWrite => cases e; exact bootOk_ite (bootOk_winWrite h ..) h
  | copyRow => exact bootOk_execCopyRow h e
  | cipherBlock => exact bootOk_execCipherBlock h e
  | homeSliceAccept => exact bootOk_homeSliceAccept h e
  | fwStage => exact bootOk_fwStage h e
  | fwActivateNextStart => exact bootOk_fwActivateNextStart h e
  | fwNewImageStart => exact bootOk_fwNewImageStart h e
  | recover => exact bootOk_recover h e
  | opkeyEnrol => exact bootOk_opkeyEnrol h e
  | _ => exact absurd rfl hi

end
end Sys2Proof.Proofs
end

section
/-! The ranges of chapter 01 under a step (O57). -/
namespace Sys2Proof.Proofs
open Sys2Proof Sys2Proof.Machine Sys2Proof.Laws

/-! The step, with any meanings `ex` whose answers keep the ranges. -/

/-- The meanings keep the ranges of chapter 01. -/
def KeepsBootOk (ex : Exec) : Prop := ∀ i (s : State), s.bootOk → AnswersBootOk (ex i s)

section
variable {ex : Exec} {s : State}

theorem bootOk_tryEvents (hx : KeepsBootOk ex) (h : s.bootOk) {es : List (Instr × EventArgs)} {t : State} (e : tryEvents ex es s = some t) :
    t.bootOk := by
  induction es with
  | nil => cases e
  | cons x es ih =>
    unfold tryEvents at e
    dsimp only at e
    split at e
    · next u hu =>
      have ho : u.bootOk := (hx x.1 { s with ev := x.2 } h).keeps u hu
      split at e
      · exact ih e
      · cases e; exact ho
    · exact ih e

theorem answersBootOk_idle (hx : KeepsBootOk ex) (h : s.bootOk) : AnswersBootOk (idle ex s) := by
  refine answersBootOk_next ?_
  split
  · next e => exact bootOk_tryEvents hx h e
  · exact h

theorem answersBootOk_runSlots (hx : KeepsBootOk ex) (h : s.bootOk) (ps : List SlotBits) : AnswersBootOk (runSlots ex ps s) := by
  induction ps generalizing s with
  | nil => exact answersBootOk_next h
  | cons p ps ih =>
    unfold runSlots
    extract_lets u out
    have hu : u.bootOk := (startKept_modTh ..).bootOk h
    have ho : AnswersBootOk out := by
      unfold out
      split
      · exact ⟨fun t e => ((answersKept_trap ..).keeps t e).bootOk hu⟩
      · exact hx _ _ hu
    clear_value out
    split
    · next t =>
      have ht : t.bootOk := ho.keeps t rfl
      split
      · exact answersBootOk_next ht
      · exact ih ((startKept_modTh ..).bootOk ht)
    · exact ho

theorem answersBootOk_stallHere (hx : KeepsBootOk ex) (h : s.bootOk) : AnswersBootOk (stallHere ex s) :=
  answersBootOk_idle hx ((startKept_stallMove ..).bootOk h)

theorem answersBootOk_issueBundle (hx : KeepsBootOk ex) (h : s.bootOk) (hd : Header) (ps : List SlotBits) (fall : Nat) :
    AnswersBootOk (issueBundle ex hd ps fall s) := by
  unfold issueBundle
  extract_lets live t
  have ht : t.bootOk := (startKept_modTh ..).bootOk h
  have hm : t.markFirst.bootOk := (startKept_markFirst ..).bootOk ht
  split
  · exact answersBootOk_next (StartKept.bootOk (by simp) ht)
  split
  · exact answersBootOk_stallHere hx h
  split
  · exact hx _ _ hm
  have hr := answersBootOk_runSlots hx hm live
  split
  · next u e =>
    have hu : u.bootOk := hr.keeps u e
    split
    · exact answersBootOk_idle hx ((startKept_stalledAt ..).bootOk h)
    split
    · exact answersBootOk_next ((startKept_splitAt ..).bootOk hu)
    · exact answersBootOk_next (StartKept.bootOk (by simp) hu)
  · exact hr

theorem answersBootOk_fetchIssue (hx : KeepsBootOk ex) (h : s.bootOk) : AnswersBootOk (fetchIssue ex s) := by
  unfold fetchIssue
  extract_lets k pc off hd ps
  clear_value k pc off hd ps
  split
  · exact answersBootOk_next ((startKept_modTh ..).bootOk h)
  split
  · exact answersBootOk_next ((startKept_fetchTrap ..).bootOk h)
  · exact answersBootOk_stallHere hx h
  split
  · split
    · exact answersBootOk_next ((startKept_modTh ..).bootOk h)
    · exact answersBootOk_stallHere hx h
  split
  · exact hx _ _ h
  split
  · exact answersBootOk_next ((startKept_fetchTrap ..).bootOk h)
  · exact answersBootOk_stallHere hx h
  split
  · exact answersBootOk_next ((startKept_trapEarly ..).bootOk h)
  split
  · exact answersBootOk_issueBundle hx h ..
  · exact answersBootOk_stallHere hx h

theorem answersBootOk_waitDrain (hx : KeepsBootOk ex) (h : s.bootOk) : AnswersBootOk (waitDrain ex s) := by
  unfold waitDrain
  split
  · exact answersBootOk_idle hx (bootOk_ite (StartKept.bootOk (by simp) h) h)
  · exact hx _ _ h

theorem answersBootOk_drainStep (hx : KeepsBootOk ex) (h : s.bootOk) (d : Drain) : AnswersBootOk (drainStep ex d s) := by
  have hd : s.drained.bootOk := (startKept_drained s).bootOk h
  have hw := answersBootOk_waitDrain hx h
  unfold drainStep
  extract_lets k th open_ w
  clear_value k th open_ w
  split
  · exact answersBootOk_fetchIssue hx h
  · split
    · exact hw
    · exact answersBootOk_next hd
  · split
    · exact hw
    · exact answersBootOk_next hd
  · split
    · exact hw
    · exact answersBootOk_next ((startKept_leave ..).bootOk h)
  · split
    · exact hw
    · exact answersBootOk_idle hx h
  · split
    · exact hw
    split
    · exact answersBootOk_next hd
    split
    · exact answersBootOk_next (StartKept.bootOk (by simp) hd)
    · exact answersBootOk_idle hx h

theorem answersBootOk_coreMove (hx : KeepsBootOk ex) (h : s.bootOk) : AnswersBootOk (coreMove ex s) := by
  unfold coreMove
  extract_lets t k
  have ht : t.bootOk := bootOk_ite h ((startKept_takeSeqWrite ..).bootOk h)
  clear_value t
  split
  · exact answersBootOk_idle hx ht
  split
  · exact answersBootOk_next ((startKept_takeLate ..).bootOk ht)
  · exact answersBootOk_drainStep hx ht _

theorem answersBootOk_proemMove (hx : KeepsBootOk ex) (h : s.bootOk) : AnswersBootOk (proemMove ex s) := by
  unfold proemMove
  extract_lets t p
  have ht (c : Nat) (v : Word) : (s.proemTrap t c v).bootOk := (startKept_proemTrap ..).bootOk h
  split
  · exact answersBootOk_idle hx h
  split
  · exact answersBootOk_next (ht ..)
  extract_lets c
  split
  · refine answersBootOk_next ?_
    split
    · exact bootOk_rvExec h ..
    · exact ht ..
  split
  · exact answersBootOk_next (ht ..)
  extract_lets w
  split
  · exact hx _ _ h
  · exact answersBootOk_next (bootOk_rvExec h ..)

theorem answersBootOk_agentMove (hx : KeepsBootOk ex) (h : s.bootOk) : AnswersBootOk (agentMove ex s) := by
  unfold agentMove
  split
  · exact answersBootOk_coreMove hx h
  split
  · exact answersBootOk_proemMove hx h
  · exact answersBootOk_fault _

theorem answersBootOk_tripTurn (hx : KeepsBootOk ex) (h : s.bootOk) : AnswersBootOk (tripTurn ex s) := by
  unfold tripTurn
  split
  · exact hx _ _ h
  · exact answersBootOk_next h
  · exact answersBootOk_next h

theorem answersBootOk_turn (hx : KeepsBootOk ex) (h : s.bootOk) : AnswersBootOk (turn ex s) := by
  unfold turn
  split
  · exact answersBootOk_tripTurn hx h
  split
  · split
    · exact hx _ _ h
    · exact answersBootOk_next h
  · exact answersBootOk_agentMove hx h
  · exact answersBootOk_agentMove hx h

theorem answersBootOk_machineStep (hx : KeepsBootOk ex) (h : s.bootOk) : AnswersBootOk (machineStep ex s) :=
  answersBootOk_turn hx ((startKept_tick s).bootOk h)

end

/-- Settles O57, as an invariant of every instruction: all but those of `movesStart` leave the package registers and the flash alone, and
those keep the ranges one by one. -/
theorem stepsKeepTheStartStateInRange : Obligations.StepsKeepTheStartStateInRange := fun _ t h e =>
  (answersBootOk_machineStep (fun i _ h => answersBootOk_exec h i) h).keeps t e

end Sys2Proof.Proofs
end

section
/-! The state of reset (O59). -/
namespace Sys2Proof.Proofs
open Sys2Proof Sys2Proof.Machine Sys2Proof.Laws

/-! The state of reset: its tables are empty, so what they list reads as the model's defaults. -/

theorem bootOk_reset : State.reset.bootOk := bootOk_fresh (s := State.reset) (Nat.zero_le 3)

theorem reset_core (c : Nat) : State.reset.core c = {} := rfl

/-- Registers that nothing has written read 0. -/
theorem reset_registers (c n : Nat) :
    (State.reset.core c).th.rS n = 0 ∧ (State.reset.core c).th.rV n = 0 ∧ (State.reset.core c).th.rZ n = 0 := by
  rw [reset_core]
  exact ⟨ite_self _, rfl, rfl⟩

/-- Settles O59, field by field. -/
theorem resetIsAsTheSpecSays : Obligations.ResetIsAsTheSpecSays :=
  ⟨bootOk_reset, rfl, rfl, rfl, rfl, rfl, rfl, fun _ => rfl, fun _ => ⟨rfl, rfl, rfl, rfl⟩, fun _ => rfl, rfl, rfl,
    fun _ => ⟨rfl, rfl⟩, fun _ => ⟨rfl, rfl⟩, reset_registers, fun _ => rfl, fun _ => rfl, rfl⟩

end Sys2Proof.Proofs
end

section
/-! The start: the stages with their failures, bounds and time-outs, warm resets and minimal mode (O39). -/
namespace Sys2Proof.Proofs
open Sys2Proof Sys2Proof.Machine Sys2Proof.Laws Sys2Proof.Stated

/-! The terms of the statement and those of the model. -/

theorem clocked_iff (s : State) : s.clocked = true ↔ clocksRun s := by simp [State.clocked, and_assoc]

theorem inStage_iff (s : State) (n : Nat) : s.inStage n = true ↔ starting n s := by
  simp [State.inStage, clocked_iff, and_assoc]

/-- The bound of the stage in progress, in milliseconds as the statement lists it and in nanoseconds as the model does. -/
theorem overBound_iff (s : State) : s.overBound = true ↔ pastBound s := by
  unfold State.overBound pastBound
  rw [decide_eq_true_iff]
  generalize s.pkg.stage = n
  constructor
  · rintro ⟨h2, h8, h⟩
    interval_cases n <;> exact ⟨_, by simp; rfl, h⟩
  · rintro ⟨b, hb, h⟩
    simp at hb
    rcases hb with ⟨rfl, rfl⟩ | ⟨rfl, rfl⟩ | ⟨rfl, rfl⟩ | ⟨rfl, rfl⟩ | ⟨rfl, rfl⟩ | ⟨rfl, rfl⟩ <;> exact ⟨by decide, by decide, h⟩

section
variable {s : State}

theorem endStage_inBound {n : Nat} (h : starting n s) (hb : ¬ pastBound s) (k : State → State) : s.endStage n k = k s := by
  have hi := (inStage_iff s n).2 h
  have ho := (overBound_iff s).not.2 hb
  simp [State.endStage, hi, ho]

theorem endStage_pastBound {n : Nat} (h : starting n s) (hb : pastBound s) (k : State → State) : s.endStage n k = s.timeOut := by
  have hi := (inStage_iff s n).2 h
  have ho := (overBound_iff s).2 hb
  simp [State.endStage, hi, ho]

/-- `t` differs from `s` in its ports and in what has gone out at most. -/
def WireOnly (s t : State) : Prop := ∃ sl out, t = { s with sl := sl, out := out }

theorem wireOnly_foldl {f : State → Nat → State} (hf : ∀ s n, WireOnly s (f s n)) (l : List Nat) (s : State) : WireOnly s (l.foldl f s) := by
  induction l generalizing s with
  | nil => exact ⟨_, _, rfl⟩
  | cons n l ih =>
    obtain ⟨_, _, e⟩ := hf s n
    obtain ⟨sl, out, e'⟩ := ih (f s n)
    exact ⟨sl, out, e'.trans (by rw [e])⟩

theorem wireOnly_lastWords (s : State) : WireOnly s s.lastWords := by
  unfold State.lastWords
  extract_lets p t
  obtain ⟨_, _, e⟩ : WireOnly s t := wireOnly_foldl (fun _ _ => ⟨_, _, rfl⟩) _ s
  exact ⟨_, _, by rw [e]⟩

theorem warm_warmReset (s : State) : warmReset s.pkg.early s s.warm := by
  obtain ⟨sl, out, e⟩ := wireOnly_lastWords s
  unfold State.warm
  rw [e]
  exact ⟨rfl, rfl, rfl, rfl, rfl, rfl, rfl, rfl⟩

theorem warm_flash (s : State) : s.warm.flash = s.flash := (startKept_lastWords s).2

theorem writeBlock_writesBlock (s : State) (g : Flash → Flash) : writesBlock (g s.flash) s (s.writeBlock g) := ⟨rfl, rfl⟩

theorem failStart_startFails (s : State) (c : Nat) : startFails c s (s.failStart c) := by
  refine ⟨warm_warmReset (s.writeBlock _), ?_⟩
  unfold writesBlock State.failStart
  rw [warm_flash]
  exact writeBlock_writesBlock s _

theorem get_upd {α : Type} [DecidableEq α] (m : SMap α) (k i : Nat) (d : α) (g : α → α) :
    SMap.get (SMap.upd m k d g) i d = if i = k then g (SMap.get m k d) else SMap.get m i d := by
  unfold SMap.upd
  split
  · next h => rw [h, get_set_same]
  · next h => exact get_set_other m _ d d h

/-- Halting the threads above core 0 halts each of them, and leaves a halted one halted. -/
theorem halted_foldl (l : List Nat) (m : SMap PThread) (k : Nat) (h : (∃ t ∈ l, k = 32 + t) ∨ (SMap.get m k {}).halted = true) :
    (SMap.get (l.foldl (fun m t => SMap.upd m (32 + t) {} fun p => { p with halted := true }) m) k {}).halted = true := by
  induction l generalizing m with
  | nil => simpa using h
  | cons t l ih =>
    refine ih _ ?_
    rw [get_upd]
    by_cases hk : k = 32 + t
    · exact .inr (by rw [if_pos hk])
    · simpa [hk] using h

theorem enterMinimal_minimalMode {u : State} (ht : u.time = s.time) (hf : u.flash = s.flash) (c : Nat) : minimalMode c s (u.enterMinimal c) := by
  obtain ⟨sl, out, e⟩ := wireOnly_lastWords u
  unfold State.enterMinimal
  rw [e]
  have hr (k : Nat) (hl : 32 ≤ k) (hh : k < 128) : k - 32 ∈ List.range 96 := List.mem_range.2 (by omega)
  generalize List.range 96 = l at hr ⊢
  exact ⟨rfl, rfl, rfl, ht, hf, fun k hl hh => halted_foldl l _ k (.inl ⟨k - 32, hr k hl hh, by omega⟩)⟩

theorem exists_endStage {n : Nat} (h : starting n s) (hb : ¬ pastBound s) {k : State → State} {P : State → Prop} (hk : P (k s)) :
    ∃ t, (Host.Outcome.next (s.endStage n k) : Res) = .next t ∧ P t :=
  ⟨_, rfl, by rw [endStage_inBound h hb]; exact hk⟩

/-! The stages. -/

/-- The firmware slot that this start reads: the one marked for the next start, else the active one. -/
abbrev startsFrom (s : State) : Nat := s.flash.next.getD s.flash.active

/-- What that slot holds. -/
abbrev startSlot (s : State) : FwSlot := SMap.get s.flash.slots (startsFrom s) {}

theorem stageRom_early (h : starting 2 s) (hb : ¬ pastBound s) (hr : s.pkg.romWrote = false) (he : 3 ≤ s.pkg.early) :
    ∃ t, exec .stageRom s = .next t ∧ minimalMode 0x0B s t := by
  refine exists_endStage h hb ?_
  rw [if_neg (by simp [hr]), if_pos he]
  exact enterMinimal_minimalMode rfl rfl _

theorem stageRom_noPuf (h : starting 2 s) (hb : ¬ pastBound s) (hr : s.pkg.romWrote = false) (he : s.pkg.early < 3) (hv : s.ev.flag = false) :
    ∃ t, exec .stageRom s = .next t ∧ startFails 0x04 s t := by
  refine exists_endStage h hb ?_
  rw [if_neg (by simp [hr]), if_neg (by omega), if_pos (by simp [hv])]
  exact failStart_startFails s _

theorem stageRom_unauthentic (h : starting 2 s) (hb : ¬ pastBound s) (hr : s.pkg.romWrote = false) (he : s.pkg.early < 3)
    (hv : s.ev.flag = true) (ha : s.ev.a = 0 ∨ ∃ m, s.flash.mac = some m ∧ m ≠ s.flash.blockMac) :
    ∃ t, exec .stageRom s = .next t ∧ minimalMode 0x09 s t := by
  have hd : (s.deriveSecrets.ev.a == 0 || !s.deriveSecrets.flash.authentic) = true := by
    show (s.ev.a == 0 || !s.flash.authentic) = true
    rcases ha with ha | ⟨m, hm, hne⟩
    · simp [ha]
    · simp [Flash.authentic, hm, hne]
  refine exists_endStage h hb ?_
  rw [if_neg (by simp [hr]), if_neg (by omega), if_neg (by simp [hv])]
  extract_lets u f v
  rw [if_pos hd]
  exact enterMinimal_minimalMode rfl rfl _

theorem authentic_of_mac (hm : ∀ m, s.flash.mac = some m → m = s.flash.blockMac) : s.flash.authentic = true := by
  unfold Flash.authentic
  split
  · next e => exact beq_iff_eq.2 (hm _ e)
  · rfl

theorem stageRom_tooManyFails (h : starting 2 s) (hb : ¬ pastBound s) (hr : s.pkg.romWrote = false) (he : s.pkg.early < 3)
    (hv : s.ev.flag = true) (ha : s.ev.a ≠ 0) (hm : ∀ m, s.flash.mac = some m → m = s.flash.blockMac) (hf : 3 ≤ s.flash.fails) :
    ∃ t, exec .stageRom s = .next t ∧ minimalMode (if s.flash.lastReason = 0 then 0x0A else s.flash.lastReason) s t := by
  have hd : ¬ (s.deriveSecrets.ev.a == 0 || !s.deriveSecrets.flash.authentic) = true := by
    show ¬ (s.ev.a == 0 || !s.flash.authentic) = true
    simp [ha, authentic_of_mac hm]
  obtain ⟨c, hc⟩ : ∃ c, (if s.flash.lastReason = 0 then 0x0A else s.flash.lastReason) = c := ⟨_, rfl⟩
  rw [hc]
  refine exists_endStage h hb ?_
  rw [if_neg (by simp [hr]), if_neg (by omega), if_neg (by simp [hv])]
  extract_lets u f v
  rw [if_neg hd, if_pos (show 3 ≤ f.fails from hf)]
  have hl : f.lastReason = s.flash.lastReason := rfl
  rw [hl, show (if (s.flash.lastReason == 0) = true then 0x0A else s.flash.lastReason) = c by simpa using hc]
  exact enterMinimal_minimalMode rfl rfl _

theorem stageRom_ends (h : starting 2 s) (hb : ¬ pastBound s) (hr : s.pkg.romWrote = false) (he : s.pkg.early < 3)
    (hv : s.ev.flag = true) (ha : s.ev.a ≠ 0) (hm : ∀ m, s.flash.mac = some m → m = s.flash.blockMac) (hf : s.flash.fails < 3) :
    ∃ t, exec .stageRom s = .next t ∧ entersStage 3 s t ∧ t.pkg.romWrote = true ∧ t.pkg.early = 0 ∧ t.prot.vault.puf = s.flash.puf ∧
      writesBlock { s.flash with fails := s.flash.fails + 1, lastReason := 0x0A } s t := by
  have hd : ¬ (s.deriveSecrets.ev.a == 0 || !s.deriveSecrets.flash.authentic) = true := by
    show ¬ (s.ev.a == 0 || !s.flash.authentic) = true
    simp [ha, authentic_of_mac hm]
  refine exists_endStage h hb ?_
  rw [if_neg (by simp [hr]), if_neg (by omega), if_neg (by simp [hv])]
  extract_lets u f v
  rw [if_neg hd, if_neg (show ¬ 3 ≤ f.fails from Nat.not_le.2 hf)]
  exact ⟨⟨rfl, rfl, rfl, rfl, rfl⟩, rfl, rfl, rfl, ⟨rfl, rfl⟩⟩

theorem stageFw_unsigned (h : starting 3 s) (hb : ¬ pastBound s)
    (hs : (startSlot s).valid = false ∨
      Config.firmwareSigned (startSlot s).image = false) :
    ∃ t, exec .stageFw s = .next t ∧ warmReset s.pkg.early s t ∧
      writesBlock { s.flash with active := startsFrom s, next := none, lastReason := 0x01 } s t := by
  refine exists_endStage h hb ?_
  extract_lets f u slot svn
  have hbad : (!slot.valid || !Config.firmwareSigned slot.image) = true := by
    show (!(startSlot s).valid || !Config.firmwareSigned (startSlot s).image) = true
    rcases hs with hs | hs <;> simp [hs]
  rw [if_pos hbad]
  exact failStart_startFails u 0x01

theorem stageFw_oldSvn (h : starting 3 s) (hb : ¬ pastBound s)
    (hv : (startSlot s).valid = true)
    (hs : Config.firmwareSigned (startSlot s).image = true)
    (hold : Config.firmwareSvn (startSlot s).image % 2 ^ 16 < s.flash.fwSvn) :
    ∃ t, exec .stageFw s = .next t ∧ warmReset s.pkg.early s t ∧
      writesBlock { s.flash with active := startsFrom s, next := none, lastReason := 0x02 } s t := by
  refine exists_endStage h hb ?_
  extract_lets f u slot svn
  have hok : ¬ (!slot.valid || !Config.firmwareSigned slot.image) = true := by
    show ¬ (!(startSlot s).valid || !Config.firmwareSigned (startSlot s).image) = true
    simp [hv, hs]
  rw [if_neg hok, if_pos (show svn < u.flash.fwSvn from hold)]
  exact failStart_startFails u 0x02

theorem stageFw_ends (h : starting 3 s) (hb : ¬ pastBound s)
    (hv : (startSlot s).valid = true)
    (hs : Config.firmwareSigned (startSlot s).image = true)
    (hnew : s.flash.fwSvn ≤ Config.firmwareSvn (startSlot s).image % 2 ^ 16) :
    ∃ t, exec .stageFw s = .next t ∧ entersStage 4 s t ∧
      t.pkg.svn = Config.firmwareSvn (startSlot s).image % 2 ^ 16 ∧
      t.flash = { s.flash with active := startsFrom s, next := none } ∧
      t.hif.fwRunning = startsFrom s := by
  refine exists_endStage h hb ?_
  extract_lets f u slot svn v
  have hok : ¬ (!slot.valid || !Config.firmwareSigned slot.image) = true := by
    show ¬ (!(startSlot s).valid || !Config.firmwareSigned (startSlot s).image) = true
    simp [hv, hs]
  rw [if_neg hok, if_neg (show ¬ svn < u.flash.fwSvn from Nat.not_lt.2 hnew)]
  exact ⟨⟨rfl, rfl, rfl, rfl, rfl⟩, rfl, rfl, rfl⟩

theorem stageCfg_badBlob (h : starting 4 s) (hb : ¬ pastBound s) (hk : s.blobOk s.flash.blob = false) :
    ∃ t, exec .stageCfg s = .next t ∧ startFails 0x03 s t := by
  refine exists_endStage h hb ?_
  rw [if_pos (by simp [hk])]
  exact failStart_startFails s _

theorem stageCfg_oldSvn (h : starting 4 s) (hb : ¬ pastBound s) (hk : s.blobOk s.flash.blob = true) (hold : leAt s.flash.blob 6 2 < s.flash.cfgSvn) :
    ∃ t, exec .stageCfg s = .next t ∧ startFails 0x02 s t := by
  refine exists_endStage h hb ?_
  rw [if_neg (by simp [hk]), if_pos hold]
  exact failStart_startFails s _

theorem stageCfg_ends (h : starting 4 s) (hb : ¬ pastBound s) (hk : s.blobOk s.flash.blob = true) (hnew : s.flash.cfgSvn ≤ leAt s.flash.blob 6 2) :
    ∃ t, exec .stageCfg s = .next t ∧ entersStage 5 s t ∧ t.pkg.pcap = leAt s.flash.blob 24 2 ∧ t.pkg.nVf = leAt s.flash.blob 26 2 ∧
      t.pkg.macBase = beAt s.flash.blob 16 6 := by
  refine exists_endStage h hb ?_
  rw [if_neg (by simp [hk]), if_neg (Nat.not_lt.2 hnew)]
  exact ⟨⟨rfl, rfl, rfl, rfl, rfl⟩, rfl, rfl, rfl⟩

theorem stageClocks_ends (h : starting 5 s) (hb : ¬ pastBound s) (hf : s.ev.flag = true) :
    ∃ t, exec .stageClocks s = .next t ∧ entersStage 6 s t := by
  refine exists_endStage h hb ?_
  rw [if_pos hf]
  exact ⟨rfl, rfl, rfl, rfl, rfl⟩

theorem stageClocks_fails (h : starting 5 s) (hb : ¬ pastBound s) (hf : s.ev.flag = false) :
    ∃ t, exec .stageClocks s = .next t ∧ startFails 0x05 s t := by
  refine exists_endStage h hb ?_
  rw [if_neg (by simp [hf])]
  exact failStart_startFails s _

theorem stageHbm_ends (h : starting 6 s) (hb : ¬ pastBound s) (hf : s.ev.flag = true) :
    ∃ t, exec .stageHbm s = .next t ∧ entersStage 7 s t := by
  refine exists_endStage h hb ?_
  rw [if_pos hf]
  exact ⟨rfl, rfl, rfl, rfl, rfl⟩

theorem stageHbm_fails (h : starting 6 s) (hb : ¬ pastBound s) (hf : s.ev.flag = false) :
    ∃ t, exec .stageHbm s = .next t ∧ startFails 0x06 s t := by
  refine exists_endStage h hb ?_
  rw [if_neg (by simp [hf])]
  exact failStart_startFails s _

theorem stageScrub_ends (h : starting 7 s) (hb : ¬ pastBound s) (hf : s.ev.flag = true) (hc : ∀ e, e ∈ s.prot.chip.failed → e.2 = []) :
    ∃ t, exec .stageScrub s = .next t ∧ t.pkg.stage = 8 ∧ t.pkg.mode = 1 ∧ t.flash.fails = 0 ∧
      t.flash.fwSvn = max s.flash.fwSvn s.pkg.newFwSvn ∧ t.mem.bytes = [] ∧ t.mem.zeroMark = { rest := true } ∧ t.mem.lines = [] := by
  refine exists_endStage h hb ?_
  rw [if_neg (by simpa [hf] using hc)]
  exact ⟨rfl, rfl, rfl, rfl, rfl, rfl, rfl⟩

theorem stageScrub_fails (h : starting 7 s) (hb : ¬ pastBound s) (hf : s.ev.flag = false) :
    ∃ t, exec .stageScrub s = .next t ∧ startFails 0x07 s t := by
  refine exists_endStage h hb ?_
  rw [if_pos (by simp [hf])]
  exact failStart_startFails s _

/-! Time-outs. -/

theorem starting_clocked {n : Nat} (h : starting n s) : s.clocked = true := (clocked_iff s).2 h.1

/-- A time-out of a stage past its bound, reported or found at the stage's end, is the same. -/
theorem stageTimeout_pastBound {n : Nat} (h : starting n s) (hb : pastBound s) : exec .stageTimeout s = .next s.timeOut := by
  have hm : s.pkg.mode = 0 := h.2.1
  show Host.Outcome.next _ = _
  rw [if_pos (by simp [starting_clocked h, hm, (overBound_iff s).2 hb])]

theorem timeOut_startFails {n : Nat} (h : starting n s) (hn : 3 ≤ n) : startFails (stageCode n) s s.timeOut := by
  have hs : s.pkg.stage = n := h.2.2
  unfold State.timeOut
  rw [if_neg (by simp; omega), if_neg (by simp; omega), hs]
  exact failStart_startFails s _

theorem stageTimeout_power (h : starting 1 s) : exec .stageTimeout s = .next { s with pkg := { s.pkg with stuckPower := true, alert := true } } := by
  have hm : s.pkg.mode = 0 := h.2.1
  have hs : s.pkg.stage = 1 := h.2.2
  show Host.Outcome.next _ = _
  rw [if_pos (by simp [starting_clocked h, hm, hs]), State.timeOut, if_pos (by simp [hs])]
  rfl

theorem stageTimeout_rom (h : starting 2 s) (hr : s.pkg.romWrote = false) (hb : pastBound s) :
    ∃ t, exec .stageTimeout s = .next t ∧ warmReset (min 3 (s.pkg.early + 1)) s t ∧ t.flash = s.flash := by
  have hs : s.pkg.stage = 2 := h.2.2
  refine ⟨_, stageTimeout_pastBound h hb, ?_⟩
  rw [State.timeOut, if_neg (by simp [hs]), if_pos (by simp [hs, hr])]
  exact ⟨warm_warmReset (s.modPkg fun p => { p with early := min 3 (p.early + 1) }), warm_flash _⟩

theorem stageTimeout_inBound {n : Nat} (h : starting n s) (hn : 2 ≤ n) (hb : ¬ pastBound s) : exec .stageTimeout s = .next s := by
  have hs : s.pkg.stage = n := h.2.2
  have ho : s.overBound = false := by simpa using (overBound_iff s).not.2 hb
  show Host.Outcome.next _ = _
  rw [if_neg (by simp [ho]; omega)]

theorem startWatchdog_fails {n : Nat} (h : starting n s) (hl : 2 ≤ n) (hh : n < 8) (ht : s.pkg.startAt + 2000000000 ≤ s.time.toNat) :
    ∃ t, exec .startWatchdog s = .next t ∧ startFails 0x08 s t := by
  have hm : s.pkg.mode = 0 := h.2.1
  have hs : s.pkg.stage = n := h.2.2
  refine ⟨s.failStart 0x08, ?_, failStart_startFails s _⟩
  show Host.Outcome.next _ = _
  rw [if_pos (by simp [starting_clocked h, hm, hs, hl, hh, ht])]

/-- A stage from 0x03 on that has passed its bound fails with its code, reported or at its end. -/
theorem stage_timesOut {n code : Nat} {i : Instr} (h : starting n s) (hb : pastBound s)
    (hi : (n, code, i) ∈ [(3, 0x0C, Instr.stageFw), (4, 0x0D, .stageCfg), (5, 0x05, .stageClocks), (6, 0x06, .stageHbm), (7, 0x07, .stageScrub)]) :
    (∃ t, exec .stageTimeout s = .next t ∧ startFails code s t) ∧ ∃ t, exec i s = .next t ∧ startFails code s t := by
  have he (k : State → State) : Host.Outcome.next (s.endStage n k) = (.next s.timeOut : Res) := by rw [endStage_pastBound h hb]
  have ht := stageTimeout_pastBound h hb
  have hf := timeOut_startFails h
  simp only [List.mem_cons, Prod.mk.injEq, List.not_mem_nil, or_false] at hi
  rcases hi with ⟨rfl, rfl, rfl⟩ | ⟨rfl, rfl, rfl⟩ | ⟨rfl, rfl, rfl⟩ | ⟨rfl, rfl, rfl⟩ | ⟨rfl, rfl, rfl⟩ <;>
    exact ⟨⟨_, ht, hf (by decide)⟩, ⟨_, he _, hf (by decide)⟩⟩

/-! Resets. -/

theorem resetNRelease_starts (h : s.pkg.held = true) :
    exec .resetNRelease s = .next { s with pkg := { s.pkg with held := false, stage := 1, mode := 0, early := 0 } } := by
  show Host.Outcome.next _ = _
  rw [if_pos h]
  rfl

theorem askReset_warm (h : clocksRun s) (hs : 2 ≤ s.pkg.stage) : s.askReset = s.warm :=
  if_pos (by simp [(clocked_iff s).2 h, hs])

theorem warmReset_resets (h : clocksRun s) (hs : 2 ≤ s.pkg.stage) :
    ∃ t, exec .warmReset s = .next t ∧ warmReset s.pkg.early s t ∧ t.flash = s.flash :=
  ⟨_, rfl, by rw [askReset_warm h hs]; exact ⟨warm_warmReset s, warm_flash s⟩⟩

theorem pkgResetWrite_resets (h : clocksRun s) (hs : 2 ≤ s.pkg.stage) (hk : s.ev.value.toNat % 2 ^ 16 = 0x5752) :
    ∃ t, exec .pkgResetWrite s = .next t ∧ warmReset s.pkg.early s t := by
  refine ⟨_, rfl, ?_⟩
  rw [State.writeReset, if_pos (by simpa [fld] using hk), askReset_warm h hs]
  exact warm_warmReset s

theorem pkgResetWrite_ignored (hk : s.ev.value.toNat % 2 ^ 16 ≠ 0x5752) : exec .pkgResetWrite s = .next s := by
  show Host.Outcome.next _ = _
  rw [State.writeReset, if_neg (by simpa [fld] using hk)]

theorem stagePower_ends (h : starting 1 s) :
    exec .stagePower s = .next { s with time := 0, pkg := { s.pkg with stage := 2, startAt := 0, stageAt := 0 } } := by
  show Host.Outcome.next _ = _
  rw [if_pos ((inStage_iff s 1).2 h)]
  rfl

end

/-- Settles O39: what each stage does within its bound, case by case of its branches, and what happens past the bound. -/
theorem startStagesAndResets : Obligations.StartStagesAndResets := fun _ =>
  ⟨resetNRelease_starts, ⟨_, rfl, rfl, rfl, rfl, rfl, rfl, rfl, rfl, rfl⟩, warmReset_resets, pkgResetWrite_resets, pkgResetWrite_ignored,
    stagePower_ends,
    fun h hb hr => ⟨stageRom_early h hb hr, stageRom_noPuf h hb hr, stageRom_unauthentic h hb hr, fun he hv ha hm =>
      ⟨stageRom_tooManyFails h hb hr he hv ha hm, stageRom_ends h hb hr he hv ha hm⟩⟩,
    fun h hb => ⟨stageFw_unsigned h hb, stageFw_oldSvn h hb, stageFw_ends h hb⟩,
    fun h hb => ⟨stageCfg_badBlob h hb, stageCfg_oldSvn h hb, stageCfg_ends h hb⟩,
    fun h hb => ⟨stageClocks_ends h hb, stageClocks_fails h hb⟩,
    fun h hb => ⟨stageHbm_ends h hb, stageHbm_fails h hb⟩,
    fun h hb => ⟨stageScrub_ends h hb, stageScrub_fails h hb⟩,
    fun _ h => ⟨fun hn => stageTimeout_power (hn ▸ h), fun hn hr hb => stageTimeout_rom (hn ▸ h) hr hb,
      fun _ _ hi hb => stage_timesOut h hb hi, stageTimeout_inBound h, startWatchdog_fails h⟩⟩

end Sys2Proof.Proofs
end

section
/-! Power estimates, sensor sweeps and refresh boundaries (O40). -/
namespace Sys2Proof.Proofs
open Sys2Proof Sys2Proof.Machine Sys2Proof.Laws Sys2Proof.Stated

section
variable {s : State}

/-! Power. -/

theorem clocked_started (h : clocksRun s) (hs : 2 ≤ s.pkg.stage) : ¬ (!s.clocked || decide (s.pkg.stage < 2)) = true := by
  simp [(clocked_iff s).2 h]; omega

/-- Within a millisecond of the level's last change the estimate is stored, and that is all. -/
theorem powerEstimate_soon (h : clocksRun s) (hs : 2 ≤ s.pkg.stage) (hw : s.time.toNat < s.pkg.powerLevelAt + 1000000) :
    exec .powerEstimate s = .next (s.modPkg fun p => { p with pwr := s.ev.a % 4096 }) := by
  show Host.Outcome.next _ = _
  rw [if_neg (clocked_started h hs)]
  extract_lets u l
  have hw' : u.time.toNat < u.pkg.powerLevelAt + 1000000 := hw
  rw [if_pos hw']

/-- Later the level moves by a step; `a` is the TIME of its last change, which stays where the level does. -/
theorem powerEstimate_late (h : clocksRun s) (hs : 2 ≤ s.pkg.stage) (hw : s.pkg.powerLevelAt + 1000000 ≤ s.time.toNat) :
    ∃ a, exec .powerEstimate s = .next (s.modPkg fun p => { p with
      pwr := s.ev.a % 4096, powerLevel := powerStep s.pkg.powerLevel (s.ev.a % 4096) s.pkg.pcap, powerLevelAt := a }) := by
  by_cases hl : powerStep s.pkg.powerLevel (s.ev.a % 4096) s.pkg.pcap = s.pkg.powerLevel
  · refine ⟨s.pkg.powerLevelAt, ?_⟩
    show Host.Outcome.next _ = _
    rw [if_neg (clocked_started h hs), hl]
    extract_lets u l
    have hw' : ¬ u.time.toNat < u.pkg.powerLevelAt + 1000000 := Nat.not_lt.2 hw
    rw [if_neg hw', if_pos (show (l == u.pkg.powerLevel) = true from beq_iff_eq.2 hl)]
    rfl
  · refine ⟨s.time.toNat, ?_⟩
    show Host.Outcome.next _ = _
    rw [if_neg (clocked_started h hs)]
    extract_lets u l
    have hw' : ¬ u.time.toNat < u.pkg.powerLevelAt + 1000000 := Nat.not_lt.2 hw
    rw [if_neg hw', if_neg (show ¬ (l == u.pkg.powerLevel) = true from beq_iff_eq.not.2 hl)]
    rfl

theorem powerEstimate_moves (h : clocksRun s) (hs : 2 ≤ s.pkg.stage) :
    ∃ t, exec .powerEstimate s = .next t ∧ t.pkg.pwr = s.ev.a % 4096 ∧ t.pkg.pcap = s.pkg.pcap ∧ t.cores = s.cores ∧
      (s.time.toNat < s.pkg.powerLevelAt + 1000000 → t.pkg.powerLevel = s.pkg.powerLevel) ∧
      (s.pkg.powerLevelAt + 1000000 ≤ s.time.toNat → t.pkg.powerLevel = powerStep s.pkg.powerLevel (s.ev.a % 4096) s.pkg.pcap) := by
  by_cases hw : s.time.toNat < s.pkg.powerLevelAt + 1000000
  · exact ⟨_, powerEstimate_soon h hs hw, rfl, rfl, rfl, fun _ => rfl, fun h' => absurd hw (Nat.not_lt.2 h')⟩
  · obtain ⟨a, e⟩ := powerEstimate_late h hs (Nat.not_lt.1 hw)
    exact ⟨_, e, rfl, rfl, rfl, fun h' => absurd h' hw, fun _ => rfl⟩

/-! The sweep. -/

/-- Thermal level `k` after a sweep, by the reading of its sensor. -/
def stepLevel (s : State) (m : SMap Nat) (k sensor : Nat) : SMap Nat := SMap.upd m k 0 fun l => thermalStep l (reading sensor s)

/-- What a sweep publishes, in the terms of the model. -/
structure Swept (s v : State) : Prop where
  cores : v.cores = s.cores
  sweep : v.pkg.sweep = s.pkg.sweep + 1
  temp : v.pkg.temp = s.ev.readings.zipIdx.map fun x => (x.2, { v := true, t := x.1 })
  thermal : v.pkg.thermal = stepLevel s (stepLevel s (stepLevel s (stepLevel s (stepLevel s s.pkg.thermal 0 600) 1 601) 2 602) 3 603) 4 616
  refreshWant : v.pkg.refreshWant = stackSet fun k => hold 1361 1328 (s.pkg.refreshWant.getLsbD k) (reading (604 + k) s)
  tarRfx : v.pkg.tarRfx = s.pkg.refreshNow
  tarLevel : v.pkg.tarLevel = (List.range 4).foldl (fun m d => SMap.set m d (max (SMap.get v.pkg.thermal d 0) s.pkg.powerLevel) 0) []
  tripped : v.pkg.tripped = (([600, 601, 602, 603, 616].any fun n => decide (1840 ≤ reading n s)) ||
    (List.range 12).any fun k => decide (1680 ≤ reading (604 + k) s))

theorem sweepEnd_swept (h : clocksRun s) (hs : 2 ≤ s.pkg.stage) (hr : s.ev.readings.length = 617) :
    ∃ v, exec .sweepEnd s = .next (State.markRotations v) ∧ Swept s v := by
  have hg : ¬ (!s.clocked || decide (s.pkg.stage < 2) || s.ev.readings.length != 617) = true := by
    simpa [hr] using clocked_started h hs
  show ∃ v, Host.Outcome.next _ = _ ∧ _
  rw [if_neg hg]
  extract_lets p level trip u v
  refine ⟨v, rfl, ?_⟩
  have hl : ∀ m k n, level m k n = stepLevel s m k n := fun _ _ _ => rfl
  have ht : trip = (([600, 601, 602, 603, 616].any fun n => decide (1840 ≤ reading n s)) ||
    (List.range 12).any fun k => decide (1680 ≤ reading (604 + k) s)) := rfl
  clear_value level trip
  refine ⟨rfl, rfl, rfl, ?thermal, ?want, rfl, rfl, ht⟩
  case thermal => exact (hl _ 4 616).trans (by rw [hl _ 3, hl _ 2, hl _ 1, hl _ 0])
  case want => rfl

theorem thermalStep_eq {level : Nat} (h : level ≤ 3) (t : Int) : thermalStep level t = levelAfter level t := by
  unfold thermalStep levelAfter
  interval_cases level <;> simp

/-- The bits of a set of stacks. -/
theorem testBit_leNatBits (l : List Bool) (k : Nat) : (stackSet.leNatBits l).testBit k = l.getD k false := by
  induction l generalizing k with
  | nil => simp [stackSet.leNatBits]
  | cons b r ih =>
    have h : stackSet.leNatBits (b :: r) = Nat.bit b (stackSet.leNatBits r) := by
      cases b <;> simp [stackSet.leNatBits, b2n, Nat.bit]; omega
    rw [h]
    cases k with
    | zero => simp
    | succ k => rw [Nat.testBit_bit_succ, ih]; rfl

theorem getLsbD_stackSet (f : Nat → Bool) {k : Nat} (hk : k < 12) : (stackSet f).getLsbD k = f k := by
  unfold stackSet
  rw [BitVec.getLsbD_ofNat, testBit_leNatBits]
  simp [hk]

theorem get_zipIdx_map {α β : Type} (f : α → β) (d : β) (x : α) (l : List α) {n j : Nat} (hj : j < l.length) :
    SMap.get ((l.zipIdx n).map fun y => (y.2, f y.1)) (n + j) d = f (l.getD j x) := by
  induction l generalizing n j with
  | nil => simp at hj
  | cons a l ih =>
    cases j with
    | zero => simp [SMap.get]
    | succ j =>
      have := ih (n := n + 1) (j := j) (by simpa using hj)
      rw [show n + (j + 1) = n + 1 + j by omega]
      simpa [SMap.get, show n + 1 + j ≠ n by omega] using this

/-- Marking rotations changes launches only. -/
@[simp] theorem markRotations_cores (v : State) : (State.markRotations v).cores = v.cores := by
  unfold State.markRotations
  generalize v.circ.launches = l
  induction l generalizing v with
  | nil => rfl
  | cons e l ih =>
    refine (ih _).trans ?_
    dsimp only
    (repeat' split) <;> simp

theorem get_stepLevel_same (m : SMap Nat) (k n : Nat) : SMap.get (stepLevel s m k n) k 0 = thermalStep (SMap.get m k 0) (reading n s) := by
  simp [stepLevel, get_upd]

theorem get_stepLevel_other {k d : Nat} (m : SMap Nat) (n : Nat) (h : d ≠ k) : SMap.get (stepLevel s m k n) d 0 = SMap.get m d 0 := by
  simp [stepLevel, get_upd, h]

section
variable {v : State} (w : Swept s v)
include w

theorem Swept.get_temp (hr : s.ev.readings.length = 617) {n : Nat} (hn : n < 617) :
    SMap.get v.pkg.temp n {} = { v := true, t := s.ev.readings.getD n 0 } := by
  have := get_zipIdx_map (fun x => ({ v := true, t := x } : TempEntry)) {} 0 s.ev.readings (n := 0) (hr ▸ hn)
  rw [Nat.zero_add] at this
  rw [w.temp, this]

theorem Swept.get_thermal_die {d : Nat} (hd : d < 4) (hl : SMap.get s.pkg.thermal d 0 ≤ 3) :
    SMap.get v.pkg.thermal d 0 = levelAfter (SMap.get s.pkg.thermal d 0) (reading (600 + d) s) := by
  rw [w.thermal, ← thermalStep_eq hl]
  interval_cases d <;> simp [get_stepLevel_same, get_stepLevel_other]

theorem Swept.get_thermal_base (hl : SMap.get s.pkg.thermal 4 0 ≤ 3) :
    SMap.get v.pkg.thermal 4 0 = levelAfter (SMap.get s.pkg.thermal 4 0) (reading 616 s) := by
  rw [w.thermal, ← thermalStep_eq hl]
  simp [get_stepLevel_same, get_stepLevel_other]

theorem Swept.refreshWant_bit {k : Nat} (hk : k < 12) : v.pkg.refreshWant.getLsbD k =
    if 1361 ≤ reading (604 + k) s then true else if reading (604 + k) s < 1328 then false else s.pkg.refreshWant.getLsbD k := by
  rw [w.refreshWant, getLsbD_stackSet _ hk]
  rfl

theorem Swept.get_tarLevel {d : Nat} (hd : d < 4) :
    SMap.get v.pkg.tarLevel d 0 = max (SMap.get v.pkg.thermal d 0) s.pkg.powerLevel := by
  rw [w.tarLevel, show List.range 4 = [0, 1, 2, 3] from rfl]
  simp only [List.foldl]
  interval_cases d <;> simp [get_set_other]

theorem Swept.tripped_iff : v.pkg.tripped = true ↔
    (∃ n, n ∈ [600, 601, 602, 603, 616] ∧ 1840 ≤ reading n s) ∨ ∃ k, k < 12 ∧ 1680 ≤ reading (604 + k) s := by
  rw [w.tripped, Bool.or_eq_true, List.any_eq_true, List.any_eq_true]
  simp only [decide_eq_true_eq, List.mem_range]

end

/-! The refresh boundary. -/

/-- The stack at a boundary takes its want; the others keep what they have. -/
def boundaryRefresh (s : State) : BitVec 12 :=
  stackSet fun k => if k == s.ev.a then s.pkg.refreshWant.getLsbD k else s.pkg.refreshNow.getLsbD k

theorem getLsbD_boundaryRefresh {k : Nat} (hk : k < 12) : (boundaryRefresh s).getLsbD k =
    if k = s.ev.a then s.pkg.refreshWant.getLsbD k else s.pkg.refreshNow.getLsbD k := by
  rw [boundaryRefresh, getLsbD_stackSet _ hk]
  simp only [beq_iff_eq]

theorem hbmRefreshBoundary_next (h : clocksRun s) :
    exec .hbmRefreshBoundary s = .next (s.modPkg fun p => { p with refreshNow := boundaryRefresh s }) := by
  have hc : ¬ (!s.clocked) = true := by simp [(clocked_iff s).2 h]
  show execHbmRefreshBoundary s = _
  unfold execHbmRefreshBoundary
  rw [if_neg hc]
  dsimp only [State.modPkg]
  rw [boundaryRefresh]

/-- Power and temperature as stated. -/
theorem powerAndTemperature_holds : PowerAndTemperature := by
  intro s h hs
  refine ⟨powerEstimate_moves h hs, fun hr => ?sweep, fun ha => ?refresh⟩
  case sweep =>
    obtain ⟨v, e, w⟩ := sweepEnd_swept h hs hr
    have hp : (State.markRotations v).pkg = v.pkg := (startKept_markRotations (s := v)).1
    refine ⟨_, e, ?_⟩
    rw [hp, markRotations_cores]
    exact ⟨w.sweep, w.cores, fun _ => w.get_temp hr, fun _ => w.get_thermal_die, w.get_thermal_base, fun _ => w.refreshWant_bit, w.tarRfx,
      fun _ => w.get_tarLevel, w.tripped_iff⟩
  case refresh =>
    refine ⟨_, hbmRefreshBoundary_next h, ?_, fun k hk hne => ?_, modPkg_cores .., modPkg_mem ..⟩
    · show (boundaryRefresh s).getLsbD s.ev.a = _
      rw [getLsbD_boundaryRefresh ha, if_pos rfl]
    · show (boundaryRefresh s).getLsbD k = _
      rw [getLsbD_boundaryRefresh hk, if_neg hne]

end
end Sys2Proof.Proofs
end

section
/-! Hardware errors (O40). -/
namespace Sys2Proof.Proofs
open Sys2Proof Sys2Proof.Machine Sys2Proof.Laws Sys2Proof.Stated

/-! Cleared memory. -/

theorem read_zero_inside (m : List Host.Cell) {a n b : Nat} (h : a ≤ b ∧ b < a + n) : Memory.read (Memory.zero m a n) b = 0 := by
  unfold Memory.read Memory.zero
  induction m with
  | nil => rfl
  | cons x m ih =>
    rw [List.filter_cons]
    split
    · next hx =>
      have hb : b ≠ x.1 := fun e => by simp [← e] at hx; omega
      simpa [SMap.get, hb] using ih
    · exact ih

theorem read_zero_outside (m : List Host.Cell) {a n b : Nat} (h : ¬ (a ≤ b ∧ b < a + n)) :
    Memory.read (Memory.zero m a n) b = Memory.read m b := by
  unfold Memory.read Memory.zero
  induction m with
  | nil => rfl
  | cons x m ih =>
    rw [List.filter_cons]
    split
    · simp only [SMap.get, ih]
    · next hx =>
      have hb : b ≠ x.1 := fun e => hx (by simp [← e]; omega)
      simpa [SMap.get, hb] using ih

theorem readN_zero (m : List Host.Cell) (a n : Nat) : Memory.readN (Memory.zero m a n) a n = List.replicate n 0 := by
  rw [List.eq_replicate_iff]
  refine ⟨readN_length .., fun b hb => ?_⟩
  obtain ⟨i, hi, rfl⟩ := List.mem_map.1 hb
  exact read_zero_inside m ⟨Nat.le_add_right .., Nat.add_lt_add_left (List.mem_range.1 hi) a⟩

section
variable {s : State}

/-! Counters. -/

theorem counted_countErr {k : Nat} {u : State} (h : u.prot = s.prot) : counted k s (u.countErr k) := by
  rw [counted, ← h]
  unfold State.countErr
  exact ⟨by rw [get_upd, if_pos rfl, sat48], fun j hj => by rw [get_upd, if_neg hj]⟩

/-! Freezes. -/

theorem freezeCore_core (c : Nat) : (s.freezeCore c).core c = { s.core c with freeze := (s.core c).freeze + 24 } :=
  core_modCore s c fun k => { k with freeze := k.freeze + 24 }

theorem freezeCore_core_other {c d : Nat} (h : d ≠ c) : (s.freezeCore c).core d = s.core d :=
  core_modCore_other s (fun k => { k with freeze := k.freeze + 24 }) h

/-- What a corrected error on a core does. -/
theorem freezeCore_effect (c : Nat) : ((s.freezeCore c).core c).freeze = (s.core c).freeze + 24 ∧
    ((s.freezeCore c).core c).th = (s.core c).th ∧ (∀ d, d ≠ c → (s.freezeCore c).core d = s.core d) ∧ counted 0 s (s.freezeCore c) := by
  rw [freezeCore_core]
  exact ⟨rfl, rfl, fun _ => freezeCore_core_other, counted_countErr rfl⟩

theorem correctableError_core {c : Nat} (h : s.ev.struck = .coreClean c ∨ s.ev.struck = .coreOwned c ∨ s.ev.struck = .coreResident c) :
    exec .correctableError s = .next (s.freezeCore c) := by
  show execCorrectableError s = _
  unfold execCorrectableError
  obtain h | h | h := h <;> rw [h]

theorem correctableError_line {a : Nat} (h : s.ev.struck = .line a) :
    exec .correctableError s = .next (s.countErr (if a < 0x80000000 then 1 else 2)) := by
  show execCorrectableError s = _
  unfold execCorrectableError
  rw [h]
  simp only [inStacks, decide_eq_true_eq]

/-! Lines. -/

/-- A free Stacks line is cleared. -/
def clearLine (s : State) (a : Nat) : State :=
  { s.setLine a {} with mem := { (s.setLine a {}).mem with bytes := Memory.zero s.mem.bytes (a / 128 * 128) 128 } }

theorem uncorrectableError_freeLine {a : Nat} (h : s.ev.struck = .line a) (ha : a < 0x80000000) (ht : s.lineTag a = 0x3FFE) :
    exec .uncorrectableError s = .next ((clearLine s a).countErr 3) := by
  show execUncorrectableError s = _
  unfold execUncorrectableError
  rw [h]
  simp only [State.strikeLine, placeOf, if_pos ha, ht, BEq.rfl, if_true]
  rfl

theorem clearLine_line (a : Nat) : (clearLine s a).line a = {} := get_set_same s.mem.lines (a / 128) {} {}

theorem clearLine_segOf (a : Nat) : (clearLine s a).segOf a = s.segOf a := rfl

/-- A line of no segment that is loading or loaded has its own tag: cleared, that of a free line. -/
theorem clearLine_lineTag {a : Nat} (h : s.lineTag a = 0x3FFE) : (clearLine s a).lineTag a = 0x3FFE := by
  unfold State.lineTag at h ⊢
  rw [clearLine_line, clearLine_segOf]
  cases hs : s.segOf a with
  | none => rfl
  | some i =>
    rw [hs] at h
    dsimp only at h ⊢
    split at h
    · cases h
    · next hn => exact if_neg hn

/-! Segments. -/

theorem seg_setSeg_other {i j : Nat} (u : State) (e : Segment) (h : i ≠ j) : (u.setSeg j e).seg i = u.seg i := by
  unfold State.setSeg
  dsimp only
  split <;> exact get_set_other _ _ _ _ h

/-- What a load of segments keeps: it puts entries into LOADING, and touches neither cores nor counters. -/
structure LoadKept (s t : State) : Prop where
  prot : t.prot = s.prot
  cores : t.cores = s.cores
  seg : ∀ i, t.seg i = s.seg i ∨ (t.seg i).st = 1

theorem LoadKept.trans {s t u : State} (h : LoadKept s t) (k : LoadKept t u) : LoadKept s u where
  prot := k.prot.trans h.prot
  cores := k.cores.trans h.cores
  seg i := (k.seg i).elim (fun e => e ▸ h.seg i) .inr

/-- Counters, cores and the segment table are unchanged. -/
abbrev sameSegs (s t : State) : Prop := t.prot = s.prot ∧ t.cores = s.cores ∧ t.mem.segs = s.mem.segs

theorem sameSegs_modSlp (s : State) (n : Nat) (g : SlPort → SlPort) : sameSegs s (s.modSlp n g) :=
  ⟨modSlp_prot .., modSlp_cores .., congrArg Mem.segs (modSlp_mem ..)⟩

theorem sameSegs_countSl (s : State) (n k x : Nat) : sameSegs s (s.countSl n k x) :=
  ⟨countSl_prot .., countSl_cores .., congrArg Mem.segs (countSl_mem ..)⟩

/-- Entry `j` goes into LOADING. -/
def startsLoad (j : Nat) (s t : State) : Prop := LoadKept s t ∧ (t.seg j).st = 1

theorem seg_of_sameSegs {s t : State} (h : sameSegs s t) (i : Nat) : t.seg i = s.seg i := by
  unfold State.seg
  rw [h.2.2]

/-- An entry put into LOADING, with nothing else of account changed before or after. -/
theorem startsLoad_setSeg {s u v : State} {j : Nat} {e : Segment} (hv : sameSegs (u.setSeg j e) v) (hu : sameSegs s u) (he : e.st = 1) :
    startsLoad j s v := by
  have hj : (v.seg j).st = 1 := by rw [seg_of_sameSegs hv, seg_setSeg, he]
  refine ⟨⟨hv.1.trans ((setSeg_prot ..).trans hu.1), hv.2.1.trans ((setSeg_cores ..).trans hu.2.1), fun i => ?_⟩, hj⟩
  by_cases h : i = j
  · exact .inr (h ▸ hj)
  · exact .inl (by rw [seg_of_sameSegs hv, seg_setSeg_other _ _ h, seg_of_sameSegs hu])

theorem startsLoad_segLoad (j : Nat) (p r : Bool) : startsLoad j s (s.segLoad j p r) := by
  unfold State.segLoad
  extract_lets _ e _ u _ _ _ _ w
  have hw : sameSegs s w := ⟨rfl, rfl, rfl⟩
  split
  · split
    · split
      · exact startsLoad_setSeg (sameSegs_modSlp ..) hw rfl
      · exact startsLoad_setSeg (sameSegs_countSl ..) hw rfl
    · exact startsLoad_setSeg (sameSegs_countSl ..) hw rfl
  · exact startsLoad_setSeg (u := u) (e := e) ⟨rfl, rfl, rfl⟩ ⟨rfl, rfl, rfl⟩ rfl

theorem skidRun_kept (list : List Nat) (s : State) : LoadKept s (skidRun list s) := by
  induction list generalizing s with
  | nil => exact ⟨rfl, rfl, fun _ => .inl rfl⟩
  | cons i r ih =>
    unfold skidRun
    split
    · exact ⟨rfl, rfl, fun _ => .inl rfl⟩
    · split
      · exact (startsLoad_segLoad ..).1.trans (ih _)
      · exact ih _

/-- A struck segment that is placed and not BAD is EMPTY or LOADING. -/
theorem reloadSegment_effect {i : Nat} (hp : (s.seg i).page ≠ 0) (hb : (s.seg i).st ≠ 3) :
    (s.reloadSegment i).prot = s.prot ∧ (s.reloadSegment i).cores = s.cores ∧
      (((s.reloadSegment i).seg i).st = 0 ∨ ((s.reloadSegment i).seg i).st = 1) := by
  unfold State.reloadSegment
  extract_lets e u
  rw [if_neg (show ¬ (e.page == 0 || e.st == 3) = true by simp [e, hp, hb])]
  split
  · obtain ⟨k, h1⟩ := startsLoad_segLoad (s := s) i e.fromPeer e.retried
    exact ⟨k.prot, k.cores, .inr h1⟩
  · have hu : (u.seg i).st = 0 := by simp [u]
    have k := skidRun_kept (i :: without u.mem.skid i) { u with mem := { u.mem with skid := i :: without u.mem.skid i } }
    exact ⟨k.prot.trans (setSeg_prot ..), k.cores.trans (setSeg_cores ..), (k.seg i).imp_left fun h => (congrArg Segment.st h).trans hu⟩

theorem uncorrectableError_segment {i : Nat} (h : s.ev.struck = .segment i) :
    exec .uncorrectableError s = .next ((s.reloadSegment i).countErr 6) := by
  show execUncorrectableError s = _
  unfold execUncorrectableError
  rw [h]

theorem uncorrectableError_clean (h : s.ev.struck = .clean) : exec .uncorrectableError s = .next (s.countErr 3) := by
  show execUncorrectableError s = _
  unfold execUncorrectableError
  rw [h]

end

/-- Hardware errors as stated. -/
theorem hardwareErrors_holds : HardwareErrors := by
  intro s
  refine ⟨fun c h => ?core, fun a h => ?line, ?thaw, fun h => ?clean, fun a h ha ht => ?free, fun i h hp hb => ?segment⟩
  case core => exact ⟨_, correctableError_core h, freezeCore_effect c⟩
  case line => exact ⟨_, correctableError_line h, counted_countErr rfl, rfl, rfl⟩
  case thaw =>
    refine ⟨_, rfl, ?_, ?_, fun _ => core_modCore_other _ _⟩
    · rw [core_modCore]
    · rw [core_modCore]
  case clean => exact ⟨_, uncorrectableError_clean h, counted_countErr rfl, rfl, rfl⟩
  case free =>
    exact ⟨_, uncorrectableError_freeLine h ha ht, counted_countErr rfl, clearLine_line a, clearLine_lineTag ht, readN_zero ..,
      fun _ hb => read_zero_outside _ hb, rfl⟩
  case segment =>
    obtain ⟨kp, kc, hs⟩ := reloadSegment_effect hp hb
    exact ⟨_, uncorrectableError_segment h, counted_countErr kp, hs, kc⟩

/-- Settles O40: the clauses on power and temperature and those on hardware errors, each for its event. -/
theorem powerTemperatureAndErrors : Obligations.PowerTemperatureAndErrors := ⟨powerAndTemperature_holds, hardwareErrors_holds⟩

end Sys2Proof.Proofs
end

section
/-! The agenda's events and the thermal trip (O12). -/
namespace Sys2Proof.Proofs
open Sys2Proof Sys2Proof.Machine Sys2Proof.Laws

theorem tick_pkg (s : State) : s.tick.pkg = s.pkg := (startKept_tick s).1

theorem tick_agenda (s : State) : s.tick.agenda = s.agenda := by
  unfold State.tick
  split <;> rfl

/-- After a thermal trip every clock but TIME's has stopped: an event other than the loss of power is passed over (01 R21). -/
theorem step_tripped {s : State} {i : Instr} {a : EventArgs} {r : List Turn} (ht : s.pkg.tripped = true) (hs : s.agenda = .event i a :: r)
    (hi : i ≠ .powerLoss) : step s = .next { s.tick with agenda := r } := by
  have h : step s = tripTurn exec s.tick := if_pos ((congrArg Pkg.tripped (tick_pkg s)).trans ht)
  rw [h]
  unfold tripTurn
  rw [tick_agenda, hs]
  split
  · next e => exact absurd (Turn.event.inj (List.cons.inj e).1).1 hi
  · next e => rw [(List.cons.inj e).2]
  · next e => cases e

/-- A running package after a thermal trip, with a write of 0 to ETH.PCTL of port 0 first in the agenda. -/
def trippedBeforeWrite : State :=
  { State.reset with
    pkg := { State.reset.pkg with held := false, stage := 8, mode := 1, tripped := true }
    agenda := [.event .ethPctlWrite {}] }

/-- The write itself would clear AN. -/
theorem ethPctlWrite_tripped_an : ∃ t, exec .ethPctlWrite { trippedBeforeWrite.tick with agenda := [], ev := {} } = .next t ∧
    (t.port 0).an = false := ⟨_, rfl, rfl⟩

/-- Refutes O12: after a thermal trip the step passes over the write of ETH.PCTL that stands first in the agenda, and AN stays set. -/
theorem not_stepRunsTheNextEvent : ¬ Obligations.StepRunsTheNextEvent := by
  intro h
  have hs : step trippedBeforeWrite = .next { trippedBeforeWrite.tick with agenda := [] } := step_tripped rfl rfl (by decide)
  obtain ⟨t, he, hf⟩ := ethPctlWrite_tripped_an
  have ht := (hs.symm.trans (h _ _ _ _ rfl rfl)).trans he
  rw [← Host.Outcome.next.inj ht] at hf
  exact Bool.noConfusion hf

end Sys2Proof.Proofs
end

section
/-! The state of the Ethernet engine: ports, counters, receive queues, sessions and requests after each of their updates. -/
namespace Sys2Proof.Proofs
open Sys2Proof Sys2Proof.Machine Sys2Proof.Laws Sys2Proof.Stated

theorem etherRuns_iff (s : State) : s.etherRuns = true ↔ etherUp s := by
  simp [State.etherRuns, State.ready, and_assoc, and_left_comm, and_comm]

section
variable {s : State} {n k : Nat}

theorem port_modPort_other {m : Nat} (g : EthPort → EthPort) (h : m ≠ n) : (s.modPort n g).port m = s.port m :=
  get_set_other _ _ _ _ h

theorem sess_modSess_other {i j : Nat} (g : Session → Session) (h : j ≠ i) : (s.modSess i g).sess j = s.sess j :=
  get_set_other _ _ _ _ h

theorem rxQueue_setRxQueue (q : Nat) (l : List Datagram) : (s.setRxQueue n q l).rxQueue n q = l := get_set_same _ _ _ _

theorem rxQueue_setRxQueue_other {q : Nat} (l : List Datagram) (h : k ≠ q) : (s.setRxQueue n q l).rxQueue n k = s.rxQueue n k :=
  get_set_other _ _ _ _ (by omega)

theorem ereq_setEreq (id : Nat) (r : Option Request) : (s.setEreq id r).ereq id = r := get_set_same _ _ _ _

theorem ereq_setEreq_other {id j : Nat} (r : Option Request) (h : j ≠ id) : (s.setEreq id r).ereq j = s.ereq j :=
  get_set_other _ _ _ _ h

/-! Counters. -/

theorem portCounter_countPort : portCounter n k (s.countPort n k) = oneMore (portCounter n k s) := get_set_same _ _ _ _

theorem portCounter_countPort_other {j : Nat} (h : k ≠ j) : portCounter n k (s.countPort n j) = portCounter n k s :=
  get_set_other _ _ _ _ (by omega)

theorem portCounter_countPortN (m : Nat) : portCounter n k (s.countPortN n k m) = min (portCounter n k s + m) (2 ^ 48 - 1) :=
  get_set_same _ _ _ _

theorem portCounter_countPortN_other {j : Nat} (m : Nat) (h : k ≠ j) : portCounter n k (s.countPortN n j m) = portCounter n k s :=
  get_set_other _ _ _ _ (by omega)

theorem countPort_queues : (s.countPort n k).eth.queues = s.eth.queues := rfl

theorem countPort_ports : (s.countPort n k).eth.ports = s.eth.ports := rfl

theorem countPort_port (m : Nat) : (s.countPort n k).port m = s.port m := by
  unfold State.port
  rw [countPort_ports]

theorem modPort_portCounter (m : Nat) (g : EthPort → EthPort) : portCounter n k (s.modPort m g) = portCounter n k s := rfl

theorem emit_portCounter (o : Output) : portCounter n k (s.emit o) = portCounter n k s := rfl

theorem emit_port (o : Output) (m : Nat) : (s.emit o).port m = s.port m := rfl

theorem partCounter_countPart {p : Nat} : partCounter p k (s.countPart p k) = oneMore (partCounter p k s) := get_set_same _ _ _ _

end
end Sys2Proof.Proofs
end

section
/-! Ports and frames: ETH.PCTL, link changes, the receive path and the slow path (O44). -/
namespace Sys2Proof.Proofs
open Sys2Proof Sys2Proof.Machine Sys2Proof.Laws Sys2Proof.Stated

section
variable {s : State} {n : Nat}

/-! Ports. -/

theorem writeEthPctl_port (v : Word) : (s.writeEthPctl n v).port n =
    let p := { s.port n with
      mtu := if 1500 ≤ fld v.toNat 18 14 ∧ fld v.toNat 18 14 ≤ 9000 then fld v.toNat 18 14 else (s.port n).mtu
      speed := if (s.port n).en || fld v.toNat 2 2 == 3 then (s.port n).speed else fld v.toNat 2 2
      an := bitOf v.toNat 1, en := bitOf v.toNat 0 }
    if bitOf v.toNat 0 then p else p.down := port_modPort ..

theorem ethPctlWrite_next (hn : s.ev.a < 4) : exec .ethPctlWrite s = .next (s.writeEthPctl s.ev.a s.ev.value) := by
  show Host.Outcome.next _ = _
  rw [if_pos hn]

/-- The fields of a port after a write of ETH.PCTL. -/
theorem writeEthPctl_fields (v : Word) :
    let p := (s.writeEthPctl n v).port n
    p.en = bitOf v.toNat 0 ∧ p.an = bitOf v.toNat 1 ∧
      p.mtu = (if 1500 ≤ fld v.toNat 18 14 ∧ fld v.toNat 18 14 ≤ 9000 then fld v.toNat 18 14 else (s.port n).mtu) ∧
      p.speed = (if (s.port n).en = true ∨ fld v.toNat 2 2 = 3 then (s.port n).speed else fld v.toNat 2 2) ∧
      (bitOf v.toNat 0 = false → p.link = false ∧ p.al = false ∧ p.speedNow = 0) := by
  rw [writeEthPctl_port]
  cases bitOf v.toNat 0 <;> simp [EthPort.down]

theorem ethLinkChange_down (hn : s.ev.a < 4) (hf : s.ev.flag = false) :
    exec .ethLinkChange s = .next (s.modPort s.ev.a EthPort.down) := by
  show Host.Outcome.next _ = _
  rw [if_neg (Nat.not_le.2 hn), if_pos (by simp [hf])]

theorem ethLinkChange_up (hn : s.ev.a < 4) (hf : s.ev.flag = true) (he : (s.port s.ev.a).en = true) (hu : etherUp s) :
    exec .ethLinkChange s = .next (s.modPort s.ev.a fun p => { p with link := true, al := true, speedNow := p.speed }) := by
  show Host.Outcome.next _ = _
  rw [if_neg (Nat.not_le.2 hn), if_neg (by simp [hf]), if_pos (by simp [he, (etherRuns_iff s).2 hu])]

/-! The receive path. -/

/-- A frame of `b` corrected and `c` uncorrectable codewords is counted. -/
def frameCounted (n : Nat) (s : State) : State := ((s.countPort n 0).countPortN n 13 s.ev.b).countPortN n 14 s.ev.c

theorem frameCounted_frame (n : Nat) (s : State) : ∃ m, frameCounted n s = { s with eth := { s.eth with portCtr := m } } :=
  ⟨_, by dsimp only [frameCounted, State.countPort, State.countPortN]⟩

theorem frameCounted_queues : (frameCounted n s).eth.queues = s.eth.queues := by
  obtain ⟨m, h⟩ := frameCounted_frame n s
  rw [h]

theorem frameCounted_ports : (frameCounted n s).eth.ports = s.eth.ports := by
  obtain ⟨m, h⟩ := frameCounted_frame n s
  rw [h]

theorem frameCounted_port (m : Nat) : (frameCounted n s).port m = s.port m := by
  unfold State.port
  rw [frameCounted_ports]

theorem frameCounted_rxQueue (m q : Nat) : (frameCounted n s).rxQueue m q = s.rxQueue m q := by
  unfold State.rxQueue
  rw [frameCounted_queues]

theorem frameCounted_layer2Ok (m : Nat) (bs : List Byte) : (frameCounted n s).layer2Ok m bs = s.layer2Ok m bs := by
  obtain ⟨m, h⟩ := frameCounted_frame n s
  rw [h]
  rfl

theorem frameCounted_addrFor (m : Nat) (ip6 : Bool) (ip : Nat) (vid : Option Nat) :
    (frameCounted n s).addrFor m ip6 ip vid = s.addrFor m ip6 ip vid := by
  obtain ⟨m, h⟩ := frameCounted_frame n s
  rw [h]
  rfl

theorem frameCounted_frames : portCounter n 0 (frameCounted n s) = oneMore (portCounter n 0 s) := by
  unfold frameCounted
  rw [portCounter_countPortN_other _ (by decide), portCounter_countPortN_other _ (by decide), portCounter_countPort]

theorem frameCounted_corrected : portCounter n 13 (frameCounted n s) = min (portCounter n 13 s + s.ev.b) (2 ^ 48 - 1) := by
  unfold frameCounted
  rw [portCounter_countPortN_other _ (by decide), portCounter_countPortN, portCounter_countPort_other (by decide)]

theorem frameCounted_uncorrected : portCounter n 14 (frameCounted n s) = min (portCounter n 14 s + s.ev.c) (2 ^ 48 - 1) := by
  unfold frameCounted
  rw [portCounter_countPortN, portCounter_countPortN_other _ (by decide), portCounter_countPort_other (by decide)]

theorem frameCounted_other {k : Nat} (h : k ≠ 0 ∧ k ≠ 13 ∧ k ≠ 14) : portCounter n k (frameCounted n s) = portCounter n k s := by
  unfold frameCounted
  rw [portCounter_countPortN_other _ h.2.2, portCounter_countPortN_other _ h.2.1, portCounter_countPort_other h.1]

theorem frameCounted_countPort {k : Nat} (h : k ≠ 0 ∧ k ≠ 13 ∧ k ≠ 14) :
    portCounter n k ((frameCounted n s).countPort n k) = oneMore (portCounter n k s) :=
  portCounter_countPort.trans (congrArg oneMore (frameCounted_other h))

/-- A drop by the receive path's checks 2 to 7 is counted as 2. -/
theorem verdict_drop {f : Frame} {len mrpPort k : Nat} (h : f.verdict n len mrpPort = .drop k) : k = 2 := by
  unfold Frame.verdict at h
  extract_lets b udpOk go at h
  have hgo : ∀ v6 src dst dscp u, go v6 src dst dscp u = .drop k → k = 2 := by
    intro v6 src dst dscp u hg
    unfold go at hg
    split at hg
    · cases hg
    · split at hg <;> cases hg
      rfl
  clear_value go
  split at h
  case isTrue =>
    split at h
    · cases h; rfl
    · split at h
      · cases h
      · exact hgo _ _ _ _ _ h
  case isFalse =>
    split at h
    · split at h
      · cases h; rfl
      · split at h
        · cases h
        · split at h
          · cases h; rfl
          · exact hgo _ _ _ _ _ h
    · cases h

/-- What the receive path does with a frame that the port takes at layer 2. -/
def frameHandled (n : Nat) (s : State) : Verdict → State
  | .drop k => s.countPort n k
  | .slow => if 256 ≤ (s.port n).slow.length then s.countPort n 5
      else s.modPort n fun p => { p with slow := p.slow ++ [s.ev.bytes.take (s.ev.bytes.length - 4)] }
  | .mrp peer _ u =>
      match s.addrFor n peer.ip6 peer.dstIp peer.vid with
      | none => s.countPort n 3
      | some e =>
        if 32768 < ((s.rxQueue n e.queue).map fun d => d.payload.length).sum + (u.length - 8) then s.countPort n 15
        else s.setRxQueue n e.queue (s.rxQueue n e.queue ++ [{ peer := { peer with part := e.part }, payload := u.drop 8 }])

/-- The verdict on the frame that the event carries. -/
abbrev frameVerdict (n : Nat) (s : State) : Verdict :=
  (readFrame (s.ev.bytes.take (s.ev.bytes.length - 4))).verdict n s.ev.bytes.length s.eth.mrpPort

theorem frameReceive_untaken (hn : s.ev.a < 4) (hu : etherUp s) (hl : (s.port s.ev.a).link = true) (h2 : s.layer2Ok s.ev.a s.ev.bytes = false) :
    exec .frameReceive s = .next ((frameCounted s.ev.a s).countPort s.ev.a 1) := by
  have h2' : (frameCounted s.ev.a s).layer2Ok s.ev.a s.ev.bytes = false := (frameCounted_layer2Ok ..).trans h2
  show Host.Outcome.next _ = _
  rw [if_neg (by simp [hn, hl, (etherRuns_iff s).2 hu])]
  exact congrArg _ (if_pos (by rw [← frameCounted, h2']; rfl))

theorem frameReceive_taken (hn : s.ev.a < 4) (hu : etherUp s) (hl : (s.port s.ev.a).link = true) (h2 : s.layer2Ok s.ev.a s.ev.bytes = true) :
    exec .frameReceive s = .next (frameHandled s.ev.a (frameCounted s.ev.a s) (frameVerdict s.ev.a s)) := by
  have h2' : (frameCounted s.ev.a s).layer2Ok s.ev.a s.ev.bytes = true := (frameCounted_layer2Ok ..).trans h2
  show Host.Outcome.next _ = _
  rw [if_neg (by simp [hn, hl, (etherRuns_iff s).2 hu])]
  exact congrArg _ (if_neg (by rw [← frameCounted, h2']; decide))

theorem frameReceive_verdict (hn : s.ev.a < 4) (hu : etherUp s) (hl : (s.port s.ev.a).link = true)
    (h2 : s.layer2Ok s.ev.a s.ev.bytes = true) {v : Verdict} {t : State} (hv : frameVerdict s.ev.a s = v)
    (ht : frameHandled s.ev.a (frameCounted s.ev.a s) v = t) : exec .frameReceive s = .next t := by
  rw [frameReceive_taken hn hu hl h2, hv, ht]

/-- Handling a frame counts neither its codewords nor the frame. -/
theorem frameHandled_counter {v : Verdict} {k : Nat} (hk : k = 0 ∨ k = 13 ∨ k = 14) (hv : ∀ j, v = .drop j → j = 2) :
    portCounter n k (frameHandled n s v) = portCounter n k s := by
  have hc : ∀ j, j ≠ 0 → j ≠ 13 → j ≠ 14 → portCounter n k (s.countPort n j) = portCounter n k s := fun j _ _ _ =>
    portCounter_countPort_other (by omega)
  cases v with
  | drop j => exact hv j rfl ▸ hc 2 (by decide) (by decide) (by decide)
  | slow =>
    unfold frameHandled
    dsimp only
    split
    · exact hc 5 (by decide) (by decide) (by decide)
    · rfl
  | mrp peer dport u =>
    unfold frameHandled
    dsimp only
    split
    · exact hc 3 (by decide) (by decide) (by decide)
    · split
      · exact hc 15 (by decide) (by decide) (by decide)
      · rfl

theorem frameHandled_slow_room (h : (s.port n).slow.length < 256) :
    frameHandled n s .slow = s.modPort n fun p => { p with slow := p.slow ++ [s.ev.bytes.take (s.ev.bytes.length - 4)] } :=
  if_neg (Nat.not_le.2 h)

theorem frameHandled_slow_full (h : 256 ≤ (s.port n).slow.length) : frameHandled n s .slow = s.countPort n 5 := if_pos h

theorem frameHandled_mrp_noAddr {peer : Peer} {dport : Nat} {u : List Byte} (h : s.addrFor n peer.ip6 peer.dstIp peer.vid = none) :
    frameHandled n s (.mrp peer dport u) = s.countPort n 3 := by
  unfold frameHandled
  dsimp only
  rw [h]

/-- Bytes of UDP payload that a receive queue holds. -/
abbrev queueHeld (n q : Nat) (s : State) : Nat := ((s.rxQueue n q).map fun d => d.payload.length).sum

theorem frameHandled_mrp_room {peer : Peer} {dport : Nat} {u : List Byte} {e : EthAddr}
    (h : s.addrFor n peer.ip6 peer.dstIp peer.vid = some e) (hq : queueHeld n e.queue s + (u.length - 8) ≤ 32768) :
    frameHandled n s (.mrp peer dport u) =
      s.setRxQueue n e.queue (s.rxQueue n e.queue ++ [{ peer := { peer with part := e.part }, payload := u.drop 8 }]) := by
  unfold frameHandled
  dsimp only
  rw [h]
  exact if_neg (Nat.not_lt.2 hq)

theorem frameHandled_mrp_full {peer : Peer} {dport : Nat} {u : List Byte} {e : EthAddr}
    (h : s.addrFor n peer.ip6 peer.dstIp peer.vid = some e) (hq : 32768 < queueHeld n e.queue s + (u.length - 8)) :
    frameHandled n s (.mrp peer dport u) = s.countPort n 15 := by
  unfold frameHandled
  dsimp only
  rw [h]
  exact if_pos hq

/-! The slow path. -/

theorem modPort_slowAnswer (g : EthPort → EthPort) (m : Nat) (bs : List Byte) : (s.modPort n g).slowAnswer m bs = s.slowAnswer m bs := by
  unfold State.modPort
  generalize SMap.upd s.eth.ports n {} g = ports
  rfl

theorem slowPathFrame_answered {f a : List Byte} {r : List (List Byte)} (hq : (s.port s.ev.a).slow = f :: r) (hu : etherUp s)
    (hi : s.hif.fwPhase = .idle) (ha : s.slowAnswer s.ev.a f = some a) :
    exec .slowPathFrame s = .next ((s.modPort s.ev.a fun p => { p with slow := r }).sendFrame s.ev.a a) := by
  show execSlowPathFrame s = _
  unfold execSlowPathFrame
  dsimp only
  rw [hq]
  dsimp only
  rw [if_neg (by simp [(etherRuns_iff s).2 hu, hi]), modPort_slowAnswer, ha]

theorem slowPathFrame_dropped {f : List Byte} {r : List (List Byte)} (hq : (s.port s.ev.a).slow = f :: r) (hu : etherUp s)
    (hi : s.hif.fwPhase = .idle) (ha : s.slowAnswer s.ev.a f = none) :
    exec .slowPathFrame s = .next ((s.modPort s.ev.a fun p => { p with slow := r }).countPort s.ev.a 4) := by
  show execSlowPathFrame s = _
  unfold execSlowPathFrame
  dsimp only
  rw [hq]
  dsimp only
  rw [if_neg (by simp [(etherRuns_iff s).2 hu, hi]), modPort_slowAnswer, ha]

/-! The statement's clauses. -/

/-- A frame that only counts. -/
theorem frameReceive_counts {k : Nat} (hk : k ≠ 0 ∧ k ≠ 13 ∧ k ≠ 14)
    (he : exec .frameReceive s = .next ((frameCounted s.ev.a s).countPort s.ev.a k)) :
    ∃ t, exec .frameReceive s = .next t ∧ portCounter s.ev.a 0 t = oneMore (portCounter s.ev.a 0 s) ∧
      portCounter s.ev.a k t = oneMore (portCounter s.ev.a k s) ∧ t.eth.queues = s.eth.queues ∧ t.eth.ports = s.eth.ports := by
  refine ⟨_, he, ?_, frameCounted_countPort hk, countPort_queues.trans frameCounted_queues, countPort_ports.trans frameCounted_ports⟩
  rw [portCounter_countPort_other hk.1.symm, frameCounted_frames]

section
variable (hn : s.ev.a < 4) (hu : etherUp s) (hl : (s.port s.ev.a).link = true)
include hn hu hl

theorem frameReceive_codewords : ∃ t, exec .frameReceive s = .next t ∧
    portCounter s.ev.a 13 t = min (portCounter s.ev.a 13 s + s.ev.b) (2 ^ 48 - 1) ∧
    portCounter s.ev.a 14 t = min (portCounter s.ev.a 14 s + s.ev.c) (2 ^ 48 - 1) := by
  cases h2 : s.layer2Ok s.ev.a s.ev.bytes with
  | true =>
    have hv : ∀ j, frameVerdict s.ev.a s = .drop j → j = 2 := fun _ => verdict_drop
    refine ⟨_, frameReceive_taken hn hu hl h2, ?_, ?_⟩
    · rw [frameHandled_counter (by decide) hv, frameCounted_corrected]
    · rw [frameHandled_counter (by decide) hv, frameCounted_uncorrected]
  | false =>
    refine ⟨_, frameReceive_untaken hn hu hl h2, ?_, ?_⟩
    · rw [portCounter_countPort_other (by decide), frameCounted_corrected]
    · rw [portCounter_countPort_other (by decide), frameCounted_uncorrected]

variable (h2 : s.layer2Ok s.ev.a s.ev.bytes = true)
include h2

theorem frameReceive_slow (hv : frameVerdict s.ev.a s = .slow) : ∃ t, exec .frameReceive s = .next t ∧ t.eth.queues = s.eth.queues ∧
    ((s.port s.ev.a).slow.length < 256 →
      (t.port s.ev.a).slow = (s.port s.ev.a).slow ++ [s.ev.bytes.take (s.ev.bytes.length - 4)]) ∧
    (256 ≤ (s.port s.ev.a).slow.length → (t.port s.ev.a).slow = (s.port s.ev.a).slow ∧
      portCounter s.ev.a 5 t = oneMore (portCounter s.ev.a 5 s)) := by
  rw [← frameCounted_port (s := s) (n := s.ev.a)]
  have hq := frameCounted_queues (s := s) (n := s.ev.a)
  obtain hlt | hge := Nat.lt_or_ge ((frameCounted s.ev.a s).port s.ev.a).slow.length 256
  · refine ⟨_, frameReceive_verdict hn hu hl h2 hv (frameHandled_slow_room hlt), hq, fun _ => ?_, fun h => absurd hlt (Nat.not_lt.2 h)⟩
    rw [port_modPort]
    rfl
  · refine ⟨_, frameReceive_verdict hn hu hl h2 hv (frameHandled_slow_full hge), countPort_queues.trans hq,
      fun h => absurd h (Nat.not_lt.2 hge), fun _ => ⟨?_, frameCounted_countPort (by decide)⟩⟩
    rw [countPort_port]

end

theorem slowPathFrame_effect {f : List Byte} {r : List (List Byte)} (hq : (s.port s.ev.a).slow = f :: r) (hu : etherUp s)
    (hi : s.hif.fwPhase = .idle) : ∃ t, exec .slowPathFrame s = .next t ∧ (t.port s.ev.a).slow = r ∧
      (∀ a, s.slowAnswer s.ev.a f = some a → t.out = .frame s.ev.a a :: s.out ∧
        portCounter s.ev.a 12 t = oneMore (portCounter s.ev.a 12 s)) ∧
      (s.slowAnswer s.ev.a f = none → t.out = s.out ∧ portCounter s.ev.a 4 t = oneMore (portCounter s.ev.a 4 s)) := by
  have hs : ((s.modPort s.ev.a fun p => { p with slow := r }).port s.ev.a).slow = r := congrArg EthPort.slow (port_modPort ..)
  cases ha : s.slowAnswer s.ev.a f with
  | some a =>
    refine ⟨_, slowPathFrame_answered hq hu hi ha, ?_, fun a' h => ?_, nofun⟩
    · rw [State.sendFrame, countPort_port, emit_port, hs]
    · rw [Option.some.inj h, State.sendFrame, portCounter_countPort, emit_portCounter, modPort_portCounter]
      exact ⟨rfl, rfl⟩
  | none =>
    refine ⟨_, slowPathFrame_dropped hq hu hi ha, ?_, nofun, fun _ => ?_⟩
    · rw [countPort_port, hs]
    · rw [portCounter_countPort, modPort_portCounter]
      exact ⟨rfl, rfl⟩

end

/-- Settles O44, clause by clause: the port's registers, the frame's counters, then each verdict of the receive path and the slow path's
answers. -/
theorem ethernetPortsAndFrames : Obligations.EthernetPortsAndFrames := by
  intro s n hn ha
  subst ha
  extract_lets v bs raw receives
  refine ⟨?pctl, fun hf => ?down, fun hf he hu => ?up, fun ⟨hu, hl⟩ => frameReceive_codewords hn hu hl, fun ⟨hu, hl⟩ h2 => ?untaken,
    fun k ⟨hu, hl⟩ h2 hv _ _ => ?drop, fun ⟨hu, hl⟩ h2 hv => frameReceive_slow hn hu hl h2 hv,
    fun peer dport u ⟨hu, hl⟩ h2 hv => ⟨fun h => ?noAddr, fun e h => ⟨fun hq => ?queued, fun hq => ?noRoom⟩⟩,
    fun f r hq hu hi => slowPathFrame_effect hq hu hi⟩
  case pctl =>
    obtain ⟨hen, han, hmtu, hspeed, hdown⟩ := writeEthPctl_fields (s := s) (n := s.ev.a) s.ev.value
    exact ⟨_, ethPctlWrite_next hn, hen, han, hmtu, hspeed, hdown, fun _ => port_modPort_other _, rfl, rfl, rfl⟩
  case down => exact ⟨_, ethLinkChange_down hn hf, port_modPort .., fun _ => port_modPort_other _⟩
  case up => exact ⟨_, ethLinkChange_up hn hf he hu, port_modPort .., fun _ => port_modPort_other _⟩
  case untaken => exact frameReceive_counts (by decide) (frameReceive_untaken hn hu hl h2)
  case drop =>
    have hk := verdict_drop hv
    subst hk
    exact frameReceive_counts (by decide) (frameReceive_verdict hn hu hl h2 hv rfl)
  case noAddr =>
    have he := frameReceive_verdict hn hu hl h2 hv (frameHandled_mrp_noAddr ((frameCounted_addrFor ..).trans h))
    exact ⟨_, he, countPort_queues.trans frameCounted_queues, frameCounted_countPort (by decide)⟩
  case queued =>
    have he := frameReceive_verdict hn hu hl h2 hv (frameHandled_mrp_room ((frameCounted_addrFor ..).trans h)
      (by rw [queueHeld, frameCounted_rxQueue]; exact hq))
    rw [frameCounted_rxQueue] at he
    exact ⟨_, he, rxQueue_setRxQueue .., fun _ hk => (rxQueue_setRxQueue_other _ hk).trans (frameCounted_rxQueue ..)⟩
  case noRoom =>
    have he := frameReceive_verdict hn hu hl h2 hv (frameHandled_mrp_full ((frameCounted_addrFor ..).trans h)
      (by rw [queueHeld, frameCounted_rxQueue]; exact hq))
    exact ⟨_, he, countPort_queues.trans frameCounted_queues, frameCounted_countPort (by decide)⟩

end Sys2Proof.Proofs
end

section
/-! What sending, the end of a request and the lapse of a session change (O45). -/
namespace Sys2Proof.Proofs
open Sys2Proof Sys2Proof.Machine Sys2Proof.Laws Sys2Proof.Stated

/-- `t` differs from `s` at most in what has gone out and in the port counters. -/
def Sent (s t : State) : Prop := ∃ out ctr, t = { s with out := out, eth := { s.eth with portCtr := ctr } }

theorem Sent.refl (s : State) : Sent s s := ⟨_, _, rfl⟩

theorem Sent.trans {s t u : State} (h : Sent s t) (k : Sent t u) : Sent s u := by
  obtain ⟨_, _, rfl⟩ := h
  obtain ⟨_, _, rfl⟩ := k
  exact ⟨_, _, rfl⟩

theorem sent_sendFrame (s : State) (n : Nat) (bs : List Byte) : Sent s (s.sendFrame n bs) :=
  ⟨_, _, by dsimp only [State.sendFrame, State.emit, State.countPort]⟩

theorem sent_sendUdp (s : State) (p : Peer) (bs : List Byte) : Sent s (s.sendUdp p bs) := by
  unfold State.sendUdp
  split
  · exact .refl s
  · exact sent_sendFrame ..

theorem sent_foldl {α : Type} {f : State → α → State} (hf : ∀ s a, Sent s (f s a)) (l : List α) (s : State) : Sent s (l.foldl f s) := by
  induction l generalizing s with
  | nil => exact .refl s
  | cons a l ih => exact (hf s a).trans (ih _)

theorem sent_sendPlain (s : State) (p : Peer) (ty sid reqid b : Nat) (body : List Byte) : Sent s (s.sendPlain p ty sid reqid b body) :=
  sent_foldl (fun _ _ => sent_sendUdp ..) _ _

/-- `t` differs from `s` at most in what has gone out, in counters and in the number of the last datagram that session `i` has sent. -/
structure Replied (i : Nat) (s t : State) : Prop where
  frame : ∃ out ctr part m, t = { s with out := out, eth := { s.eth with portCtr := ctr, partCtr := part, sessions := m } }
  others : onlySession i s t
  own : ∃ n, t.sess i = { s.sess i with sent := n }

section
variable {s t u : State} {i : Nat}

theorem Replied.refl (i : Nat) (s : State) : Replied i s s := ⟨⟨_, _, _, _, rfl⟩, fun _ _ => rfl, _, rfl⟩

theorem Replied.trans (h : Replied i s t) (k : Replied i t u) : Replied i s u where
  frame := by
    obtain ⟨_, _, _, _, rfl⟩ := h.frame
    obtain ⟨_, _, _, _, rfl⟩ := k.frame
    exact ⟨_, _, _, _, rfl⟩
  others j hj := (k.others j hj).trans (h.others j hj)
  own := by
    obtain ⟨n, hn⟩ := h.own
    obtain ⟨m, hm⟩ := k.own
    exact ⟨m, by rw [hm, hn]⟩

theorem Sent.replied (h : Sent s t) (i : Nat) : Replied i s t := by
  obtain ⟨_, _, rfl⟩ := h
  exact ⟨⟨_, _, _, _, rfl⟩, fun _ _ => rfl, _, rfl⟩

theorem replied_countPart (i : Nat) (s : State) (p k : Nat) : Replied i s (s.countPart p k) where
  frame := ⟨_, _, _, _, by dsimp only [State.countPart]⟩
  others _ _ := rfl
  own := ⟨_, rfl⟩

theorem replied_setSent (i : Nat) (s : State) (n : Nat) : Replied i s (s.modSess i fun e => { e with sent := n }) where
  frame := ⟨_, _, _, _, by dsimp only [State.modSess]⟩
  others _ hj := sess_modSess_other _ hj
  own := ⟨n, sess_modSess ..⟩

theorem replied_foldl {α : Type} {f : State → α → State} (hf : ∀ s a, Replied i s (f s a)) (l : List α) (s : State) :
    Replied i s (l.foldl f s) := by
  induction l generalizing s with
  | nil => exact .refl i s
  | cons a l ih => exact (hf s a).trans (ih _)

theorem replied_sendSealed (i : Nat) (s : State) (p : Peer) (ty func reqid b : Nat) (body : List Byte) :
    Replied i s (s.sendSealed i p ty func reqid b body) := by
  unfold State.sendSealed
  split
  · exact .refl i s
  · exact replied_foldl (fun _ _ => ((sent_sendUdp ..).replied i).trans (replied_setSent ..)) _ _

theorem replied_sendReply (i : Nat) (s : State) (p : Peer) (ty func reqid b : Nat) (body : List Byte) (k : Nat) :
    Replied i s (s.sendReply i p ty func reqid b body k) := by
  unfold State.sendReply
  split
  · exact replied_countPart ..
  · exact (replied_sendSealed ..).trans (replied_countPart ..)

theorem seqSpent_one (h : (s.sess i).sent < 2 ^ 48) : s.seqSpent i 1 = false := by
  simpa [State.seqSpent] using h

theorem replied_sendHback (h : (s.sess i).sent < 2 ^ 48) (p : Peer) : Replied i s (s.sendHback i p) := by
  unfold State.sendHback
  rw [if_neg (by simp [seqSpent_one h])]
  exact replied_sendSealed ..

theorem replied_sendError (ho : (s.sess i).st = .openS) (h : (s.sess i).sent < 2 ^ 48) (p : Peer) (func reqid code detail : Nat) :
    Replied i s (s.sendError i p func reqid code detail) := by
  unfold State.sendError
  rw [if_neg (by simp [ho]), if_neg (by simp [seqSpent_one h])]
  exact replied_sendReply ..

/-! The end of requests. -/

theorem dropEreq_frame (s : State) (id : Nat) :
    ∃ prot r, s.dropEreq id = { s with prot := prot, eth := { s.eth with requests := r } } := by
  unfold State.dropEreq
  split
  · exact ⟨_, _, rfl⟩
  · exact ⟨_, _, rfl⟩

theorem ereq_dropEreq (s : State) (id : Nat) : (s.dropEreq id).ereq id = none := by
  unfold State.dropEreq
  split
  · exact ereq_setEreq ..
  · assumption

theorem ereq_dropEreq_none (id : Nat) {j : Nat} (h : s.ereq j = none) : (s.dropEreq id).ereq j = none := by
  by_cases hj : j = id
  · rw [hj, ereq_dropEreq]
  · unfold State.dropEreq
    split
    · exact (ereq_setEreq_other _ hj).trans h
    · exact h

theorem dropEreqs_frame (ids : List Nat) (s : State) :
    ∃ prot r, ids.foldl (fun s id => s.dropEreq id) s = { s with prot := prot, eth := { s.eth with requests := r } } := by
  induction ids generalizing s with
  | nil => exact ⟨_, _, rfl⟩
  | cons id ids ih =>
    obtain ⟨_, _, h⟩ := dropEreq_frame s id
    obtain ⟨_, _, k⟩ := ih (s.dropEreq id)
    exact ⟨_, _, by rw [List.foldl_cons, k, h]⟩

theorem ereq_dropEreqs_none (ids : List Nat) {j : Nat} (h : s.ereq j = none) :
    (ids.foldl (fun s id => s.dropEreq id) s).ereq j = none := by
  induction ids generalizing s with
  | nil => exact h
  | cons id ids ih => exact ih (ereq_dropEreq_none id h)

theorem ereq_dropEreqs {ids : List Nat} {j : Nat} (h : j ∈ ids) (s : State) : (ids.foldl (fun s id => s.dropEreq id) s).ereq j = none := by
  induction ids generalizing s with
  | nil => cases h
  | cons id ids ih =>
    obtain rfl | h := List.mem_cons.1 h
    · exact ereq_dropEreqs_none ids (ereq_dropEreq s j)
    · exact ih h _

/-! The end of sessions. -/

theorem settleSess_frame (s : State) (i : Nat) : ∃ m, s.settleSess i = { s with eth := { s.eth with sessions := m } } := by
  unfold State.settleSess
  split
  · exact ⟨_, rfl⟩
  · exact ⟨_, rfl⟩

theorem ereq_settleSess (s : State) (i j : Nat) : (s.settleSess i).ereq j = s.ereq j := by
  obtain ⟨m, h⟩ := settleSess_frame s i
  rw [h]
  rfl

theorem settleSess_others (s : State) (i : Nat) : onlySession i s (s.settleSess i) := by
  intro j hj
  unfold State.settleSess
  split
  · exact get_drop_other _ _ hj
  · rfl

theorem settleSess_closed (h : (s.sess i).st = .lapsed) : ((s.settleSess i).sess i).st ≠ .openS := by
  unfold State.settleSess
  split
  · rw [State.sess, get_drop_same]
    decide
  · rw [h]
    decide

/-- What an OPEN session's lapse does. -/
structure Lapsed (i : Nat) (s t : State) : Prop where
  frame : ∃ prot m r, t = { s with prot := prot, eth := { s.eth with sessions := m, requests := r } }
  others : onlySession i s t
  closed : (t.sess i).st ≠ .openS
  incomplete : ∀ id r, s.ereq id = some r → r.slot = i → r.complete = false → t.ereq id = none

theorem mem_of_get_some {α : Type} {m : SMap (Option α)} {k : Nat} {a : α} (h : SMap.get m k none = some a) : (k, some a) ∈ m := by
  induction m with
  | nil => cases h
  | cons x m ih =>
    obtain ⟨j, v⟩ := x
    unfold SMap.get at h
    split at h
    · next hk => rw [hk, h]; exact List.mem_cons_self
    · exact List.mem_cons_of_mem _ (ih h)

theorem lapse_lapsed (h : (s.sess i).st = .openS) : Lapsed i s (s.lapse i) := by
  unfold State.lapse
  rw [if_neg (by simp [h])]
  extract_lets u ids
  obtain ⟨prot, r, hd⟩ := dropEreqs_frame ids u
  obtain ⟨m, hs⟩ := settleSess_frame (ids.foldl (fun s id => s.dropEreq id) u) i
  have hsess : ∀ j, (ids.foldl (fun s id => s.dropEreq id) u).sess j = u.sess j := fun j => by rw [hd]; rfl
  refine ⟨⟨prot, m, r, by rw [hs, hd]; rfl⟩, fun j hj => ?_, settleSess_closed ?_, fun id x hx hi hc => ?_⟩
  · rw [settleSess_others _ _ j hj, hsess]
    exact sess_modSess_other _ hj
  · rw [hsess]
    exact congrArg Session.st (sess_modSess ..)
  · rw [ereq_settleSess]
    refine ereq_dropEreqs (List.mem_map.2 ⟨(id, some x), List.mem_filter.2 ⟨mem_of_get_some hx, ?_⟩, rfl⟩) u
    simp [hi, hc]

end
end Sys2Proof.Proofs
end

section
/-! The MRP checks on a datagram at the head of its queue (O45). -/
namespace Sys2Proof.Proofs
open Sys2Proof Sys2Proof.Machine Sys2Proof.Laws Sys2Proof.Stated

/-- The head of queue `q` of the event's port has been taken, and the turn goes to the next queue. -/
def taken (q : Nat) (s : State) : State :=
  (s.setRxQueue s.ev.a q (s.rxQueue s.ev.a q).tail).modPort s.ev.a fun p => { p with pointer := (q + 1) % 64 }

/-- Session `i` after a datagram with this SEQ has verified (02 R44 R47). -/
def verified (i seq : Nat) (s : State) : State :=
  s.modSess i fun e => { e.note seq with lastAt := if e.st == SessState.half then e.lastAt else s.time.toNat }

/-- The state in which the message of a protected datagram `b` of session `i` is handled. -/
abbrev opened (q i : Nat) (b : List Byte) (s : State) : State := verified i (readMrp b).seq (taken q s)

section
variable {s t : State} {ty q i : Nat} {p : Peer} {b body : List Byte} {st : SessState}

theorem datagram_type (h : datagram ty q p b s) : (readMrp b).ty = ty := by
  obtain ⟨_, _, _, _, hty, _⟩ := h
  exact hty

theorem opens_state (h : opens st i body p b s) : (s.sess i).st = st := by
  obtain ⟨_, hst, _⟩ := h
  exact hst

theorem opens_window (h : opens st i body p b s) : (s.sess i).high < (readMrp b).seq + 1024 := by
  obtain ⟨_, _, _, _, hhigh, _⟩ := h
  exact hhigh

theorem taken_frame (q : Nat) (s : State) :
    ∃ queues ports, taken q s = { s with eth := { s.eth with queues := queues, ports := ports } } :=
  ⟨_, _, by dsimp only [taken, State.modPort, State.setRxQueue]⟩

theorem opened_frame (q i : Nat) (b : List Byte) (s : State) : ∃ queues ports m,
    opened q i b s = { s with eth := { s.eth with queues := queues, ports := ports, sessions := m } } :=
  ⟨_, _, _, by dsimp only [opened, verified, State.modSess, taken, State.modPort, State.setRxQueue]⟩

theorem taken_sess (q : Nat) (s : State) (j : Nat) : (taken q s).sess j = s.sess j := by
  obtain ⟨_, _, h⟩ := taken_frame q s
  rw [h]
  rfl

theorem opened_sess : (opened q i b s).sess i = { (s.sess i).note (readMrp b).seq with
    lastAt := if (s.sess i).st == SessState.half then (s.sess i).lastAt else s.time.toNat } := by
  unfold opened verified
  rw [sess_modSess, taken_sess]
  rfl

theorem opened_others (q i : Nat) (b : List Byte) (s : State) : onlySession i s (opened q i b s) := fun j hj =>
  (sess_modSess_other _ hj).trans (taken_sess q s j)

theorem opened_ereq (id : Nat) : (opened q i b s).ereq id = s.ereq id := by
  obtain ⟨_, _, _, h⟩ := opened_frame q i b s
  rw [h]
  rfl

theorem dequeued_taken (q : Nat) (s : State) : dequeued q s (taken q s) := by
  refine ⟨rxQueue_setRxQueue .., ?_⟩
  exact congrArg EthPort.pointer (port_modPort ..)

theorem dequeued_of_eth (hq : t.eth.queues = (taken q s).eth.queues) (hp : t.eth.ports = (taken q s).eth.ports) : dequeued q s t := by
  obtain ⟨h, k⟩ := dequeued_taken q s
  refine ⟨?_, ?_⟩
  · rw [← h, State.rxQueue, hq]; rfl
  · rw [← k, State.port, hp]; rfl

/-- The checks that the head of its queue passes. -/
theorem mrpTake_datagram (h : datagram ty q p b s) (k : Peer → Mrp → List Byte → State → State) :
    s.mrpTake ty k = k p (readMrp b) b (taken q s) := by
  obtain ⟨hu, hn, hq, hh, hty, hok⟩ := h
  obtain ⟨r, hr⟩ := List.head?_eq_some_iff.1 hh
  have ht : taken q s = (s.setRxQueue s.ev.a q r).modPort s.ev.a fun p => { p with pointer := (q + 1) % 64 } := by
    rw [taken, hr, List.tail_cons]
  unfold State.mrpTake
  extract_lets n
  rw [if_neg (by simp [n, hn, (etherRuns_iff s).2 hu]), hq]
  dsimp only
  rw [hr]
  dsimp only
  rw [if_neg (by simp [hty]), if_pos hok, ht]

/-- The session checks that a datagram passes which opens. -/
theorem verify_opens (h : opens st i body p b s) (hst : st = .openS ∨ st = .half ∧ (readMrp b).ty = 3)
    (k : Nat → List Byte → State → State) : s.verify p (readMrp b) b k = k i body (verified i (readMrp b).seq s) := by
  obtain ⟨hi, he, hsid, hpart, hhigh, hseen, hseq, hopen⟩ := h
  unfold State.verify
  extract_lets n j e
  have hj : j = i := hi.symm
  have hee : e = s.sess i := congrArg s.sess hj
  clear_value j e
  subst hj hee
  have hlive : ((s.sess j).st == .free || (s.sess j).sid != (readMrp b).sid || (s.sess j).part != p.part) = false ∧
      ((s.sess j).st == .lapsed) = false ∧ ((s.sess j).st == .half && (readMrp b).ty != 3) = false := by
    obtain rfl | ⟨rfl, h3⟩ := hst
    · simp [he, hsid, hpart]
    · simp [he, hsid, hpart, h3]
  obtain ⟨hfound, hlapsed, hhalf⟩ := hlive
  rw [if_neg (by rw [hfound]; decide), if_neg (by rw [hlapsed]; decide), if_neg (by rw [hhalf]; decide),
    if_neg (by simp [hseen]; omega), hopen]
  exact if_neg (Nat.not_lt.2 hseq)

theorem taken_opens (q : Nat) (h : opens st i body p b s) : opens st i body p b (taken q s) := by
  unfold opens
  rw [taken_sess]
  exact h

/-- A protected datagram of type `ty` that opens is handed on. -/
theorem mrpTake_verify (hd : datagram ty q p b s) (ho : opens st i body p b s) (hst : st = .openS ∨ st = .half ∧ ty = 3)
    (k : Peer → Mrp → List Byte → Nat → List Byte → State → State) :
    s.mrpTake ty (fun p h b s => s.verify p h b (k p h b)) = k p (readMrp b) b i body (opened q i b s) := by
  have hty := datagram_type hd
  rw [mrpTake_datagram hd, verify_opens (taken_opens q ho) (hty ▸ hst)]

/-- A SEQ that verified stands in the window. -/
theorem mem_seen_note {e : Session} {seq : Nat} (h : e.high < seq + 1024) : seq ∈ (e.note seq).seen ∧ seq ≤ (e.note seq).high := by
  refine ⟨List.mem_filter.2 ⟨?_, by simp; omega⟩, Nat.le_max_right ..⟩
  unfold withElem
  split
  · next hc => exact List.contains_iff_mem.1 hc
  · simp

end
end Sys2Proof.Proofs
end

section
/-! Sessions: HELLO, CONFIRM, HEARTBEAT, CLOSE, CERTREQ and the timers (O45). -/
namespace Sys2Proof.Proofs
open Sys2Proof Sys2Proof.Machine Sys2Proof.Laws Sys2Proof.Stated

/-! HELLO. -/

theorem firstFrom_eq_some {n a i : Nat} {p : Nat → Bool} (ha : a ≤ i) (hi : i < a + n) (hp : p i = true)
    (hlow : ∀ j, a ≤ j → j < i → p j = false) : firstFrom n a p = some i := by
  induction n generalizing a with
  | zero => omega
  | succ n ih =>
    unfold firstFrom
    obtain rfl | hlt := Nat.eq_or_lt_of_le ha
    · rw [if_pos hp]
    · rw [if_neg (by simp [hlow a (le_refl a) hlt])]
      exact ih hlt (by omega) fun j hj => hlow j (by omega)

theorem firstBelow_eq_some {n i : Nat} {p : Nat → Bool} (hi : i < n) (hp : p i = true) (hlow : ∀ j, j < i → p j = false) :
    firstBelow n p = some i := firstFrom_eq_some (Nat.zero_le i) (by omega) hp fun j _ => hlow j

section
variable {s : State} {q i : Nat} {p : Peer} {b m : List Byte}

/-- The checks of a HELLO up to its key digest (02 R48). -/
structure HelloAdmitted (p : Peer) (m : List Byte) (s : State) : Prop where
  binding : beAt m 0 2 < 4096
  half : s.sessCount (fun e => e.st == SessState.half) < 1024
  quota : s.sessCount (fun e => e.st != SessState.free && e.part == p.part) < min 16384 (s.epool p.part).sessMax
  loaded : (s.keySlotAt (beAt m 0 2)).st = 1
  purpose : (s.keySlotAt (beAt m 0 2)).purp = 1
  part : (s.keySlotAt (beAt m 0 2)).part = p.part

theorem HelloAdmitted.slot (h : HelloAdmitted p m s) :
    let k := s.keySlotAt (beAt m 0 2 % 4096)
    (k.st == 1 && k.purp == 1 && k.part == p.part) = true := by
  rw [Nat.mod_eq_of_lt h.binding]
  simp [h.loaded, h.purpose, h.part]

theorem helloBody_wrongDigest (h : HelloAdmitted p m s) (hd : slice m 4 8 ≠ (sha256 s.staticKey).take 8) :
    s.helloBody p m = s.countPart p.part 6 := by
  unfold State.helloBody
  extract_lets n bind slot pub quota
  rw [if_neg (Nat.not_le.2 h.binding), if_neg (Nat.not_le.2 h.half), if_neg (Nat.not_le.2 h.quota),
    if_neg (show ¬ (!(slot.st == 1 && slot.purp == 1 && slot.part == p.part)) = true by rw [h.slot]; decide),
    if_pos (show (slice m 4 8 != (sha256 pub).take 8) = true from bne_iff_ne.2 hd)]

/-- The session that a HELLO `m` of `p` claims in slot `i`, but for its keys (02 R46 R48). -/
structure HalfSession (i : Nat) (p : Peer) (m : List Byte) (now : Nat) (e : Session) : Prop where
  st : e.st = .half
  sid : e.sid % 16384 = i
  part : e.part = p.part
  binding : e.binding = beAt m 0 2
  period : e.period = beAt m 2 2
  lastAt : e.lastAt = now
  sent : e.sent = 0

theorem helloBody_claims (h : HelloAdmitted p m s) (hd : slice m 4 8 = (sha256 s.staticKey).take 8) (hp : 10 ≤ beAt m 2 2)
    (hp' : beAt m 2 2 ≤ 60000) (hi : i < 16384) (hf : (s.sess i).st = .free) (hlow : ∀ j, j < i → (s.sess j).st ≠ .free) :
    ∃ prot e, HalfSession i p m s.time.toNat e ∧ Sent (({ s with prot := prot } : State).modSess i fun _ => e) (s.helloBody p m) := by
  have hfirst : firstBelow 16384 (fun i => (s.sess i).st == SessState.free) = some i :=
    firstBelow_eq_some hi (by simp [hf]) fun j hj => by simp [hlow j hj]
  unfold State.helloBody
  extract_lets n bind slot pub quota
  rw [if_neg (Nat.not_le.2 h.binding), if_neg (Nat.not_le.2 h.half), if_neg (Nat.not_le.2 h.quota),
    if_neg (show ¬ (!(slot.st == 1 && slot.purp == 1 && slot.part == p.part)) = true by rw [h.slot]; decide),
    if_neg (show ¬ (slice m 4 8 != (sha256 pub).take 8) = true by simp [hd, pub]),
    if_neg (show ¬ (beAt m 2 2 < 10 || 60000 < beAt m 2 2) = true by simp; omega), hfirst]
  dsimp only [State.random]
  refine ⟨_, _, ?_, sent_sendPlain ..⟩
  exact ⟨rfl, by dsimp only; omega, rfl, rfl, rfl, rfl, rfl⟩

theorem HelloAdmitted.taken (h : HelloAdmitted p m s) (q : Nat) : HelloAdmitted p m (taken q s) := by
  obtain ⟨_, _, e⟩ := taken_frame q s
  rw [e]
  exact ⟨h.binding, h.half, h.quota, h.loaded, h.purpose, h.part⟩

theorem taken_staticKey (q : Nat) (s : State) : (taken q s).staticKey = s.staticKey := by
  obtain ⟨_, _, e⟩ := taken_frame q s
  rw [e]
  rfl

theorem hello_handled (hd : datagram 1 q p b s) (hc : (readMrp b).count = 1) :
    exec .hello s = .next ((taken q s).helloBody p (b.drop 32)) := by
  show Host.Outcome.next _ = _
  rw [mrpTake_datagram hd]
  exact congrArg _ (if_pos (by rw [hc]; rfl))

theorem Sent.dequeued {u t : State} (h : Sent u t) (hq : u.eth.queues = (taken q s).eth.queues)
    (hp : u.eth.ports = (taken q s).eth.ports) : dequeued q s t := by
  obtain ⟨_, _, rfl⟩ := h
  exact dequeued_of_eth hq hp

theorem Replied.dequeued {u t : State} (h : Replied i u t) (hq : u.eth.queues = (taken q s).eth.queues)
    (hp : u.eth.ports = (taken q s).eth.ports) : dequeued q s t := by
  obtain ⟨_, _, _, _, rfl⟩ := h.frame
  exact dequeued_of_eth hq hp

theorem hello_claims (hd : datagram 1 q p b s) (hc : (readMrp b).count = 1) (h : HelloAdmitted p (b.drop 32) s)
    (hk : slice (b.drop 32) 4 8 = (sha256 s.staticKey).take 8) (hp : 10 ≤ beAt (b.drop 32) 2 2) (hp' : beAt (b.drop 32) 2 2 ≤ 60000)
    (hi : i < 16384) (hf : (s.sess i).st = .free) (hlow : ∀ j, j < i → (s.sess j).st ≠ .free) : ∃ t, exec .hello s = .next t ∧
      dequeued q s t ∧ onlySession i s t ∧ HalfSession i p (b.drop 32) s.time.toNat (t.sess i) := by
  obtain ⟨prot, e, he, hs⟩ := helloBody_claims (h.taken q) ((taken_staticKey q s).symm ▸ hk) hp hp' hi
    ((taken_sess q s i).symm ▸ hf) fun j hj => (taken_sess q s j).symm ▸ hlow j hj
  have r := hs.replied i
  refine ⟨_, hello_handled hd hc, hs.dequeued rfl rfl, fun j hj => ?_, ?_⟩
  · exact (r.others j hj).trans ((sess_modSess_other _ hj).trans (taken_sess q s j))
  · obtain ⟨_, _, ht⟩ := hs
    rw [ht]
    have hm : (({ taken q s with prot := prot } : State).modSess i fun _ => e).sess i = e := sess_modSess ..
    rw [← hm] at he
    exact he

theorem hello_wrongDigest (hd : datagram 1 q p b s) (hc : (readMrp b).count = 1) (h : HelloAdmitted p (b.drop 32) s)
    (hk : slice (b.drop 32) 4 8 ≠ (sha256 s.staticKey).take 8) : ∃ t, exec .hello s = .next t ∧ dequeued q s t ∧
      t.eth.sessions = s.eth.sessions ∧ partCounter p.part 6 t = oneMore (partCounter p.part 6 s) := by
  refine ⟨(taken q s).countPart p.part 6, ?_, dequeued_of_eth rfl rfl, rfl, partCounter_countPart⟩
  rw [hello_handled hd hc, helloBody_wrongDigest (h.taken q) ((taken_staticKey q s).symm ▸ hk)]

/-! CONFIRM, HEARTBEAT and CLOSE. -/

theorem confirm_handled {body : List Byte} (hd : datagram 3 q p b s) (ho : opens .half i body p b s) :
    exec .confirm s = .next (if body == (s.sess i).clientTag then
      ((opened q i b s).modSess i fun e => { e with st := .openS, lastAt := (opened q i b s).time.toNat }).sendHback i p
    else { opened q i b s with eth := { (opened q i b s).eth with sessions := SMap.drop (opened q i b s).eth.sessions i } }) := by
  show Host.Outcome.next _ = _
  rw [mrpTake_verify hd ho (.inr ⟨rfl, rfl⟩)]
  dsimp only
  rw [opened_sess]
  rfl

/-- HBACK, or the lapse of a session that has no SEQ left for it, leaves the ports and the other sessions alone. -/
theorem sendHback_kept (ho : (s.sess i).st = .openS) (p : Peer) : (s.sendHback i p).eth.queues = s.eth.queues ∧
    (s.sendHback i p).eth.ports = s.eth.ports ∧ onlySession i s (s.sendHback i p) := by
  obtain hs | hs := Nat.lt_or_ge (s.sess i).sent (2 ^ 48)
  · have r := replied_sendHback hs p
    obtain ⟨_, _, _, _, hf⟩ := r.frame
    exact ⟨by rw [hf], by rw [hf], r.others⟩
  · have he : s.sendHback i p = s.lapse i := if_pos (decide_eq_true (Nat.lt_succ_of_le hs))
    have hl := lapse_lapsed ho
    obtain ⟨_, _, _, hf⟩ := hl.frame
    rw [he]
    exact ⟨by rw [hf], by rw [hf], hl.others⟩

theorem confirm_opens {body : List Byte} (hd : datagram 3 q p b s) (ho : opens .half i body p b s) (hb : body = (s.sess i).clientTag) :
    ∃ t, exec .confirm s = .next t ∧ dequeued q s t ∧ onlySession i s t ∧ ((s.sess i).sent < 2 ^ 48 →
      (t.sess i).st = .openS ∧ (t.sess i).lastAt = s.time.toNat ∧ (readMrp b).seq ∈ (t.sess i).seen ∧ (readMrp b).seq ≤ (t.sess i).high) := by
  have hhigh := opens_window ho
  have he := confirm_handled hd ho
  rw [if_pos (by simp [hb])] at he
  set u := (opened q i b s).modSess i fun e => { e with st := .openS, lastAt := (opened q i b s).time.toNat } with hu
  have hui : u.sess i = { (s.sess i).note (readMrp b).seq with st := .openS, lastAt := s.time.toNat } := by
    rw [hu, sess_modSess, opened_sess]
    rfl
  obtain ⟨hq, hp, hother⟩ := sendHback_kept (s := u) (i := i) (by rw [hui]) p
  refine ⟨_, he, dequeued_of_eth hq hp, fun j hj => ?_, fun hs => ?_⟩
  · exact (hother j hj).trans ((sess_modSess_other _ hj).trans (opened_others q i b s j hj))
  · obtain ⟨n, hn⟩ := (replied_sendHback (s := u) (i := i) (by rw [hui]; exact hs) p).own
    rw [hn, hui]
    exact ⟨rfl, rfl, mem_seen_note hhigh⟩

theorem confirm_frees {body : List Byte} (hd : datagram 3 q p b s) (ho : opens .half i body p b s) (hb : body ≠ (s.sess i).clientTag) :
    ∃ t, exec .confirm s = .next t ∧ dequeued q s t ∧ onlySession i s t ∧ t.sess i = {} := by
  have he := confirm_handled hd ho
  rw [if_neg (by simp [hb])] at he
  exact ⟨_, he, dequeued_of_eth rfl rfl, fun j hj => (get_drop_other _ _ hj).trans (opened_others q i b s j hj), get_drop_same ..⟩

theorem heartbeat_refreshes {body : List Byte} (hd : datagram 7 q p b s) (ho : opens .openS i body p b s) (hs : (s.sess i).sent < 2 ^ 48) :
    ∃ t, exec .heartbeat s = .next t ∧ dequeued q s t ∧ onlySession i s t ∧ (t.sess i).st = .openS ∧ (t.sess i).lastAt = s.time.toNat := by
  have hst := opens_state ho
  have he : exec .heartbeat s = .next ((opened q i b s).sendHback i p) :=
    congrArg _ (mrpTake_verify hd ho (.inl rfl) fun p _ _ i _ s => s.sendHback i p)
  have r : Replied i (opened q i b s) ((opened q i b s).sendHback i p) := replied_sendHback (by rw [opened_sess]; exact hs) p
  obtain ⟨n, hn⟩ := r.own
  rw [opened_sess] at hn
  refine ⟨_, he, r.dequeued rfl rfl, fun j hj => (r.others j hj).trans (opened_others q i b s j hj), ?_⟩
  rw [hn]
  refine ⟨hst, ?_⟩
  simp [hst]

theorem close_lapses {body : List Byte} (hd : datagram 9 q p b s) (ho : opens .openS i body p b s) :
    ∃ t, exec .close s = .next t ∧ dequeued q s t ∧ onlySession i s t ∧ (t.sess i).st ≠ .openS ∧
      ∀ id r, s.ereq id = some r → r.slot = i → r.complete = false → t.ereq id = none := by
  have hst := opens_state ho
  have he : exec .close s = .next ((opened q i b s).lapse i) :=
    congrArg _ (mrpTake_verify hd ho (.inl rfl) fun _ _ _ i _ s => s.lapse i)
  have hl : Lapsed i (opened q i b s) ((opened q i b s).lapse i) := lapse_lapsed (by rw [opened_sess]; exact hst)
  refine ⟨_, he, ?_, fun j hj => (hl.others j hj).trans (opened_others q i b s j hj), hl.closed, fun id r h => ?_⟩
  · obtain ⟨_, _, _, hf⟩ := hl.frame
    rw [hf]
    exact dequeued_of_eth rfl rfl
  · exact hl.incomplete id r ((opened_ereq id).trans h)

/-! CERTREQ. -/

/-- CERTREQs that the event's port has answered in the current second (02 R50). -/
abbrev certUsed (s : State) : Nat :=
  if (s.port s.ev.a).certSecond = s.time.toNat / 1000000000 then (s.port s.ev.a).certCount else 0

theorem taken_port (q : Nat) (s : State) : (taken q s).port s.ev.a = { s.port s.ev.a with pointer := (q + 1) % 64 } := port_modPort ..

/-- The state in which a CERTREQ that is answered has been counted. -/
def certCounted (s u : State) : State :=
  u.modPort s.ev.a fun x => { x with certSecond := s.time.toNat / 1000000000, certCount := certUsed s + 1 }

theorem certreq_handled (hd : datagram 10 q p b s) : ∃ body, exec .certreq s = .next (if 1000 ≤ certUsed s then (taken q s).countPort s.ev.a 11
    else (certCounted s (taken q s)).sendPlain p 0xB 0 (readMrp b).reqid ((certCounted s (taken q s)).plainBody p) body) := by
  refine ⟨slice (certCounted s (taken q s)).certificate (8192 * (readMrp b).reqid) 8192, ?_⟩
  have hu : (if ((taken q s).port s.ev.a).certSecond == s.time.toNat / 1000000000 then ((taken q s).port s.ev.a).certCount else 0) =
      certUsed s := by
    rw [taken_port]
    simp only [beq_iff_eq]
  show Host.Outcome.next _ = _
  rw [mrpTake_datagram hd]
  dsimp only
  unfold certCounted
  rw [← hu]
  rfl

theorem certreq_effect (hd : datagram 10 q p b s) : ∃ t, exec .certreq s = .next t ∧ dequeued q s t ∧ t.eth.sessions = s.eth.sessions ∧
    (certUsed s < 1000 → (t.port s.ev.a).certSecond = s.time.toNat / 1000000000 ∧ (t.port s.ev.a).certCount = certUsed s + 1) ∧
    (1000 ≤ certUsed s → t.out = s.out ∧ portCounter s.ev.a 11 t = oneMore (portCounter s.ev.a 11 s)) := by
  obtain ⟨body, he⟩ := certreq_handled hd
  obtain hu | hu := Nat.lt_or_ge (certUsed s) 1000
  · rw [if_neg (Nat.not_le.2 hu)] at he
    obtain ⟨_, _, ht⟩ := sent_sendPlain (certCounted s (taken q s)) p 0xB 0 (readMrp b).reqid ((certCounted s (taken q s)).plainBody p) body
    rw [ht] at he
    have hp : (certCounted s (taken q s)).port s.ev.a = { s.port s.ev.a with
        pointer := (q + 1) % 64, certSecond := s.time.toNat / 1000000000, certCount := certUsed s + 1 } := by
      rw [certCounted, port_modPort, taken_port]
    refine ⟨_, he, ⟨(dequeued_taken q s).1, congrArg EthPort.pointer hp⟩, rfl, fun _ => ?_, fun h => absurd hu (Nat.not_lt.2 h)⟩
    exact ⟨congrArg EthPort.certSecond hp, congrArg EthPort.certCount hp⟩
  · rw [if_pos hu] at he
    exact ⟨_, he, dequeued_of_eth rfl rfl, rfl, fun h => absurd h (Nat.not_lt.2 hu), fun _ => ⟨rfl, portCounter_countPort⟩⟩

/-! Timers. -/

theorem sessionLapseTimeout_lapses (ho : (s.sess s.ev.a).st = .openS)
    (ht : (s.sess s.ev.a).lastAt + 3 * ((s.sess s.ev.a).period * 1000000) < s.time.toNat) :
    exec .sessionLapseTimeout s = .next (s.lapse s.ev.a) := by
  show Host.Outcome.next _ = _
  rw [if_pos (by simp [ho]; omega)]

theorem sessionLapseTimeout_waits
    (h : (s.sess s.ev.a).st ≠ .openS ∨ s.time.toNat ≤ (s.sess s.ev.a).lastAt + 3 * ((s.sess s.ev.a).period * 1000000)) :
    exec .sessionLapseTimeout s = .next s := by
  show Host.Outcome.next _ = _
  rw [if_neg (by simp; intro ho; have := h.resolve_left (not_not.2 ho); omega)]

theorem halfTimeout_frees (hh : (s.sess s.ev.a).st = .half) (ht : (s.sess s.ev.a).lastAt + 100000000 ≤ s.time.toNat) :
    exec .halfTimeout s = .next { s with eth := { s.eth with sessions := SMap.drop s.eth.sessions s.ev.a } } := by
  show Host.Outcome.next _ = _
  rw [if_pos (by simp [hh, ht])]

theorem halfTimeout_waits (h : (s.sess s.ev.a).st ≠ .half ∨ s.time.toNat < (s.sess s.ev.a).lastAt + 100000000) :
    exec .halfTimeout s = .next s := by
  show Host.Outcome.next _ = _
  rw [if_neg (by simp; intro hh; have := h.resolve_left (not_not.2 hh); omega)]

end

/-- Sessions as stated. -/
theorem mrpSessions_holds : MrpSessions := by
  intro s q p b
  extract_lets h m now
  refine ⟨fun hd hc hbind hhalf hquota hk => ?hello, fun i body hd ho => ?confirm, fun i body hd ho hs => heartbeat_refreshes hd ho hs,
    fun i body hd ho => close_lapses hd ho, fun hd => certreq_effect hd, fun ho ht => ?lapse, sessionLapseTimeout_waits, fun hh ht => ?half,
    halfTimeout_waits⟩
  case hello =>
    obtain ⟨hst, hpurp, hpart⟩ := hk
    have ha : HelloAdmitted p m s := ⟨hbind, hhalf, hquota, hst, hpurp, hpart⟩
    refine ⟨fun hdig hp hp' i hi hf hlow => ?_, hello_wrongDigest hd hc ha⟩
    obtain ⟨t, he, hq, hother, hs⟩ := hello_claims hd hc ha hdig hp hp' hi hf hlow
    exact ⟨t, he, hq, hs.st, hs.sid, hs.part, hs.binding, hs.period, hs.lastAt, hs.sent, hother⟩
  case confirm =>
    by_cases hb : body = (s.sess i).clientTag
    · obtain ⟨t, he, hq, ho, hopen⟩ := confirm_opens hd ho hb
      exact ⟨t, he, hq, ho, fun _ => hopen, fun h => absurd hb h⟩
    · obtain ⟨t, he, hq, ho, hfree⟩ := confirm_frees hd ho hb
      exact ⟨t, he, hq, ho, fun h => absurd h hb, fun _ => hfree⟩
  case lapse => exact ⟨_, sessionLapseTimeout_lapses ho ht, (lapse_lapsed ho).others, (lapse_lapsed ho).closed⟩
  case half => exact ⟨_, halfTimeout_frees hh ht, fun j hj => get_drop_other _ _ hj, get_drop_same ..⟩

end Sys2Proof.Proofs
end

section
/-! Requests: the first datagram, fragments, and the reassembly time-out (O45). -/
namespace Sys2Proof.Proofs
open Sys2Proof Sys2Proof.Machine Sys2Proof.Laws Sys2Proof.Stated

section
variable {s : State} {q i : Nat} {p : Peer} {b body : List Byte} {h : Mrp}

/-! The receive slot. -/

/-- `t` differs from `s` in memory at most. -/
def MemOnly (s t : State) : Prop := ∃ m, t = { s with mem := m }

theorem MemOnly.trans {t u : State} (h : MemOnly s t) (k : MemOnly t u) : MemOnly s u := by
  obtain ⟨_, rfl⟩ := h
  obtain ⟨_, rfl⟩ := k
  exact ⟨_, rfl⟩

theorem memOnly_foldl {α : Type} {f : State → α → State} (hf : ∀ s a, MemOnly s (f s a)) (l : List α) (s : State) :
    MemOnly s (l.foldl f s) := by
  induction l generalizing s with
  | nil => exact ⟨_, rfl⟩
  | cons a l ih => exact (hf s a).trans (ih _)

theorem memOnly_putLine (s : State) (pa : Nat) (bs : List Byte) (mask : List Bool) (stamp tag : Nat) :
    MemOnly s (s.putLine pa bs mask stamp tag) := by
  unfold State.putLine State.tagPage
  extract_lets
  split
  · exact ⟨_, rfl⟩
  · exact ⟨_, rfl⟩

theorem memOnly_fillSlot (s : State) (r : Request) (body : List Byte) : MemOnly s (s.fillSlot r body) := by
  unfold State.fillSlot
  extract_lets a mask u
  have hu : MemOnly s u := memOnly_putLine ..
  split
  · exact hu
  · exact hu.trans (memOnly_foldl (fun _ _ => (memOnly_putLine ..).trans ⟨_, rfl⟩) _ _)

/-! A request whose datagrams are all there. -/

/-- The whole request `r` has passed to Circulation under the identifier `id`. -/
structure PassedOn (id : Nat) (r : Request) (s t : State) : Prop where
  frame : ∃ mem circ req part, t = { s with mem := mem, circ := circ, eth := { s.eth with requests := req, partCtr := part } }
  own : t.ereq id = some { r with complete := true }
  others : ∀ j, j ≠ id → t.ereq j = s.ereq j
  lane : ∃ x, t.circ.ethLane = s.circ.ethLane ++ [x] ∧ x.mcx = r.mcx ∧ x.request = some id

theorem requestDone_passes {id : Nat} {r : Request} (hl : (joinBodies r.bodies r.frags).length = r.tlen) :
    PassedOn id r s (s.requestDone id r) := by
  unfold State.requestDone
  extract_lets whole u r' v template record
  rw [if_neg (by simp [whole, hl])]
  have hv : v = ((u.setEreq id (some r')).fillSlot r' whole).countPart r'.part 0 := rfl
  have hown : (u.setEreq id (some r')).ereq id = some r' := ereq_setEreq ..
  have hothers : ∀ j, j ≠ id → (u.setEreq id (some r')).ereq j = s.ereq j := fun j hj =>
    (ereq_setEreq_other _ hj).trans (ereq_setEreq_other _ hj)
  have hframe : ∃ req, u.setEreq id (some r') = { s with eth := { s.eth with requests := req } } := ⟨_, rfl⟩
  obtain ⟨m, hm⟩ := memOnly_fillSlot (u.setEreq id (some r')) r' whole
  obtain ⟨req, hreq⟩ := hframe
  rw [hm, hreq] at hv
  rw [hreq] at hown hothers
  clear_value v
  subst hv
  exact ⟨⟨_, _, _, _, rfl⟩, hown, hothers, _, rfl, rfl, rfl⟩

/-! The first datagram of a request. -/

/-- The request that its first datagram makes (02 R53 R55). -/
def newRequest (i : Nat) (p : Peer) (h : Mrp) (body : List Byte) (k pair : Nat) (s : State) : Request :=
  { slot := i, func := h.func, reqid := h.reqid, tlen := h.tlen, frags := h.count, bodies := [(h.frag, some body)], part := (s.sess i).part
    mcx := (s.catEntry k).mcx, pair := pair, firstAt := s.time.toNat, peer := p }

/-- An identifier and a slot pair are taken for a request of session `i`. -/
def placed (i pair : Nat) (s : State) : State :=
  { s with eth := { s.eth with
    nextReq := s.eth.nextReq + 1
    pools := SMap.upd s.eth.pools (s.sess i).part {} fun q => { q with held := q.held ++ [pair] } } }

theorem placed_held (i pair : Nat) (s : State) :
    ((placed i pair s).epool (s.sess i).part).held = (s.epool (s.sess i).part).held ++ [pair] :=
  congrArg EthPool.held (get_set_same s.eth.pools _ _ _)

/-- Session `i` has room for a request with this REQID (02 R53 R54). -/
structure RequestRoom (i : Nat) (h : Mrp) (s : State) : Prop where
  fresh : s.ereqOf i h.reqid = none
  room : (s.eth.requests.filter fun x => match x.2 with | some r => r.slot == i | none => false).length < 256

theorem requestFirst_noEntry (hr : RequestRoom i h s) (hc : s.catLookup (s.sess i).binding h.func = none) :
    s.requestFirst i p h body = s.sendError i p h.func h.reqid 1 0 := by
  unfold State.requestFirst
  extract_lets e err inFlight
  have hroom : ¬ 256 ≤ inFlight := Nat.not_le.2 hr.room
  rw [if_neg (by simp [hr.fresh]), if_neg hroom, hc]

theorem requestFirst_placed {k pair : Nat} (hr : RequestRoom i h s) (hc : s.catLookup (s.sess i).binding h.func = some k)
    (hp : (s.catEntry k).part = (s.sess i).part) (hf : s.freePairOf (s.sess i).part = some pair)
    (hl : h.tlen ≤ (s.epool (s.sess i).part).slotBytes - 128) : s.requestFirst i p h body =
      if h.count == 1 then (placed i pair s).requestDone s.eth.nextReq (newRequest i p h body k pair s)
      else (placed i pair s).setEreq s.eth.nextReq (some (newRequest i p h body k pair s)) := by
  unfold State.requestFirst
  extract_lets e err inFlight
  have hroom : ¬ 256 ≤ inFlight := Nat.not_le.2 hr.room
  rw [if_neg (by simp [hr.fresh]), if_neg hroom, hc]
  dsimp only
  rw [if_neg (by simp [hp, e]), hf]
  exact if_neg (Nat.not_lt.2 hl)

/-- The request of one datagram is that datagram. -/
theorem joinBodies_single (body : List Byte) : joinBodies [(0, some body)] 1 = body := by
  simp [joinBodies, SMap.get]

/-- The request `r` has been taken with a slot pair and an identifier, and has passed on if `whole`. -/
structure Claimed (i pair : Nat) (r : Request) (whole : Bool) (s t : State) : Prop where
  frame : ∃ mem circ req part, t = { placed i pair s with
    mem := mem, circ := circ, eth := { (placed i pair s).eth with requests := req, partCtr := part } }
  own : t.ereq s.eth.nextReq = some { r with complete := whole }
  others : ∀ id, id ≠ s.eth.nextReq → t.ereq id = s.ereq id
  waits : whole = false → t.circ = s.circ
  lane : whole = true → ∃ x, t.circ.ethLane = s.circ.ethLane ++ [x] ∧ x.mcx = r.mcx ∧ x.request = some s.eth.nextReq

theorem requestFirst_claims {k pair : Nat} (hr : RequestRoom i h s) (hc : s.catLookup (s.sess i).binding h.func = some k)
    (hp : (s.catEntry k).part = (s.sess i).part) (hf : s.freePairOf (s.sess i).part = some pair)
    (hl : h.tlen ≤ (s.epool (s.sess i).part).slotBytes - 128) (hb : h.count = 1 → h.frag = 0 ∧ body.length = h.tlen) :
    Claimed i pair (newRequest i p h body k pair s) (decide (h.count = 1)) s (s.requestFirst i p h body) := by
  rw [requestFirst_placed hr hc hp hf hl]
  by_cases h1 : h.count = 1
  · obtain ⟨h0, hlen⟩ := hb h1
    have hj : (joinBodies (newRequest i p h body k pair s).bodies (newRequest i p h body k pair s).frags).length =
        (newRequest i p h body k pair s).tlen := by
      simp only [newRequest, h0, h1, joinBodies_single, hlen]
    have hpass := requestDone_passes (s := placed i pair s) (id := s.eth.nextReq) hj
    rw [if_pos (beq_iff_eq.2 h1), decide_eq_true h1]
    exact ⟨hpass.frame, hpass.own, hpass.others, nofun, fun _ => hpass.lane⟩
  · rw [if_neg (by simpa using h1), decide_eq_false h1]
    exact ⟨⟨_, _, _, _, rfl⟩, ereq_setEreq .., fun _ hj => ereq_setEreq_other _ hj, fun _ => rfl, nofun⟩

/-! REQUEST. -/

section
variable (q i : Nat) (b : List Byte) (s : State)

theorem opened_ereqOf (j reqid : Nat) : (opened q i b s).ereqOf j reqid = s.ereqOf j reqid := by
  obtain ⟨_, _, _, h⟩ := opened_frame q i b s
  rw [h]
  rfl

theorem opened_catLookup (bind func : Nat) : (opened q i b s).catLookup bind func = s.catLookup bind func := by
  obtain ⟨_, _, _, h⟩ := opened_frame q i b s
  rw [h]
  rfl

theorem opened_catEntry (k : Nat) : (opened q i b s).catEntry k = s.catEntry k := by
  obtain ⟨_, _, _, h⟩ := opened_frame q i b s
  rw [h]
  rfl

theorem opened_freePairOf (part : Nat) : (opened q i b s).freePairOf part = s.freePairOf part := by
  obtain ⟨_, _, _, h⟩ := opened_frame q i b s
  rw [h]
  rfl

theorem opened_epool (part : Nat) : (opened q i b s).epool part = s.epool part := by
  obtain ⟨_, _, _, h⟩ := opened_frame q i b s
  rw [h]
  rfl

theorem opened_requests : (opened q i b s).eth.requests = s.eth.requests := by
  obtain ⟨_, _, _, h⟩ := opened_frame q i b s
  rw [h]

theorem opened_pools : (opened q i b s).eth.pools = s.eth.pools := by
  obtain ⟨_, _, _, h⟩ := opened_frame q i b s
  rw [h]

theorem opened_nextReq : (opened q i b s).eth.nextReq = s.eth.nextReq := by
  obtain ⟨_, _, _, h⟩ := opened_frame q i b s
  rw [h]

theorem opened_circ : (opened q i b s).circ = s.circ := rfl

theorem opened_binding : ((opened q i b s).sess i).binding = (s.sess i).binding := by
  rw [opened_sess]
  rfl

theorem opened_part : ((opened q i b s).sess i).part = (s.sess i).part := by
  rw [opened_sess]
  rfl

end

theorem RequestRoom.opened (hr : RequestRoom i h s) (q : Nat) (b : List Byte) : RequestRoom i h (opened q i b s) :=
  ⟨(opened_ereqOf ..).trans hr.fresh, (opened_requests q i b s).symm ▸ hr.room⟩

theorem datagram_frag {ty : Nat} (hd : datagram ty q p b s) : (readMrp b).frag < (readMrp b).count := by
  obtain ⟨_, _, _, _, _, hok⟩ := hd
  unfold mrpOk at hok
  simp only [Bool.and_eq_true, decide_eq_true_eq] at hok
  obtain ⟨⟨⟨⟨⟨⟨⟨_, hfrag⟩, _⟩, _⟩, _⟩, _⟩, _⟩, _⟩ := hok
  exact hfrag

section
variable (hd : datagram 4 q p b s) (ho : opens .openS i body p b s)
include hd ho

theorem request_first (hn : s.ereqOf i (readMrp b).reqid = none) :
    exec .request s = .next ((opened q i b s).requestFirst i p (readMrp b) body) := by
  show Host.Outcome.next _ = _
  rw [mrpTake_verify hd ho (.inl rfl)]
  dsimp only
  rw [opened_ereqOf, hn]

theorem request_joins {id : Nat} {r : Request} (hr : s.ereqOf i (readMrp b).reqid = some (id, r)) (hc : r.complete = false)
    (hfunc : (readMrp b).func = r.func) (htlen : (readMrp b).tlen = r.tlen) (hcount : (readMrp b).count = r.frags)
    (hnew : SMap.get r.bodies (readMrp b).frag none = none) (hmore : (SMap.put r.bodies (readMrp b).frag (some body)).length ≠ r.frags) :
    exec .request s = .next ((opened q i b s).setEreq id
      (some { r with bodies := SMap.put r.bodies (readMrp b).frag (some body), peer := p })) := by
  show Host.Outcome.next _ = _
  rw [mrpTake_verify hd ho (.inl rfl)]
  dsimp only
  rw [opened_ereqOf, hr]
  dsimp only
  rw [if_neg (by simp [hc]), if_neg (by simp [hfunc, htlen, hcount, hnew]), if_neg (by simpa using hmore)]

theorem request_noEntry (hr : RequestRoom i (readMrp b) s) (hc : s.catLookup (s.sess i).binding (readMrp b).func = none)
    (hs : (s.sess i).sent < 2 ^ 48) : ∃ t, exec .request s = .next t ∧ dequeued q s t ∧ t.eth.requests = s.eth.requests ∧ t.circ = s.circ ∧
      t.eth.pools = s.eth.pools := by
  have hst := opens_state ho
  have he := request_first hd ho hr.fresh
  rw [requestFirst_noEntry (hr.opened q b) (by rw [opened_binding, opened_catLookup]; exact hc)] at he
  have rep : Replied i (opened q i b s) ((opened q i b s).sendError i p (readMrp b).func (readMrp b).reqid 1 0) :=
    replied_sendError (by rw [opened_sess]; exact hst) (by rw [opened_sess]; exact hs) ..
  obtain ⟨_, _, _, _, hf⟩ := rep.frame
  refine ⟨_, he, rep.dequeued rfl rfl, ?_, ?_, ?_⟩
  · rw [hf]; exact opened_requests q i b s
  · rw [hf]; exact opened_circ q i b s
  · rw [hf]; exact opened_pools q i b s

theorem request_claims {k pair : Nat} (hr : RequestRoom i (readMrp b) s) (hc : s.catLookup (s.sess i).binding (readMrp b).func = some k)
    (hp : (s.catEntry k).part = (s.sess i).part) (hf : s.freePairOf (s.sess i).part = some pair)
    (hl : (readMrp b).tlen ≤ (s.epool (s.sess i).part).slotBytes - 128) (hb : (readMrp b).count = 1 → body.length = (readMrp b).tlen) :
    ∃ t, exec .request s = .next t ∧ Claimed i pair (newRequest i p (readMrp b) body k pair (opened q i b s))
      (decide ((readMrp b).count = 1)) (opened q i b s) t := by
  refine ⟨_, request_first hd ho hr.fresh, requestFirst_claims (hr.opened q b) ?_ ?_ ?_ ?_ fun h1 => ⟨?_, hb h1⟩⟩
  · rw [opened_binding, opened_catLookup]; exact hc
  · rw [opened_part, opened_catEntry]; exact hp
  · rw [opened_part, opened_freePairOf]; exact hf
  · rw [opened_part, opened_epool]; exact hl
  · have := datagram_frag hd; omega

end

/-! The reassembly time-out. -/

theorem reassemblyTimeout_ends {r : Request} (hr : s.ereq s.ev.a = some r) (hc : r.complete = false)
    (ht : r.firstAt + 10000000 ≤ s.time.toNat) : ∃ t, exec .reassemblyTimeout s = .next t ∧ t.ereq s.ev.a = none := by
  refine ⟨((s.errorFor r 4 0).dropEreq s.ev.a).settleSess r.slot, ?_, (ereq_settleSess ..).trans (ereq_dropEreq ..)⟩
  show execReassemblyTimeout s = _
  unfold execReassemblyTimeout
  rw [hr]
  dsimp only
  rw [if_pos (by simp [hc, ht]), State.failEreq, hr]

theorem reassemblyTimeout_waits {r : Request} (hr : s.ereq s.ev.a = some r)
    (h : r.complete = true ∨ s.time.toNat < r.firstAt + 10000000) : exec .reassemblyTimeout s = .next s := by
  show execReassemblyTimeout s = _
  unfold execReassemblyTimeout
  rw [hr]
  dsimp only
  rw [if_neg (by simp; intro hc; have := h.resolve_left (by simp [hc]); omega)]

end

/-- Requests as stated. -/
theorem mrpRequests_holds : MrpRequests := by
  intro s q p b i body
  extract_lets h e
  refine ⟨fun hd ho => ⟨fun hn hroom => ⟨fun hc hs => ?noEntry, fun k pair hc hp hf hl hb => ?claims⟩,
    fun id r hr hc hfunc htlen hcount hnew hmore => ?joins⟩, fun r hr hc ht => reassemblyTimeout_ends hr hc ht,
    fun r hr hw => reassemblyTimeout_waits hr hw⟩
  case noEntry => exact request_noEntry hd ho ⟨hn, hroom⟩ hc hs
  case claims =>
    obtain ⟨t, he, ⟨mem, circ, req, part, hframe⟩, hown, hothers, hwaits, hlane⟩ := request_claims hd ho ⟨hn, hroom⟩ hc hp hf hl hb
    rw [opened_nextReq] at hown hothers hlane
    refine ⟨t, he, ?_, ?_, ?_, fun id hid => (hothers id hid).trans (opened_ereq id),
      ⟨_, hown, rfl, rfl, rfl, rfl, opened_part .., congrArg CatalogEntry.mcx (opened_catEntry ..), rfl, rfl⟩,
      fun h1 => hwaits (decide_eq_false h1), fun h1 => ?_⟩
    · rw [hframe]; exact dequeued_of_eth rfl rfl
    · rw [hframe]; exact congrArg (· + 1) (opened_nextReq q i b s)
    · have hheld := placed_held i pair (opened q i b s)
      rw [opened_part, opened_epool] at hheld
      rw [hframe]; exact hheld
    · obtain ⟨x, hx, hm, hq⟩ := hlane (decide_eq_true h1)
      exact ⟨x, hx, hm.trans (congrArg CatalogEntry.mcx (opened_catEntry ..)), hq⟩
  case joins =>
    exact ⟨_, request_joins hd ho hr hc hfunc htlen hcount hnew hmore, dequeued_of_eth rfl rfl, ereq_setEreq ..,
      fun j hj => (ereq_setEreq_other _ hj).trans (opened_ereq j), rfl⟩

/-- Settles O45: the sessions' clauses and the requests', each from the checks that hand its datagram on. -/
theorem mrpSessionsAndRequests : Obligations.MrpSessionsAndRequests := ⟨mrpSessions_holds, mrpRequests_holds⟩

end Sys2Proof.Proofs
end

section
/-! A WRITEACK that answers the READ of a loading segment (O46). -/
namespace Sys2Proof.Proofs
open Sys2Proof Sys2Proof.Machine Sys2Proof.Laws Sys2Proof.Stated

/-- A WRITEACK of OPID 99 from package 2 for package 1: the request has failed with WINDOW (03 R75). -/
def refusal : Pk := { kind := 4, status := 2, dpkg := 1, spkg := 2, opid := 99, data := natLe 224 0 }

/-- It comes at port 0 of package 1, where no fabric operation is under way and segment 0 loads from package 2 by a READ of that OPID. -/
def readRefused : State :=
  { State.reset with
    ev := { bytes := refusal.bytes }
    mem := { segs := [(0, { st := 1, fromPeer := true, opid := 99, peer := 2 })] }
    sl := { pkg := 1, ports := [(0, { link := true })] } }

theorem readRefused_arrives : arrives 4 refusal readRefused ∧ refusal.dpkg = readRefused.sl.pkg ∧ fabricIdle readRefused := by decide +kernel

/-- The refusal ends the load: the segment's entry counts as failed (08 R240 R241). -/
theorem fabWriteAck_readRefused : ∃ t, exec .fabWriteAck readRefused = .next t ∧ (t.seg 0).failed = true := ⟨_, rfl, by decide +kernel⟩

/-- Refutes O46: a WRITEACK that finds no fabric operation need not leave memory as it was; it ends the load of the segment whose READ it
answers (08 R240 R241). -/
theorem not_fabricPacketsAndOperations : ¬ Obligations.FabricPacketsAndOperations := by
  rintro ⟨hp, -⟩
  obtain ⟨-, -, -, -, -, -, -, -, -, hidle, -⟩ := hp readRefused refusal 0
  obtain ⟨ha, hd, hi⟩ := readRefused_arrives
  obtain ⟨t, he, hmem, -⟩ := hidle ha hd hi
  obtain ⟨u, hu, hfailed⟩ := fabWriteAck_readRefused
  obtain rfl := Host.Outcome.next.inj (he.symm.trans hu)
  have hseg : t.seg 0 = readRefused.seg 0 := by rw [State.seg, hmem, State.seg]
  rw [hseg] at hfailed
  exact Bool.noConfusion hfailed

end Sys2Proof.Proofs
end

section
/-! The state of Smivy: ports, counters and send queues after each of their updates, and a fabric engine that has nothing to do (O47). -/
namespace Sys2Proof.Proofs
open Sys2Proof Sys2Proof.Machine Sys2Proof.Laws Sys2Proof.Stated

section
variable {s t u : State} {n k m : Nat}

theorem slp_modSlp_other (g : SlPort → SlPort) (h : m ≠ n) : (s.modSlp n g).slp m = s.slp m := get_set_other _ _ _ _ h

theorem slp_countSl (j x m : Nat) : (s.countSl n j x).slp m = s.slp m := rfl

theorem slp_of_ports (h : t.sl.ports = s.sl.ports) (k : Nat) : t.slp k = s.slp k := by rw [State.slp, h, State.slp]

theorem slp_emit (o : Output) (m : Nat) : (s.emit o).slp m = s.slp m := rfl

theorem linkCounter_countSl : linkCounter n k (s.countSl n k 1) = oneMore (linkCounter n k s) := get_set_same _ _ _ _

theorem linkCounter_countSl_other {j : Nat} (x : Nat) (hk : k < 32) (hj : j < 32) (h : k ≠ j) :
    linkCounter n k (s.countSl m j x) = linkCounter n k s :=
  get_set_other _ _ _ _ (by omega)

theorem linkCounter_modSlp (g : SlPort → SlPort) : linkCounter n k (s.modSlp m g) = linkCounter n k s := rfl

theorem linkCounter_emit (o : Output) : linkCounter n k (s.emit o) = linkCounter n k s := rfl

/-! Sending and queueing. -/

theorem slp_queueAt (n : Nat) (p : Pk) (s : State) :
    (s.queueAt n p).slp n = { s.slp n with sendq := (s.slp n).sendq ++ [{ pk := p }] } := slp_modSlp ..

theorem slp_queueAt_other (p : Pk) (h : m ≠ n) : (s.queueAt n p).slp m = s.slp m := slp_modSlp_other _ h

theorem queued_queueAt (n : Nat) (p : Pk) (s : State) : queued n [p] s (s.queueAt n p) := congrArg SlPort.sendq (slp_queueAt ..)

theorem sendFlit_slp (n : Nat) (f : List Byte) (s : State) : (s.sendFlit n f).slp n = { s.slp n with
    txSeq := ((s.slp n).txSeq + 1) % 2 ^ 12
    retry := ((s.slp n).retry ++ [((s.slp n).txSeq, s.wholeFlit n f)]).drop ((s.slp n).retry.length + 1 - 512)
    got := if (s.creditDue n).2 == 0 then (s.slp n).got
      else SMap.upd (s.slp n).got (s.creditDue n).1 0 fun k => k - (s.creditDue n).2 } := by
  unfold State.sendFlit
  dsimp only
  rw [slp_emit, slp_modSlp, slp_countSl]

theorem sendFlit_slp_other (f : List Byte) (h : m ≠ n) : (s.sendFlit n f).slp m = s.slp m := slp_modSlp_other _ h

theorem sendFlit_out (n : Nat) (f : List Byte) (s : State) : (s.sendFlit n f).out = .flit n (s.wholeFlit n f) :: s.out := rfl

theorem linkCounter_sendFlit (n : Nat) (f : List Byte) (s : State) : linkCounter n 0 (s.sendFlit n f) = oneMore (linkCounter n 0 s) := by
  unfold State.sendFlit
  dsimp only
  rw [linkCounter_emit, linkCounter_modSlp, linkCounter_countSl]

/-- A flit that has just been sent is the newest of the retry buffer. -/
theorem sendFlit_retry (n : Nat) (f : List Byte) (s : State) :
    ((s.sendFlit n f).slp n).retry.getLast? = some ((s.slp n).txSeq, s.wholeFlit n f) := by
  rw [sendFlit_slp]
  dsimp only
  rw [List.getLast?_drop, if_neg (by simp only [List.length_append, List.length_singleton]; omega), List.getLast?_concat]

/-! The fabric engine. -/

theorem fabricIdle_of (hi : fabricIdle s) (hc : t.cores = s.cores) (hr : t.sl.rx = s.sl.rx) : fabricIdle t := by
  unfold fabricIdle
  rw [hc, hr]
  exact hi

theorem fabricIdle_modSlp (n : Nat) (g : SlPort → SlPort) (hi : fabricIdle s) : fabricIdle (s.modSlp n g) := fabricIdle_of hi rfl rfl

theorem fabricIdle_countSl (n k x : Nat) (hi : fabricIdle s) : fabricIdle (s.countSl n k x) := fabricIdle_of hi rfl rfl

theorem fabricIdle_draw (hi : fabricIdle s) : fabricIdle s.draw := fabricIdle_of hi rfl rfl

theorem fabricIdle_emit (o : Output) (hi : fabricIdle s) : fabricIdle (s.emit o) := fabricIdle_of hi rfl rfl

theorem fabricPump_idle (hi : fabricIdle s) : s.fabricPump = s := by
  obtain ⟨hops, hrx⟩ := hi
  have hreads : s.retryReads = s := by
    have h : (s.sl.rx.filter fun p => p.kind == 2) = [] := by simpa using hrx
    rw [State.retryReads, h, List.foldl_nil]
  have hlist : s.fabricList = [] := by
    have h : (s.cores.flatMap fun e => e.2.ctx.fabricq.map fun o => (e.1, o.id, o.seq)) = [] :=
      List.flatMap_eq_nil_iff.2 fun e he => by rw [hops e he, List.map_nil]
    rw [State.fabricList, h, List.mergeSort_nil]
  rw [State.fabricPump, hreads, hlist, List.foldl_nil]

theorem fabricIdle_keepPk {p : Pk} (hi : fabricIdle s) (hk : p.kind ≠ 2) : fabricIdle (s.keepPk p) :=
  ⟨hi.1, fun q hq => by
    obtain h | h := List.mem_append.1 hq
    · exact hi.2 q h
    · rwa [List.mem_singleton.1 h]⟩

theorem fabricIdle_mapFabric (f : Option Nat → FabricOp → FabricOp) (hi : fabricIdle s) : fabricIdle (s.mapFabric f) :=
  ⟨fun e he => by
    obtain ⟨x, hx, rfl⟩ := List.mem_map.1 he
    exact congrArg (List.map _) (hi.1 x hx), hi.2⟩

/-! What answers and notifications may change. -/

/-- From `s` to `t` links stay as they are, ports whose link is down are unchanged, and of the counters only those of drops without a route
(03 R71 R89) rise: packets have been queued where a link is up, kept or dropped. A fabric engine without work has none in `t` either. -/
structure Routed (s t : State) : Prop where
  link : ∀ n, (t.slp n).link = (s.slp n).link
  down : ∀ n, (s.slp n).link = false → t.slp n = s.slp n
  counter : ∀ n k, k < 32 → k ≠ 5 → linkCounter n k t = linkCounter n k s
  idle : fabricIdle s → fabricIdle t

theorem Routed.refl (s : State) : Routed s s := ⟨fun _ => rfl, fun _ _ => rfl, fun _ _ _ _ => rfl, id⟩

theorem Routed.trans (h : Routed s t) (g : Routed t u) : Routed s u where
  link n := (g.link n).trans (h.link n)
  down n hn := (g.down n ((h.link n).trans hn)).trans (h.down n hn)
  counter n k hk h5 := (g.counter n k hk h5).trans (h.counter n k hk h5)
  idle hi := g.idle (h.idle hi)

theorem routed_of_ports (hp : t.sl.ports = s.sl.ports) (hc : t.sl.ctr = s.sl.ctr) (hi : fabricIdle s → fabricIdle t) : Routed s t := by
  have hs (n : Nat) : t.slp n = s.slp n := slp_of_ports hp n
  exact ⟨fun n => by rw [hs], fun n _ => hs n, fun n k _ _ => by rw [linkCounter, hc, linkCounter], hi⟩

theorem routed_foldl {α : Type} {f : State → α → State} (hf : ∀ s a, Routed s (f s a)) (l : List α) (s : State) : Routed s (l.foldl f s) := by
  induction l generalizing s with
  | nil => exact .refl s
  | cons a l ih => exact (hf s a).trans (ih _)

theorem routed_countSl (s : State) (n : Nat) : Routed s (s.countSl n 5 1) where
  link _ := rfl
  down _ _ := rfl
  counter _ _ hk h5 := linkCounter_countSl_other 1 hk (by decide) h5
  idle := fabricIdle_countSl n 5 1

theorem routed_queueAt (p : Pk) (hl : (s.slp n).link = true) : Routed s (s.queueAt n p) where
  link m := by
    by_cases h : m = n
    · rw [h, slp_queueAt]
    · rw [slp_queueAt_other p h]
  down m hm := slp_queueAt_other p fun h => by rw [h, hl] at hm; cases hm
  counter _ _ _ _ := rfl
  idle := fabricIdle_modSlp n _

theorem routed_segmentData (s : State) (p : Pk) : Routed s (s.segmentData p) := by
  have h : (s.segmentData p).sl = s.sl ∧ (s.segmentData p).cores = s.cores := by
    unfold State.segmentData
    dsimp only
    split
    · exact ⟨rfl, rfl⟩
    · split <;> simp
  exact routed_of_ports (congrArg Sl.ports h.1) (congrArg Sl.ctr h.1) fun hi => fabricIdle_of hi h.2 (congrArg Sl.rx h.1)

theorem routed_deliver (s : State) {p : Pk} (hk : p.kind ≠ 2) : Routed s (s.deliver p) := by
  unfold State.deliver
  split
  · exact routed_of_ports rfl rfl fun hi => fabricIdle_keepPk hi hk
  · exact routed_segmentData s p

theorem routed_sendAnswer (s : State) {p : Pk} (hk : p.kind ≠ 2) : Routed s (s.sendAnswer p) := by
  unfold State.sendAnswer State.routed
  split
  · exact routed_deliver s hk
  · cases s.routePort p.dpkg p.part with
    | none => exact routed_countSl s 0
    | some n =>
      dsimp only
      by_cases hl : (s.slp n).link = true
      · rw [if_pos hl]
        exact routed_queueAt p hl
      · rw [if_neg hl]
        exact routed_countSl s n

theorem routed_failPk (s : State) (p : Pk) (st : Nat) : Routed s (s.failPk p st) := by
  unfold State.failPk
  split
  · exact routed_sendAnswer s (show 4 ≠ 2 by decide)
  · exact .refl s

theorem routed_learnParent (s : State) : Routed s s.learnParent := by
  unfold State.learnParent
  split
  · exact routed_of_ports rfl rfl fun hi => fabricIdle_of hi rfl rfl
  · split <;> exact routed_of_ports rfl rfl fun hi => fabricIdle_of hi rfl rfl

/-- A request that is dropped is answered on the way to its sender (03 R71 R72). -/
theorem failPk_answered {p : Pk} (st : Nat) (hr : p.isRequest = true) (hw : way p.spkg p.part n s) :
    s.failPk p st = s.queueAt n (p.answer 4 st p.part) := by
  obtain ⟨hd, hp, hl⟩ := hw
  have hp' : s.routePort (p.answer 4 st p.part).dpkg (p.answer 4 st p.part).part = some n := hp
  have hd' : ¬ ((p.answer 4 st p.part).dpkg == s.sl.pkg) = true := fun h => hd (beq_iff_eq.1 h)
  simp only [State.failPk, if_pos hr, State.sendAnswer, if_neg hd', State.routed, hp', if_pos hl]

/-! Fault notifications (03 R83). -/

theorem mem_upPorts (s : State) (n : Nat) : n ∈ s.upPorts ↔ n < 16 ∧ (s.slp n).link = true := by
  simp [State.upPorts]

theorem nodup_upPorts (s : State) : s.upPorts.Nodup := List.nodup_range.filter _

/-- The copy of notification `p` that goes to the peer of port `n`. -/
def floodCopy (p : Pk) (s : State) (n : Nat) : Pk := { p with dpkg := (s.slp n).peer, spkg := s.sl.pkg, shares := [] }

theorem flood_cons (p : Pk) (n : Nat) (l : List Nat) (s : State) :
    s.flood p (n :: l) = (s.queueAt n (floodCopy p s n)).flood p l := rfl

theorem flood_slp_other {l : List Nat} (p : Pk) (h : n ∉ l) : (s.flood p l).slp n = s.slp n := by
  induction l generalizing s with
  | nil => rfl
  | cons m l ih =>
    rw [List.mem_cons, not_or] at h
    rw [flood_cons, ih h.2, slp_queueAt_other _ h.1]

theorem queued_flood {l : List Nat} (p : Pk) (hl : l.Nodup) (h : n ∈ l) : queued n [floodCopy p s n] s (s.flood p l) := by
  induction l generalizing s with
  | nil => exact absurd h List.not_mem_nil
  | cons m l ih =>
    obtain ⟨hm, hl⟩ := List.nodup_cons.1 hl
    rw [flood_cons]
    obtain rfl | h := List.mem_cons.1 h
    · rw [queued, flood_slp_other p hm]
      exact queued_queueAt ..
    · have hne : n ≠ m := fun e => hm (e ▸ h)
      have hc : floodCopy p (s.queueAt m (floodCopy p s m)) n = floodCopy p s n := by
        unfold floodCopy
        rw [slp_queueAt_other _ hne]
        rfl
      have hq := ih (s := s.queueAt m (floodCopy p s m)) hl h
      rwa [queued, hc, slp_queueAt_other _ hne] at hq

theorem flood_frame (p : Pk) (l : List Nat) (s : State) : ∃ m, s.flood p l = { s with sl := { s.sl with ports := m } } := by
  induction l generalizing s with
  | nil => exact ⟨_, rfl⟩
  | cons n l ih =>
    obtain ⟨m, h⟩ := ih (s.queueAt n (floodCopy p s n))
    exact ⟨m, h⟩

theorem routed_flood {l : List Nat} (p : Pk) (h : ∀ n, n ∈ l → (s.slp n).link = true) : Routed s (s.flood p l) := by
  induction l generalizing s with
  | nil => exact .refl s
  | cons n l ih =>
    have hq := routed_queueAt (floodCopy p s n) (h n List.mem_cons_self)
    exact hq.trans (ih fun m hm => (hq.link m).trans (h m (List.mem_cons_of_mem n hm)))

/-- Whom a notification reports dead: a micro-context, a package, or the peer of a last link that went down (03 R81 R83). -/
def deadBy (p : Pk) (s : State) : Option (Nat × Option Nat) :=
  if p.arg 16 1 == 1 then some (fld (p.arg 18 2) 0 11, some (fld (p.arg 20 2) 0 13))
  else if p.arg 16 1 == 2 then some (fld (p.arg 18 2) 0 11, none)
  else (s.lastLink (fld (p.arg 18 2) 0 11) (p.arg 17 1)).map fun d => (d, none)

/-- An operation of micro-context `m` that waits for the dead `d`, or would be begun towards it (03 R83). -/
def towards (d : Dead) (s : State) (m : Option Nat) (o : FabricOp) : Bool :=
  let e := s.endpoint (m.getD 0) o.ep
  o.result.isNone && o.op != 8 && m.isSome && (if o.running then d.covers o.peer.1 o.peer.2 else e.1 && d.covers e.2.1 e.2.2.1)

/-- The report of a death: the operations towards the dead end with PEERDEAD, and it is marked (03 R81 R83). -/
def deathReported (d : Dead) (s : State) : State :=
  let s' := s.mapFabric fun m o => if towards d s m o then o.ended 5 0 false else o
  { s' with sl := { s'.sl with dead := (s.sl.dead.filter fun (e : Dead) => !(e.pkg == d.pkg && e.mcx == d.mcx)) ++ [d] } }

/-- What a notification reports, if anything: this package is not marked dead by its own. -/
def deathsReported (p : Pk) (s : State) : State :=
  match deadBy p s with
  | none => s
  | some d => if d.1 == s.sl.pkg && d.2.isNone then s else deathReported { pkg := d.1, mcx := d.2, at_ := s.time.toNat } s

theorem faultEffect_eq (p : Pk) (s : State) : s.faultEffect p =
    (deathsReported p s).fabricPump.post 0 0x05 (p.arg 16 1) 0xFFFFFFFF (leNat (p.karg.take 8)) := rfl

theorem deathsReported_frame (p : Pk) (s : State) :
    ∃ d, (deathsReported p s).sl = { s.sl with dead := d } ∧ (fabricIdle s → fabricIdle (deathsReported p s)) := by
  unfold deathsReported
  split
  · exact ⟨_, rfl, id⟩
  · split
    · exact ⟨_, rfl, id⟩
    · exact ⟨_, rfl, fun hi => fabricIdle_of (fabricIdle_mapFabric _ hi) rfl rfl⟩

theorem mem_deathsReported {p : Pk} {d : Nat × Option Nat} (hd : deadBy p s = some d) (h : d.1 ≠ s.sl.pkg ∨ d.2.isSome = true) :
    { pkg := d.1, mcx := d.2, at_ := s.time.toNat } ∈ (deathsReported p s).sl.dead := by
  have hg : ¬ (d.1 == s.sl.pkg && d.2.isNone) = true := by
    obtain h | h := h
    · simp [h]
    · simp [Option.isNone_eq_false_iff.2 h]
  rw [deathsReported, hd]
  dsimp only
  rw [if_neg hg]
  exact List.mem_append_right _ List.mem_cons_self

theorem post_frame (v ty detail vqn arg : Nat) (s : State) :
    ∃ hif mem, s.post v ty detail vqn arg = { s with hif := hif, mem := mem } := by
  have event (u : State) (v ty detail vqn arg : Nat) : ∃ hif mem, u.putEvent v ty detail vqn arg = { u with hif := hif, mem := mem } := by
    unfold State.putEvent State.hostWrite
    dsimp only
    split <;> exact ⟨_, _, rfl⟩
  have first (u : State) : ∃ hif mem, u.hostLostFirst = { u with hif := hif, mem := mem } := by
    unfold State.hostLostFirst
    split
    · split
      · obtain ⟨hif, mem, h⟩ := event u 0 0x09 0 0xFFFFFFFF ‹_›
        rw [h]
        exact ⟨_, _, rfl⟩
      · exact ⟨_, _, rfl⟩
    · exact ⟨_, _, rfl⟩
  obtain ⟨hif, mem, h⟩ : ∃ hif mem, (if v == 0 then s.hostLostFirst else s) = { s with hif := hif, mem := mem } := by
    split
    · exact first s
    · exact ⟨_, _, rfl⟩
  unfold State.post
  dsimp only
  rw [h]
  split
  · obtain ⟨hif', mem', h'⟩ := event { s with hif := hif, mem := mem } v ty detail vqn arg
    rw [h']
    exact ⟨_, _, rfl⟩
  · exact ⟨_, _, rfl⟩

/-- With nothing under way, a notification takes effect in the list of the dead, in memory and at the host. -/
theorem faultEffect_sl (p : Pk) (hi : fabricIdle s) :
    (s.faultEffect p).sl = (deathsReported p s).sl ∧ fabricIdle (s.faultEffect p) := by
  obtain ⟨d, -, hd⟩ := deathsReported_frame p s
  obtain ⟨hif, mem, h⟩ := post_frame 0 0x05 (p.arg 16 1) 0xFFFFFFFF (leNat (p.karg.take 8)) (deathsReported p s)
  rw [faultEffect_eq, fabricPump_idle (hd hi), h]
  exact ⟨rfl, fabricIdle_of (hd hi) rfl rfl⟩

theorem routed_faultEffect (p : Pk) (hi : fabricIdle s) : Routed s (s.faultEffect p) := by
  obtain ⟨hsl, hidle⟩ := faultEffect_sl p hi
  obtain ⟨d, hd, -⟩ := deathsReported_frame p s
  exact routed_of_ports (by rw [hsl, hd]) (by rw [hsl, hd]) fun _ => hidle

theorem routed_raiseFault (cls port mcx : Nat) (hi : fabricIdle s) : Routed s (s.raiseFault cls port mcx) := by
  unfold State.raiseFault
  extract_lets p sl s₁
  have h₁ : Routed s s₁ := routed_of_ports rfl rfl fun hi => fabricIdle_of hi rfl rfl
  have h₂ : Routed s₁ (s₁.flood p s₁.upPorts) := routed_flood p fun n hn => ((mem_upPorts s₁ n).1 hn).2
  exact (h₁.trans h₂).trans (routed_faultEffect p (h₂.idle (h₁.idle hi)))

end
end Sys2Proof.Proofs
end

section
/-! Links: training, lanes, replays, liveness and SL.PCTL (O47). -/
namespace Sys2Proof.Proofs
open Sys2Proof Sys2Proof.Machine Sys2Proof.Laws Sys2Proof.Stated

section
variable {s : State} {n : Nat}

/-! A link that goes down. -/

/-- A port after its link went down (03 R69). -/
def downPort (x : SlPort) : SlPort :=
  { x with link := false, latchedDown := true, sendq := [], used := [], got := [], retry := [], resend := [], replays := 0, hops := 0xFF }

theorem linkDown_of_down (h : (s.slp n).link = false) : s.linkDown n = s := if_pos (by rw [h]; rfl)

theorem routed_linkDown (hi : fabricIdle s) (hl : (s.slp n).link = true) : Routed (s.modSlp n downPort) (s.linkDown n) := by
  have hfail (u : State) (q : SendPkt) : Routed u ((u.countSl n 5 1).failPk q.pk 6) := (routed_countSl u n).trans (routed_failPk ..)
  have hq := (routed_foldl hfail (s.slp n).sendq (s.modSlp n downPort)).trans (routed_learnParent _)
  have h : s.linkDown n = ((s.slp n).sendq.foldl (fun u q => (u.countSl n 5 1).failPk q.pk 6) (s.modSlp n downPort)).learnParent.raiseFault 3 n 0 :=
    if_neg (by rw [hl]; decide)
  rw [h]
  exact hq.trans (routed_raiseFault 3 n 0 (hq.idle (fabricIdle_modSlp n _ hi)))

theorem linkDown_slp (hi : fabricIdle s) (hl : (s.slp n).link = true) : (s.linkDown n).slp n = downPort (s.slp n) := by
  rw [(routed_linkDown hi hl).down n (by rw [slp_modSlp]; rfl), slp_modSlp]

theorem linkDown_counter (hi : fabricIdle s) (hl : (s.slp n).link = true) {m k : Nat} (hk : k < 32) (h5 : k ≠ 5) :
    linkCounter m k (s.linkDown n) = linkCounter m k s := (routed_linkDown hi hl).counter m k hk h5

theorem wentDown_linkDown (hi : fabricIdle s) (hl : (s.slp n).link = true) : wentDown n (s.linkDown n) := by
  rw [wentDown, linkDown_slp hi hl]
  exact ⟨rfl, rfl, rfl⟩

/-! Training and lanes. -/

/-- A port that has finished training with package `peer` at TIME `now` (03 R87). -/
def trained (peer now : Nat) (x : SlPort) : SlPort :=
  { x with link := true, peer := peer, width := x.half || x.lanesBad != 0, lastFlit := now, replays := 0, hops := 0xFF, txSeq := 0, rxSeq := 0 }

theorem ready_of_etherUp (h : etherUp s) : s.ready = true ∧ s.minimal = false := by
  obtain ⟨hstage, hmode, hheld, htrip⟩ := h
  simp [State.ready, State.minimal, hstage, hmode, hheld, htrip]

theorem not_ready_or_minimal (h : s.pkg.stage < 8 ∨ s.pkg.mode = 2) : s.ready = false ∨ s.minimal = true := by
  obtain h | h := h
  · exact .inl (by simp [State.ready, Nat.ne_of_lt h])
  · exact .inr (by simp [State.minimal, h])

theorem slLinkUp_trained (hn : s.ev.a < 16) (hu : etherUp s) (he : (s.slp s.ev.a).en = true) (hl : (s.slp s.ev.a).link = false)
    (hd : (s.slp s.ev.a).latchedDown = false) (hw : lanesWhole (s.slp s.ev.a).lanesBad = true) :
    exec .slLinkUp s = .next (s.modSlp s.ev.a (trained (s.ev.b % 2048) s.time.toNat)) := by
  obtain ⟨hready, hmin⟩ := ready_of_etherUp hu
  exact congrArg Host.Outcome.next (if_pos (by simp [hn, hready, hmin, he, hl, hd, hw]))

theorem slLinkUp_waits (h : s.pkg.stage < 8 ∨ s.pkg.mode = 2) : exec .slLinkUp s = .next s := by
  obtain h | h := not_ready_or_minimal h <;> exact congrArg Host.Outcome.next (if_neg (by simp [h]))

theorem laneFailure_effect (hn : s.ev.a < 16) (hi : fabricIdle s) (hl : (s.slp s.ev.a).link = true) :
    let bad := (s.slp s.ev.a).lanesBad ||| BitVec.ofNat 8 (2 ^ (s.ev.b % 8))
    ∃ t, exec .laneFailure s = .next t ∧ (t.slp s.ev.a).lanesBad = bad ∧
      (lanesWhole bad = true → (t.slp s.ev.a).link = true ∧ (t.slp s.ev.a).width = true) ∧
      (lanesWhole bad = false → wentDown s.ev.a t) := by
  intro bad
  let u := s.modSlp s.ev.a fun x => { x with lanesBad := x.lanesBad ||| BitVec.ofNat 8 (2 ^ (s.ev.b % 8)) }
  have hp : u.slp s.ev.a = { s.slp s.ev.a with lanesBad := bad } := slp_modSlp ..
  have hul : (u.slp s.ev.a).link = true := by rw [hp]; exact hl
  have hui : fabricIdle u := fabricIdle_modSlp _ _ hi
  have he : exec .laneFailure s = .next (if !(u.slp s.ev.a).link then u
      else if lanesWhole (u.slp s.ev.a).lanesBad then u.modSlp s.ev.a fun x => { x with width := true } else u.linkDown s.ev.a) := by
    show execLaneFailure s = _
    unfold execLaneFailure
    dsimp only
    rw [if_pos hn]
  rw [if_neg (by rw [hul]; decide), show (u.slp s.ev.a).lanesBad = bad from congrArg SlPort.lanesBad hp] at he
  cases hw : lanesWhole bad with
  | true =>
    rw [hw, if_pos rfl] at he
    refine ⟨_, he, ?_, fun _ => ?_, nofun⟩
    · rw [slp_modSlp, hp]
    · rw [slp_modSlp]
      exact ⟨hul, rfl⟩
  | false =>
    rw [hw, if_neg Bool.false_ne_true] at he
    refine ⟨_, he, ?_, nofun, fun _ => wentDown_linkDown hui hul⟩
    rw [linkDown_slp hui hul, hp]
    rfl

/-! Replays and liveness. -/

/-- State `s` with one more failed flit counted at its port (03 R69 R89). -/
def flitFailed (s : State) : State :=
  ((s.countSl s.ev.a 2 1).countSl s.ev.a 3 1).modSlp s.ev.a fun x => { x with replays := x.replays + 1 }

theorem flitFailed_slp (s : State) : (flitFailed s).slp s.ev.a = { s.slp s.ev.a with replays := (s.slp s.ev.a).replays + 1 } := by
  rw [flitFailed, slp_modSlp, slp_countSl, slp_countSl]

theorem flitFailed_counter {k : Nat} (hk : k = 2 ∨ k = 3) : linkCounter s.ev.a k (flitFailed s) = oneMore (linkCounter s.ev.a k s) := by
  rw [flitFailed, linkCounter_modSlp]
  obtain rfl | rfl := hk
  · rw [linkCounter_countSl_other 1 (by decide) (by decide) (by decide), linkCounter_countSl]
  · rw [linkCounter_countSl, linkCounter_countSl_other 1 (by decide) (by decide) (by decide)]

theorem flitFailed_out (s : State) : (flitFailed s).out = s.out := by rw [flitFailed, modSlp_out, countSl_out, countSl_out]

theorem linkReplay_failed (hl : (s.slp s.ev.a).link = true) (hf : s.ev.flag = false) :
    exec .linkReplay s = .next (if 9 ≤ (s.slp s.ev.a).replays + 1 then (flitFailed s).linkDown s.ev.a
      else (flitFailed s).emit (.replay s.ev.a (s.slp s.ev.a).rxSeq)) := by
  show Host.Outcome.next _ = _
  rw [if_neg (by rw [hl]; decide), if_neg (by rw [hf]; decide)]
  dsimp only
  rw [← flitFailed, flitFailed_slp]

theorem linkReplay_effect (hi : fabricIdle s) (hl : (s.slp s.ev.a).link = true) (hf : s.ev.flag = false) :
    ∃ t, exec .linkReplay s = .next t ∧ linkCounter s.ev.a 2 t = oneMore (linkCounter s.ev.a 2 s) ∧
      linkCounter s.ev.a 3 t = oneMore (linkCounter s.ev.a 3 s) ∧
      ((s.slp s.ev.a).replays < 8 → (t.slp s.ev.a).link = true ∧ (t.slp s.ev.a).replays = (s.slp s.ev.a).replays + 1 ∧
        t.out = .replay s.ev.a (s.slp s.ev.a).rxSeq :: s.out) ∧
      (8 ≤ (s.slp s.ev.a).replays → wentDown s.ev.a t) := by
  have hx := flitFailed_slp s
  have hfi : fabricIdle (flitFailed s) := fabricIdle_modSlp _ _ (fabricIdle_countSl _ _ _ (fabricIdle_countSl _ _ _ hi))
  have hfl : ((flitFailed s).slp s.ev.a).link = true := by rw [hx]; exact hl
  refine ⟨_, linkReplay_failed hl hf, ?_⟩
  split
  · refine ⟨?_, ?_, fun h => by omega, fun _ => wentDown_linkDown hfi hfl⟩
    · rw [linkDown_counter hfi hfl (by decide) (by decide), flitFailed_counter (.inl rfl)]
    · rw [linkDown_counter hfi hfl (by decide) (by decide), flitFailed_counter (.inr rfl)]
  · rw [linkCounter_emit, linkCounter_emit, slp_emit]
    exact ⟨flitFailed_counter (.inl rfl), flitFailed_counter (.inr rfl),
      fun _ => ⟨hfl, congrArg SlPort.replays hx, congrArg (_ :: ·) (flitFailed_out s)⟩, fun h => by omega⟩

theorem linkReplay_requested (hl : (s.slp s.ev.a).link = true) (hf : s.ev.flag = true) : exec .linkReplay s =
    .next (s.modSlp s.ev.a fun x => { x with resend := x.retry.dropWhile fun f => f.1 != s.ev.b }) := by
  show Host.Outcome.next _ = _
  rw [if_neg (by rw [hl]; decide), if_pos hf]

/-- The flits of a retry buffer from number `b` on. -/
theorem dropWhile_retry {pre post : List (Nat × List Byte)} {f : Nat × List Byte} {b : Nat} (hf : f.1 = b) (hpre : ∀ g, g ∈ pre → g.1 ≠ b) :
    (pre ++ f :: post).dropWhile (fun g => g.1 != b) = f :: post := by
  rw [List.dropWhile_append_of_pos fun g hg => by simpa using hpre g hg, List.dropWhile_cons_of_neg (by simp [hf])]

theorem livenessTimeout_down (hl : (s.slp s.ev.a).link = true) (h : (s.slp s.ev.a).lastFlit + 100000 ≤ s.time.toNat) :
    exec .livenessTimeout s = .next (s.linkDown s.ev.a) := congrArg Host.Outcome.next (if_pos (by simp [hl, h]))

theorem livenessTimeout_waits (h : (s.slp s.ev.a).link = false ∨ s.time.toNat < (s.slp s.ev.a).lastFlit + 100000) :
    exec .livenessTimeout s = .next s := by
  refine congrArg Host.Outcome.next (if_neg fun hc => ?_)
  obtain ⟨hl, ht⟩ := (Bool.and_eq_true ..).mp hc
  obtain h | h := h
  · rw [h] at hl
    cases hl
  · exact absurd (of_decide_eq_true ht) (Nat.not_le.2 h)

/-! SL.PCTL. -/

theorem slPctlWrite_next (hn : s.ev.a < 16) (hu : etherUp s) : exec .slPctlWrite s = .next (s.writeSlPctl s.ev.a s.ev.value) := by
  obtain ⟨hready, hmin⟩ := ready_of_etherUp hu
  exact congrArg Host.Outcome.next (if_pos (by simp [hn, hready, hmin]))

theorem slPctlWrite_waits (h : s.pkg.stage < 8 ∨ s.pkg.mode = 2) : exec .slPctlWrite s = .next s := by
  obtain h | h := not_ready_or_minimal h <;> exact congrArg Host.Outcome.next (if_neg (by simp [h]))

/-- A write that leaves the link alone: EN stays set, or was clear. -/
theorem writeSlPctl_kept {v : Word} (h : (s.slp n).en = false ∨ v.getLsbD 0 = true) : (s.writeSlPctl n v).slp n =
    { s.slp n with half := if (s.slp n).en then (s.slp n).half else v.getLsbD 1, en := v.getLsbD 0 } := by
  have hg : ¬ ((s.slp n).en && !(v.getLsbD 0)) = true := by
    obtain h | h := h <;> simp [h]
  unfold State.writeSlPctl
  dsimp only
  rw [if_neg hg, slp_modSlp]
  cases he : (s.slp n).en with
  | true => rfl
  | false => rw [if_neg Bool.false_ne_true, slp_modSlp]; rfl

/-- Clearing EN drops the link, which may then train again. -/
theorem writeSlPctl_cleared {v : Word} (hi : fabricIdle s) (he : (s.slp n).en = true) (hv : v.getLsbD 0 = false) :
    let x := (s.writeSlPctl n v).slp n
    x.en = false ∧ x.half = (s.slp n).half ∧ x.link = false ∧ x.latchedDown = false := by
  have hd : ((s.linkDown n).slp n).half = (s.slp n).half ∧ ((s.linkDown n).slp n).link = false := by
    cases hl : (s.slp n).link with
    | true => rw [linkDown_slp hi hl]; exact ⟨rfl, rfl⟩
    | false => rw [linkDown_of_down hl]; exact ⟨rfl, hl⟩
  unfold State.writeSlPctl
  dsimp only
  rw [if_pos he, if_pos (by rw [he, hv]; rfl), slp_modSlp, slp_modSlp]
  exact ⟨hv, hd.1, hd.2, rfl⟩

theorem slPctlWrite_effect (hn : s.ev.a < 16) (hi : fabricIdle s) (hu : etherUp s) :
    let x := s.slp s.ev.a
    let v := s.ev.value
    ∃ t, exec .slPctlWrite s = .next t ∧ (t.slp s.ev.a).en = v.getLsbD 0 ∧
      (t.slp s.ev.a).half = (if x.en then x.half else v.getLsbD 1) ∧
      (x.en = true → v.getLsbD 0 = false → (t.slp s.ev.a).link = false ∧ (t.slp s.ev.a).latchedDown = false) ∧
      (x.en = false ∨ v.getLsbD 0 = true → (t.slp s.ev.a).link = x.link ∧ (t.slp s.ev.a).latchedDown = x.latchedDown) := by
  intro x v
  refine ⟨_, slPctlWrite_next hn hu, ?_⟩
  by_cases h : x.en = true ∧ v.getLsbD 0 = false
  · obtain ⟨hen, hhalf, hlink, hlatch⟩ := writeSlPctl_cleared hi h.1 h.2
    refine ⟨hen.trans h.2.symm, hhalf.trans (if_pos h.1).symm, fun _ _ => ⟨hlink, hlatch⟩, fun hk => ?_⟩
    rw [h.1, h.2] at hk
    exact hk.elim nofun nofun
  · have hk : x.en = false ∨ v.getLsbD 0 = true := by
      cases he : x.en <;> simp_all
    rw [writeSlPctl_kept hk]
    exact ⟨rfl, rfl, fun h1 h2 => absurd ⟨h1, h2⟩ h, fun _ => ⟨rfl, rfl⟩⟩

end
end Sys2Proof.Proofs
end

section
/-! The wheel, credit flits, returned credit and the wait for credit (O47). -/
namespace Sys2Proof.Proofs
open Sys2Proof Sys2Proof.Machine Sys2Proof.Laws Sys2Proof.Stated

theorem getElem?_modNth {α : Type} (l : List α) (i : Nat) (g : α → α) : (modNth l i g)[i]? = l[i]?.map g := by
  induction l generalizing i with
  | nil => rfl
  | cons a l ih =>
    cases i with
    | zero => rfl
    | succ i => exact ih i

/-- The wheel moves on (03 R73 R87); nothing else of a port changes. -/
theorem turn_eq (x : SlPort) :
    x.turn = { x with slot := if x.slot = 63 then 0 else x.slot + 1, wheel := if x.slot = 63 then x.wheelNext else x.wheel } := by
  unfold SlPort.turn
  by_cases h : x.slot = 63
  · rw [if_pos (beq_iff_eq.2 h), if_pos h, if_pos h]
  · rw [if_neg (mt beq_iff_eq.1 h), if_neg h, if_neg h]

/-- Waiting for credit changes nothing of a queued packet but the time since which it waits. -/
theorem waiting_eq (x : SlPort) (now : Nat) :
    ∃ w : SendPkt × Nat → Option Nat, x.waiting now = x.sendq.zipIdx.map fun p => { p.1 with waitAt := w p } := by
  refine ⟨fun p => if x.heads.any fun h => h.1 == p.2 && (x.share h.2).isNone then some (p.1.waitAt.getD now) else none, ?_⟩
  refine List.map_congr_left fun p _ => ?_
  dsimp only
  split <;> rfl

theorem waiting_pk (x : SlPort) (now : Nat) : (x.waiting now).map (·.pk) = x.sendq.map (·.pk) := by
  obtain ⟨w, h⟩ := waiting_eq x now
  rw [h, List.map_map]
  exact (List.map_map (f := Prod.fst) (g := SendPkt.pk)).symm.trans (by rw [List.zipIdx_map_fst])

theorem waiting_sent (x : SlPort) (now i : Nat) : ((x.waiting now)[i]?).map (·.sent) = (x.sendq[i]?).map (·.sent) := by
  obtain ⟨w, h⟩ := waiting_eq x now
  rw [h, List.getElem?_map, List.getElem?_zipIdx]
  cases x.sendq[i]? <;> rfl

section
variable {s : State}

/-! Credit flits and returned credit. -/

theorem creditFlit_sent (hl : (s.slp s.ev.a).link = true) (ht : s.time.toNat < (s.slp s.ev.a).lastFlit + 100000)
    (hr : (s.slp s.ev.a).resend = []) (hp : (s.slp s.ev.a).pick = none) :
    exec .creditFlit s = .next (s.sendFlit s.ev.a (List.replicate 256 0)) := by
  show Host.Outcome.next _ = _
  rw [if_neg (by rw [hl]; decide), if_neg (Nat.not_le.2 ht), if_pos (by rw [hr, hp]; rfl)]

/-- A port after a flit that returned credit and held nothing else (03 R69 R74). -/
theorem creditReturn_slp (hl : (s.slp s.ev.a).link = true) :
    ∃ t, exec .creditReturn s = .next t ∧ t.slp s.ev.a = ((s.slp s.ev.a).heard s.time.toNat 1).credited s.ev ∧
      ∀ k, k ≠ s.ev.a → t.slp k = s.slp k := by
  refine ⟨_, congrArg Host.Outcome.next (if_neg (by rw [hl]; decide)), ?_, fun k hk => ?_⟩
  · rw [slp_modSlp, slp_countSl]
  · rw [slp_modSlp_other _ hk, slp_countSl]

theorem credited_used (x : SlPort) (a : EventArgs) : SMap.get (x.credited a).used a.b 0 = SMap.get x.used a.b 0 - a.c := by
  unfold SlPort.credited
  split
  · next h => rw [beq_iff_eq.1 h, Nat.sub_zero]
  · exact get_set_same _ _ _ _

/-! The wheel. -/

theorem wheelSlot_resent {f : Nat × List Byte} {rest : List (Nat × List Byte)} (hl : (s.slp s.ev.a).link = true)
    (hr : (s.slp s.ev.a).resend = f :: rest) : exec .wheelSlot s = .next ((s.resendFlit s.ev.a f.2).modSlp s.ev.a SlPort.turn) := by
  show execWheelSlot s = _
  unfold execWheelSlot
  dsimp only
  rw [if_neg (by rw [hl]; decide), hr]

theorem resendFlit_slp (n : Nat) (bs : List Byte) : (s.resendFlit n bs).slp n = { s.slp n with resend := (s.slp n).resend.drop 1 } := by
  unfold State.resendFlit
  rw [slp_emit, slp_modSlp, slp_countSl]

theorem wheelSlot_idle (hl : (s.slp s.ev.a).link = true) (hr : (s.slp s.ev.a).resend = []) (hp : (s.slp s.ev.a).pick = none) :
    exec .wheelSlot s = .next (s.modSlp s.ev.a fun x => ({ x with sendq := (s.slp s.ev.a).waiting s.time.toNat } : SlPort).turn) := by
  show execWheelSlot s = _
  unfold execWheelSlot
  dsimp only
  rw [if_neg (by rw [hl]; decide), hr]
  dsimp only
  rw [hp]

/-- A port's queue once a flit of packet `q`, at place `i`, has left (03 R73). -/
def queueAfter (x : SlPort) (now i : Nat) (q : SendPkt) : List SendPkt :=
  if q.pk.flits ≤ q.sent + 1 then (x.waiting now).eraseIdx i else modNth (x.waiting now) i fun q => { q with sent := q.sent + 1 }

/-- A port whose wheel moves on after a flit of packet `q`, at place `i`, that takes share `k` (03 R73 R74). -/
def flitSent (queue : List SendPkt) (q : SendPkt) (k : Nat) (x : SlPort) : SlPort :=
  ({ x with sendq := queue, bePtr := x.rotate q, used := SMap.upd x.used k 0 (· + 1) } : SlPort).turn

theorem wheelSlot_sent {i : Nat} {q : SendPkt} (hi : fabricIdle s) (hl : (s.slp s.ev.a).link = true) (hr : (s.slp s.ev.a).resend = [])
    (hp : (s.slp s.ev.a).pick = some (i, q)) :
    exec .wheelSlot s = .next ((s.sendFlit s.ev.a (q.pk.flit q.sent)).modSlp s.ev.a
      (flitSent (queueAfter (s.slp s.ev.a) s.time.toNat i q) q (((s.slp s.ev.a).share q).getD 129))) := by
  have hsent : fabricIdle (s.sendFlit s.ev.a (q.pk.flit q.sent)) :=
    fabricIdle_emit _ (fabricIdle_modSlp _ _ (fabricIdle_countSl _ _ _ hi))
  show execWheelSlot s = _
  unfold execWheelSlot
  dsimp only
  rw [if_neg (by rw [hl]; decide), hr]
  dsimp only
  rw [hp]
  exact congrArg Host.Outcome.next (fabricPump_idle (fabricIdle_modSlp _ _ hsent))

theorem queueAfter_last {x : SlPort} {now i : Nat} {q : SendPkt} (h : q.pk.flits ≤ q.sent + 1) :
    (queueAfter x now i q).map (·.pk) = (x.sendq.map (·.pk)).eraseIdx i := by
  rw [queueAfter, if_pos h, ← List.eraseIdx_map, waiting_pk]

theorem queueAfter_more {x : SlPort} {now i : Nat} {q : SendPkt} (h : q.sent + 1 < q.pk.flits) :
    ((queueAfter x now i q)[i]?).map (·.sent) = (x.sendq[i]?).map (·.sent + 1) := by
  have hw := congrArg (Option.map (· + 1)) (waiting_sent x now i)
  rw [Option.map_map, Option.map_map] at hw
  rw [queueAfter, if_neg (Nat.not_le.2 h), getElem?_modNth, Option.map_map]
  exact hw

theorem flitSent_eq (queue : List SendPkt) (q : SendPkt) (k : Nat) (x : SlPort) : flitSent queue q k x =
    { x with
      sendq := queue, bePtr := x.rotate q, used := SMap.upd x.used k 0 (· + 1)
      slot := if x.slot = 63 then 0 else x.slot + 1, wheel := if x.slot = 63 then x.wheelNext else x.wheel } := turn_eq _

/-- A slot of the wheel with no flit to send again (03 R73). -/
theorem wheelSlot_effect (hi : fabricIdle s) (hl : (s.slp s.ev.a).link = true) (hr : (s.slp s.ev.a).resend = []) :
    let n := s.ev.a
    let x := s.slp n
    ∃ t, exec .wheelSlot s = .next t ∧ (t.slp n).slot = (if x.slot = 63 then 0 else x.slot + 1) ∧
      (x.slot = 63 → (t.slp n).wheel = x.wheelNext) ∧
      (x.pick = none → t.out = s.out ∧ (t.slp n).sendq.map (·.pk) = x.sendq.map (·.pk) ∧ (t.slp n).used = x.used) ∧
      (∀ i q k, x.pick = some (i, q) → x.share q = some k → linkCounter n 0 t = oneMore (linkCounter n 0 s) ∧
        SMap.get (t.slp n).used k 0 = SMap.get x.used k 0 + 1 ∧ t.out = .flit n (s.wholeFlit n (q.pk.flit q.sent)) :: s.out ∧
        (t.slp n).txSeq = (x.txSeq + 1) % 4096 ∧ ((t.slp n).retry.getLast? = some (x.txSeq, s.wholeFlit n (q.pk.flit q.sent))) ∧
        (q.pk.flits ≤ q.sent + 1 → (t.slp n).sendq.map (·.pk) = (x.sendq.map (·.pk)).eraseIdx i) ∧
        (q.sent + 1 < q.pk.flits → ((t.slp n).sendq[i]?).map (·.sent) = (x.sendq[i]?).map (·.sent + 1))) := by
  intro n x
  cases hp : x.pick with
  | none =>
    refine ⟨_, wheelSlot_idle hl hr hp, ?_⟩
    rw [slp_modSlp, turn_eq]
    exact ⟨rfl, fun h => if_pos h, fun _ => ⟨rfl, waiting_pk .., rfl⟩, nofun⟩
  | some p =>
    obtain ⟨i, q⟩ := p
    refine ⟨_, wheelSlot_sent hi hl hr hp, ?_⟩
    rw [slp_modSlp, flitSent_eq]
    refine ⟨?_, fun h => ?_, nofun, fun i' q' k hiq hk => ?_⟩
    · rw [sendFlit_slp]
    · rw [sendFlit_slp]
      exact if_pos h
    · cases hiq
      have hretry := sendFlit_retry n (q.pk.flit q.sent) s
      refine ⟨?_, ?_, (modSlp_out ..).trans (sendFlit_out ..), ?_, hretry, queueAfter_last, queueAfter_more⟩
      · rw [linkCounter_modSlp, linkCounter_sendFlit]
      · rw [hk, sendFlit_slp]
        exact get_set_same x.used k (SMap.get x.used k 0 + 1) 0
      · rw [sendFlit_slp]
        rfl

/-! The wait for credit. -/

/-- The packet has waited its time at the head for credit (03 R72). -/
def isLate (now : Nat) (q : SendPkt) : Bool :=
  match q.waitAt with
  | some t => decide (t + 1000000 ≤ now)
  | none => false

theorem isLate_iff (now : Nat) (q : SendPkt) : isLate now q = true ↔ waitedOut now q := by
  unfold isLate waitedOut
  cases q.waitAt <;> simp

/-- State `s` with the packet at place `i` of its port's queue dropped and counted (03 R72 R89). -/
def stallDropped (i : Nat) (s : State) : State :=
  (s.countSl s.ev.a 6 1).modSlp s.ev.a fun x => { x with sendq := x.sendq.eraseIdx i }

theorem stalldropTimeout_waits (h : ∀ q, q ∈ (s.slp s.ev.a).sendq → ¬ waitedOut s.time.toNat q) : exec .stalldropTimeout s = .next s := by
  have hf : (s.slp s.ev.a).sendq.zipIdx.find? (fun p => isLate s.time.toNat p.1) = none := by
    refine List.find?_eq_none.2 fun p hp hl => h p.1 ?_ ((isLate_iff ..).1 hl)
    rw [← List.zipIdx_map_fst 0 (s.slp s.ev.a).sendq]
    exact List.mem_map_of_mem hp
  show execStalldropTimeout s = _
  unfold execStalldropTimeout
  dsimp only
  split
  · rfl
  · next h' => exact nomatch h'.symm.trans hf

theorem stalldropTimeout_drops {i : Nat} {q : SendPkt} (hi : fabricIdle s) (hq : (s.slp s.ev.a).sendq[i]? = some q)
    (hl : waitedOut s.time.toNat q) (hfirst : ∀ j y, j < i → (s.slp s.ev.a).sendq[j]? = some y → ¬ waitedOut s.time.toNat y) :
    exec .stalldropTimeout s = .next ((stallDropped i s).failPk q.pk 3) := by
  have hidle : fabricIdle (stallDropped i s) := fabricIdle_modSlp _ _ (fabricIdle_countSl _ _ _ hi)
  obtain ⟨hlt, hq⟩ := List.getElem?_eq_some_iff.1 hq
  have hf : (s.slp s.ev.a).sendq.zipIdx.find? (fun p => isLate s.time.toNat p.1) = some (q, i) := by
    refine List.find?_eq_some_iff_getElem.2 ⟨(isLate_iff ..).2 hl, i, by simpa using hlt, by simp [hq], fun j hj => ?_⟩
    have hj' := mt (isLate_iff ..).1 (hfirst j _ hj (List.getElem?_eq_getElem (hj.trans hlt)))
    simpa using hj'
  show execStalldropTimeout s = _
  unfold execStalldropTimeout
  dsimp only
  split
  · next h' => exact nomatch h'.symm.trans hf
  · next h' =>
    obtain ⟨rfl, rfl⟩ := Prod.mk.inj (Option.some.inj (h'.symm.trans hf))
    exact congrArg Host.Outcome.next (fabricPump_idle ((routed_failPk ..).idle hidle))

theorem stalldropTimeout_effect {i : Nat} {q : SendPkt} (hi : fabricIdle s) (hq : (s.slp s.ev.a).sendq[i]? = some q)
    (hl : waitedOut s.time.toNat q) (hfirst : ∀ j y, j < i → (s.slp s.ev.a).sendq[j]? = some y → ¬ waitedOut s.time.toNat y) :
    ∃ t, exec .stalldropTimeout s = .next t ∧ linkCounter s.ev.a 6 t = oneMore (linkCounter s.ev.a 6 s) ∧
      (q.pk.isRequest = false → (t.slp s.ev.a).sendq = (s.slp s.ev.a).sendq.eraseIdx i) ∧
      (∀ r, q.pk.isRequest = true → r ≠ s.ev.a → way q.pk.spkg q.pk.part r s → queued r [q.pk.answer 4 3 q.pk.part] s t) := by
  have hother (r : Nat) (hr : r ≠ s.ev.a) : (stallDropped i s).slp r = s.slp r := by
    rw [stallDropped, slp_modSlp_other _ hr, slp_countSl]
  refine ⟨_, stalldropTimeout_drops hi hq hl hfirst, ?_, fun hreq => ?_, fun r hreq hr hw => ?_⟩
  · rw [(routed_failPk ..).counter _ 6 (by decide) (by decide), stallDropped, linkCounter_modSlp, linkCounter_countSl]
  · rw [State.failPk, if_neg (by rw [hreq]; decide), stallDropped, slp_modSlp, slp_countSl]
  · obtain ⟨hd, hp, hlink⟩ := hw
    have hw : way q.pk.spkg q.pk.part r (stallDropped i s) := ⟨hd, hp, by rw [hother r hr]; exact hlink⟩
    rw [failPk_answered 3 hreq hw, queued, slp_queueAt, hother r hr]
    rfl

end

/-! The statement's clauses. -/

/-- The ports and the wheel as stated. -/
theorem smivyPortsAndWheel_holds : SmivyPortsAndWheel := by
  intro s n hn ha hi
  subst ha
  extract_lets x now v
  refine ⟨fun hu he hl hd hw => ?linkUp, fun h => ⟨slLinkUp_waits h, slPctlWrite_waits h⟩, fun hl => laneFailure_effect hn hi hl,
    fun hl hf => linkReplay_effect hi hl hf, fun pre f post hl hf hr hb hpre => ?replay,
    fun hl ht => ⟨_, livenessTimeout_down hl ht, wentDown_linkDown hi hl⟩, livenessTimeout_waits, fun hl ht hr hp => ?creditFlit,
    slPctlWrite_effect hn hi, fun f rest hl hr => ?resent, wheelSlot_effect hi, fun hl => ?creditReturn, stalldropTimeout_waits,
    fun i q hq hl hfirst => stalldropTimeout_effect hi hq hl hfirst⟩
  case linkUp =>
    refine ⟨_, slLinkUp_trained hn hu he hl hd hw, ?_⟩
    rw [slp_modSlp]
    exact ⟨rfl, rfl, rfl, rfl, fun k hk => slp_modSlp_other _ hk⟩
  case replay =>
    refine ⟨_, linkReplay_requested hl hf, ?_⟩
    rw [slp_modSlp]
    exact ⟨(congrArg (List.dropWhile _) hr).trans (dropWhile_retry hb hpre), rfl, rfl⟩
  case creditFlit =>
    refine ⟨_, creditFlit_sent hl ht hr hp, sendFlit_out .., linkCounter_sendFlit .., ?_⟩
    rw [sendFlit_slp]
    exact ⟨rfl, rfl, rfl, fun k hk => sendFlit_slp_other _ hk⟩
  case resent =>
    refine ⟨_, wheelSlot_resent hl hr, rfl, ?_⟩
    rw [slp_modSlp, turn_eq, resendFlit_slp, linkCounter_modSlp, State.resendFlit, linkCounter_emit, linkCounter_modSlp, linkCounter_countSl]
    exact ⟨congrArg (List.drop 1) hr, rfl, rfl, rfl, rfl⟩
  case creditReturn =>
    obtain ⟨t, he, hown, hothers⟩ := creditReturn_slp hl
    refine ⟨t, he, ?_, ?_, ?_, hothers⟩
    · rw [hown]
      exact credited_used _ _
    · rw [hown]
      rfl
    · rw [hown]
      rfl

end Sys2Proof.Proofs
end

section
/-! Packets that come in whole at a port, global time and fault notifications (O47). -/
namespace Sys2Proof.Proofs
open Sys2Proof Sys2Proof.Machine Sys2Proof.Laws Sys2Proof.Stated

/-! Flits that have come. -/

/-- Landing changes what of a receive buffer the peer counts as used, and notes the shares on the packet (03 R74). -/
theorem land_eq (x : SlPort) (n : Nat) (p : Pk) :
    ∃ got shares, x.land n p = ({ x with got := got }, { p with inPort := n, shares := shares }) := by
  unfold SlPort.land
  suffices h : ∀ (l : List Nat) (g : SMap Nat) (sh : List Nat), ∃ got shares,
      l.foldl (fun (a : SlPort × Pk) _ =>
        let k := x.landing a.1.got p
        ({ a.1 with got := SMap.upd a.1.got k 0 (· + 1) }, { a.2 with shares := a.2.shares ++ [k] }))
        (({ x with got := g } : SlPort), ({ p with inPort := n, shares := sh } : Pk)) =
      ({ x with got := got }, { p with inPort := n, shares := shares }) from h _ x.got p.shares
  intro l
  induction l with
  | nil => exact fun g sh => ⟨g, sh, rfl⟩
  | cons _ l ih => exact fun g sh => ih _ _

theorem readPk_kind {bs : List Byte} {p : Pk} (h : readPk bs = some p) : p.kind = leAt bs 0 1 := by
  unfold readPk at h
  dsimp only at h
  split at h
  · cases h
  · cases h
    rfl

/-- The packet `p` that comes at port `a`, with its place in the receive buffer (03 R74). -/
def landed (p : Pk) (s : State) : Pk :=
  let flits := leAt s.ev.bytes 1 1 % 16 + 1
  let s₀ := (s.countSl s.ev.a 1 flits).modSlp s.ev.a fun x => (x.heard s.time.toNat flits).credited s.ev
  ((s₀.slp s.ev.a).land s.ev.a p).2

section
variable {s t u : State} {p : Pk}

theorem landed_eq (p : Pk) (s : State) : ∃ shares, landed p s = { p with inPort := s.ev.a, shares := shares } := by
  unfold landed
  extract_lets flits s₀
  obtain ⟨got, shares, h⟩ := land_eq (s₀.slp s.ev.a) s.ev.a p
  exact ⟨shares, congrArg Prod.snd h⟩

theorem landed_arg (p : Pk) (s : State) (lo n : Nat) : (landed p s).arg lo n = p.arg lo n := by
  obtain ⟨shares, h⟩ := landed_eq p s
  rw [h]
  rfl

/-- `t` differs from `s` at most in Smivy's ports and their counters. -/
def OnlyPorts (s t : State) : Prop := ∃ ports ctr, t = { s with sl := { s.sl with ports := ports, ctr := ctr } }

theorem OnlyPorts.trans (h : OnlyPorts s t) (g : OnlyPorts t u) : OnlyPorts s u := by
  obtain ⟨_, _, rfl⟩ := h
  obtain ⟨_, _, rfl⟩ := g
  exact ⟨_, _, rfl⟩

theorem onlyPorts_modSlp (s : State) (n : Nat) (g : SlPort → SlPort) : OnlyPorts s (s.modSlp n g) := ⟨_, _, by dsimp only [State.modSlp]⟩

theorem onlyPorts_countSl (s : State) (n k x : Nat) : OnlyPorts s (s.countSl n k x) := ⟨_, _, by dsimp only [State.countSl]⟩

/-- A port before and after flits have come: what it has heard, and how full the buffers at both ends are. -/
def HeardAs (x y : SlPort) : Prop :=
  ∃ last fails seq used got, y = { x with lastFlit := last, replays := fails, rxSeq := seq, used := used, got := got }

theorem heardAs_heard (x : SlPort) (now flits : Nat) (a : EventArgs) (got : SMap Nat) :
    HeardAs x { (x.heard now flits).credited a with got := got } := ⟨_, _, _, _, _, rfl⟩

theorem heardState_slp (p : Pk) (s : State) (k : Nat) : HeardAs (s.slp k) ((heardState p s).slp k) := by
  unfold heardState
  extract_lets flits s₀
  by_cases hk : k = s.ev.a
  · subst hk
    obtain ⟨got, shares, h⟩ := land_eq (s₀.slp s.ev.a) s.ev.a p
    have hx : s₀.slp s.ev.a = ((s.slp s.ev.a).heard s.time.toNat flits).credited s.ev := by
      rw [slp_modSlp, slp_countSl]
    rw [slp_modSlp, h, hx]
    exact heardAs_heard ..
  · rw [slp_modSlp_other _ hk, slp_modSlp_other _ hk, slp_countSl]
    exact ⟨_, _, _, _, _, rfl⟩

theorem onlyPorts_heardState (p : Pk) (s : State) : OnlyPorts s (heardState p s) := by
  unfold heardState
  extract_lets flits s₀
  exact ((onlyPorts_countSl ..).trans (onlyPorts_modSlp ..)).trans (onlyPorts_modSlp ..)

theorem heardState_ev (p : Pk) (s : State) : (heardState p s).ev = s.ev := by
  obtain ⟨_, _, h⟩ := onlyPorts_heardState p s
  rw [h]

theorem heardState_time (p : Pk) (s : State) : (heardState p s).time = s.time := by
  obtain ⟨_, _, h⟩ := onlyPorts_heardState p s
  rw [h]

theorem heardState_free (p : Pk) (s : State) : (heardState p s).free = s.free := by
  obtain ⟨_, _, h⟩ := onlyPorts_heardState p s
  rw [h]

theorem fabricIdle_heardState (p : Pk) (hi : fabricIdle s) : fabricIdle (heardState p s) :=
  fabricIdle_modSlp _ _ (fabricIdle_modSlp _ _ (fabricIdle_countSl _ _ _ hi))

theorem heardState_link (p : Pk) (s : State) (k : Nat) : ((heardState p s).slp k).link = (s.slp k).link := by
  obtain ⟨_, _, _, _, _, h⟩ := heardState_slp p s k
  rw [h]

theorem heardState_peer (p : Pk) (s : State) (k : Nat) : ((heardState p s).slp k).peer = (s.slp k).peer := by
  obtain ⟨_, _, _, _, _, h⟩ := heardState_slp p s k
  rw [h]

theorem heardState_sendq (p : Pk) (s : State) (k : Nat) : ((heardState p s).slp k).sendq = (s.slp k).sendq := by
  obtain ⟨_, _, _, _, _, h⟩ := heardState_slp p s k
  rw [h]

theorem heardState_hops (p : Pk) (s : State) (k : Nat) : ((heardState p s).slp k).hops = (s.slp k).hops := by
  obtain ⟨_, _, _, _, _, h⟩ := heardState_slp p s k
  rw [h]

theorem upPorts_of_link (h : ∀ k, (t.slp k).link = (s.slp k).link) : t.upPorts = s.upPorts :=
  List.filter_congr fun k _ => h k

/-- A whole packet of a kind that goes no further than the link takes effect, and the fabric engine looks for work. -/
theorem receivePk_link {kind : Nat} {g : Pk → State → State} (ha : arrives kind p s) (hk : kind = 9 ∨ kind = 10) :
    s.receivePk kind g = (g (landed p s) (heardState p s)).fabricPump := by
  obtain ⟨-, hl, hp, hkind⟩ := ha
  have hraw : leAt s.ev.bytes 0 1 = kind := (readPk_kind hp).symm.trans hkind
  have hgo : ¬ ((!(s.slp s.ev.a).link) || (leAt s.ev.bytes 0 1 != kind && decide (1 ≤ leAt s.ev.bytes 0 1 ∧ leAt s.ev.bytes 0 1 ≤ 10))) = true := by
    simp [hl, hraw]
  unfold State.receivePk
  dsimp only
  rw [if_neg hgo]
  simp only [modSlp_ev, countSl_ev, hp]
  rw [if_neg (by obtain rfl | rfl := hk <;> simp)]
  rfl

/-! The master's hops (03 R82 R86). -/

theorem foldl_min_eq {l : List Nat} {b m : Nat} (hb : m ≤ b) (hl : ∀ x, x ∈ l → m ≤ x) (hm : m = b ∨ m ∈ l) : l.foldl min b = m := by
  induction l generalizing b with
  | nil => exact (hm.resolve_right List.not_mem_nil).symm
  | cons x l ih =>
    have hx := hl x List.mem_cons_self
    refine ih (Nat.le_min.2 ⟨hb, hx⟩) (fun y hy => hl y (List.mem_cons_of_mem x hy)) ?_
    obtain rfl | hm := hm
    · exact .inl (Nat.min_eq_left hx).symm
    · obtain rfl | hm := List.mem_cons.1 hm
      · exact .inl (Nat.min_eq_right hb).symm
      · exact .inr hm

theorem parentPort_nearest {n : Nat} (hn : n ∈ s.upPorts) (hk : (s.slp n).hops < 0xFF)
    (h : ∀ k, k ∈ s.upPorts → k ≠ n → (s.slp n).hops < (s.slp k).hops) : s.parentPort = some n := by
  have hbest : (s.upPorts.map fun k => (s.slp k).hops).foldl min 0xFF = (s.slp n).hops := by
    refine foldl_min_eq (Nat.le_of_lt hk) (fun x hx => ?_) (.inr (List.mem_map_of_mem hn))
    obtain ⟨k, hk, rfl⟩ := List.mem_map.1 hx
    by_cases e : k = n
    · rw [e]
    · exact Nat.le_of_lt (h k hk e)
  unfold State.parentPort
  dsimp only
  rw [hbest, if_neg (by simpa using Nat.ne_of_lt hk)]
  cases hf : s.upPorts.find? fun k => (s.slp k).hops == (s.slp n).hops with
  | none => exact absurd (beq_self_eq_true _) (List.find?_eq_none.1 hf n hn)
  | some k =>
    have hkn : (s.slp k).hops = (s.slp n).hops := by simpa using List.find?_some hf
    by_cases e : k = n
    · rw [e]
    · exact absurd hkn (Nat.ne_of_gt (h k (List.mem_of_find?_eq_some hf) e))

theorem parentPort_none (h : ∀ k, k ∈ s.upPorts → (s.slp k).hops = 0xFF) : s.parentPort = none := by
  have hbest : (s.upPorts.map fun k => (s.slp k).hops).foldl min 0xFF = 0xFF := by
    refine foldl_min_eq (Nat.le_refl _) (fun x hx => ?_) (.inl rfl)
    obtain ⟨k, hk, rfl⟩ := List.mem_map.1 hx
    exact Nat.le_of_eq (h k hk).symm
  unfold State.parentPort
  dsimp only
  rw [hbest]
  rfl

theorem parentPort_of_ports (h : t.sl.ports = s.sl.ports) : t.parentPort = s.parentPort := by
  unfold State.parentPort
  simp only [upPorts_of_link fun k => congrArg SlPort.link (slp_of_ports h k), slp_of_ports h]

/-- Learning the parent changes no port, nor TIME. -/
theorem learnParent_kept (s : State) :
    s.learnParent.sl.ports = s.sl.ports ∧ s.learnParent.sl.master = s.sl.master ∧ s.learnParent.time = s.time := by
  unfold State.learnParent
  split
  · exact ⟨rfl, rfl, rfl⟩
  · split <;> exact ⟨rfl, rfl, rfl⟩

theorem learnParent_master (h : s.sl.master = true) : s.learnParent.sl.hops = 0 := by
  rw [State.learnParent, if_pos h]

theorem learnParent_none (hm : s.sl.master = false) (hp : s.parentPort = none) :
    s.learnParent.sl.hops = 0xFF ∧ s.learnParent.sl.sync = false := by
  rw [State.learnParent, if_neg (by rw [hm]; decide), hp]
  exact ⟨rfl, rfl⟩

theorem learnParent_some {q : Nat} (hm : s.sl.master = false) (hp : s.parentPort = some q) :
    s.learnParent.sl.hops = (s.slp q).hops + 1 ∧ s.learnParent.sl.parent = q ∧ s.learnParent.sl.syncRun = s.sl.syncRun := by
  rw [State.learnParent, if_neg (by rw [hm]; decide), hp]
  exact ⟨rfl, rfl, rfl⟩

/-! TIME exchanged and corrected (03 R82). -/

/-- What a correction by `e` does to TIME and the offset, and what it leaves. -/
theorem correctTime_effect (e : Int) (s : State) :
    let t := s.correctTime e
    (t.sl.ports = s.sl.ports ∧ t.sl.parent = s.sl.parent ∧ t.sl.hops = s.sl.hops) ∧ t.sl.ofs = e ∧
      (t.sl.sync = true ↔ -20 ≤ e ∧ e ≤ 20 ∧ 9 ≤ s.sl.syncRun) ∧
      (-1000 ≤ e → t.time = s.time ∧ t.sl.slew = e ∧ (t.sl.slow = true ↔ 1000 < e)) ∧
      (e < -1000 → t.time = s.time + BitVec.ofInt 64 (-e) ∧ t.sl.slew = 0) ∧ (fabricIdle s → fabricIdle t) := by
  have hsync : decide (10 ≤ if decide (-20 ≤ e ∧ e ≤ 20) then s.sl.syncRun + 1 else 0) = true ↔ -20 ≤ e ∧ e ≤ 20 ∧ 9 ≤ s.sl.syncRun := by
    rw [decide_eq_true_iff]
    split
    · next h =>
      have := of_decide_eq_true h
      omega
    · next h =>
      have := mt decide_eq_true h
      omega
  unfold State.correctTime
  dsimp only
  split
  · next he => exact ⟨⟨rfl, rfl, rfl⟩, rfl, hsync, fun h => absurd he (Int.not_lt.2 h), fun _ => ⟨rfl, rfl⟩, fun hi => fabricIdle_of hi rfl rfl⟩
  · next he =>
    exact ⟨⟨rfl, rfl, rfl⟩, rfl, hsync, fun _ => ⟨rfl, rfl, decide_eq_true_iff⟩, fun h => absurd h he, fun hi => fabricIdle_of hi rfl rfl⟩

theorem timesyncExchange_sent (hl : (s.slp s.ev.a).link = true) :
    exec .timesyncExchange s = .next (s.queueAt s.ev.a (s.timePk s.ev.a 0)) := congrArg Host.Outcome.next (if_pos hl)

theorem timesyncExchange_waits (hl : (s.slp s.ev.a).link = false) : exec .timesyncExchange s = .next s :=
  congrArg Host.Outcome.next (if_neg (by rw [hl]; decide))

/-- After a TIMESYNC packet has come: the hops that its sender reports are known, which are free (log 20). -/
def hopsHeard (p : Pk) (s : State) : State :=
  ((heardState p s).modSlp s.ev.a fun x => { x with hops := Config.peerHops s.free % 256 }).draw

/-- After an answer to an exchange has come: the link delay too. -/
def delayHeard (p : Pk) (s : State) : State :=
  (hopsHeard p s).modSlp s.ev.a fun x => { x with delay := (s.time.toNat - p.arg 24 8) / 2 }

theorem fabricIdle_hopsHeard (p : Pk) (hi : fabricIdle s) : fabricIdle (hopsHeard p s) :=
  fabricIdle_draw (fabricIdle_modSlp _ _ (fabricIdle_heardState p hi))

theorem fabricIdle_delayHeard (p : Pk) (hi : fabricIdle s) : fabricIdle (delayHeard p s) := fabricIdle_modSlp _ _ (fabricIdle_hopsHeard p hi)

theorem fabTimesync_request (hi : fabricIdle s) (ha : arrives 9 p s) (h : p.arg 24 8 = 0) :
    exec .fabTimesync s = .next ((hopsHeard p s).queueAt s.ev.a ((hopsHeard p s).timePk s.ev.a (p.arg 16 8))) := by
  show Host.Outcome.next _ = _
  rw [receivePk_link ha (.inl rfl)]
  dsimp only
  rw [landed_arg, landed_arg, if_pos (beq_iff_eq.2 h), heardState_ev, heardState_free, ← hopsHeard]
  exact congrArg Host.Outcome.next (fabricPump_idle (fabricIdle_modSlp _ _ (fabricIdle_hopsHeard p hi)))

/-- The offset of TIME from the sender's, as an answer gives it. -/
def offsetOf (p : Pk) (now : Nat) : Int := (now : Int) - ((p.arg 16 8 + (now - p.arg 24 8) / 2 : Nat) : Int)

/-- An answer gives the link delay and what the ports know of the master; at the parent port of a package that is not the master it corrects
TIME. -/
theorem fabTimesync_answer (ha : arrives 9 p s) (h : p.arg 24 8 ≠ 0) :
    exec .fabTimesync s = .next (if !(delayHeard p s).sl.master && (delayHeard p s).parentPort == some s.ev.a then
      (delayHeard p s).learnParent.correctTime (offsetOf p s.time.toNat) else (delayHeard p s).learnParent).fabricPump := by
  obtain ⟨hports, hmaster, -⟩ := learnParent_kept (delayHeard p s)
  rw [← hmaster, ← parentPort_of_ports hports]
  show Host.Outcome.next _ = _
  rw [receivePk_link ha (.inl rfl)]
  dsimp only
  rw [landed_arg, landed_arg, if_neg (mt beq_iff_eq.1 h), heardState_ev, heardState_free, heardState_time, ← hopsHeard, ← delayHeard,
    ← offsetOf]

theorem fabTimesync_corrects (hi : fabricIdle s) (ha : arrives 9 p s) (h : p.arg 24 8 ≠ 0) (hm : (delayHeard p s).sl.master = false)
    (hp : (delayHeard p s).parentPort = some s.ev.a) :
    exec .fabTimesync s = .next ((delayHeard p s).learnParent.correctTime (offsetOf p s.time.toNat)) := by
  obtain ⟨-, -, -, -, -, hkeep⟩ := correctTime_effect (offsetOf p s.time.toNat) (delayHeard p s).learnParent
  rw [fabTimesync_answer ha h, if_pos (by simp [hm, hp]),
    fabricPump_idle (hkeep ((routed_learnParent _).idle (fabricIdle_delayHeard p hi)))]

theorem fabTimesync_learns (hi : fabricIdle s) (ha : arrives 9 p s) (h : p.arg 24 8 ≠ 0)
    (hp : (delayHeard p s).sl.master = true ∨ (delayHeard p s).parentPort = none) :
    exec .fabTimesync s = .next (delayHeard p s).learnParent := by
  rw [fabTimesync_answer ha h, if_neg (by obtain hp | hp := hp <;> simp [hp]),
    fabricPump_idle ((routed_learnParent _).idle (fabricIdle_delayHeard p hi))]

theorem delayHeard_frame (p : Pk) (s : State) :
    ∃ ports ctr free, delayHeard p s = { s with sl := { s.sl with ports := ports, ctr := ctr }, free := free } := by
  obtain ⟨_, _, h⟩ := onlyPorts_heardState p s
  unfold delayHeard hopsHeard
  rw [h]
  exact ⟨_, _, _, by dsimp only [State.modSlp, State.draw]⟩

theorem slp_draw (s : State) (k : Nat) : s.draw.slp k = s.slp k := rfl

theorem hopsHeard_slp (p : Pk) (s : State) : (hopsHeard p s).slp s.ev.a =
    { (heardState p s).slp s.ev.a with hops := Config.peerHops s.free % 256 } := by rw [hopsHeard, slp_draw, slp_modSlp]

theorem hopsHeard_slp_other {k : Nat} (p : Pk) (h : k ≠ s.ev.a) : (hopsHeard p s).slp k = (heardState p s).slp k := by
  rw [hopsHeard, slp_draw, slp_modSlp_other _ h]

theorem delayHeard_slp (p : Pk) (s : State) : (delayHeard p s).slp s.ev.a =
    { (heardState p s).slp s.ev.a with hops := Config.peerHops s.free % 256, delay := (s.time.toNat - p.arg 24 8) / 2 } := by
  rw [delayHeard, slp_modSlp, hopsHeard_slp]

theorem delayHeard_slp_other {k : Nat} (p : Pk) (h : k ≠ s.ev.a) : (delayHeard p s).slp k = (heardState p s).slp k := by
  rw [delayHeard, slp_modSlp_other _ h, hopsHeard_slp_other p h]

theorem delayHeard_upPorts (p : Pk) (s : State) : (delayHeard p s).upPorts = s.upPorts := by
  refine upPorts_of_link fun k => ?_
  rw [← heardState_link p s k]
  by_cases h : k = s.ev.a
  · rw [h, delayHeard_slp]
  · rw [delayHeard_slp_other p h]

theorem delayHeard_hops_other {k : Nat} (p : Pk) (h : k ≠ s.ev.a) : ((delayHeard p s).slp k).hops = (s.slp k).hops := by
  rw [delayHeard_slp_other p h, heardState_hops]

/-- A TIMESYNC request is answered with its TIME echoed. -/
theorem fabTimesync_answers (hi : fabricIdle s) (ha : arrives 9 p s) (h : p.arg 24 8 = 0) : ∃ t, exec .fabTimesync s = .next t ∧
    queued s.ev.a [s.timePk s.ev.a (p.arg 16 8)] s t ∧ t.time = s.time := by
  obtain ⟨_, _, hheard⟩ := onlyPorts_heardState p s
  have hpk : (hopsHeard p s).timePk s.ev.a (p.arg 16 8) = s.timePk s.ev.a (p.arg 16 8) := by
    unfold State.timePk
    rw [hopsHeard_slp, heardState_peer]
    unfold hopsHeard
    rw [hheard]
    rfl
  refine ⟨_, fabTimesync_request hi ha h, ?_, ?_⟩
  · rw [queued, slp_queueAt, hpk, hopsHeard_slp, heardState_sendq]
    rfl
  · rw [State.queueAt, modSlp_time, hopsHeard, draw_time, modSlp_time, heardState_time]

theorem learnParent_delay (p : Pk) (s : State) :
    ((delayHeard p s).learnParent.slp s.ev.a).delay = (s.time.toNat - p.arg 24 8) / 2 := by
  rw [slp_of_ports (learnParent_kept _).1, delayHeard_slp]

theorem learnParent_time (p : Pk) (s : State) : (delayHeard p s).learnParent.time = s.time := by
  obtain ⟨_, _, _, hframe⟩ := delayHeard_frame p s
  rw [(learnParent_kept _).2.2, hframe]

theorem delayHeard_master (p : Pk) (s : State) : (delayHeard p s).sl.master = s.sl.master := by
  obtain ⟨_, _, _, hframe⟩ := delayHeard_frame p s
  rw [hframe]

/-- An answer at the master gives the link delay. -/
theorem fabTimesync_master (hi : fabricIdle s) (ha : arrives 9 p s) (h : p.arg 24 8 ≠ 0) (hm : s.sl.master = true) :
    ∃ t, exec .fabTimesync s = .next t ∧ (t.slp s.ev.a).delay = (s.time.toNat - p.arg 24 8) / 2 ∧ t.sl.hops = 0 ∧ t.time = s.time := by
  rw [← delayHeard_master p s] at hm
  exact ⟨_, fabTimesync_learns hi ha h (.inl hm), learnParent_delay p s, learnParent_master hm, learnParent_time p s⟩

/-- An answer at a package of which no port knows a way to the master. -/
theorem fabTimesync_lost (hi : fabricIdle s) (ha : arrives 9 p s) (h : p.arg 24 8 ≠ 0) (hm : s.sl.master = false)
    (hh : Config.peerHops s.free % 256 = 0xFF) (hothers : ∀ k, k ∈ s.upPorts → k ≠ s.ev.a → (s.slp k).hops = 0xFF) :
    ∃ t, exec .fabTimesync s = .next t ∧ (t.slp s.ev.a).delay = (s.time.toNat - p.arg 24 8) / 2 ∧ t.sl.hops = 0xFF ∧ t.sl.sync = false ∧
      t.time = s.time := by
  rw [← delayHeard_master p s] at hm
  have hnone : (delayHeard p s).parentPort = none := by
    refine parentPort_none fun k hk => ?_
    rw [delayHeard_upPorts] at hk
    by_cases e : k = s.ev.a
    · rw [e, delayHeard_slp]
      exact hh
    · rw [delayHeard_hops_other p e]
      exact hothers k hk e
  obtain ⟨hhops, hsync⟩ := learnParent_none hm hnone
  exact ⟨_, fabTimesync_learns hi ha h (.inr hnone), learnParent_delay p s, hhops, hsync, learnParent_time p s⟩

/-- An answer at the parent port gives the offset, which corrects TIME. -/
theorem fabTimesync_parent (hi : fabricIdle s) (ha : arrives 9 p s) (h : p.arg 24 8 ≠ 0) (hm : s.sl.master = false)
    (hh : Config.peerHops s.free % 256 < 0xFF) (hl : (s.slp s.ev.a).link = true)
    (hothers : ∀ k, k ∈ s.upPorts → k ≠ s.ev.a → Config.peerHops s.free % 256 < (s.slp k).hops) :
    let e := offsetOf p s.time.toNat
    ∃ t, exec .fabTimesync s = .next t ∧ (t.slp s.ev.a).delay = (s.time.toNat - p.arg 24 8) / 2 ∧ t.sl.parent = s.ev.a ∧
      t.sl.hops = Config.peerHops s.free % 256 + 1 ∧ t.sl.ofs = e ∧ (t.sl.sync = true ↔ -20 ≤ e ∧ e ≤ 20 ∧ 9 ≤ s.sl.syncRun) ∧
      (-1000 ≤ e → t.time = s.time ∧ t.sl.slew = e ∧ (t.sl.slow = true ↔ 1000 < e)) ∧
      (e < -1000 → t.time = s.time + BitVec.ofInt 64 (-e) ∧ t.sl.slew = 0) := by
  intro e
  have hown : ((delayHeard p s).slp s.ev.a).hops = Config.peerHops s.free % 256 := by rw [delayHeard_slp]
  have hparent : (delayHeard p s).parentPort = some s.ev.a := by
    refine parentPort_nearest ?_ (hown ▸ hh) fun k hk hne => ?_
    · rw [delayHeard_upPorts]
      exact (mem_upPorts ..).2 ⟨ha.1, hl⟩
    · rw [delayHeard_upPorts] at hk
      rw [hown, delayHeard_hops_other p hne]
      exact hothers k hk hne
  have hrun : (delayHeard p s).sl.syncRun = s.sl.syncRun := by
    obtain ⟨_, _, _, hframe⟩ := delayHeard_frame p s
    rw [hframe]
  rw [← delayHeard_master p s] at hm
  obtain ⟨hhops, hpar, hrun'⟩ := learnParent_some hm hparent
  obtain ⟨⟨hports, hpar', hhops'⟩, hofs, hsync, hslow, hstep, -⟩ := correctTime_effect e (delayHeard p s).learnParent
  rw [learnParent_time] at hslow hstep
  rw [hrun', hrun] at hsync
  refine ⟨_, fabTimesync_corrects hi ha h hm hparent, ?_, hpar'.trans hpar, hhops'.trans (hhops.trans (by rw [hown])), hofs, hsync, hslow, hstep⟩
  rw [slp_of_ports hports]
  exact learnParent_delay p s

/-! Fault notifications (03 R83). -/

/-- Origin package and sequence number of a notification. -/
def faultId (p : Pk) : Nat × Nat := (fld (p.arg 18 2) 0 11, p.arg 22 2)

/-- The notification `p` has come and is new: it counts as seen. -/
def faultNoted (p : Pk) (s : State) : State :=
  { heardState p s with sl := { (heardState p s).sl with faultsSeen := s.sl.faultsSeen ++ [faultId p] } }

/-- It is flooded on the other ports that are up. -/
def faultFlooded (p : Pk) (s : State) : State := (faultNoted p s).flood (landed p s) (without s.upPorts s.ev.a)

theorem faultNoted_slp (p : Pk) (s : State) (k : Nat) : (faultNoted p s).slp k = (heardState p s).slp k := slp_of_ports rfl k

theorem faultFlooded_frame (p : Pk) (s : State) :
    ∃ ports ctr, faultFlooded p s =
      { s with sl := { s.sl with ports := ports, ctr := ctr, faultsSeen := s.sl.faultsSeen ++ [faultId p] } } := by
  obtain ⟨_, _, hheard⟩ := onlyPorts_heardState p s
  obtain ⟨_, hflood⟩ := flood_frame (landed p s) (without s.upPorts s.ev.a) (faultNoted p s)
  rw [faultFlooded, hflood, faultNoted, hheard]
  exact ⟨_, _, rfl⟩

theorem fabricIdle_faultFlooded (p : Pk) (hi : fabricIdle s) : fabricIdle (faultFlooded p s) := by
  obtain ⟨_, _, h⟩ := faultFlooded_frame p s
  rw [h]
  exact hi

theorem heardState_faultsSeen (p : Pk) (s : State) : (heardState p s).sl.faultsSeen = s.sl.faultsSeen := by
  obtain ⟨_, _, h⟩ := onlyPorts_heardState p s
  rw [h]

theorem fabFault_seen (hi : fabricIdle s) (ha : arrives 10 p s) (h : faultId p ∈ s.sl.faultsSeen) :
    exec .fabFault s = .next (heardState p s) := by
  show Host.Outcome.next _ = _
  rw [receivePk_link ha (.inr rfl)]
  dsimp only
  rw [landed_arg, landed_arg, heardState_faultsSeen, ← faultId, if_pos (List.contains_iff_mem.2 h), fabricPump_idle (fabricIdle_heardState p hi)]

theorem fabFault_new (hi : fabricIdle s) (ha : arrives 10 p s) (h : faultId p ∉ s.sl.faultsSeen) :
    exec .fabFault s = .next ((faultFlooded p s).faultEffect (landed p s)) := by
  have hup : (faultNoted p s).upPorts = s.upPorts := upPorts_of_link fun k => by rw [faultNoted_slp, heardState_link]
  show Host.Outcome.next _ = _
  rw [receivePk_link ha (.inr rfl)]
  dsimp only
  rw [landed_arg, landed_arg, heardState_faultsSeen, ← faultId, if_neg (mt List.contains_iff_mem.1 h), ← faultNoted, hup, heardState_ev, ← faultFlooded,
    fabricPump_idle (faultEffect_sl _ (fabricIdle_faultFlooded p hi)).2]

/-- A new notification goes on through each other port that is up, and nothing else leaves; it marks its package or micro-context dead. -/
theorem fabFault_effect (hi : fabricIdle s) (ha : arrives 10 p s) (h : faultId p ∉ s.sl.faultsSeen) :
    ∃ t, exec .fabFault s = .next t ∧ t.sl.faultsSeen = s.sl.faultsSeen ++ [faultId p] ∧
      (∀ k, k ∈ s.upPorts → k ≠ s.ev.a → passedOn k { p with dpkg := (s.slp k).peer, spkg := s.sl.pkg } s t) ∧ queued s.ev.a [] s t ∧
      (p.arg 16 1 = 2 → (faultId p).1 ≠ s.sl.pkg → { pkg := (faultId p).1, mcx := none, at_ := s.time.toNat } ∈ t.sl.dead) ∧
      (p.arg 16 1 = 1 → { pkg := (faultId p).1, mcx := some (fld (p.arg 20 2) 0 13), at_ := s.time.toNat } ∈ t.sl.dead) := by
  obtain ⟨d, hd, -⟩ := deathsReported_frame (landed p s) (faultFlooded p s)
  obtain ⟨ports, ctr, hframe⟩ := faultFlooded_frame p s
  obtain ⟨hsl, -⟩ := faultEffect_sl (landed p s) (fabricIdle_faultFlooded p hi)
  have hpkg : (faultFlooded p s).sl.pkg = s.sl.pkg := by rw [hframe]
  have htime : (faultFlooded p s).time = s.time := by rw [hframe]
  have hports (k : Nat) : ((faultFlooded p s).faultEffect (landed p s)).slp k = (faultFlooded p s).slp k :=
    slp_of_ports (by rw [hsl, hd]) k
  refine ⟨_, fabFault_new hi ha h, by rw [hsl, hd, hframe], fun k hk hne => ?passedOn, ?queued, fun hc hne => ?package, fun hc => ?mcx⟩
  case passedOn =>
    have hmem : k ∈ without s.upPorts s.ev.a := List.mem_filter.2 ⟨hk, bne_iff_ne.2 hne⟩
    have hq := queued_flood (s := faultNoted p s) (landed p s) ((nodup_upPorts s).filter _) hmem
    rw [queued, faultNoted_slp, heardState_sendq] at hq
    refine ⟨floodCopy (landed p s) (faultNoted p s) k, ?_, ?_⟩
    · obtain ⟨shares, hland⟩ := landed_eq p s
      obtain ⟨_, _, hheard⟩ := onlyPorts_heardState p s
      have hnoted : (faultNoted p s).sl.pkg = s.sl.pkg := by rw [faultNoted, hheard]
      rw [floodCopy, faultNoted_slp, heardState_peer, hnoted, hland]
    · rw [queued, hports]
      exact hq
  case queued =>
    have hout : s.ev.a ∉ without s.upPorts s.ev.a := fun hmem => absurd rfl (bne_iff_ne.1 (List.mem_filter.1 hmem).2)
    rw [queued, hports, faultFlooded, flood_slp_other _ hout, faultNoted_slp, heardState_sendq]
    exact (List.append_nil _).symm
  case package =>
    have hdead : deadBy (landed p s) (faultFlooded p s) = some ((faultId p).1, none) := by
      simp [deadBy, landed_arg, hc, faultId]
    rw [hsl, ← htime]
    exact mem_deathsReported hdead (.inl (by rw [hpkg]; exact hne))
  case mcx =>
    have hdead : deadBy (landed p s) (faultFlooded p s) = some ((faultId p).1, some (fld (p.arg 20 2) 0 13)) := by
      simp [deadBy, landed_arg, hc, faultId]
    rw [hsl, ← htime]
    exact mem_deathsReported hdead (.inr rfl)

end

/-- Global time and notifications as stated. -/
theorem globalTimeAndFaults_holds : GlobalTimeAndFaults := by
  intro s n hn hev hi
  subst hev
  extract_lets now
  refine ⟨fun hl => ⟨_, timesyncExchange_sent hl, queued_queueAt .., modSlp_time .., fun k hk => slp_queueAt_other _ hk⟩,
    timesyncExchange_waits, fun p ha => ⟨fabTimesync_answers hi ha, fun h => ?answer⟩, fun p ha => ?fault⟩
  case answer =>
    extract_lets delay e
    exact ⟨fabTimesync_master hi ha h, fun hm hh hl hothers => fabTimesync_parent hi ha h hm hh hl hothers, fabTimesync_lost hi ha h⟩
  case fault =>
    extract_lets id
    refine ⟨fun h => ?seen, fun h => ?new⟩
    case seen =>
      obtain ⟨_, _, hframe⟩ := onlyPorts_heardState p s
      refine ⟨_, fabFault_seen hi ha h, ?_⟩
      rw [hframe]
      exact ⟨rfl, rfl, rfl⟩
    case new =>
      obtain ⟨t, he, hseen, hpassed, hquiet, hpackage, hmcx⟩ := fabFault_effect hi ha h
      exact ⟨t, he, hseen, hpassed, hquiet, hpackage, fun hc _ => hmcx hc⟩

/-- Settles O47: the clauses on the ports and the wheel and those on time and notifications, each for its event. -/
theorem smivyPortsTimeAndFaults : Obligations.SmivyPortsTimeAndFaults := ⟨smivyPortsAndWheel_holds, globalTimeAndFaults_holds⟩

end Sys2Proof.Proofs
end

section
/-! The host interface's reports (for O38, O41, O42): what completions, events and interrupts can change, said once per operation. -/
namespace Sys2Proof.Proofs
open Sys2Proof Sys2Proof.Machine Sys2Proof.Laws Sys2Proof.Stated

/-- `t` is `s` but for what the host interface keeps of queues and commands and what it writes to host memory: functions change in their
event rings and pending vectors alone, threads in their wait packets, and commands only leave. -/
structure HostOnly (s t : State) : Prop where
  frame : t = { s with
    mem := { s.mem with host := t.mem.host }
    hif := { s.hif with
      fns := t.hif.fns, stage2 := t.hif.stage2, mqs := t.hif.mqs, lostCnt := t.hif.lostCnt, lostOwed := t.hif.lostOwed
      cmds := t.hif.cmds, threads := t.hif.threads }
    free := t.free, out := t.out }
  fn : ∀ v, t.fn v = { s.fn v with
    evTail := (t.fn v).evTail, evPhase := (t.fn v).evPhase, evOvf := (t.fn v).evOvf, pba := (t.fn v).pba }
  thread : ∀ k, t.thread k = { s.thread k with packets := (t.thread k).packets }
  cmds : t.hif.cmds.Sublist s.hif.cmds

/-- So it is, and the queues stay as they are but for pending interrupts and a kept event. -/
structure Reported (s t : State) : Prop extends HostOnly s t where
  mqs : t.hif.mqs = s.hif.mqs
  st2 : ∀ q, t.st2 q = { s.st2 q with irqs := (t.st2 q).irqs, irqAt := (t.st2 q).irqAt, kept := (t.st2 q).kept }

section
variable {s t u : State}

theorem HostOnly.refl (s : State) : HostOnly s s := ⟨rfl, fun _ => rfl, fun _ => rfl, .refl _⟩
theorem Reported.refl (s : State) : Reported s s := ⟨.refl s, rfl, fun _ => rfl⟩

theorem HostOnly.trans (h : HostOnly s t) (k : HostOnly t u) : HostOnly s u where
  frame := k.frame.trans (by rw [h.frame])
  fn v := (k.fn v).trans (by rw [h.fn v])
  thread n := (k.thread n).trans (by rw [h.thread n])
  cmds := k.cmds.trans h.cmds

theorem Reported.trans (h : Reported s t) (k : Reported t u) : Reported s u where
  toHostOnly := h.toHostOnly.trans k.toHostOnly
  mqs := k.mqs.trans h.mqs
  st2 q := (k.st2 q).trans (by rw [h.st2 q])

theorem Reported.ite {c : Prop} [Decidable c] (ht : Reported s t) (hu : Reported s u) : Reported s (if c then t else u) := by
  split
  · exact ht
  · exact hu

theorem Reported.foldl {α : Type} {f : State → α → State} (h : ∀ s a, Reported s (f s a)) (l : List α) (s : State) :
    Reported s (l.foldl f s) := by
  induction l generalizing s with
  | nil => exact .refl s
  | cons a l ih => exact (h s a).trans (ih _)

namespace HostOnly
variable (h : HostOnly s t)
include h

theorem pkg : t.pkg = s.pkg := by rw [h.frame]
theorem flash : t.flash = s.flash := by rw [h.frame]
theorem time : t.time = s.time := by rw [h.frame]
theorem eth : t.eth = s.eth := by rw [h.frame]
theorem prot : t.prot = s.prot := by rw [h.frame]
theorem circ : t.circ = s.circ := by rw [h.frame]
theorem cores : t.cores = s.cores := by rw [h.frame]
theorem bytes : t.mem.bytes = s.mem.bytes := by rw [h.frame]
theorem ev : t.ev = s.ev := by rw [h.frame]
theorem agent : t.agent = s.agent := by rw [h.frame]
theorem link : t.hif.link = s.hif.link := by rw [h.frame]
theorem numVfs : t.hif.numVfs = s.hif.numVfs := by rw [h.frame]
theorem fwPhase : t.hif.fwPhase = s.hif.fwPhase := by rw [h.frame]
theorem fwRunning : t.hif.fwRunning = s.hif.fwRunning := by rw [h.frame]

theorem enabled (v : Nat) : (t.fn v).enabled = (s.fn v).enabled := by rw [h.fn]

theorem hostUp (v : Nat) : t.hostUp v = s.hostUp v := by
  unfold State.hostUp State.fnUp State.offered State.minimal
  rw [h.link, h.numVfs, h.pkg, h.enabled]

end HostOnly

theorem Reported.mq (h : Reported s t) (m : Nat) : t.mq m = s.mq m := by
  unfold State.mq
  rw [h.mqs]

/-! Functions, queues and threads under their updates. -/

theorem fn_modFn_ite (v w : Nat) (g : FnRegs → FnRegs) : (s.modFn v g).fn w = if w = v then g (s.fn v) else s.fn w := get_upd ..
theorem st2_modSt2_ite (q r : Nat) (g : Stage2 → Stage2) : (s.modSt2 q g).st2 r = if r = q then g (s.st2 q) else s.st2 r := get_upd ..
theorem thread_modThread_ite (k n : Nat) (g : PThread → PThread) :
    (s.modThread k g).thread n = if n = k then g (s.thread k) else s.thread n := get_upd ..

/-! One rule per operation (04 R98, R104 to R106, R113). -/

theorem reported_modFn (v : Nat) {g : FnRegs → FnRegs}
    (h : ∀ r, g r = { r with evTail := (g r).evTail, evPhase := (g r).evPhase, evOvf := (g r).evOvf, pba := (g r).pba }) :
    Reported s (s.modFn v g) where
  frame := rfl
  fn w := by
    rw [fn_modFn_ite]
    split
    · next e => rw [e]; exact h _
    · rfl
  thread _ := rfl
  cmds := .refl _
  mqs := rfl
  st2 _ := rfl

theorem reported_modSt2 (q : Nat) {g : Stage2 → Stage2}
    (h : ∀ e, g e = { e with irqs := (g e).irqs, irqAt := (g e).irqAt, kept := (g e).kept }) : Reported s (s.modSt2 q g) where
  frame := rfl
  fn _ := rfl
  thread _ := rfl
  cmds := .refl _
  mqs := rfl
  st2 r := by
    rw [st2_modSt2_ite]
    split
    · next e => rw [e]; exact h _
    · rfl

theorem reported_modThread (k : Nat) {g : PThread → PThread} (h : ∀ p, g p = { p with packets := (g p).packets }) :
    Reported s (s.modThread k g) where
  frame := rfl
  fn _ := rfl
  thread n := by
    rw [thread_modThread_ite]
    split
    · next e => rw [e]; exact h _
    · rfl
  cmds := .refl _
  mqs := rfl
  st2 _ := rfl

theorem reported_draw : Reported s s.draw := ⟨⟨rfl, fun _ => rfl, fun _ => rfl, .refl _⟩, rfl, fun _ => rfl⟩

theorem reported_waitPacket (k source : Nat) : Reported s (s.waitPacket k source) :=
  (reported_modThread k fun _ => rfl).trans reported_draw

theorem reported_houseWait (source : Nat) : Reported s (s.houseWait source) := reported_waitPacket ..

theorem reported_emit (o : Output) : Reported s (s.emit o) := ⟨⟨rfl, fun _ => rfl, fun _ => rfl, .refl _⟩, rfl, fun _ => rfl⟩

theorem reported_hostWrite (v a : Nat) (bs : List Byte) : Reported s (s.hostWrite v a bs) :=
  .ite ⟨⟨rfl, fun _ => rfl, fun _ => rfl, .refl _⟩, rfl, fun _ => rfl⟩ (.refl s)

theorem reported_hostReport (v a : Nat) (bs : List Byte) : Reported s (s.hostReport v a bs) :=
  .ite (reported_hostWrite ..) ⟨⟨rfl, fun _ => rfl, fun _ => rfl, .refl _⟩, rfl, fun _ => rfl⟩

theorem reported_reportAt (v crec sig val : Nat) (bs : List Byte) : Reported s (s.reportAt v crec sig val bs) := by
  unfold State.reportAt
  exact (Reported.ite (reported_hostReport ..) (.refl s)).trans (.ite (reported_hostReport ..) (.refl _))

theorem reported_putEvent (v ty detail vqn arg : Nat) : Reported s (s.putEvent v ty detail vqn arg) :=
  (reported_hostWrite ..).trans (reported_modFn v fun _ => rfl)

theorem reported_eventLost (v : Nat) : Reported s (s.eventLost v) := reported_modFn v fun _ => rfl

theorem reported_hostLostFirst : Reported s s.hostLostFirst := by
  unfold State.hostLostFirst
  split
  · next n _ =>
    refine .ite ((reported_putEvent 0 0x09 0 0xFFFFFFFF n).trans ?_) (.refl s)
    exact ⟨⟨rfl, fun _ => rfl, fun _ => rfl, .refl _⟩, rfl, fun _ => rfl⟩
  · exact .refl s

theorem reported_post (v ty detail vqn arg : Nat) : Reported s (s.post v ty detail vqn arg) := by
  unfold State.post
  exact (Reported.ite reported_hostLostFirst (.refl s)).trans (.ite (reported_putEvent ..) (reported_eventLost v))

theorem reported_postQueue (v ty detail q arg : Nat) : Reported s (s.postQueue v ty detail q arg) := by
  unfold State.postQueue
  exact .ite (reported_eventLost v) (.ite ((reported_eventLost v).trans (reported_modSt2 q fun _ => rfl)) (reported_post ..))

theorem reported_postKept (qs : List Nat) (v : Nat) (s : State) : Reported s (postKept qs v s) := by
  induction qs generalizing s with
  | nil => exact .refl s
  | cons q qs ih =>
    unfold postKept
    refine .ite (.refl s) ?_
    split
    · exact (((reported_putEvent ..).trans reported_draw).trans (reported_modSt2 q fun _ => rfl)).trans (ih _)
    · exact ih s

theorem reported_ringFreed (v : Nat) : Reported s (s.ringFreed v) := by
  unfold State.ringFreed
  extract_lets r u
  have hu : Reported s u := .ite ((reported_putEvent ..).trans (reported_modFn v fun _ => rfl)) (.refl s)
  exact .ite (hu.trans (reported_postKept ..)) hu

theorem reported_raiseVector (v n : Nat) : Reported s (s.raiseVector v n) := by
  obtain h | h | h := raiseVector_cases s v n
  · rw [h]
    exact .refl s
  · rw [h]
    exact reported_modFn v fun _ => rfl
  · rw [h]
    exact reported_emit _

theorem reported_sendIrq (q : Nat) : Reported s (s.sendIrq q) := (reported_modSt2 q fun _ => rfl).trans (reported_raiseVector ..)

theorem reported_countIrq (q : Nat) : Reported s (s.countIrq q) := by
  unfold State.countIrq
  have h := reported_modSt2 (s := s) q (g := fun e => { e with irqs := e.irqs + 1, irqAt := if e.irqs == 0 then s.time.toNat else e.irqAt })
    fun _ => rfl
  exact .ite (h.trans (reported_sendIrq q)) h

/-- Commands that leave the list of those in progress. -/
theorem reported_filterCmds (p : Cmd → Bool) : Reported s { s with hif := { s.hif with cmds := s.hif.cmds.filter p } } :=
  ⟨⟨rfl, fun _ => rfl, fun _ => rfl, List.filter_sublist⟩, rfl, fun _ => rfl⟩

theorem reported_finishCmd (c : Cmd) (status detail : Nat) (l : LaunchDone) : Reported s (s.finishCmd c status detail l) := by
  unfold State.finishCmd
  extract_lets st u w
  have hu : Reported s u := reported_reportAt ..
  have hw : Reported s w := hu.trans (.ite (reported_countIrq _) (.refl u))
  exact (hw.trans (reported_filterCmds _)).trans (reported_houseWait 4)

theorem reported_postAll (ty detail arg : Nat) : Reported s (s.postAll ty detail arg) := .foldl (fun _ _ => reported_post ..) _ _

/-! Queues that leave (04 R101 R102). -/

/-- A queue's entry goes, and what it was mapped to. -/
theorem hostOnly_queues (st2 : SMap Stage2) (mqs : SMap Mq) : HostOnly s { s with hif := { s.hif with stage2 := st2, mqs := mqs } } :=
  ⟨rfl, fun _ => rfl, fun _ => rfl, .refl _⟩

theorem hostOnly_evict (m : Nat) : HostOnly s (s.evict m) := by
  unfold State.evict
  split
  · exact .refl s
  · exact (reported_hostWrite ..).toHostOnly.trans (hostOnly_queues ..)

theorem hostOnly_unmap (q : Nat) : HostOnly s (s.unmap q) := by
  unfold State.unmap
  split
  · exact .refl s
  · exact hostOnly_queues ..

theorem hostOnly_settleUnbind (s : State) (n : Nat) : HostOnly s (s.settleUnbind n) := by
  induction n generalizing s with
  | zero => exact .refl s
  | succ n ih =>
    unfold State.settleUnbind
    split
    · exact (((hostOnly_unmap _).trans (reported_finishCmd ..).toHostOnly).trans (hostOnly_queues ..)).trans (ih _)
    · exact .refl s

theorem hostOnly_complete (c : Cmd) (status detail : Nat) : HostOnly s (s.complete c status detail) :=
  (reported_finishCmd ..).toHostOnly.trans (hostOnly_settleUnbind ..)

/-- Without a QUEUE_UNBIND in progress none settles. -/
theorem settleUnbind_none (h : ∀ d, d ∈ s.hif.cmds → d.op ≠ 0x21) (n : Nat) : s.settleUnbind n = s := by
  cases n with
  | zero => rfl
  | succ n =>
    unfold State.settleUnbind
    split
    · next c e =>
      have hc := List.find?_some e
      simp only [Bool.and_eq_true, beq_iff_eq] at hc
      obtain ⟨⟨hop, -⟩, -⟩ := hc
      exact absurd hop (h c (List.mem_of_find?_eq_some e))
    · rfl

end
end Sys2Proof.Proofs
end

section
/-! Proem's threads: a thread's step, the extensions and the timers (O13, O38). -/
namespace Sys2Proof.Proofs
open Sys2Proof Sys2Proof.Machine Sys2Proof.Laws Sys2Proof.Stated

section
variable {s : State}

/-! A thread's step (04 R108 R109). -/

theorem tick_hif (s : State) : s.tick.hif = s.hif := by
  unfold State.tick
  split <;> rfl

theorem tick_agent (s : State) : s.tick.agent = s.agent := by
  unfold State.tick
  split <;> rfl

theorem tick_proemNo (s : State) : s.tick.proemNo = s.proemNo := by
  unfold State.proemNo
  rw [tick_agent]

theorem tick_thread (s : State) (k : Nat) : s.tick.thread k = s.thread k := by
  unfold State.thread
  rw [tick_hif]

theorem tick_proemRead (s : State) (k a n : Nat) : s.tick.proemRead k a n = s.proemRead k a n := by
  unfold State.proemRead
  rw [tick_hif]

theorem tick_proemRuns (s : State) : s.tick.proemRuns = s.proemRuns := by
  unfold State.proemRuns
  rw [tick_pkg, tick_proemNo]

theorem not_tripped_of_proemRuns (h : s.proemRuns = true) : s.pkg.tripped = false := by
  simp only [State.proemRuns, Bool.and_eq_true, Bool.not_eq_true'] at h
  obtain ⟨⟨⟨-, ht⟩, -⟩, -⟩ := h
  exact ht

/-- With an empty agenda a Proem thread's step is its move, after TIME has moved on. -/
theorem step_proem (ha : s.agenda = []) (hl : 600 ≤ s.agent) (hh : s.agent < 728) (hr : s.tick.proemRuns = true) :
    step s = proemMove exec s.tick := by
  unfold step machineStep turn agentMove
  rw [not_tripped_of_proemRuns hr, tick_agenda, ha, tick_agent]
  dsimp only
  rw [if_neg Bool.false_ne_true, if_neg (Nat.not_lt.2 hl), if_pos hh]

/-- Thread `s.proemNo` runs, and the halves of the word at its pc are `lo` and `hi`. -/
structure Fetched (lo hi : List Byte) (s : State) : Prop where
  no : s.proemNo < 128
  runs : s.proemRuns = true
  halted : (s.thread s.proemNo).halted = false
  lo : s.proemRead s.proemNo (s.thread s.proemNo).pc.toNat 2 = some lo
  hi : s.proemRead s.proemNo ((s.thread s.proemNo).pc.toNat + 2) 2 = some hi

theorem Fetched.moves {lo hi : List Byte} (h : Fetched lo hi s) :
    ¬ (!s.proemRuns || (s.thread s.proemNo).halted || decide (128 ≤ s.proemNo)) = true := by
  simp [h.runs, h.halted, h.no]

theorem Fetched.tick {lo hi : List Byte} (h : Fetched lo hi s) : Fetched lo hi s.tick where
  no := by rw [tick_proemNo]; exact h.no
  runs := (tick_proemRuns s).trans h.runs
  halted := by rw [tick_thread, tick_proemNo]; exact h.halted
  lo := by rw [tick_proemRead, tick_thread, tick_proemNo]; exact h.lo
  hi := by rw [tick_proemRead, tick_thread, tick_proemNo]; exact h.hi

theorem proemMove_word {lo hi : List Byte} (h : Fetched lo hi s) (h3 : leNat lo % 4 = 3) :
    (∀ i, decodeRV (leNat (lo ++ hi)) = some i → proemMove exec s = exec i s) ∧
    (decodeRV (leNat (lo ++ hi)) = none → proemMove exec s = .next (rvExec s.proemNo (leNat (lo ++ hi)) 4 (leNat (lo ++ hi)) s)) := by
  unfold proemMove
  dsimp only
  rw [if_neg h.moves, h.lo]
  dsimp only
  rw [if_neg (by simp [bits, h3]), h.hi]
  dsimp only
  exact ⟨fun i hd => by rw [hd], fun hd => by rw [hd]⟩

theorem proemMove_compressed {lo hi : List Byte} {w : Nat} (h : Fetched lo hi s) (h3 : leNat lo % 4 ≠ 3) (hd : rvExpand (leNat lo) = some w) :
    proemMove exec s = .next (rvExec s.proemNo w 2 (leNat lo) s) := by
  unfold proemMove
  dsimp only
  rw [if_neg h.moves, h.lo]
  dsimp only
  rw [if_pos (by simp [bits, h3]), hd]

/-- Settles O13: the step is the thread's move, and the move runs the word at its pc. -/
theorem stepRunsTheProemInstruction : Obligations.StepRunsTheProemInstruction := by
  intro s lo hi ha hl hh hr hrun hlo hhi
  have hn : s.proemNo < 128 := by
    unfold State.proemNo
    omega
  have h : Fetched lo hi s.tick := Fetched.tick ⟨hn, (tick_proemRuns s).symm.trans hr, hrun, hlo, hhi⟩
  rw [step_proem ha hl hh hr, ← tick_proemNo s]
  exact ⟨fun i h3 => (proemMove_word h h3).1 i, fun h3 => (proemMove_word h h3).2, fun w => proemMove_compressed h⟩

/-! A thread's registers and packets. -/

theorem rX_setX_same (p : PThread) {n : Nat} (v : Word) (h : n ≠ 0) : (p.setX n v).rX n = v := by
  simp [PThread.setX, PThread.rX, h]

theorem rX_setX_other (p : PThread) {n r : Nat} (v : Word) (h : r ≠ n) : (p.setX n v).rX r = p.rX r := by
  by_cases hn : n = 0
  · simp [PThread.setX, hn]
  · simp only [PThread.setX, PThread.rX, hn, if_false, get_set_other _ _ _ _ h]

theorem setX_packets (p : PThread) (n : Nat) (v : Word) : (p.setX n v).packets = p.packets := by
  unfold PThread.setX
  split <;> rfl

theorem setX_pc (p : PThread) (n : Nat) (v : Word) : (p.setX n v).pc = p.pc := by
  unfold PThread.setX
  split <;> rfl

theorem thread_modThread_other {k n : Nat} (g : PThread → PThread) (h : n ≠ k) : (s.modThread k g).thread n = s.thread n := by
  rw [thread_modThread_ite, if_neg h]

/-- A packet whose source is in the mask. -/
def Wanted (m : Nat) (w : Word) : Prop := m / 2 ^ (w.toNat % 16) % 2 = 1

theorem bitOf_source_iff (m : Nat) (w : Word) : bitOf m (fld w.toNat 0 4) = true ↔ Wanted m w := by
  simp [bitOf, fld, Wanted]

theorem takeFirst_first {m : Nat} {w : Word} (pre post : List Word) (hpre : ∀ x, x ∈ pre → ¬ Wanted m x) (hw : Wanted m w) :
    takeFirst m (pre ++ w :: post) = some (w, pre ++ post) := by
  induction pre with
  | nil => exact if_pos ((bitOf_source_iff m w).2 hw)
  | cons x pre ih =>
    rw [List.cons_append, takeFirst, if_neg (mt (bitOf_source_iff m x).1 (hpre x List.mem_cons_self)),
      ih fun y hy => hpre y (List.mem_cons_of_mem x hy)]
    rfl

theorem takeFirst_none {m : Nat} {ps : List Word} (h : ∀ x, x ∈ ps → ¬ Wanted m x) : takeFirst m ps = none := by
  induction ps with
  | nil => rfl
  | cons x ps ih =>
    rw [takeFirst, if_neg (mt (bitOf_source_iff m x).1 (h x List.mem_cons_self)), ih fun y hy => h y (List.mem_cons_of_mem x hy)]

/-! The extensions (04 R109). -/

/-- What the running thread becomes, the others staying as they are. -/
theorem thr_modThread (g : PThread → PThread) :
    thr (s.modThread s.proemNo g) = g (thr s) ∧ ∀ k, k ≠ s.agent - 600 → (s.modThread s.proemNo g).thread k = s.thread k :=
  ⟨thread_modThread .., fun _ hk => thread_modThread_other g hk⟩

theorem excepts_proemTrap (cause : Nat) (tval : Word) : excepts cause tval s (s.proemTrap s.proemNo cause tval) := by
  obtain ⟨hthr, hother⟩ := thr_modThread (s := s) fun p => { p with
    mepc := p.pc, mcause := BitVec.ofNat 64 cause, mtval := tval, mstatus := mstatusTrap p.mstatus
    pc := p.mtvec &&& ~~~(3 : Word), waiting := none }
  unfold State.proemTrap excepts
  rw [hthr]
  exact ⟨rfl, rfl, rfl, rfl, rfl, rfl, hother⟩

section
variable {f : RV}

/-- What pwait makes of a thread: the first packet wanted is taken, or the thread blocks. -/
def pwaited (f : RV) (m : Nat) (p : PThread) : PThread :=
  match takeFirst m p.packets with
  | some (w, r) => ({ p with packets := r }.setX f.rd w).past
  | none => { p with waiting := some (f.rd, BitVec.ofNat 5 m) }

theorem pwaited_takes {m : Nat} {w : Word} {r : List Word} {p : PThread} (h : takeFirst m p.packets = some (w, r)) :
    pwaited f m p = ({ p with packets := r }.setX f.rd w).past := by
  unfold pwaited
  rw [h]

theorem pwaited_blocks {m : Nat} {p : PThread} (h : takeFirst m p.packets = none) :
    pwaited f m p = { p with waiting := some (f.rd, BitVec.ofNat 5 m) } := by
  unfold pwaited
  rw [h]

theorem pwait_legal (hl : Legal (.rv 0 f)) (h1 : 1 ≤ ((thr s).rX f.rs1).toNat) (h32 : ((thr s).rX f.rs1).toNat < 32) :
    exec (.pwait f) s = .next (s.modThread s.proemNo (pwaited f ((thr s).rX f.rs1).toNat)) := by
  show execPwait f s = _
  unfold execPwait
  have hm : 1 ≤ ((s.thread s.proemNo).rX f.rs1).toNat ∧ ((s.thread s.proemNo).rX f.rs1).toNat < 32 := ⟨h1, h32⟩
  dsimp only
  rw [if_neg (by simp only [hl]; simp; omega)]
  rfl

theorem pwait_illegal (hm : ((thr s).rX f.rs1).toNat = 0 ∨ 32 ≤ ((thr s).rX f.rs1).toNat) :
    exec (.pwait f) s = .next (s.proemTrap s.proemNo 2 (BitVec.ofNat 64 (encodeSyll (.rv 0 f)))) := by
  show execPwait f s = _
  unfold execPwait
  dsimp only
  have hm' : ((s.thread s.proemNo).rX f.rs1).toNat = 0 ∨ 32 ≤ ((s.thread s.proemNo).rX f.rs1).toNat := hm
  rw [if_pos (by simp; omega)]
  rfl

theorem ppost_hands {b : List Byte} (hl : Legal (.rv 1 f)) (hk : ((thr s).rX f.rs2).toNat ≤ 3) (ha : ((thr s).rX f.rs1).toNat % 64 = 0)
    (hp : (thr s).posting = none) (hb : s.proemRead s.proemNo ((thr s).rX f.rs1).toNat 64 = some b) :
    exec (.ppost f) s = .next (s.modThread s.proemNo fun p => { p with posting := some (((thr s).rX f.rs2).toNat, b) }) := by
  show execPpost f s = _
  unfold execPpost
  change (s.thread s.proemNo).posting = none at hp
  change s.proemRead s.proemNo ((s.thread s.proemNo).rX f.rs1).toNat 64 = some b at hb
  change ((s.thread s.proemNo).rX f.rs2).toNat ≤ 3 at hk
  change ((s.thread s.proemNo).rX f.rs1).toNat % 64 = 0 at ha
  dsimp only
  rw [if_neg (by simp only [hl]; simp; omega), if_neg (by simp [ha]), hp, hb]
  rfl

theorem ppost_accepted {k : Nat} {b : List Byte} (hl : Legal (.rv 1 f)) (hk : ((thr s).rX f.rs2).toNat ≤ 3)
    (ha : ((thr s).rX f.rs1).toNat % 64 = 0) (hp : (thr s).posting = some (k, b)) :
    exec (.ppost f) s = .next ((s.modThread s.proemNo PThread.past).postTo k b) := by
  show execPpost f s = _
  unfold execPpost
  change (s.thread s.proemNo).posting = some (k, b) at hp
  change ((s.thread s.proemNo).rX f.rs2).toNat ≤ 3 at hk
  change ((s.thread s.proemNo).rX f.rs1).toNat % 64 = 0 at ha
  dsimp only
  rw [if_neg (by simp only [hl]; simp; omega), if_neg (by simp [ha]), hp]

theorem ppost_misaligned (hl : Legal (.rv 1 f)) (hk : ((thr s).rX f.rs2).toNat ≤ 3) (ha : ((thr s).rX f.rs1).toNat % 64 ≠ 0) :
    exec (.ppost f) s = .next (s.proemTrap s.proemNo 4 ((thr s).rX f.rs1)) := by
  show execPpost f s = _
  unfold execPpost
  change ((s.thread s.proemNo).rX f.rs2).toNat ≤ 3 at hk
  change ((s.thread s.proemNo).rX f.rs1).toNat % 64 ≠ 0 at ha
  dsimp only
  rw [if_neg (by simp only [hl]; simp; omega), if_pos (by simp [ha]), BitVec.ofNat_toNat, BitVec.setWidth_eq]
  rfl

theorem ppost_illegal (hk : 3 < ((thr s).rX f.rs2).toNat) :
    exec (.ppost f) s = .next (s.proemTrap s.proemNo 2 (BitVec.ofNat 64 (encodeSyll (.rv 1 f)))) := by
  show execPpost f s = _
  unfold execPpost
  change 3 < ((s.thread s.proemNo).rX f.rs2).toNat at hk
  dsimp only
  rw [if_pos (by simp; omega)]
  rfl

end

/-! The sinks (04 R109). -/

theorem hostWrite_cmds (v a : Nat) (bs : List Byte) : (s.hostWrite v a bs).hif.cmds = s.hif.cmds := by
  unfold State.hostWrite
  split <;> rfl

theorem putEvent_cmds (v ty detail vqn arg : Nat) : (s.putEvent v ty detail vqn arg).hif.cmds = s.hif.cmds := hostWrite_cmds ..

theorem hostLostFirst_cmds : s.hostLostFirst.hif.cmds = s.hif.cmds := by
  unfold State.hostLostFirst
  split
  · split
    · exact putEvent_cmds ..
    · rfl
  · rfl

theorem post_cmds (v ty detail vqn arg : Nat) : (s.post v ty detail vqn arg).hif.cmds = s.hif.cmds := by
  unfold State.post
  extract_lets u
  have hu : u.hif.cmds = s.hif.cmds := by
    unfold u
    split
    · exact hostLostFirst_cmds
    · rfl
  split
  · exact (putEvent_cmds ..).trans hu
  · exact hu

theorem hostWrite_fn (v w a : Nat) (bs : List Byte) : (s.hostWrite v a bs).fn w = s.fn w := by
  unfold State.hostWrite
  split <;> rfl

theorem putEvent_evTail (v ty detail vqn arg : Nat) :
    ((s.putEvent v ty detail vqn arg).fn v).evTail = ((s.fn v).evTail + 1) % 2 ^ (s.fn v).evLog := by
  unfold State.putEvent
  dsimp only
  rw [fn_modFn, hostWrite_fn]

/-- An event enters a ring that is on and has room, no HOSTLOST being owed. -/
theorem post_evTail (ty detail vqn arg : Nat) {v : Nat} (hl : s.hif.lostOwed = none) (he : (s.fn v).evEn = true)
    (hr : (s.fn v).ringFull = false) : ((s.post v ty detail vqn arg).fn v).evTail = ((s.fn v).evTail + 1) % 2 ^ (s.fn v).evLog := by
  have hf : s.hostLostFirst = s := by
    unfold State.hostLostFirst
    rw [hl]
  unfold State.post
  rw [hf, ite_self]
  dsimp only
  rw [if_pos (by simp [he, hr]), putEvent_evTail]

theorem finishCmd_gone {c d : Cmd} {status detail : Nat} {l : LaunchDone} (h : d ∈ (s.finishCmd c status detail l).hif.cmds) : d.id ≠ c.id := by
  have h' := (List.mem_filter.1 (show d ∈ List.filter _ _ from h)).2
  simpa using h'

theorem complete_gone {c d : Cmd} {status detail : Nat} (h : d ∈ (s.complete c status detail).hif.cmds) : d.id ≠ c.id :=
  finishCmd_gone ((hostOnly_settleUnbind _ _).cmds.subset h)

theorem completionPort_some {b : List Byte} {c : Cmd} (h : s.hif.cmds.find? (fun c => c.vqn == (Config.postedCompletion b).1 &&
    c.tag == (Config.postedCompletion b).2.1) = some c) :
    s.completionPort b = s.complete c ((Config.postedCompletion b).2.2.1 % 14) ((Config.postedCompletion b).2.2.2 % 2 ^ 16) := by
  unfold State.completionPort
  dsimp only
  rw [h]

theorem hostOnly_completionPort (b : List Byte) : HostOnly s (s.completionPort b) := by
  unfold State.completionPort
  dsimp only
  split
  · exact hostOnly_complete ..
  · exact .refl s

/-- Whatever the sink, the thread that posted stays as it was but for wait packets. -/
theorem postTo_thread (k n : Nat) (b : List Byte) :
    (s.postTo k b).thread n = { s.thread n with packets := ((s.postTo k b).thread n).packets } := by
  unfold State.postTo
  split
  · exact (reported_post ..).thread n
  · rfl
  · exact (hostOnly_completionPort b).thread n
  · rfl

theorem proemTimer_fires {d : Nat} (hd : (s.thread s.ev.a).timer = some d) (ht : d ≤ s.time.toNat) :
    exec .proemTimer s = .next ((s.modThread s.ev.a fun p => { p with timer := none }).waitPacket s.ev.a 2) := by
  show execProemTimer s = _
  unfold execProemTimer
  rw [hd]
  dsimp only
  rw [if_pos ht]

/-! The obligation. -/

/-- What pwait does with the packets queued. -/
theorem pwait_holds {f : RV} (hl : Legal (.rv 0 f)) (h1 : 1 ≤ ((thr s).rX f.rs1).toNat) (h32 : ((thr s).rX f.rs1).toNat < 32) :
    (∀ pre w post, (thr s).packets = pre ++ w :: post → (∀ x, x ∈ pre → ¬ Wanted ((thr s).rX f.rs1).toNat x) →
      Wanted ((thr s).rX f.rs1).toNat w → ∃ t, exec (.pwait f) s = .next t ∧
        ((thr t).pc = (thr s).pc + 4 ∧ ∀ k, k ≠ s.agent - 600 → t.thread k = s.thread k) ∧ (thr t).packets = pre ++ post ∧
        (f.rd ≠ 0 → (thr t).rX f.rd = w) ∧ ∀ r, r ≠ f.rd → (thr t).rX r = (thr s).rX r) ∧
    ((∀ x, x ∈ (thr s).packets → ¬ Wanted ((thr s).rX f.rs1).toNat x) → ∃ t, exec (.pwait f) s = .next t ∧ (thr t).pc = (thr s).pc ∧
      (thr t).packets = (thr s).packets ∧ (thr t).waiting = some (f.rd, BitVec.ofNat 5 ((thr s).rX f.rs1).toNat) ∧ (thr t).x = (thr s).x) := by
  obtain ⟨hthr, hother⟩ := thr_modThread (s := s) (pwaited f ((thr s).rX f.rs1).toNat)
  refine ⟨fun pre w post hp hpre hw => ⟨_, pwait_legal hl h1 h32, ?_⟩, fun hnone => ⟨_, pwait_legal hl h1 h32, ?_⟩⟩
  · rw [hthr, pwaited_takes (by rw [hp]; exact takeFirst_first pre post hpre hw)]
    refine ⟨⟨?_, hother⟩, ?_, fun h => ?_, fun r h => ?_⟩
    · exact congrArg (· + 4) (setX_pc ..)
    · exact setX_packets ..
    · exact rX_setX_same _ w h
    · exact rX_setX_other _ w h
  · rw [hthr, pwaited_blocks (takeFirst_none hnone)]
    exact ⟨rfl, rfl, rfl, rfl⟩

/-- What becomes of a thread whose record its sink accepts, and of what the sink keeps. -/
theorem ppost_accepted_holds {f : RV} {k : Nat} {b : List Byte} (hl : Legal (.rv 1 f)) (hk : ((thr s).rX f.rs2).toNat ≤ 3)
    (ha : ((thr s).rX f.rs1).toNat % 64 = 0) (hp : (thr s).posting = some (k, b)) :
    ∃ t, exec (.ppost f) s = .next t ∧ (thr t).posting = none ∧ (thr t).pc = (thr s).pc + 4 ∧ (thr t).x = (thr s).x ∧
      (k = 0 → t.circ = s.circ ∧ t.hif.cmds = s.hif.cmds ∧
        (s.hif.lostOwed = none → (s.fn ((Config.postedEvent b).1 % 65)).evEn = true → (s.fn ((Config.postedEvent b).1 % 65)).ringFull = false →
          (t.fn ((Config.postedEvent b).1 % 65)).evTail =
            ((s.fn ((Config.postedEvent b).1 % 65)).evTail + 1) % 2 ^ (s.fn ((Config.postedEvent b).1 % 65)).evLog)) ∧
      (k = 1 → t.hif.cmds = s.hif.cmds ∧ t.hif.fns = s.hif.fns ∧ ∃ i, i.house = true ∧ t.circ.hostLane = s.circ.hostLane ++ [i]) ∧
      (k = 2 → t.circ = s.circ ∧ t.hif.cmds = s.hif.cmds ∧ t.hif.fns = s.hif.fns) ∧
      (k = 3 → t.circ = s.circ ∧ ∀ c, s.hif.cmds.find? (fun c => c.vqn == (Config.postedCompletion b).1 &&
        c.tag == (Config.postedCompletion b).2.1) = some c → ∀ d, d ∈ t.hif.cmds → d.id ≠ c.id) := by
  have hthr : (s.modThread s.proemNo PThread.past).thread s.proemNo = (thr s).past := thread_modThread ..
  have hagent : ((s.modThread s.proemNo PThread.past).postTo k b).agent = s.agent := by
    unfold State.postTo
    split
    · exact (reported_post ..).agent
    · rfl
    · exact (hostOnly_completionPort b).agent
    · rfl
  have ht : thr ((s.modThread s.proemNo PThread.past).postTo k b) =
      { (thr s).past with packets := (thr ((s.modThread s.proemNo PThread.past).postTo k b)).packets } := by
    unfold thr
    rw [hagent]
    exact (postTo_thread k s.proemNo b).trans (by rw [hthr]; rfl)
  refine ⟨_, ppost_accepted hl hk ha hp, by rw [ht]; rfl, by rw [ht]; rfl, by rw [ht]; rfl, ?_, ?_, ?_, ?_⟩
  · rintro rfl
    exact ⟨(reported_post ..).circ, post_cmds .., fun hl he hr => post_evTail (s := s.modThread s.proemNo PThread.past) _ _ _ _ hl he hr⟩
  · rintro rfl
    exact ⟨rfl, rfl, _, rfl, rfl⟩
  · rintro rfl
    exact ⟨rfl, rfl, rfl⟩
  · rintro rfl
    refine ⟨(hostOnly_completionPort b).circ, fun c hc d hd => ?_⟩
    have hd' : d ∈ ((s.modThread s.proemNo PThread.past).completionPort b).hif.cmds := hd
    rw [completionPort_some (s := s.modThread s.proemNo PThread.past) hc] at hd'
    exact complete_gone hd'

/-- A thread reads its number. -/
theorem ptid_holds {f : RV} (hl : Legal (.rv 2 f)) : ∃ t, exec (.ptid f) s = .next t ∧
    ((thr t).pc = (thr s).pc + 4 ∧ ∀ k, k ≠ s.agent - 600 → t.thread k = s.thread k) ∧
    (f.rd ≠ 0 → (thr t).rX f.rd = BitVec.ofNat 64 (s.agent - 600)) ∧ (∀ r, r ≠ f.rd → (thr t).rX r = (thr s).rX r) ∧
    (thr t).packets = (thr s).packets := by
  obtain ⟨hthr, hother⟩ := thr_modThread (s := s) fun p => (p.setX f.rd (BitVec.ofNat 64 s.proemNo)).past
  refine ⟨s.modThread s.proemNo fun p => (p.setX f.rd (BitVec.ofNat 64 s.proemNo)).past, ?_, ?_⟩
  · show execPtid f s = _
    unfold execPtid
    rw [hl]
    rfl
  · rw [hthr]
    exact ⟨⟨congrArg (· + 4) (setX_pc ..), hother⟩, fun h => rX_setX_same _ _ h, fun r h => rX_setX_other _ _ h, setX_packets ..⟩

/-- A timer that has passed sends its thread a packet of source 2. -/
theorem proemTimer_holds {d : Nat} (hd : (s.thread s.ev.a).timer = some d) (ht : d ≤ s.time.toNat) :
    ∃ t w, exec .proemTimer s = .next t ∧ (t.thread s.ev.a).timer = none ∧ (t.thread s.ev.a).packets = (s.thread s.ev.a).packets ++ [w] ∧
      w.toNat % 16 = 2 ∧ (t.thread s.ev.a).pc = (s.thread s.ev.a).pc := by
  refine ⟨_, BitVec.ofNat 64 (Config.waitArg s.free % 2 ^ 60 * 16 + 2), proemTimer_fires hd ht, ?_⟩
  have h : ((s.modThread s.ev.a fun p => { p with timer := none }).waitPacket s.ev.a 2).thread s.ev.a =
      { s.thread s.ev.a with
        timer := none
        packets := (s.thread s.ev.a).packets ++ [BitVec.ofNat 64 (Config.waitArg s.free % 2 ^ 60 * 16 + 2)] } := by
    refine (thread_modThread ..).trans ?_
    rw [thread_modThread]
    rfl
  rw [h]
  refine ⟨rfl, rfl, ?_, rfl⟩
  rw [BitVec.toNat_ofNat]
  omega

/-- Settles O38, instruction by instruction. -/
theorem proemExtensionsRun : Obligations.ProemExtensionsRun := by
  intro f s _
  refine ⟨fun hl h1 h32 => pwait_holds hl h1 h32, fun _ hm => ⟨_, pwait_illegal hm, excepts_proemTrap ..⟩,
    fun b hl hk ha hp hb => ⟨_, ppost_hands hl hk ha hp hb, ?handed⟩, fun k b hl hk ha hp => ppost_accepted_holds hl hk ha hp,
    fun hl hk ha => ⟨_, ppost_misaligned hl hk ha, excepts_proemTrap ..⟩, fun _ hk => ⟨_, ppost_illegal hk, excepts_proemTrap ..⟩,
    fun hl => ptid_holds hl, fun d => proemTimer_holds⟩
  case handed =>
    obtain ⟨hthr, hother⟩ := thr_modThread (s := s) fun p => { p with posting := some (((thr s).rX f.rs2).toNat, b) }
    rw [hthr]
    exact ⟨rfl, rfl, rfl, hother, rfl, rfl, rfl⟩

end
end Sys2Proof.Proofs
end

section
/-! The mailbox: DOE Discovery, the SPDM responder, its sessions and chunks, and IDE_KM (O43). -/
namespace Sys2Proof.Proofs
open Sys2Proof Sys2Proof.Machine Sys2Proof.Laws Sys2Proof.Stated

section
variable {s t : State}

/-! What a message can change, and the response that leaves (04 R92). -/

/-- Nothing changes but the host interface, the Vault's generator and the output. -/
abbrev MailboxOnly (s t : State) : Prop := t.cores = s.cores ∧ t.mem = s.mem ∧ t.circ = s.circ ∧ t.pkg = s.pkg ∧ t.flash = s.flash

theorem answers_emit (bs : List Byte) : answers s (s.emit (.spdm bs)) := ⟨⟨bs, rfl⟩, rfl, rfl, rfl, rfl, rfl⟩

theorem answers_spdmError (e : Nat) : answers s (s.spdmError e) := answers_emit _

theorem answers_respond (code : Nat) (fields : List (List Byte)) : answers s (s.respond code fields) := by
  unfold State.respond State.spdmSend
  dsimp only
  split <;> exact ⟨⟨_, rfl⟩, rfl, rfl, rfl, rfl, rfl⟩

theorem respond_hif (code : Nat) (fields : List (List Byte)) : (s.respond code fields).hif = { s.hif with
    spdmLog := s.hif.spdmLog ++ s.ev.bytes ++ Config.spdmResponse code fields, spdmOut := (s.respond code fields).hif.spdmOut } := by
  unfold State.respond State.spdmSend
  dsimp only
  split <;> rfl

theorem respond_prot (code : Nat) (fields : List (List Byte)) : (s.respond code fields).prot = s.prot := by
  unfold State.respond State.spdmSend
  dsimp only
  split <;> rfl

theorem random_hif (n : Nat) : (s.random n).2.hif = s.hif := rfl

theorem random_ev (n : Nat) : (s.random n).2.ev = s.ev := rfl

theorem doeUp_of_served (hs : served s) (hl : s.hif.link = true) : s.doeUp = true := by
  obtain ⟨hm, hh, ht⟩ := hs
  simp [State.doeUp, State.hostServed, hm, hh, ht, hl]

/-! Requests outside a session. -/

section
variable {code least : Nat} {k : State → State}

/-- A request of the right kind, in time and within the transfer size or put together from chunks, is handled. -/
theorem spdmRequest_handled (hu : s.doeUp = true) (hc : leAt s.ev.bytes 1 1 = code)
    (hn : s.ev.bytes.length ≤ 4096 ∨ s.hif.spdmIn = some s.ev.bytes) (hl : least ≤ s.hif.spdmState) :
    spdmRequest code least k s = .next (k s) := by
  unfold spdmRequest
  rw [if_neg (by simp [hu, hc]), if_neg, if_neg (Nat.not_lt.2 hl)]
  obtain hn | hn := hn
  · simp [hn]
  · simp [hn]

theorem request_handled (h : request code s) (hl : least ≤ s.hif.spdmState) : spdmRequest code least k s = .next (k s) := by
  obtain ⟨hs, hlink, hc, hn⟩ := h
  exact spdmRequest_handled (doeUp_of_served hs hlink) hc (.inl hn) hl

theorem spdmRequest_tooLarge (hu : s.doeUp = true) (hc : leAt s.ev.bytes 1 1 = code) (hn : 4096 < s.ev.bytes.length)
    (hi : s.hif.spdmIn ≠ some s.ev.bytes) : spdmRequest code least k s = .next (s.spdmError 0x0E) := by
  unfold spdmRequest
  rw [if_neg (by simp [hu, hc]), if_pos (by simp [hn, hi])]

/-- Whether a request is handled, refused or not taken, what its handling leaves alone stays. -/
theorem spdmRequest_only (h : MailboxOnly s (k s)) : ∃ t, spdmRequest code least k s = .next t ∧ MailboxOnly s t := by
  refine ⟨_, rfl, ?_⟩
  split
  · exact ⟨rfl, rfl, rfl, rfl, rfl⟩
  split
  · exact ⟨rfl, rfl, rfl, rfl, rfl⟩
  split
  · exact ⟨rfl, rfl, rfl, rfl, rfl⟩
  · exact h

end

theorem getVersion_holds (h : request 0x84 s) :
    ∃ t, exec .getVersion s = .next t ∧ answers s t ∧ t.hif.spdmState = 1 ∧ t.hif.spdmExt = false := by
  refine ⟨_, (show execGetVersion s = _ from request_handled h (Nat.zero_le _)), answers_respond .., ?_⟩
  rw [respond_hif]
  exact ⟨rfl, rfl⟩

theorem getCapabilities_holds (h : request 0xE1 s) (hl : 1 ≤ s.hif.spdmState) :
    ∃ t, exec .getCapabilities s = .next t ∧ answers s t ∧ t.hif.spdmState = max 2 s.hif.spdmState := by
  refine ⟨_, (show execGetCapabilities s = _ from request_handled h hl), answers_respond .., ?_⟩
  rw [respond_hif]
  rfl

/-- The algorithms agreed. -/
def negotiated (s : State) : State :=
  let ext := !(Config.spdmField 0 s.ev.bytes).isEmpty
  (s.modHif fun h => { h with spdmState := 3, spdmExt := ext }).respond 0x63 [[BitVec.ofNat 8 (b2n ext)]]

theorem negotiated_hif : (negotiated s).hif.spdmState = 3 ∧ (negotiated s).hif.spdmExt = !(Config.spdmField 0 s.ev.bytes).isEmpty := by
  unfold negotiated
  dsimp only
  rw [respond_hif]
  exact ⟨rfl, rfl⟩

theorem negotiateAlgorithms_holds (h : request 0xE3 s) (hl : 2 ≤ s.hif.spdmState) :
    ∃ t, exec .negotiateAlgorithms s = .next t ∧ answers s t ∧ t.hif.spdmState = 3 ∧
      t.hif.spdmExt = !(Config.spdmField 0 s.ev.bytes).isEmpty :=
  ⟨negotiated s, (show execNegotiateAlgorithms s = _ from request_handled h hl), answers_respond .., negotiated_hif⟩

/-- A response's request and itself join the transcript; of the Vault nothing changes. -/
theorem respond_logged (code : Nat) (fields : List (List Byte)) : (s.respond code fields).prot = s.prot ∧
    (s.respond code fields).hif.spdmLog = s.hif.spdmLog ++ s.ev.bytes ++ Config.spdmResponse code fields :=
  ⟨respond_prot .., by rw [respond_hif]⟩

theorem getDigests_holds (h : request 0x81 s) (hl : 3 ≤ s.hif.spdmState) :
    ∃ t, exec .getDigests s = .next t ∧ answers s t ∧ t.prot = s.prot ∧
      t.hif.spdmLog = s.hif.spdmLog ++ s.ev.bytes ++ Config.spdmResponse 0x01 [natLe 1 1, sha256 s.chain] :=
  ⟨_, (show execGetDigests s = _ from request_handled h hl), answers_respond .., respond_logged ..⟩

theorem getCertificate_holds (h : request 0x82 s) (hl : 3 ≤ s.hif.spdmState) :
    ∃ t, exec .getCertificate s = .next t ∧ answers s t ∧ t.prot = s.prot ∧
      (leAt s.ev.bytes 2 1 % 16 = 0 →
        let part := slice s.chain (leAt s.ev.bytes 4 2) (leAt s.ev.bytes 6 2)
        t.hif.spdmLog = s.hif.spdmLog ++ s.ev.bytes ++
          Config.spdmResponse 0x02 [part, natLe 2 (s.chain.length - leAt s.ev.bytes 4 2 - part.length)]) := by
  refine ⟨_, (show execGetCertificate s = _ from request_handled h hl), ?_⟩
  dsimp only
  split
  · next hc => exact ⟨answers_spdmError _, rfl, fun h0 => absurd h0 (by simpa using hc)⟩
  · obtain ⟨hp, hlog⟩ := respond_logged (s := s) 0x02 [slice s.chain (leAt s.ev.bytes 4 2) (leAt s.ev.bytes 6 2),
      natLe 2 (s.chain.length - leAt s.ev.bytes 4 2 - (slice s.chain (leAt s.ev.bytes 4 2) (leAt s.ev.bytes 6 2)).length)]
    exact ⟨answers_respond .., hp, fun _ => hlog⟩

theorem challenge_holds (h : request 0x83 s) (hl : 3 ≤ s.hif.spdmState) :
    ∃ t, exec .challenge s = .next t ∧ answers s t ∧
      (leAt s.ev.bytes 2 1 % 16 = 0 → s.hif.spdmExt = true → ∃ r, t.hif.spdmLog = s.hif.spdmLog ++ s.ev.bytes ++ r ∧
        t.prot = (s.random 32).2.prot) ∧
      (s.hif.spdmExt = false → t.hif.spdmLog = s.hif.spdmLog ∧ t.prot = s.prot) := by
  refine ⟨_, (show execChallenge s = _ from request_handled h hl), ?_⟩
  dsimp only
  split
  · next hc =>
    refine ⟨answers_spdmError _, fun h0 hx => ?_, fun _ => ⟨rfl, rfl⟩⟩
    simp [h0, hx] at hc
  · next hc =>
    obtain ⟨hp, hlog⟩ := respond_logged (s := (s.random 32).2) 0x03
      [sha256 (s.random 32).2.chain, (s.random 32).1, (s.random 32).2.spdmSign (s.random 32).1]
    rw [random_hif, random_ev] at hlog
    refine ⟨answers_respond (s := (s.random 32).2) .., fun _ _ => ⟨_, hlog, hp⟩, fun hx => ?_⟩
    simp [hx] at hc

theorem getMeasurements_holds (h : request 0xE0 s) (hl : 3 ≤ s.hif.spdmState) :
    ∃ t, exec .getMeasurements s = .next t ∧ answers s t ∧
      (leAt s.ev.bytes 2 1 % 2 = 0 → ∀ i, leAt s.ev.bytes 3 1 = i → 1 ≤ i → i ≤ 4 →
        t.hif.spdmLog = s.hif.spdmLog ++ s.ev.bytes ++ Config.spdmResponse 0x60 [natLe 1 4, natLe 1 1, s.measurement i]) := by
  refine ⟨_, (show execGetMeasurements s = _ from request_handled h hl), ?_⟩
  extract_lets signed i which values
  split
  · next hc =>
    refine ⟨answers_spdmError _, fun h0 j hj h1 h4 => ?_⟩
    simp [signed, bitOf, h0, i, hj] at hc
    omega
  split
  · refine ⟨answers_respond .., fun h0 j hj h1 h4 => ?_⟩
    have hw : which = [j] := by
      unfold which i
      rw [hj, if_neg (by simp; omega), if_neg (by simp; omega)]
    unfold values
    rw [hw]
    exact (respond_logged ..).2
  · next hc =>
    refine ⟨answers_respond (s := (s.random 32).2) .., fun h0 j hj h1 h4 => ?_⟩
    simp [signed, bitOf, h0] at hc

/-! Secured sessions. -/

theorem leNat_lt (bs : List Byte) : leNat bs < 256 ^ bs.length := by
  induction bs with
  | nil => exact Nat.one_pos
  | cons b bs ih =>
    have hb : b.toNat < 256 := b.isLt
    rw [leNat, List.length_cons, Nat.pow_succ]
    omega

theorem leAt_lt (bs : List Byte) (o n : Nat) : leAt bs o n < 256 ^ n :=
  (leNat_lt _).trans_le (Nat.pow_le_pow_right (by decide) (List.length_take_le ..))

theorem firstBelow_found {n : Nat} {p : Nat → Bool} (h : ∃ j, j < n ∧ p j = true) : ∃ i, firstBelow n p = some i ∧ p i = true := by
  obtain ⟨hn, hp⟩ := Nat.find_spec h
  refine ⟨Nat.find h, firstBelow_eq_some hn hp fun j hj => ?_, hp⟩
  have hmin := Nat.find_min h hj
  simp only [hj.trans hn, true_and] at hmin
  exact Bool.eq_false_iff.2 hmin

/-- A session of `l` has the half `n` of a session identifier that the responder gives. -/
def halfUsed (l : List SpdmSession) (n : Nat) : Bool := l.any fun x => x.sid / 2 ^ 16 == n

/-- Fewer than four sessions leave one of the halves 1 to 5 unused. -/
theorem exists_half_unused {l : List SpdmSession} (h : l.length < 4) : ∃ n, n < 5 ∧ (!halfUsed l (n + 1)) = true := by
  by_contra hne
  have hsub : (List.range 5).map (· + 1) ⊆ l.map fun x => x.sid / 2 ^ 16 := by
    intro m hm
    obtain ⟨n, hn, rfl⟩ := List.mem_map.1 hm
    have hused : halfUsed l (n + 1) = true := by
      by_contra hu
      exact hne ⟨n, List.mem_range.1 hn, by simp [hu]⟩
    obtain ⟨x, hx, he⟩ := List.any_eq_true.1 hused
    exact List.mem_map.2 ⟨x, hx, beq_iff_eq.1 he⟩
  have hlen := (List.Nodup.subperm (by decide) hsub).length_le
  simp at hlen
  omega

/-- The half that KEY_EXCHANGE gives a new session (04 R92). -/
def newHalf (l : List SpdmSession) : Nat := (firstBelow 5 fun n => !(halfUsed l (n + 1))).getD 0 + 1

theorem newHalf_unused {l : List SpdmSession} (h : l.length < 4) {x : SpdmSession} (hx : x ∈ l) : x.sid / 2 ^ 16 ≠ newHalf l := by
  obtain ⟨i, hi, hu⟩ := firstBelow_found (exists_half_unused h)
  unfold newHalf
  rw [hi]
  intro he
  have : halfUsed l (i + 1) = true := List.any_eq_true.2 ⟨x, hx, beq_iff_eq.2 he⟩
  simp [this] at hu

theorem keyExchange_begins (h : request 0xE4 s) (hl : 3 ≤ s.hif.spdmState) (hx : s.hif.spdmExt = true) (hn : s.hif.spdm.length < 4) :
    ∃ t secret, exec .keyExchange s = .next t ∧ answers s t ∧
      t.hif.spdm = s.hif.spdm ++ [{ sid := leAt s.ev.bytes 4 2 + newHalf s.hif.spdm * 2 ^ 16, secret := secret }] := by
  have he : exec .keyExchange s = _ := show execKeyExchange s = _ from request_handled h hl
  rw [he, if_neg (by simp [hx]), if_neg (Nat.not_le.2 hn)]
  refine ⟨_, ?_, rfl, answers_respond .., ?_⟩
  rotate_left
  · rw [respond_hif]
    rfl

theorem keyExchange_refused (h : request 0xE4 s) (hl : 3 ≤ s.hif.spdmState) (hx : s.hif.spdmExt = false ∨ 4 ≤ s.hif.spdm.length) :
    ∃ e, exec .keyExchange s = .next (s.spdmError e) := by
  have he : exec .keyExchange s = _ := (show execKeyExchange s = _ from request_handled h hl)
  rw [he]
  cases hext : s.hif.spdmExt with
  | false => exact ⟨0x01, by rw [if_pos (by simp)]⟩
  | true =>
    have hn : 4 ≤ s.hif.spdm.length := by simpa [hext] using hx
    exact ⟨0x0A, by rw [if_neg (by simp), if_pos hn]⟩

theorem keyExchange_holds (h : request 0xE4 s) (hl : 3 ≤ s.hif.spdmState) :
    ∃ t, exec .keyExchange s = .next t ∧ answers s t ∧
      (s.hif.spdmExt = true → s.hif.spdm.length < 4 → ∃ x : SpdmSession, t.hif.spdm = s.hif.spdm ++ [x] ∧ x.established = false ∧
        x.sid % 2 ^ 16 = leAt s.ev.bytes 4 2 ∧ ∀ y, y ∈ s.hif.spdm → y.sid / 2 ^ 16 ≠ x.sid / 2 ^ 16) ∧
      (s.hif.spdmExt = false ∨ 4 ≤ s.hif.spdm.length → t.hif.spdm = s.hif.spdm) := by
  by_cases hr : s.hif.spdmExt = false ∨ 4 ≤ s.hif.spdm.length
  · obtain ⟨e, he⟩ := keyExchange_refused h hl hr
    refine ⟨_, he, answers_spdmError e, fun hx hn => ?_, fun _ => rfl⟩
    obtain hx' | hn' := hr
    · exact absurd hx (by simp [hx'])
    · exact absurd hn (Nat.not_lt.2 hn')
  · have hx : s.hif.spdmExt = true := by simpa using fun hx => hr (.inl hx)
    have hn : s.hif.spdm.length < 4 := Nat.lt_of_not_le fun hn => hr (.inr hn)
    obtain ⟨t, secret, he, ha, ht⟩ := keyExchange_begins h hl hx hn
    have hlow : leAt s.ev.bytes 4 2 < 2 ^ 16 := leAt_lt ..
    refine ⟨t, he, ha, fun _ _ => ⟨_, ht, rfl, ?_, fun y hy => ?_⟩, fun hr' => absurd hr' hr⟩
    · simpa using hlow
    · have hhalf : (leAt s.ev.bytes 4 2 + newHalf s.hif.spdm * 2 ^ 16) / 2 ^ 16 = newHalf s.hif.spdm := by omega
      rw [hhalf]
      exact newHalf_unused hn hy

section
variable {x : SpdmSession} {code : Nat} {est : Bool} {k : SpdmSession → List Byte → State → State}

theorem sessionRequest_handled (h : inSession x code s) (he : x.established = est) :
    sessionRequest code est k s = .next (k x (s.ev.bytes.drop 4) s) := by
  obtain ⟨hs, hl, hc, hf⟩ := h
  unfold sessionRequest
  dsimp only
  rw [if_neg (by simp [doeUp_of_served hs hl, hc]), hf]
  simp [he]

theorem mem_setSpdm {y : SpdmSession} (hy : y ∈ (s.setSpdm x).hif.spdm) (hsid : y.sid = x.sid) : y = x := by
  obtain ⟨z, -, hz⟩ := List.mem_map.1 hy
  split at hz
  · exact hz.symm
  · next hne => exact absurd (beq_iff_eq.2 (hz ▸ hsid)) hne

theorem mem_dropSpdm {y : SpdmSession} {sid : Nat} : y ∈ (s.dropSpdm sid).hif.spdm ↔ y ∈ s.hif.spdm ∧ y.sid ≠ sid := by
  simp [State.dropSpdm, State.modHif]

theorem respond_spdm (c : Nat) (fields : List (List Byte)) : (s.respond c fields).hif.spdm = s.hif.spdm := by rw [respond_hif]

theorem finish_holds (h : inSession x 0xE5 s) (he : x.established = false) :
    ∃ t, exec .finish s = .next t ∧ answers s t ∧
      (Config.spdmFinish x.secret (s.ev.bytes.drop 4) = true → ∀ y, y ∈ t.hif.spdm → y.sid = x.sid → y.established = true) ∧
      (Config.spdmFinish x.secret (s.ev.bytes.drop 4) = false → ∀ y, y ∈ t.hif.spdm → y.sid ≠ x.sid) := by
  have hrun : exec .finish s = _ := show execFinish s = _ from sessionRequest_handled h he
  cases hf : Config.spdmFinish x.secret (s.ev.bytes.drop 4) with
  | true =>
    rw [if_pos hf] at hrun
    refine ⟨_, hrun, answers_respond .., fun _ y hy hsid => ?_, fun hn => absurd hn (by decide)⟩
    rw [respond_spdm] at hy
    rw [mem_setSpdm hy hsid]
  | false =>
    rw [if_neg (by simp [hf])] at hrun
    exact ⟨_, hrun, answers_spdmError (s := s.dropSpdm x.sid) _, fun hn => absurd hn (by decide), fun _ y hy => (mem_dropSpdm.1 hy).2⟩

theorem spdmHeartbeat_holds (h : inSession x 0xE8 s) (he : x.established = true) :
    ∃ t, exec .spdmHeartbeat s = .next t ∧ answers s t ∧ t.hif.spdm = s.hif.spdm :=
  ⟨_, (show execSpdmHeartbeat s = _ from sessionRequest_handled h he), answers_respond .., respond_spdm ..⟩

theorem keyUpdate_holds (h : inSession x 0xE9 s) (he : x.established = true) :
    ∃ t, exec .keyUpdate s = .next t ∧ answers s t ∧
      (leAt (s.ev.bytes.drop 4) 2 1 = 1 ∨ leAt (s.ev.bytes.drop 4) 2 1 = 2 → ∀ y, y ∈ t.hif.spdm → y.sid = x.sid →
        y.updates = x.updates + 1 ∧ y.secret = Config.spdmSecret x.secret [] (x.updates + 1)) ∧
      (leAt (s.ev.bytes.drop 4) 2 1 = 3 → t.hif.spdm = s.hif.spdm) := by
  refine ⟨_, (show execKeyUpdate s = _ from sessionRequest_handled h he), ?_⟩
  extract_lets op
  split
  · next hop =>
    refine ⟨answers_respond (s := s.setSpdm _) .., fun _ y hy hsid => ?_, fun h3 => absurd hop (by simp [op, h3])⟩
    rw [respond_spdm] at hy
    rw [mem_setSpdm hy hsid]
    exact ⟨rfl, rfl⟩
  split
  · next hop h3 => exact ⟨answers_respond .., fun h12 => absurd h12 (by simpa [op] using hop), fun _ => respond_spdm ..⟩
  · next hop h3 => exact ⟨answers_spdmError _, fun h12 => absurd h12 (by simpa [op] using hop), fun _ => rfl⟩

theorem endSession_holds (h : inSession x 0xEC s) (he : x.established = true) :
    ∃ t, exec .endSession s = .next t ∧ answers s t ∧ ∀ y, y ∈ t.hif.spdm ↔ y ∈ s.hif.spdm ∧ y.sid ≠ x.sid := by
  refine ⟨_, (show execEndSession s = _ from sessionRequest_handled h he), answers_respond (s := s) .., fun y => ?_⟩
  rw [mem_dropSpdm, respond_spdm]

end

/-! Large messages. -/

theorem mailboxOnly_challenge : ∃ t, execChallenge s = .next t ∧ MailboxOnly s t := by
  apply spdmRequest_only
  dsimp only
  split
  · exact (answers_spdmError _).2
  · exact (answers_respond (s := (s.random 32).2) ..).2

theorem mailboxOnly_getCertificate : ∃ t, execGetCertificate s = .next t ∧ MailboxOnly s t := by
  apply spdmRequest_only
  dsimp only
  split
  · exact (answers_spdmError _).2
  · exact (answers_respond ..).2

theorem mailboxOnly_getMeasurements : ∃ t, execGetMeasurements s = .next t ∧ MailboxOnly s t := by
  apply spdmRequest_only
  dsimp only
  split
  · exact (answers_spdmError _).2
  split
  · exact (answers_respond ..).2
  · exact (answers_respond (s := (s.random 32).2) ..).2

theorem mailboxOnly_keyExchange : ∃ t, execKeyExchange s = .next t ∧ MailboxOnly s t := by
  apply spdmRequest_only
  dsimp only
  split
  · exact (answers_spdmError _).2
  split
  · exact (answers_spdmError _).2
  · exact (answers_respond ..).2

theorem mailboxOnly_getCapabilities : ∃ t, execGetCapabilities s = .next t ∧ MailboxOnly s t :=
  spdmRequest_only (answers_respond (s := s.modHif _) ..).2

theorem mailboxOnly_negotiateAlgorithms : ∃ t, execNegotiateAlgorithms s = .next t ∧ MailboxOnly s t :=
  spdmRequest_only (answers_respond (s := s.modHif _) ..).2

theorem mailboxOnly_getDigests : ∃ t, execGetDigests s = .next t ∧ MailboxOnly s t := spdmRequest_only (answers_respond ..).2

/-- What a whole request's own kind does. -/
def largeKind (s : State) : Res :=
  match leAt s.ev.bytes 1 1 with
  | 0xE1 => execGetCapabilities s
  | 0xE3 => execNegotiateAlgorithms s
  | 0x81 => execGetDigests s
  | 0x82 => execGetCertificate s
  | 0x83 => execChallenge s
  | 0xE0 => execGetMeasurements s
  | 0xE4 => execKeyExchange s
  | _ => .next (s.spdmError 0x04)

theorem mailboxOnly_largeKind : ∃ t, largeKind s = .next t ∧ MailboxOnly s t := by
  unfold largeKind
  split
  · exact mailboxOnly_getCapabilities
  · exact mailboxOnly_negotiateAlgorithms
  · exact mailboxOnly_getDigests
  · exact mailboxOnly_getCertificate
  · exact mailboxOnly_challenge
  · exact mailboxOnly_getMeasurements
  · exact mailboxOnly_keyExchange
  · exact ⟨_, rfl, (answers_spdmError _).2⟩

theorem largeRequest_of_next (h : largeKind s = .next t) : largeRequest s = t := by
  change (match largeKind s with | .next t => t | _ => s) = t
  rw [h]

theorem mailboxOnly_largeRequest : MailboxOnly s (largeRequest s) := by
  obtain ⟨t, hk, ht⟩ := mailboxOnly_largeKind (s := s)
  rw [largeRequest_of_next hk]
  exact ht

/-- The state in which a request put together from its chunks is handled. -/
def gathered (s : State) (all : List Byte) : State :=
  { (s.modHif fun h => { h with spdmIn := some all }) with ev := { s.ev with bytes := all }, out := [] }

/-- The acknowledgement of the last chunk, `t` being the state that the request left. -/
def acknowledged (s t : State) : State :=
  ({ (t.modHif fun h => { h with spdmIn := none }) with ev := s.ev, out := s.out }).emit (.spdm (Config.spdmResponse 0x05 [lastSpdm t.out]))

theorem handleLarge_eq (all : List Byte) : s.handleLarge all = acknowledged s (largeRequest (gathered s all)) := rfl

theorem answers_acknowledged (h : MailboxOnly s t) : answers s (acknowledged s t) := ⟨⟨_, rfl⟩, h⟩

theorem largeRequest_getDigests (hu : s.doeUp = true) {all : List Byte} (hc : leAt all 1 1 = 0x81) (hl : 3 ≤ s.hif.spdmState) :
    largeRequest (gathered s all) = (gathered s all).respond 0x01 [natLe 1 1, sha256 s.chain] := by
  have hc' : leAt (gathered s all).ev.bytes 1 1 = 0x81 := hc
  have hrun : execGetDigests (gathered s all) = _ := spdmRequest_handled hu hc' (.inr rfl) hl
  apply largeRequest_of_next
  unfold largeKind
  rw [hc']
  exact hrun

theorem largeRequest_negotiateAlgorithms (hu : s.doeUp = true) {all : List Byte} (hc : leAt all 1 1 = 0xE3) (hl : 2 ≤ s.hif.spdmState) :
    largeRequest (gathered s all) = negotiated (gathered s all) := by
  have hc' : leAt (gathered s all).ev.bytes 1 1 = 0xE3 := hc
  have hrun : execNegotiateAlgorithms (gathered s all) = .next (negotiated (gathered s all)) := spdmRequest_handled hu hc' (.inr rfl) hl
  apply largeRequest_of_next
  unfold largeKind
  rw [hc']
  exact hrun

theorem chunkSend_holds (h : request 0x85 s) (hl : 1 ≤ s.hif.spdmState) :
    let all := s.hif.spdmIn.getD [] ++ Config.spdmField 2 s.ev.bytes
    ∃ t, exec .chunkSend s = .next t ∧ answers s t ∧
      (131072 < all.length → t.hif.spdmIn = none) ∧
      (all.length ≤ 131072 → leAt s.ev.bytes 2 1 % 2 = 0 → t.hif.spdmIn = some all ∧ t.hif.spdmLog = s.hif.spdmLog) ∧
      (all.length ≤ 131072 → leAt s.ev.bytes 2 1 % 2 = 1 → t.hif.spdmIn = none ∧
        (leAt all 1 1 = 0x81 → 3 ≤ s.hif.spdmState →
          t.hif.spdmLog = s.hif.spdmLog ++ all ++ Config.spdmResponse 0x01 [natLe 1 1, sha256 s.chain]) ∧
        (leAt all 1 1 = 0xE3 → 2 ≤ s.hif.spdmState → t.hif.spdmState = 3 ∧ t.hif.spdmExt = !(Config.spdmField 0 all).isEmpty)) := by
  intro all
  have hu := doeUp_of_served h.1 h.2.1
  refine ⟨_, (show execChunkSend s = _ from request_handled h hl), ?_⟩
  dsimp only
  split
  · next hbig => exact ⟨answers_spdmError (s := s.modHif _) _, fun _ => rfl, fun hs => absurd hbig (Nat.not_lt.2 hs),
      fun hs => absurd hbig (Nat.not_lt.2 hs)⟩
  next hsmall =>
  split
  · next hlast =>
    have hodd : leAt s.ev.bytes 2 1 % 2 = 1 := by simpa [bitOf] using hlast
    rw [handleLarge_eq]
    refine ⟨answers_acknowledged (mailboxOnly_largeRequest (s := gathered s all)), fun hb => absurd hb hsmall, fun _ h0 => by omega,
      fun _ _ => ⟨rfl, fun hc hl3 => ?_, fun hc hl2 => ?_⟩⟩
    · rw [largeRequest_getDigests hu hc hl3]
      exact (respond_logged (s := gathered s all) ..).2
    · rw [largeRequest_negotiateAlgorithms hu hc hl2]
      exact negotiated_hif (s := gathered s all)
  · next hmore =>
    have heven : leAt s.ev.bytes 2 1 % 2 = 0 := by simpa [bitOf] using hmore
    exact ⟨answers_emit (s := s.modHif _) _, fun hb => absurd hb hsmall, fun _ _ => ⟨rfl, rfl⟩, fun _ h1 => by omega⟩

/-- A request outside a session that is above the transfer size and was not put together from chunks is refused. -/
theorem largeRequest_refused {code : Nat} {i : Instr}
    (hi : (code, i) ∈ [(0xE1, Instr.getCapabilities), (0xE3, .negotiateAlgorithms), (0x81, .getDigests), (0x82, .getCertificate),
      (0x83, .challenge), (0xE0, .getMeasurements), (0xE4, .keyExchange)])
    (hu : s.doeUp = true) (hc : leAt s.ev.bytes 1 1 = code) (hn : 4096 < s.ev.bytes.length) (hin : s.hif.spdmIn ≠ some s.ev.bytes) :
    exec i s = .next (s.spdmError 0x0E) := by
  simp only [List.mem_cons, Prod.mk.injEq, List.not_mem_nil, or_false] at hi
  obtain ⟨rfl, rfl⟩ | ⟨rfl, rfl⟩ | ⟨rfl, rfl⟩ | ⟨rfl, rfl⟩ | ⟨rfl, rfl⟩ | ⟨rfl, rfl⟩ | ⟨rfl, rfl⟩ := hi
  · exact (show execGetCapabilities s = _ from spdmRequest_tooLarge hu hc hn hin)
  · exact (show execNegotiateAlgorithms s = _ from spdmRequest_tooLarge hu hc hn hin)
  · exact (show execGetDigests s = _ from spdmRequest_tooLarge hu hc hn hin)
  · exact (show execGetCertificate s = _ from spdmRequest_tooLarge hu hc hn hin)
  · exact (show execChallenge s = _ from spdmRequest_tooLarge hu hc hn hin)
  · exact (show execGetMeasurements s = _ from spdmRequest_tooLarge hu hc hn hin)
  · exact (show execKeyExchange s = _ from spdmRequest_tooLarge hu hc hn hin)

theorem chunkGet_holds (h : request 0x86 s) (hl : 1 ≤ s.hif.spdmState) :
    ∃ t, exec .chunkGet s = .next t ∧ answers s t ∧ ∀ bs, s.hif.spdmOut = some bs →
      (bs.length ≤ 4080 → t.hif.spdmOut = none) ∧ (4080 < bs.length → t.hif.spdmOut = some (bs.drop 4080)) := by
  refine ⟨_, (show execChunkGet s = _ from request_handled h hl), ?_⟩
  dsimp only
  split
  · next hnone => exact ⟨answers_spdmError _, fun bs hb => absurd hb (by simp [hnone])⟩
  · next bs hsome =>
    refine ⟨answers_emit (s := s.modHif _) _, fun bs' hb => ?_⟩
    obtain rfl : bs = bs' := Option.some.inj (hsome ▸ hb)
    constructor
    · intro hle
      exact if_pos (List.isEmpty_iff.2 (List.drop_eq_nil_of_le hle))
    · intro hlt
      refine if_neg fun he => ?_
      have := List.drop_eq_nil_iff.1 (List.isEmpty_iff.1 he)
      omega

/-! IDE_KM. -/

theorem mem_withElem (l : List Nat) (x : Nat) : x ∈ withElem l x := by
  unfold withElem
  split
  · next h => exact List.contains_iff_mem.1 h
  · exact List.mem_append_right _ (List.mem_singleton.2 rfl)

theorem not_mem_without (l : List Nat) (x : Nat) : x ∉ without l x := by simp [without]

theorem ideKm_holds {x : SpdmSession} (hs : served s) (hl : s.hif.link = true)
    (hf : s.hif.spdm.find? (fun y => y.sid == leAt s.ev.bytes 0 4) = some x) (he : x.established = true) :
    let msg := s.ev.bytes.drop 4
    let stream := leAt msg 4 1
    ∃ t, exec .ideKm s = .next t ∧ answers s t ∧
      (leAt msg 1 1 = 2 → stream ≤ 4 → SMap.get t.hif.ideKeys (16 * stream + leAt msg 6 1 % 16) [] = Config.spdmField 3 msg) ∧
      (leAt msg 1 1 = 4 → stream ≤ 4 → stream ∈ t.hif.ideOn) ∧ (leAt msg 1 1 = 5 → stream ∉ t.hif.ideOn) := by
  intro msg stream
  have hu := doeUp_of_served hs hl
  refine ⟨_, (show execIdeKm s = _ from rfl), ?_⟩
  dsimp only
  rw [if_neg (by simp [hu]), hf]
  dsimp only
  rw [if_neg (by simp [he])]
  simp only [beq_iff_eq, msg, stream]
  split
  · exact ⟨answers_emit _, by omega, by omega, by omega⟩
  split
  · split
    · next hbig => exact ⟨answers_emit _, fun _ hle => absurd hbig (Nat.not_lt.2 hle), by omega, by omega⟩
    · exact ⟨answers_emit (s := s.modHif _) _, fun _ _ => get_set_same .., by omega, by omega⟩
  split
  · refine ⟨answers_emit (s := s.modHif _) _, by omega, fun _ hle => ?_, by omega⟩
    change leAt (s.ev.bytes.drop 4) 4 1 ∈ if leAt (s.ev.bytes.drop 4) 4 1 ≤ 4 then withElem s.hif.ideOn _ else s.hif.ideOn
    rw [if_pos hle]
    exact mem_withElem ..
  split
  · exact ⟨answers_emit (s := s.modHif _) _, by omega, by omega, fun _ => not_mem_without s.hif.ideOn _⟩
  · exact ⟨answers_spdmError _, by omega, by omega, by omega⟩

theorem doeDiscovery_holds (hs : served s) (hl : s.hif.link = true) :
    ∃ r, exec .doeDiscovery s = .next { s with out := .doe r :: s.out } := by
  change ∃ r, execDoeDiscovery s = _
  unfold execDoeDiscovery
  dsimp only
  rw [if_neg (by simp [doeUp_of_served hs hl])]
  exact ⟨_, rfl⟩

end

/-- Settles O43: each request is handled by its own rule above; a large one is handled when it has been put together. -/
theorem mailboxAnswers : Obligations.MailboxAnswers := by
  intro s
  refine ⟨doeDiscovery_holds, getVersion_holds, getCapabilities_holds, negotiateAlgorithms_holds, getDigests_holds, getCertificate_holds,
    challenge_holds, getMeasurements_holds, keyExchange_holds, fun _ => finish_holds, fun _ => spdmHeartbeat_holds, fun _ => keyUpdate_holds,
    fun _ => endSession_holds, chunkSend_holds, fun code i hi hs hl hc hn hin => ?_, chunkGet_holds, fun _ => ideKm_holds⟩
  exact ⟨_, largeRequest_refused hi (doeUp_of_served hs hl) hc hn hin, answers_spdmError _, rfl, rfl⟩

end Sys2Proof.Proofs
end

section
/-! Doorbells, queue loads, interrupts, buckets, registers and the PCIe link (O42). -/
namespace Sys2Proof.Proofs
open Sys2Proof Sys2Proof.Machine Sys2Proof.Laws Sys2Proof.Stated

section
variable {s t : State}

theorem hostServed_of_served (h : served s) : s.hostServed = true := by
  obtain ⟨hm, hh, ht⟩ := h
  simp [State.hostServed, hm, hh, ht]

theorem minimal_of_served (h : served s) : s.minimal = false := by simp [State.minimal, h.1]

theorem mqCount_of_served (h : served s) : s.mqCount = 128 := by simp [State.mqCount, minimal_of_served h]

/-! Doorbells (04 R100). -/

/-- A doorbell of function `a` that names queue `q`: the window's first-stage entry is valid and in the function's range, and the queue
is bound to the function (04 R91 R100). -/
structure Rings (q : Nat) (s : State) : Prop where
  served : served s
  up : s.fnUp s.ev.a = true
  page : ∃ g, g < 4096 ∧ s.ev.b = 0x100000 + 0x100 * g ∧
    (SMap.get (s.fn s.ev.a).s1 g 0).toNat / 2 ^ 31 = 1 ∧
    (SMap.get (s.fn s.ev.a).s1 g 0).toNat % 2 ^ 16 < (s.fn s.ev.a).vqCount ∧
    q = (s.fn s.ev.a).vqBase + (SMap.get (s.fn s.ev.a).s1 g 0).toNat % 2 ^ 16
  size : s.ev.c = 4
  valid : (s.st2 q).v = true
  owner : (s.st2 q).fn = s.ev.a

theorem doorbellIndex_page {g : Nat} (h : g < 4096) : doorbellIndex (0x100000 + 0x100 * g) 4 = some g := by
  unfold doorbellIndex
  rw [if_pos (by omega)]
  congr 1
  omega

theorem doorbell_rings {q : Nat} (h : Rings q s) : exec .doorbell s = .next (s.newTail q (s.ev.value.toNat % 2 ^ 32)) := by
  obtain ⟨hs, hup, ⟨g, hg, hb, he, hi, rfl⟩, hc, hv, hf⟩ := h
  change Host.Outcome.next (s.ringDoorbell s.ev.a s.ev.b s.ev.c s.ev.value) = _
  unfold State.ringDoorbell
  rw [hb, hc, doorbellIndex_page hg]
  dsimp only
  generalize (SMap.get (s.fn s.ev.a).s1 g 0).toNat = e at *
  have hbit : bitOf e 31 = true := by
    unfold bitOf
    rw [he]
    rfl
  have hfld : fld e 0 16 = e % 2 ^ 16 := by simp [fld]
  rw [if_neg (by simp [hostServed_of_served hs, hup]), hfld, if_neg (by simpa [hbit] using hi), if_neg (by simp only [hv, hf]; simp)]
  simp [fld]

section
variable {q m tail : Nat}

theorem newTail_unmapped (h : (s.st2 q).mq = none) : s.newTail q tail =
    (s.modSt2 q fun e => { e with tail := tail }).modSt2 q fun e => { e with p := tail != 0xFFFFFFFF } := by
  unfold State.newTail
  dsimp only
  rw [st2_modSt2, h]

/-- The state in which a reload of mapped queue `m` has been requested. -/
def reloading (s : State) (q m : Nat) : State :=
  (s.modSt2 q fun e => { e with tail := 0xFFFFFFFF }).modMq m fun x => { x with reload := some (x.reload.getD (s.st2 q).tail) }

theorem newTail_reload (h : (s.st2 q).mq = some m) (ht : (s.st2 q).tail < 2 ^ (s.mq m).log) :
    s.newTail q 0xFFFFFFFF = (reloading s q m).settleReload m := by
  unfold State.newTail
  dsimp only
  rw [st2_modSt2, h]
  dsimp only
  have hmq : (s.modSt2 q fun e => { e with tail := 0xFFFFFFFF }).mq m = s.mq m := rfl
  rw [if_pos (beq_self_eq_true _), if_pos (by simpa [Mq.tailOk, hmq] using ht)]
  rfl

theorem reloading_st2 : (reloading s q m).st2 q = { s.st2 q with tail := 0xFFFFFFFF } :=
  get_set_same s.hif.stage2 q _ {}

section
variable (hq : (s.mq m).vqn = some q) (hr : (s.mq m).reload = none)
include hr

theorem reloading_mq : (reloading s q m).mq m = { s.mq m with reload := some (s.st2 q).tail } := by
  unfold reloading
  rw [mq_modMq]
  change { s.mq m with reload := some ((s.mq m).reload.getD (s.st2 q).tail) } = _
  rw [hr]
  rfl

include hq

theorem reloading_evictable : (reloading s q m).evictable m = decide ((s.mq m).head = (s.st2 q).tail) := by
  by_cases he : (s.mq m).head = (s.st2 q).tail
  · simp [State.evictable, State.fenceWaits, State.tailOf, reloading_mq hr, hq, he]
  · simp [State.evictable, State.fenceWaits, State.tailOf, reloading_mq hr, hq, he]

end

theorem evict_mq (hq : (s.mq m).vqn = some q) : (s.evict m).mq m = {} := by
  unfold State.evict
  rw [hq]
  exact get_drop_same ..

theorem hostWrite_hif (v a : Nat) (bs : List Byte) : (s.hostWrite v a bs).hif = s.hif := by
  unfold State.hostWrite
  split <;> rfl

theorem evict_st2 (hq : (s.mq m).vqn = some q) : (s.evict m).st2 q = { s.st2 q with mq := none } := by
  unfold State.evict
  rw [hq]
  change ((s.hostWrite _ _ _).modSt2 q fun e => { e with mq := none }).st2 q = _
  rw [st2_modSt2]
  unfold State.st2
  rw [hostWrite_hif]

theorem newTail_taken (h : (s.st2 q).mq = some m) (hr : (s.mq m).reload = none) (ht : tail < 2 ^ (s.mq m).log)
    (hne : tail ≠ 0xFFFFFFFF) : s.newTail q tail = (s.modSt2 q fun e => { e with tail := tail }).waitPacket m 0 := by
  unfold State.newTail
  dsimp only
  rw [st2_modSt2, h]
  dsimp only
  have hmq : (s.modSt2 q fun e => { e with tail := tail }).mq m = s.mq m := rfl
  rw [if_neg (by simpa using hne), if_neg (by simp [hmq, hr]), if_pos (by simpa [Mq.tailOk, hmq] using ht)]

/-! What a doorbell leaves, by case. -/

theorem doorbell_unmapped (h : Rings q s) (hmq : (s.st2 q).mq = none) (ht : s.ev.value.toNat % 2 ^ 32 = tail) :
    ∃ t, exec .doorbell s = .next t ∧ (t.st2 q).tail = tail ∧ (t.st2 q).p = decide (tail ≠ 0xFFFFFFFF) ∧
      ∀ r, r ≠ q → t.st2 r = s.st2 r := by
  refine ⟨_, doorbell_rings h, ?_⟩
  rw [newTail_unmapped hmq, ht]
  refine ⟨?_, ?_, fun r hr => ?_⟩
  · simp
  · simp [bne, beq_eq_decide]
  · rw [st2_modSt2_ite, if_neg hr, st2_modSt2_ite, if_neg hr]

section
variable (h : Rings q s) (hm : (s.st2 q).mq = some m) (hq : (s.mq m).vqn = some q) (hr : (s.mq m).reload = none)
  (hlog : (s.st2 q).tail < 2 ^ (s.mq m).log)
include h hm hr

theorem doorbell_taken (ht : s.ev.value.toNat % 2 ^ 32 = tail) (hlt : tail < 2 ^ (s.mq m).log) (hne : tail ≠ 0xFFFFFFFF) :
    ∃ t, exec .doorbell s = .next t ∧ (t.st2 q).tail = tail ∧ t.mq m = s.mq m := by
  refine ⟨_, doorbell_rings h, ?_⟩
  rw [ht, newTail_taken hm hr hlt hne]
  have hw := reported_waitPacket (s := s.modSt2 q fun e => { e with tail := tail }) m 0
  refine ⟨?_, hw.mq m⟩
  rw [hw.st2 q, st2_modSt2]

include hq hlog

theorem doorbell_reload (ht : s.ev.value.toNat % 2 ^ 32 = 0xFFFFFFFF) (hne : (s.mq m).head ≠ (s.st2 q).tail) :
    ∃ t, exec .doorbell s = .next t ∧ (t.st2 q).mq = some m ∧ (t.mq m).head = (s.mq m).head ∧ (t.mq m).reload = some (s.st2 q).tail := by
  refine ⟨_, doorbell_rings h, ?_⟩
  rw [ht, newTail_reload hm hlog]
  unfold State.settleReload
  rw [reloading_evictable hq hr, if_neg (by simp [hne]), reloading_mq hr, reloading_st2]
  exact ⟨hm, rfl, rfl⟩

theorem doorbell_evicts (ht : s.ev.value.toNat % 2 ^ 32 = 0xFFFFFFFF) (he : (s.mq m).head = (s.st2 q).tail) :
    ∃ t, exec .doorbell s = .next t ∧ (t.st2 q).mq = none ∧ (t.st2 q).p = (s.st2 q).p ∧ (t.mq m).vqn = none := by
  refine ⟨_, doorbell_rings h, ?_⟩
  rw [ht, newTail_reload hm hlog]
  unfold State.settleReload
  have hvqn : ((reloading s q m).mq m).vqn = some q := by rw [reloading_mq hr]; exact hq
  rw [reloading_evictable hq hr, if_pos (by simp [he, reloading_mq hr]), evict_mq hvqn, evict_st2 hvqn, reloading_st2]
  exact ⟨rfl, rfl, rfl⟩

end

/-! Queue loads (04 R101 R102). -/

theorem findMq_free (hc : m < s.mqCount) (hm : (s.mq m).vqn = none) (hlow : ∀ j, j < m → (s.mq j).vqn ≠ none) :
    s.findMq = some (m, s) := by
  have hf : (firstBelow s.mqCount fun m => (s.mq m).vqn.isNone) = some m :=
    firstBelow_eq_some hc (by simp [hm]) fun j hj => by simpa [Option.isSome_iff_ne_none] using hlow j hj
  unfold State.findMq
  rw [hf]

/-- The queue is loaded and its doorbell taken. -/
def loaded (s : State) (q m : Nat) (b : List Byte) : State :=
  let t := (s.mapQueue q m b).modSt2 q fun e => { e with p := false }
  { t with hif := { t.hif with pendPtr := q + 1 } }

theorem mq_modSt2 (g : Stage2 → Stage2) : (s.modSt2 q g).mq m = s.mq m := rfl

theorem loaded_mq (b : List Byte) : ((loaded s q m b).mq m).vqn = some q ∧ ((loaded s q m b).mq m).base = leAt b 0 8 ∧
    ((loaded s q m b).mq m).log = leAt b 8 1 ∧ ((loaded s q m b).mq m).fn = leAt b 32 2 := by
  change ((s.mapQueue q m b).mq m).vqn = _ ∧ ((s.mapQueue q m b).mq m).base = _ ∧ ((s.mapQueue q m b).mq m).log = _ ∧
    ((s.mapQueue q m b).mq m).fn = _
  unfold State.mapQueue
  dsimp only
  rw [mq_modSt2, mq_modMq]
  exact ⟨rfl, rfl, rfl, rfl⟩

theorem loaded_st2 (b : List Byte) : ((loaded s q m b).st2 q).mq = some m ∧ ((loaded s q m b).st2 q).p = false := by
  have h : (loaded s q m b).st2 q = { (s.mapQueue q m b).st2 q with p := false } :=
    get_set_same (s.mapQueue q m b).hif.stage2 q _ {}
  have hm : (s.mapQueue q m b).st2 q = { s.st2 q with mq := some m, coalesce := leAt b 10 2, window := leAt b 12 4, vector := leAt b 9 1 } :=
    get_set_same s.hif.stage2 q _ {}
  rw [h, hm]
  exact ⟨rfl, rfl⟩

theorem queueLoad_loads {b : List Byte} (hs : served s) (hq : s.nextPending = some q) (hb : s.hostRead (s.st2 q).fn (s.st2 q).qcb 64 = some b)
    (hd : qcbDigest q (slice b 32 16) = (s.st2 q).digest) (hok : qcbBad b = false) (hf : s.findMq = some (m, s)) :
    ∃ t, exec .queueLoad s = .next t ∧ Reported (loaded s q m b) t := by
  refine ⟨_, (show execQueueLoad s = _ from rfl), ?_⟩
  rw [if_neg (by simp [hostServed_of_served hs]), hq]
  dsimp only
  rw [hb]
  dsimp only
  rw [if_neg (by simp [hd]), if_neg (by simp [hok]), hf]
  exact .ite (reported_waitPacket ..) (reported_postQueue ..)

theorem qcbBad_false {b : List Byte} (h0 : leAt b 0 8 % 64 = 0) (h4 : 4 ≤ leAt b 8 1) (h16 : leAt b 8 1 ≤ 16) (hc : leAt b 10 2 ≤ 1024)
    (hz : leAt b 20 12 = 0) : qcbBad b = false := by
  simp [qcbBad, h0, hz, h4, h16, hc]

theorem queueLoad_holds {b : List Byte} (hs : served s) (hq : s.nextPending = some q)
    (hb : s.hostRead (s.st2 q).fn (s.st2 q).qcb 64 = some b) (hd : qcbDigest q (slice b 32 16) = (s.st2 q).digest)
    (hok : qcbBad b = false) (hm : m < 128) (hfree : (s.mq m).vqn = none) (hlow : ∀ j, j < m → (s.mq j).vqn ≠ none) :
    ∃ t, exec .queueLoad s = .next t ∧ (t.st2 q).mq = some m ∧ (t.st2 q).p = false ∧ (t.mq m).vqn = some q ∧ (t.mq m).base = leAt b 0 8 ∧
      (t.mq m).log = leAt b 8 1 ∧ (t.mq m).fn = leAt b 32 2 ∧ t.hif.pendPtr = q + 1 := by
  have hc : m < s.mqCount := by rw [mqCount_of_served hs]; exact hm
  obtain ⟨t, ht, hr⟩ := queueLoad_loads hs hq hb hd hok (findMq_free hc hfree hlow)
  obtain ⟨hmq, hp⟩ := loaded_st2 (s := s) (q := q) (m := m) b
  refine ⟨t, ht, ?_, ?_, ?_⟩
  · rw [hr.st2 q]; exact hmq
  · rw [hr.st2 q]; exact hp
  · rw [hr.mq m, hr.frame]
    obtain ⟨hv, hbase, hlog, hfn⟩ := loaded_mq (s := s) (q := q) (m := m) b
    exact ⟨hv, hbase, hlog, hfn, rfl⟩

/-! Interrupts (04 R98). -/

theorem raiseVector_masked {v n : Nat} (hn : n < msixVectors v) (hm : n ∉ (s.fn v).unmasked) :
    s.raiseVector v n = s.modFn v fun r => { r with pba := withElem r.pba n } := by
  unfold State.raiseVector
  rw [if_neg (Nat.not_le.2 hn), if_pos (by simpa using hm)]

theorem raiseVector_sent {v n : Nat} (hn : n < msixVectors v) (hm : n ∈ (s.fn v).unmasked) (hu : s.hostUp v = true) :
    s.raiseVector v n = s.emit (.msix v n) := by
  unfold State.raiseVector
  rw [if_neg (Nat.not_le.2 hn), if_neg (by simpa using hm), if_pos hu]

/-- The counter and window of queue `q` clear. -/
def irqCleared (s : State) (q : Nat) : State := s.modSt2 q fun e => { e with irqs := 0, irqAt := 0 }

theorem irqCleared_irqs : ((irqCleared s q).st2 q).irqs = 0 := congrArg Stage2.irqs (st2_modSt2 ..)

theorem interruptWindowExpiry_sends (hi : (s.st2 s.ev.a).irqs ≠ 0) (hw : (s.st2 s.ev.a).window ≠ 0)
    (hat : (s.st2 s.ev.a).irqAt + 1000 * (s.st2 s.ev.a).window ≤ s.time.toNat) :
    exec .interruptWindowExpiry s =
      .next ((irqCleared s s.ev.a).raiseVector (s.st2 s.ev.a).fn (s.st2 s.ev.a).vector) := by
  change execInterruptWindowExpiry s = _
  unfold execInterruptWindowExpiry
  dsimp only
  rw [if_pos (by simpa [hi, hw] using hat)]
  rfl

theorem interruptWindowExpiry_holds : let e := s.st2 s.ev.a
    e.irqs ≠ 0 → e.window ≠ 0 → e.irqAt + 1000 * e.window ≤ s.time.toNat →
    let exists_ := e.vector < if e.fn = 0 then 128 else 64
    (exists_ → e.vector ∉ (s.fn e.fn).unmasked → ∃ t, exec .interruptWindowExpiry s = .next t ∧ (t.st2 s.ev.a).irqs = 0 ∧
      e.vector ∈ (t.fn e.fn).pba ∧ t.out = s.out) ∧
    (exists_ → e.vector ∈ (s.fn e.fn).unmasked → s.hif.link = true → s.fnUp e.fn = true → ∃ t, exec .interruptWindowExpiry s = .next t ∧
      (t.st2 s.ev.a).irqs = 0 ∧ t.out = .msix e.fn e.vector :: s.out) := by
  intro e hi hw hat exists_
  have hrun := interruptWindowExpiry_sends hi hw hat
  refine ⟨fun hv hm => ⟨_, hrun, ?_⟩, fun hv hm hl hu => ⟨_, hrun, ?_⟩⟩
  · rw [raiseVector_masked (s := irqCleared s s.ev.a) hv hm]
    refine ⟨irqCleared_irqs, ?_, rfl⟩
    rw [fn_modFn]
    exact mem_withElem ..
  · have hup : (irqCleared s s.ev.a).hostUp e.fn = true := by
      change (s.hif.link && s.fnUp e.fn) = true
      rw [hl, hu]
      rfl
    rw [raiseVector_sent (s := irqCleared s s.ev.a) hv hm hup]
    exact ⟨irqCleared_irqs, rfl⟩

/-! Buckets (04 R103). -/

/-- LEVEL of bucket `v` after a tick: a written LEVEL or the old one, refilled and charged, within both bounds. -/
def tickedLevel (s : State) (v : Nat) : Int :=
  max (min ((s.fn v).bkWrite.getD (s.bkLevel v) + s.bkRate v) ((s.bkDepth v : Int) * 256) - 256 * s.bkCores v) (-((s.bkDepth v : Int) * 256))

/-- What decides bucket `v`'s tick is the same. -/
structure BucketKept (v : Nat) (s t : State) : Prop where
  depth : (t.fn v).bkDepth = (s.fn v).bkDepth
  rate : (t.fn v).bkRate = (s.fn v).bkRate
  level : (t.fn v).bkLevel = (s.fn v).bkLevel
  write : (t.fn v).bkWrite = (s.fn v).bkWrite
  circ : t.circ = s.circ

theorem BucketKept.trans {u : State} {v : Nat} (h : BucketKept v s t) (k : BucketKept v t u) : BucketKept v s u :=
  ⟨k.depth.trans h.depth, k.rate.trans h.rate, k.level.trans h.level, k.write.trans h.write, k.circ.trans h.circ⟩

theorem HostOnly.bucketKept (h : HostOnly s t) (v : Nat) : BucketKept v s t := by
  refine ⟨?_, ?_, ?_, ?_, h.circ⟩ <;> rw [h.fn v]

theorem BucketKept.bkLevel {v : Nat} (h : BucketKept v s t) : t.bkLevel v = s.bkLevel v := by
  unfold State.bkLevel
  rw [h.level]

theorem BucketKept.tickedLevel {v : Nat} (h : BucketKept v s t) : tickedLevel t v = tickedLevel s v := by
  unfold Proofs.tickedLevel State.bkRate State.bkDepth State.bkCores State.launchAt
  rw [h.write, h.bkLevel, h.rate, h.depth, h.circ]

theorem hostOnly_modSt2 (q : Nat) (g : Stage2 → Stage2) : HostOnly s (s.modSt2 q g) := hostOnly_queues ..

theorem hostOnly_foldl {α : Type} {f : State → α → State} (h : ∀ s a, HostOnly s (f s a)) (l : List α) (s : State) :
    HostOnly s (l.foldl f s) := by
  induction l generalizing s with
  | nil => exact .refl s
  | cons a l ih => exact (h s a).trans (ih _)

theorem hostOnly_evictFn (v : Nat) : HostOnly s (s.evictFn v) :=
  hostOnly_foldl (fun _ _ => (hostOnly_evict _).trans (hostOnly_modSt2 ..)) _ _

/-- Bucket `v` has its new LEVEL. -/
def refilled (s : State) (v : Nat) : State :=
  s.modFn v fun r => { r with
    bkLevel := if tickedLevel s v == (if v = 0 then 0xFFFFFFFF00 else 0) then none else some (tickedLevel s v), bkWrite := none }

theorem refilled_bkLevel (v : Nat) : (refilled s v).bkLevel v = tickedLevel s v := by
  unfold State.bkLevel refilled
  rw [fn_modFn]
  dsimp only
  by_cases h : tickedLevel s v = if v = 0 then 0xFFFFFFFF00 else 0
  · rw [if_pos (beq_iff_eq.2 h)]
    exact h.symm
  · rw [if_neg (mt beq_iff_eq.1 h)]
    rfl

theorem refilled_other {v w : Nat} (h : w ≠ v) : BucketKept w s (refilled s v) := by
  have hfn : (refilled s v).fn w = s.fn w := by
    unfold refilled
    rw [fn_modFn_ite, if_neg h]
  refine ⟨?_, ?_, ?_, ?_, rfl⟩ <;> rw [hfn]

theorem hostOnly_tickBucket (v : Nat) : HostOnly (refilled s v) (s.tickBucket v) := by
  change HostOnly (refilled s v) (if _ then ((refilled s v).evictFn v).post v 0x03 0 v 0
    else if _ then (refilled s v).post v 0x03 1 v 0 else refilled s v)
  split
  · exact (hostOnly_evictFn v).trans (reported_post ..).toHostOnly
  split
  · exact (reported_post ..).toHostOnly
  · exact .refl _

theorem tickBucket_bkLevel (v : Nat) : (s.tickBucket v).bkLevel v = tickedLevel s v := by
  rw [((hostOnly_tickBucket v).bucketKept v).bkLevel, refilled_bkLevel]

theorem tickBucket_other {v w : Nat} (h : w ≠ v) : BucketKept w s (s.tickBucket v) :=
  (refilled_other h).trans ((hostOnly_tickBucket v).bucketKept w)

/-- Each bucket of a list without repetition is refilled once. -/
theorem foldl_tickBucket {l : List Nat} (hl : l.Nodup) (v : Nat) :
    (v ∈ l → (l.foldl (fun s v => s.tickBucket v) s).bkLevel v = tickedLevel s v) ∧
      (v ∉ l → BucketKept v s (l.foldl (fun s v => s.tickBucket v) s)) := by
  induction l generalizing s with
  | nil => exact ⟨fun h => absurd h (List.not_mem_nil), fun _ => ⟨rfl, rfl, rfl, rfl, rfl⟩⟩
  | cons w l ih =>
    obtain ⟨hw, hl⟩ := List.nodup_cons.1 hl
    obtain ⟨hin, hout⟩ := ih (s := s.tickBucket w) hl
    refine ⟨fun hv => ?_, fun hv => ?_⟩
    · obtain rfl | hv := List.mem_cons.1 hv
      · rw [List.foldl_cons, (hout hw).bkLevel, tickBucket_bkLevel]
      · have hne : v ≠ w := fun e => hw (e ▸ hv)
        rw [List.foldl_cons, hin hv, (tickBucket_other hne).tickedLevel]
    · obtain ⟨hne, hv⟩ := not_or.1 (mt List.mem_cons.2 hv)
      exact (tickBucket_other hne).trans (hout hv)

theorem bucketTick_holds (hs : served s) : ∃ t, exec .bucketTick s = .next t ∧ ∀ v, v < 65 → t.bkLevel v = tickedLevel s v := by
  refine ⟨_, (show execBucketTick s = _ from rfl), fun v hv => ?_⟩
  rw [if_pos (hostServed_of_served hs)]
  exact (foldl_tickBucket List.nodup_range v).1 (List.mem_range.2 hv)

/-! Event-ring heads (04 R105). -/

theorem fnEvheadWrite_holds : let r := s.fn s.ev.a
    let n := 2 ^ r.evLog
    let x := s.ev.value.toNat
    x < n → x ≠ r.evHead → (x + n - r.evHead) % n ≤ (r.evTail + n - r.evHead) % n → ∃ t, exec .fnEvheadWrite s = .next t ∧
      (t.fn s.ev.a).evHead = x := by
  intro r n x hx hne hon
  have hway : ¬ (n ≤ x ∨ (r.evTail + n - r.evHead) % n < (x + n - r.evHead) % n) := by omega
  refine ⟨_, (show execFnEvheadWrite s = .next (s.writeEvHead s.ev.a x) from rfl), ?_⟩
  unfold State.writeEvHead
  dsimp only
  rw [if_neg (by simpa only [Bool.or_eq_true, decide_eq_true_eq] using hway), if_neg (by simpa using hne)]
  rw [((reported_ringFreed _).trans (reported_houseWait 1)).fn, fn_modFn]

/-! Registers (00 R6, 01 R37, 04 R107). -/

section
variable {w : Win} {o : Nat} (ho : o % 8 = 0) (hw : w.blockSize o = 8)
include ho hw

theorem winRead_word (fuel : Nat) (hb : (s.block w o).length = 8) : s.winRead w (fuel + 2) o 8 = (s.clearBlock w o, s.block w o) := by
  have hstart : o / 8 * 8 = o := Nat.div_mul_cancel (Nat.dvd_of_mod_eq_zero ho)
  unfold State.winRead
  simp [hw, ho, hstart, slice, State.winRead, hb]

theorem winWrite_word {bs : List Byte} (fuel : Nat) (hl : bs.length = 8) (hb : (s.block w o).length = 8) :
    s.winWrite w (fuel + 2) o bs = s.writeBlockAt w o bs := by
  have hstart : o / 8 * 8 = o := Nat.div_mul_cancel (Nat.dvd_of_mod_eq_zero ho)
  have htake : bs.take 8 = bs := List.take_of_length_le hl.le
  have hne : bs ≠ [] := List.ne_nil_of_length_pos (by omega)
  have hdrop : (s.block w o).drop 8 = [] := List.drop_eq_nil_of_le hb.le
  unfold State.winWrite
  simp [hw, ho, hstart, splice, State.winWrite, hl, htake, hne, hdrop]

end

theorem blockSize_bar0 {o : Nat} (h : inAddr o = false ∧ inWheel o = false) : Win.bar0.blockSize o = 8 := by
  unfold Win.blockSize
  dsimp only
  rw [if_neg (by simp [h.1]), if_neg (by simp [h.2])]

theorem ofNat_leNat_natLe (x : Nat) : BitVec.ofNat 64 (leNat (natLe 8 x)) = BitVec.ofNat 64 x := by
  rw [leNat_natLe]
  exact BitVec.eq_of_toNat_eq (by simp)

/-- The lost-completions counter. -/
theorem counterRead_lostCnt (hs : served s) (hp : s.pkg.stuckPower = false) (ha : s.ev.a = 0) (hb : s.ev.b = 0x302000) :
    exec .counterRead s = .next { s with
      hif := { s.hif with lostCnt := 0 }, out := .read (BitVec.ofNat 64 s.hif.lostCnt) :: s.out } := by
  have hblock : s.block .bar0 0x302000 = natLe 8 s.hif.lostCnt := rfl
  have hclear : s.clearBlock .bar0 0x302000 = { s with hif := { s.hif with lostCnt := 0 } } := by
    change s.clearBar0 0x302000 = _
    unfold State.clearBar0
    rw [if_neg (by simp [hp])]
    rfl
  change execCounterRead s = _
  unfold execCounterRead
  rw [ha, hb]
  dsimp only [winOf]
  rw [if_pos (by simpa [State.winUp] using hostServed_of_served hs),
    winRead_word rfl (blockSize_bar0 ⟨rfl, rfl⟩) 6 (by rw [hblock, natLe_length]), hblock, hclear, ofNat_leNat_natLe]
  rfl

theorem pkgWord_pcap (hp : s.pkg.stuckPower = false) : s.block .bar0 8 = natLe 8 s.pkg.pcap := by
  change natLe 8 (s.pkgWord false 8) = _
  unfold State.pkgWord
  rw [if_neg (by simp [hp])]
  rfl

theorem winUp_pcap (hs : served s) : s.winUp .bar0 8 = true := by
  obtain ⟨-, hh, ht⟩ := hs
  simp [State.winUp, hh, ht]

theorem counterRead_pcap (hs : served s) (hp : s.pkg.stuckPower = false) (ha : s.ev.a = 0) (hb : s.ev.b = 8) :
    exec .counterRead s = .next { s with out := .read (BitVec.ofNat 64 s.pkg.pcap) :: s.out } := by
  have hclear : s.clearBlock .bar0 8 = s := by
    change s.clearBar0 8 = _
    unfold State.clearBar0
    rw [if_neg (by simp [hp])]
    rfl
  change execCounterRead s = _
  unfold execCounterRead
  rw [ha, hb]
  dsimp only [winOf]
  rw [if_pos (winUp_pcap hs), winRead_word rfl (blockSize_bar0 ⟨rfl, rfl⟩) 6 (by rw [pkgWord_pcap hp, natLe_length])]
  rw [pkgWord_pcap hp, hclear, ofNat_leNat_natLe]
  rfl

theorem registerWrite_pcap (hs : served s) (hp : s.pkg.stuckPower = false) (ha : s.ev.a = 0) (hb : s.ev.b = 8) (hl : s.ev.bytes.length = 8) :
    exec .registerWrite s = .next (if leNat s.ev.bytes % 4096 < 600 ∨ 2600 < leNat s.ev.bytes % 4096 then s
      else { s with pkg := { s.pkg with pcap := leNat s.ev.bytes % 4096 } }) := by
  change execRegisterWrite s = _
  unfold execRegisterWrite
  rw [ha, hb, hl]
  dsimp only [winOf]
  rw [if_pos (winUp_pcap hs), winWrite_word rfl (blockSize_bar0 ⟨rfl, rfl⟩) 6 hl (by rw [pkgWord_pcap hp, natLe_length])]
  change Host.Outcome.next (s.writePkg false 8 (leNat s.ev.bytes)) = _
  unfold State.writePkg
  have hfld : fld (leNat s.ev.bytes) 0 12 = leNat s.ev.bytes % 4096 := by simp [fld]
  rw [if_pos (by rfl), hfld]
  by_cases hout : leNat s.ev.bytes % 4096 < 600 ∨ 2600 < leNat s.ev.bytes % 4096
  · rw [if_pos (by simpa [hp] using hout), if_pos hout]
  · rw [if_neg (by simpa [hp] using hout), if_neg hout]
    rfl

/-! Configuration requests (04 R90 R98). -/

theorem pcieConfigRequest_retried (hm : s.pkg.mode = 0) : exec .pcieConfigRequest s = .next { s with out := .cfg true :: s.out } := by
  change execPcieConfigRequest s = _
  unfold execPcieConfigRequest
  rw [if_pos (by simp [State.hostServed, hm])]
  rfl

theorem pcieConfigRequest_numVfs (hs : served s) (hb : s.ev.b = 1) : exec .pcieConfigRequest s = .next { s with
    out := .cfg false :: s.out, hif := { s.hif with numVfs := if s.ev.value.toNat ≤ s.pkg.nVf then s.ev.value.toNat else 0 } } := by
  change execPcieConfigRequest s = _
  unfold execPcieConfigRequest
  rw [if_neg (by simp [hostServed_of_served hs])]
  dsimp only
  rw [if_pos (by simp [State.emit, hb])]
  rfl

/-- Vector `n` of function `v` unmasked, and no longer pending. -/
def unmaskedVector (s : State) (v n : Nat) : State :=
  s.modFn v fun r => { r with unmasked := withElem r.unmasked n, pba := without r.pba n }

theorem maskVector_pending {v n : Nat} (hn : n < msixVectors v) (hp : n ∈ (s.fn v).pba) (hu : s.hostUp v = true) :
    s.maskVector v n false = (unmaskedVector s v n).emit (.msix v n) := by
  have hup : (unmaskedVector s v n).hostUp v = true := by
    rw [← hu]
    unfold State.hostUp State.fnUp unmaskedVector
    rw [fn_modFn]
    rfl
  have hm : n ∈ ((unmaskedVector s v n).fn v).unmasked := by
    unfold unmaskedVector
    rw [fn_modFn]
    exact mem_withElem ..
  unfold State.maskVector
  rw [if_neg (Nat.not_le.2 hn), if_neg (by decide)]
  dsimp only
  rw [if_pos (by simpa using hp)]
  exact raiseVector_sent hn hm hup

theorem pcieConfigRequest_unmasks (hs : served s) (hb : s.ev.b = 3) (hn : s.ev.c < if s.ev.a = 0 then 128 else 64) (hf : s.ev.flag = false)
    (hp : s.ev.c ∈ (s.fn s.ev.a).pba) (hl : s.hif.link = true) (hu : s.fnUp s.ev.a = true) :
    ∃ t, exec .pcieConfigRequest s = .next t ∧ s.ev.c ∈ (t.fn s.ev.a).unmasked ∧ s.ev.c ∉ (t.fn s.ev.a).pba ∧
      t.out = .msix s.ev.a s.ev.c :: .cfg false :: s.out := by
  have hrun : exec .pcieConfigRequest s = .next ((s.emit (.cfg false)).maskVector s.ev.a s.ev.c s.ev.flag) := by
    change execPcieConfigRequest s = _
    unfold execPcieConfigRequest
    rw [if_neg (by simp [hostServed_of_served hs])]
    dsimp only
    rw [if_neg (by simp [State.emit, hb]), if_neg (by simp [State.emit, hb]), if_pos (by simp [State.emit, hb])]
    rfl
  have hup : (s.emit (.cfg false)).hostUp s.ev.a = true := by
    change (s.hif.link && s.fnUp s.ev.a) = true
    rw [hl, hu]
    rfl
  rw [hf, maskVector_pending (s := s.emit _) hn hp hup] at hrun
  have hfn : ((unmaskedVector (s.emit (.cfg false)) s.ev.a s.ev.c).fn s.ev.a) = _ := fn_modFn ..
  refine ⟨_, hrun, ?_⟩
  change _ ∈ ((unmaskedVector (s.emit (.cfg false)) s.ev.a s.ev.c).fn s.ev.a).unmasked ∧
    _ ∉ ((unmaskedVector (s.emit (.cfg false)) s.ev.a s.ev.c).fn s.ev.a).pba ∧ _
  rw [hfn]
  exact ⟨mem_withElem .., not_mem_without (s.fn s.ev.a).pba _, rfl⟩

/-! Resets and the link (04 R113). -/

/-- Commands in progress of functions that `p` names are marked as lost. -/
def markedLost (s : State) (p : Nat → Bool) : State :=
  { s with hif := { s.hif with cmds := s.hif.cmds.map fun (c : Cmd) => if p c.fn then { c with lost := true } else c } }

theorem reported_loseCmds (p : Nat → Bool) : Reported (markedLost s p) (s.loseCmds p) := .foldl (fun _ _ => reported_finishCmd ..) _ _

theorem loseCmds_enabled (p : Nat → Bool) (v : Nat) : ((s.loseCmds p).fn v).enabled = (s.fn v).enabled :=
  (reported_loseCmds p).enabled v

theorem foldl_flr_enabled (l : List Nat) {v : Nat} (h : v ∈ l ∨ (s.fn v).enabled = false) :
    ((l.foldl (fun s v => s.modFn v FnRegs.flr) s).fn v).enabled = false := by
  induction l generalizing s with
  | nil => exact h.resolve_left List.not_mem_nil
  | cons w l ih =>
    refine ih ?_
    by_cases hv : v = w
    · exact .inr (by rw [hv, fn_modFn]; rfl)
    · refine h.imp (fun hin => (List.mem_cons.1 hin).resolve_left hv) fun hf => ?_
      rw [fn_modFn_ite, if_neg hv, hf]

theorem clearQueues_all : (s.clearQueues fun _ => true).hif.stage2 = [] ∧ (s.clearQueues fun _ => true).hif.mqs = [] := by
  simp [State.clearQueues]

/-- What a hot reset clears of the link, the mailbox and its sessions. -/
def linkReset (s : State) : State :=
  { s with hif := { s.hif with
    link := if s.ev.flag then false else s.hif.link, linkLost := s.hif.linkLost || (s.ev.flag && s.hif.link), numVfs := 0
    spdm := [], spdmState := 0, spdmExt := false, spdmLog := [], spdmIn := none, spdmOut := none, ideKeys := [], ideOn := [] } }

/-- Every function as a reset leaves it. -/
def functionsReset (s : State) : State := (List.range 65).foldl (fun s v => s.modFn v FnRegs.flr) s

theorem foldl_flr_hif (l : List Nat) : (l.foldl (fun s v => s.modFn v FnRegs.flr) s).hif =
    { s.hif with fns := (l.foldl (fun s v => s.modFn v FnRegs.flr) s).hif.fns } := by
  induction l generalizing s with
  | nil => rfl
  | cons w l ih => exact (ih (s := s.modFn w FnRegs.flr)).trans rfl

theorem pcieHotReset_holds : ∃ t, exec .pcieHotReset s = .next t ∧ t.hif.stage2 = [] ∧ t.hif.mqs = [] ∧ t.hif.numVfs = 0 ∧
    t.hif.spdm = [] ∧ (s.ev.flag = true → t.hif.link = false) ∧ ∀ v, v < 65 → (t.fn v).enabled = false := by
  have hr := reported_loseCmds (s := functionsReset (linkReset s)) fun _ => true
  obtain ⟨hst2, hmqs⟩ := clearQueues_all (s := (functionsReset (linkReset s)).loseCmds fun _ => true)
  have hhif : (functionsReset (linkReset s)).hif = { (linkReset s).hif with fns := (functionsReset (linkReset s)).hif.fns } :=
    foldl_flr_hif _
  refine ⟨_, (show execPcieHotReset s = .next (((functionsReset (linkReset s)).loseCmds fun _ => true).clearQueues fun _ => true) from rfl),
    hst2, hmqs, ?_, ?_, fun hf => ?_, fun v hv => ?_⟩
  · change ((functionsReset (linkReset s)).loseCmds fun _ => true).hif.numVfs = 0
    rw [hr.numVfs]
    exact congrArg Hif.numVfs hhif
  · change ((functionsReset (linkReset s)).loseCmds fun _ => true).hif.spdm = []
    rw [hr.frame]
    exact congrArg Hif.spdm hhif
  · change ((functionsReset (linkReset s)).loseCmds fun _ => true).hif.link = false
    rw [hr.link]
    exact (congrArg Hif.link hhif).trans (if_pos hf)
  · change (((functionsReset (linkReset s)).loseCmds fun _ => true).fn v).enabled = false
    rw [loseCmds_enabled]
    exact foldl_flr_enabled _ (.inl (List.mem_range.2 hv))

theorem vfFlr_holds (h1 : 1 ≤ s.ev.a) (h64 : s.ev.a ≤ 64) : ∃ t, exec .vfFlr s = .next t ∧ (t.fn s.ev.a).enabled = false ∧
    (∀ e, e ∈ t.hif.stage2 → e.2.fn ≠ s.ev.a) ∧ t.hif.link = s.hif.link := by
  refine ⟨_, (show execVfFlr s = _ from rfl), ?_⟩
  rw [if_neg (by simp; omega)]
  refine ⟨?_, fun e he => ?_, ?_⟩
  · change (((s.modFn s.ev.a FnRegs.flr).loseCmds (· == s.ev.a)).fn s.ev.a).enabled = false
    rw [loseCmds_enabled, fn_modFn]
    rfl
  · simpa using (List.mem_filter.1 he).2
  · exact (reported_loseCmds (s := s.modFn s.ev.a FnRegs.flr) _).link

/-- The link is back, and HOSTLOST is owed. -/
def linkBack (s : State) : State := { s with hif := { s.hif with link := true, linkLost := false, lostOwed := some s.hif.lostCnt } }

theorem linkBack_hostLostFirst :
    ((s.fn 0).evEn = false ∨ (s.fn 0).ringFull = true → (linkBack s).hostLostFirst.hif.lostOwed = some s.hif.lostCnt) ∧
      ((s.fn 0).evEn = true → (s.fn 0).ringFull = false → (linkBack s).hostLostFirst.hif.lostOwed = none) := by
  have howed : (linkBack s).hostLostFirst = if ((s.fn 0).evEn && !(s.fn 0).ringFull) = true then
      { (linkBack s).putEvent 0 0x09 0 0xFFFFFFFF s.hif.lostCnt with
        hif := { ((linkBack s).putEvent 0 0x09 0 0xFFFFFFFF s.hif.lostCnt).hif with lostOwed := none } }
      else linkBack s := rfl
  rw [howed]
  refine ⟨fun h => ?_, fun he hf => ?_⟩
  · rw [if_neg (by simpa [imp_iff_not_or] using h)]
    rfl
  · rw [if_pos (by simp [he, hf])]

theorem pcieLinkUp_holds (hl : s.hif.link = false) (hh : s.pkg.held = false) (hst : 4 ≤ s.pkg.stage) :
    ∃ t, exec .pcieLinkUp s = .next t ∧ t.hif.link = true ∧
      (s.hif.linkLost = false → t.hif.lostOwed = s.hif.lostOwed ∧ t.mem.host = s.mem.host) ∧
      (s.hif.linkLost = true → ((s.fn 0).evEn = false ∨ (s.fn 0).ringFull = true → t.hif.lostOwed = some s.hif.lostCnt) ∧
        ((s.fn 0).evEn = true → (s.fn 0).ringFull = false → t.hif.lostOwed = none)) := by
  refine ⟨_, (show execPcieLinkUp s = _ from rfl), ?_⟩
  rw [if_neg (by simp [hl, hh]; omega)]
  cases hlost : s.hif.linkLost with
  | false => exact ⟨rfl, fun _ => ⟨rfl, rfl⟩, fun h => absurd h (by decide)⟩
  | true =>
    exact ⟨(reported_hostLostFirst (s := linkBack s)).link, fun h => absurd h (by decide), fun _ => linkBack_hostLostFirst⟩

end
end

/-- Settles O42: a doorbell reaches its queue by `doorbell_rings`, whose mapping says which of the four cases it is; the other events have
one rule each above. -/
theorem hostQueuesRegistersAndLink : Obligations.HostQueuesRegistersAndLink := by
  intro s
  refine ⟨?_, fun q b m hs hq hb hd h0 h4 h16 hco hz hm hfree hlow => ?_,
    interruptWindowExpiry_holds, bucketTick_holds, fnEvheadWrite_holds, fun hs hp ha => ?_, pcieConfigRequest_retried,
    pcieConfigRequest_numVfs, pcieConfigRequest_unmasks, pcieHotReset_holds, vfFlr_holds, pcieLinkUp_holds⟩
  · intro g hs hup hb hg hc e q he hi hv hf tail
    have hr : Rings q s := ⟨hs, hup, ⟨g, hg, hb, he, hi, rfl⟩, hc, hv, hf⟩
    refine ⟨fun hmq => doorbell_unmapped hr hmq rfl, fun m hm hq hrel hlog => ⟨fun ht hne => ?_, fun ht heq => ?_, fun hlt hne => ?_⟩⟩
    · exact doorbell_reload hr hm hq hrel hlog ht hne
    · exact doorbell_evicts hr hm hq hrel hlog ht heq
    · exact doorbell_taken hr hm hrel rfl hlt hne
  · exact queueLoad_holds hs hq hb hd (qcbBad_false h0 h4 h16 hco hz) hm hfree hlow
  · refine ⟨counterRead_lostCnt hs hp ha, counterRead_pcap hs hp ha, fun hb hl hlo hhi => ?_, fun hb hl hout => ?_⟩
    · rw [registerWrite_pcap hs hp ha hb hl, if_neg (by omega)]
    · rw [registerWrite_pcap hs hp ha hb hl, if_pos hout]

end Sys2Proof.Proofs
end

section
/-! Taking a command packet, and what its completion reports (O41). -/
namespace Sys2Proof.Proofs
open Sys2Proof Sys2Proof.Machine Sys2Proof.Laws Sys2Proof.Stated

section
variable {s t u : State} {b : List Byte} {op : Nat}

/-! The packet at the head of a queue (04 R93 to R96). -/

/-- The command that the packet `b` at the head of the event's queue becomes. -/
def packetCmd (b : List Byte) (s : State) : Cmd :=
  { id := s.hif.nextCmd, packet := b, vqn := (s.mq s.ev.a).vqn.getD 0, fn := (s.mq s.ev.a).fn, startAt := s.time.toNat, crec := leAt b 8 8,
    sigAddr := leAt b 16 8, sigVal := leAt b 24 8 }

/-- The queue, moved past its packet. -/
def takenMq (s : State) : Mq :=
  { s.mq s.ev.a with head := ((s.mq s.ev.a).head + 1) % 2 ^ (s.mq s.ev.a).log, used := s.hif.nextCmd }

/-- The state in which the packet has been taken. -/
def packetTaken (b : List Byte) (s : State) : State :=
  let t := s.modMq s.ev.a fun y => { y with head := (y.head + 1) % 2 ^ y.log, used := s.hif.nextCmd }
  { t with hif := { t.hif with nextCmd := s.hif.nextCmd + 1, cmds := s.hif.cmds ++ [packetCmd b s] } }

theorem packetTaken_mq : (packetTaken b s).mq s.ev.a = takenMq s := get_set_same s.hif.mqs s.ev.a _ {}

/-! Nothing that a command looks at changed with the taking. -/

@[simp] theorem packetCmd_packet : (packetCmd b s).packet = b := rfl
@[simp] theorem packetCmd_fn : (packetCmd b s).fn = (s.mq s.ev.a).fn := rfl
@[simp] theorem takenMq_mcxOk (m : Nat) : (takenMq s).mcxOk m = (s.mq s.ev.a).mcxOk m := rfl
@[simp] theorem takenMq_part : (takenMq s).part = (s.mq s.ev.a).part := rfl
@[simp] theorem packetTaken_hostRead (v a n : Nat) : (packetTaken b s).hostRead v a n = s.hostRead v a n := rfl
@[simp] theorem packetTaken_mcb (m : Nat) : (packetTaken b s).mcb m = s.mcb m := rfl
@[simp] theorem packetTaken_catLookup (k f : Nat) : (packetTaken b s).catLookup k f = s.catLookup k f := rfl
@[simp] theorem packetTaken_catEntry (i : Nat) : (packetTaken b s).catEntry i = s.catEntry i := rfl
@[simp] theorem packetTaken_protectedRuns (m : Nat) : (packetTaken b s).protectedRuns m = s.protectedRuns m := rfl
@[simp] theorem packetTaken_fn (v : Nat) : (packetTaken b s).fn v = s.fn v := rfl
@[simp] theorem packetTaken_st2 (q : Nat) : (packetTaken b s).st2 q = s.st2 q := rfl
@[simp] theorem packetTaken_part (p : Nat) : (packetTaken b s).part p = s.part p := rfl

/-- The queue may take the packet: no activation is in progress and its thread runs, or the command is a FW_STAGE (04 R110). -/
def MayTake (op : Nat) (s : State) : Prop := (s.hif.fwPhase = .idle ∧ (s.thread s.ev.a).halted = false) ∨ op = 0x24

theorem takePacket_takes (h : packetWaits op b s) (hgo : MayTake op s) {want : List Byte → Bool} (hw : want b = true) :
    s.takePacket s.ev.a want = .ok (packetTaken b s, packetCmd b s) := by
  obtain ⟨hs, hm, hr, ⟨q, hq, hv, hstop, htail, hhead⟩, hb, hop, hflag, -, -, -, -⟩ := h
  have htailOf : s.tailOf s.ev.a = (s.st2 q).tail := by
    unfold State.tailOf
    rw [hr, hq]
    rfl
  have hstops : ((s.hif.fwPhase != .idle || (s.thread s.ev.a).halted) && !(isOp 0x24 b)) = false := by
    obtain ⟨hi, hh⟩ | ho := hgo
    · simp [hi, hh]
    · simp [isOp, hop, ho]
  have hfence : bitOf (leAt b 1 1) 0 = false := by simp [bitOf, hflag]
  unfold State.takePacket
  dsimp only
  rw [hq]
  dsimp only
  rw [if_neg (by simp [hostServed_of_served hs, mqCount_of_served hs, hm, hv, hstop, htailOf, Mq.tailOk, htail, hhead]), hb]
  dsimp only
  rw [if_neg (by simp [hw, hstops, hfence])]
  unfold packetTaken packetCmd
  rw [hq]
  rfl

/-! What a command's own work leaves of the host interface. -/

/-- The host interface and the package stay as they are. -/
structure HostKept (s t : State) : Prop where
  hif : t.hif = s.hif
  pkg : t.pkg = s.pkg

theorem HostKept.refl (s : State) : HostKept s s := ⟨rfl, rfl⟩

theorem HostKept.trans (h : HostKept s t) (k : HostKept t u) : HostKept s u := ⟨k.hif.trans h.hif, k.pkg.trans h.pkg⟩

/-- In state `u` the command of packet `b` is at work: its queue has moved on, no QUEUE_UNBIND waits, and its function reaches host
memory. -/
structure AtWork (b : List Byte) (s u : State) : Prop where
  mqs : u.hif.mqs = (packetTaken b s).hif.mqs
  noUnbind : ∀ d, d ∈ u.hif.cmds → d.op ≠ 0x21
  up : u.hostUp (s.mq s.ev.a).fn = true

theorem hostUp_of_hostRead {v a n : Nat} {d : List Byte} (h : s.hostRead v a n = some d) : s.hostUp v = true := by
  by_contra hn
  unfold State.hostRead at h
  rw [if_pos (by simp [hn])] at h
  exact Option.some_ne_none d h.symm

theorem atWork_taken (h : packetWaits op b s) (hop : op ≠ 0x21) : AtWork b s (packetTaken b s) := by
  obtain ⟨-, -, -, -, hb, ho, -, -, -, -, hd⟩ := h
  have hup : s.hostUp (s.mq s.ev.a).fn = true := hostUp_of_hostRead hb
  refine ⟨rfl, fun d hd' => ?_, hup⟩
  obtain hd' | hd' := List.mem_append.1 hd'
  · exact hd d hd'
  · rw [List.mem_singleton.1 hd']
    exact fun e => hop (ho ▸ e)

theorem AtWork.hostKept (h : AtWork b s t) (k : HostKept t u) : AtWork b s u where
  mqs := by rw [k.hif, h.mqs]
  noUnbind := by rw [k.hif]; exact h.noUnbind
  up := by
    rw [← h.up]
    unfold State.hostUp State.fnUp State.offered State.minimal State.fn
    rw [k.hif, k.pkg]

theorem AtWork.reported (h : AtWork b s t) (k : Reported t u) : AtWork b s u where
  mqs := k.mqs.trans h.mqs
  noUnbind := fun d hd => h.noUnbind d (k.cmds.subset hd)
  up := by rw [k.hostUp, h.up]

section
variable (hmqs : t.hif.mqs = (packetTaken b s).hif.mqs)
include hmqs

theorem mq_taken : t.mq s.ev.a = takenMq s := by
  rw [← packetTaken_mq (b := b)]
  unfold State.mq
  rw [hmqs]

theorem takesPacket_of_mqs : takesPacket s t := congrArg Mq.head (mq_taken hmqs)

theorem reload_of_mqs (hw : packetWaits op b s) : (t.mq s.ev.a).reload = none := by
  obtain ⟨-, -, hr, -⟩ := hw
  rw [mq_taken hmqs]
  exact hr

end

theorem settleReload_none {m : Nat} (h : (s.mq m).reload = none) : s.settleReload m = s := by
  unfold State.settleReload
  rw [h]
  rfl

/-- Outside a QUEUE_UNBIND a completion is its report, and no more. -/
theorem reported_complete (h : ∀ d, d ∈ s.hif.cmds → d.op ≠ 0x21) (c : Cmd) (status detail : Nat) :
    Reported s (s.complete c status detail) := by
  have hf := reported_finishCmd (s := s) c status detail { start := c.startAt }
  unfold State.complete
  dsimp only
  rw [settleUnbind_none fun d hd => h d (hf.cmds.subset hd)]
  exact hf

/-! Running a command. -/

section
variable (h : packetWaits op b s) (hgo : MayTake op s) (ho : opAssigned op = true) {want bad : List Byte → Bool}
  {body : State → Mq → Cmd → State} (hwant : want b = true) (hbad : bad b = false)
include h hgo ho hwant hbad

theorem runCmd_runs (hbody : body (packetTaken b s) (takenMq s) (packetCmd b s) = u) (hu : (u.mq s.ev.a).reload = none) :
    runCmd s.ev.a want bad body s = .next u := by
  have htake := takePacket_takes h hgo hwant
  obtain ⟨hs, -, -, -, -, hop, -, hal, hres, hclass, -⟩ := h
  have hmin : (packetTaken b s).minimal = false := minimal_of_served hs
  have hclass' : classOk (takenMq s) (leAt b 0 1) = true := by
    rw [hop]
    exact hclass
  unfold runCmd
  rw [htake]
  dsimp only
  change Host.Outcome.next (State.settleReload (if (!packetAligned b) = true then _
    else if (!opAssigned (leAt b 0 1) || !packetReservedOk b || bad b) = true then _ else _) s.ev.a) = _
  rw [if_neg (by simp [hal]), if_neg (by simp [hop, ho, hres, hbad]), if_neg (by simp [hmin]), packetTaken_mq]
  rw [if_neg (by change ¬ (!classOk (takenMq s) (leAt b 0 1)) = true; simp [hclass']), hbody, settleReload_none hu]

end

theorem packetAt_mayTake (h : packetAt op b s) : MayTake op s := .inl h.2

/-! The completion record (04 R97). -/

theorem hostWrite_host {v a : Nat} {bs : List Byte} (h : s.hostUp v = true) :
    (s.hostWrite v a bs).mem.host = Memory.writeN s.mem.host (hostKey v a) bs := by
  unfold State.hostWrite
  rw [if_pos h]

theorem raiseVector_mem (v n : Nat) : (s.raiseVector v n).mem = s.mem := by
  obtain h | h | h := raiseVector_cases s v n
  · rw [h]
  · rw [h]; rfl
  · rw [h]; rfl

theorem countIrq_mem (q : Nat) : (s.countIrq q).mem = s.mem := by
  unfold State.countIrq
  dsimp only
  split
  · exact raiseVector_mem ..
  · rfl

theorem finishCmd_mem (c : Cmd) (status detail : Nat) (l : LaunchDone) : (s.finishCmd c status detail l).mem =
    (s.reportAt c.fn c.crec c.sigAddr c.sigVal (completionRecord (if c.lost then 5 else status) (if c.lost then 0 else detail) l.faults
      l.start s.time.toNat c.tag c.vqn l.lid l.dump)).mem := by
  unfold State.finishCmd
  dsimp only
  change State.mem (if (c.int_ && !c.lost) = true then State.countIrq _ _ else _) = _
  split
  · exact countIrq_mem _
  · rfl

theorem readN_writeN_append (m : List Host.Cell) (a : Nat) (xs ys : List Byte) :
    Memory.readN (Memory.writeN m a (xs ++ ys)) a xs.length = xs := by
  apply List.ext_getElem
  · exact readN_length ..
  · intro i h1 h2
    have hi : i < (xs ++ ys).length := by
      rw [List.length_append]
      omega
    simp [Memory.readN, read_writeN_in m a (xs ++ ys) i hi, List.getElem_append_left h2]

theorem completionRecord_status (status detail faults start now tag vqn lid dump : Nat) :
    ∃ rest, completionRecord status detail faults start now tag vqn lid dump = natLe 2 status ++ rest := by
  unfold completionRecord
  simp only [List.append_assoc]
  exact ⟨_, rfl⟩

section
variable {c : Cmd} (hlost : c.lost = false) (hsig : c.sigAddr = 0)
include hsig

theorem finishCmd_silent (hcrec : c.crec = 0) (status detail : Nat) (l : LaunchDone) :
    (s.finishCmd c status detail l).mem = s.mem := by
  rw [finishCmd_mem, hcrec, hsig]
  rfl

include hlost

theorem finishCmd_records (hup : s.hostUp c.fn = true) (hcrec : c.crec ≠ 0) (status detail : Nat) (l : LaunchDone) :
    Memory.readN (s.finishCmd c status detail l).mem.host (hostKey c.fn c.crec) 2 = natLe 2 status := by
  have hlen : (natLe 2 status).length = 2 := natLe_length ..
  obtain ⟨rest, hrest⟩ := completionRecord_status status detail l.faults l.start s.time.toNat c.tag c.vqn l.lid l.dump
  rw [finishCmd_mem, hsig, hlost]
  unfold State.reportAt State.hostReport
  simp only [Bool.false_eq_true, if_false, bne_self_eq_false]
  rw [if_pos (by simpa using hcrec), if_pos hup, hostWrite_host hup, hrest]
  conv_lhs => rw [← hlen]
  exact readN_writeN_append ..

end

theorem AtWork.completes (hu : AtWork b s u) (status : Nat) : Stated.completes status b s (u.complete (packetCmd b s) status 0) := by
  refine ⟨takesPacket_of_mqs (hu.reported (reported_complete hu.noUnbind ..)).mqs, fun hcrec hsig => ?_⟩
  have hf := reported_finishCmd (s := u) (packetCmd b s) status 0 { start := (packetCmd b s).startAt }
  unfold State.complete
  dsimp only
  rw [settleUnbind_none fun d hd => hu.noUnbind d (hf.cmds.subset hd)]
  exact finishCmd_records (c := packetCmd b s) rfl hsig hu.up hcrec ..

/-- Without addresses to report to a completion leaves memory alone. -/
theorem complete_silent (h : ∀ d, d ∈ s.hif.cmds → d.op ≠ 0x21) {c : Cmd} (hcrec : c.crec = 0) (hsig : c.sigAddr = 0)
    (status detail : Nat) : (s.complete c status detail).mem = s.mem := by
  have hf := reported_finishCmd (s := s) c status detail { start := c.startAt }
  unfold State.complete
  dsimp only
  rw [settleUnbind_none fun d hd => h d (hf.cmds.subset hd)]
  exact finishCmd_silent hsig hcrec ..

section
variable {i : Instr} {r : Res} {want bad : List Byte → Bool} {body : State → Mq → Cmd → State} {status : Nat}
  (h : packetWaits op b s) (hgo : MayTake op s) (hi : exec i s = r) (hexec : r = runCmd s.ev.a want bad body s) (ho : opAssigned op = true)
  (hwant : want b = true) (hbad : bad b = false)
  (hbody : body (packetTaken b s) (takenMq s) (packetCmd b s) = u.complete (packetCmd b s) status 0) (hu : AtWork b s u)
include h hgo hi hexec ho hwant hbad hbody hu

/-- A command whose work ends in a completion with status `status`. -/
theorem command_completion : exec i s = .next (u.complete (packetCmd b s) status 0) :=
  (hi.trans hexec).trans (runCmd_runs h hgo ho hwant hbad hbody (reload_of_mqs (hu.reported (reported_complete hu.noUnbind ..)).mqs h))

theorem command_completes : ∃ t, exec i s = .next t ∧ completes status b s t ∧ Reported u t :=
  ⟨_, command_completion h hgo hi hexec ho hwant hbad hbody hu, hu.completes status, reported_complete hu.noUnbind ..⟩

end

/-- A command whose work ends otherwise. -/
theorem command_runs {i : Instr} {r : Res} {want bad : List Byte → Bool} {body : State → Mq → Cmd → State}
    (h : packetWaits op b s) (hgo : MayTake op s) (hi : exec i s = r) (hexec : r = runCmd s.ev.a want bad body s) (ho : opAssigned op = true)
    (hwant : want b = true) (hbad : bad b = false)
    (hbody : body (packetTaken b s) (takenMq s) (packetCmd b s) = u) (hu : u.hif.mqs = (packetTaken b s).hif.mqs) :
    exec i s = .next u ∧ takesPacket s u :=
  ⟨(hi.trans hexec).trans (runCmd_runs h hgo ho hwant hbad hbody (reload_of_mqs hu h)), takesPacket_of_mqs hu⟩

theorem isOp_packet (h : packetWaits op b s) : isOp op b = true := by
  obtain ⟨-, -, -, -, -, hop, -⟩ := h
  exact beq_iff_eq.2 hop

end
end Sys2Proof.Proofs
end

section
/-! NOP, LAUNCH, the Catalog and MCB_WRITE (O41). -/
namespace Sys2Proof.Proofs
open Sys2Proof Sys2Proof.Machine Sys2Proof.Laws Sys2Proof.Stated

section
variable {s t u : State} {b : List Byte}

theorem nop_completes (h : packetAt 0x08 b s) : ∃ t, exec .nop s = .next t ∧ completes 0 b s t ∧ t.cores = s.cores ∧ t.circ = s.circ ∧
    t.prot = s.prot ∧ t.mem.bytes = s.mem.bytes := by
  obtain ⟨t, ht, hc, hr⟩ := command_completes (u := packetTaken b s) (i := .nop) (r := execNop s) (status := 0) h.1 (packetAt_mayTake h)
    rfl rfl rfl (by simp [isOp_packet h.1]) rfl rfl (atWork_taken h.1 (by decide))
  exact ⟨t, ht, hc, hr.cores, hr.circ, hr.prot, hr.bytes⟩

/-! LAUNCH (04 R94 R96 R509). -/

/-- A command that can report nowhere: the refusal changes what a report changes. -/
theorem reported_completeNowhere (h : ∀ d, d ∈ s.hif.cmds → d.op ≠ 0x21) (c : Cmd) (status : Nat) :
    Reported s (s.completeNowhere c status) := by
  have hr := (reported_finishCmd (s := s) { c with crec := 0, sigAddr := 0 } status 0 { start := c.startAt }).trans
    (reported_postQueue c.fn 0x01 4 c.vqn (c.tag + status * 2 ^ 32))
  unfold State.completeNowhere
  dsimp only
  rw [settleUnbind_none fun d hd => h d (hr.cmds.subset hd)]
  exact hr

/-- The launch of record `r` has gone to the host lane, and command `c` reports where the record says. -/
def laneTaken (s : State) (c : Cmd) (r : List Byte) : State :=
  let c' := { c with crec := (parseRecord r).crec, sigAddr := (parseRecord r).sigAddr, sigVal := (parseRecord r).sigVal }
  let s := { s with hif := { s.hif with cmds := s.hif.cmds.map fun (d : Cmd) => if d.id == c.id then c' else d } }
  s.modCirc fun q => { q with hostLane := q.hostLane ++
    [{ record := parseRecord r, malformed := !(recordReservedOk r), mcx := leAt c.packet 32 2, cmd := some c.id }] }

section
variable (h : packetAt 0x01 b s)
include h

theorem launch_denied (hown : ¬ (s.mq s.ev.a).mcxOk (operand b 32 2) = true) :
    ∃ t, exec .launch s = .next t ∧ completes 2 b s t ∧ t.circ = s.circ := by
  obtain ⟨t, ht, hc, hr⟩ := command_completes (u := packetTaken b s) (i := .launch) (r := execLaunch s) (status := 2) h.1
    (packetAt_mayTake h) rfl rfl rfl (isOp_packet h.1) rfl (if_pos (by simpa [operand] using hown)) (atWork_taken h.1 (by decide))
  exact ⟨t, ht, hc, hr.circ⟩

variable {r : List Byte} (hown : (s.mq s.ev.a).mcxOk (operand b 32 2) = true)
  (hread : s.hostRead (s.mq s.ev.a).fn (operand b 40 8) 128 = some r)
include hown hread

theorem launch_lane (hal : (parseRecord r).crec % 64 = 0 ∧ (parseRecord r).sigAddr % 8 = 0) :
    ∃ t, exec .launch s = .next t ∧ takesPacket s t ∧ ∃ i, t.circ.hostLane = s.circ.hostLane ++ [i] ∧ i.record = parseRecord r ∧
      i.mcx = operand b 32 2 ∧ i.malformed = !(recordReservedOk r) := by
  have hread' : (packetTaken b s).hostRead (packetCmd b s).fn (leAt (packetCmd b s).packet 40 8) 128 = some r := hread
  obtain ⟨hrun, htakes⟩ := command_runs (i := .launch) (r := execLaunch s) (u := laneTaken (packetTaken b s) (packetCmd b s) r) h.1
    (packetAt_mayTake h) rfl rfl rfl (isOp_packet h.1) rfl (by
      rw [if_neg (by simpa [operand] using hown), hread']
      dsimp only
      rw [if_neg (by simp [hal])]
      rfl) rfl
  exact ⟨_, hrun, htakes, _, rfl, rfl, rfl, rfl⟩

theorem launch_misaligned (hal : ¬ ((parseRecord r).crec % 64 = 0 ∧ (parseRecord r).sigAddr % 8 = 0)) :
    ∃ t, exec .launch s = .next t ∧ takesPacket s t ∧ t.circ.hostLane = s.circ.hostLane ∧
      SMap.get t.circ.cnt 2 0 = min (SMap.get s.circ.cnt 2 0 + 1) (2 ^ 48 - 1) := by
  have hread' : (packetTaken b s).hostRead (packetCmd b s).fn (leAt (packetCmd b s).packet 40 8) 128 = some r := hread
  have hal' : ((parseRecord r).crec % 64 != 0 || (parseRecord r).sigAddr % 8 != 0) = true := by
    simpa [imp_iff_not_or] using hal
  have hw := (atWork_taken h.1 (by decide)).hostKept (u := (packetTaken b s).countCirc 2) ⟨rfl, rfl⟩
  have hr := reported_completeNowhere hw.noUnbind (packetCmd b s) 10
  obtain ⟨hrun, htakes⟩ := command_runs (i := .launch) (r := execLaunch s) h.1 (packetAt_mayTake h) rfl rfl rfl (isOp_packet h.1) rfl
    (by
      rw [if_neg (by simpa [operand] using hown), hread']
      dsimp only
      rw [if_pos hal']) (hw.reported hr).mqs
  refine ⟨_, hrun, htakes, ?_, ?_⟩
  · rw [hr.circ]
    rfl
  · rw [hr.circ]
    change SMap.get (SMap.upd s.circ.cnt 2 0 fun n => sat48 n 1) 2 0 = _
    rw [get_upd, if_pos rfl]
    rfl

end

/-! Micro-contexts and Catalog entries under their updates. -/

theorem HostKept.of_memOnly (h : MemOnly s t) : HostKept s t := by
  obtain ⟨m, rfl⟩ := h
  exact ⟨rfl, rfl⟩

theorem memOnly_refl (s : State) : MemOnly s s := ⟨_, rfl⟩

/-- The control block of micro-context `m`, changed in the protection state alone. -/
def mcbChanged (s : State) (m : Nat) (g : Mcb → Mcb) : State := { s with prot := { s.prot with mcbs := SMap.upd s.prot.mcbs m {} g } }

/-- The copy in memory aside, an MCB's change is just that. -/
theorem memOnly_modMcb (m : Nat) (g : Mcb → Mcb) : MemOnly (mcbChanged s m g) (s.modMcb m g) := by
  unfold State.modMcb
  dsimp only
  split
  · exact memOnly_foldl (fun _ _ => memOnly_putLine ..) _ _
  · exact memOnly_refl _

theorem hostKept_modMcb (m : Nat) (g : Mcb → Mcb) : HostKept s (s.modMcb m g) :=
  HostKept.trans (t := mcbChanged s m g) ⟨rfl, rfl⟩ (.of_memOnly (memOnly_modMcb m g))

theorem MemOnly.prot (h : MemOnly s t) : t.prot = s.prot := by
  obtain ⟨m, rfl⟩ := h
  rfl

theorem MemOnly.eth (h : MemOnly s t) : t.eth = s.eth := by
  obtain ⟨m, rfl⟩ := h
  rfl

theorem mcb_modMcb (m n : Nat) (g : Mcb → Mcb) : (s.modMcb m g).mcb n = if n = m then g (s.mcb m) else s.mcb n := by
  unfold State.mcb
  rw [(memOnly_modMcb m g).prot]
  exact get_upd ..

theorem eth_modMcb (m : Nat) (g : Mcb → Mcb) : (s.modMcb m g).eth = s.eth := (memOnly_modMcb m g).eth

theorem catEntry_setCat (i : Nat) (e : CatalogEntry) : (s.setCat i e).catEntry i = e := get_set_same ..

theorem Reported.catEntry (h : Reported s t) (i : Nat) : t.catEntry i = s.catEntry i := by
  unfold State.catEntry
  rw [h.eth]

theorem Reported.mcb (h : Reported s t) (m : Nat) : t.mcb m = s.mcb m := by
  unfold State.mcb
  rw [h.prot]

/-! The Catalog (02 R55, 05 R121). -/

/-- Entry `e` put in place `i`, where a matching entry stood or `old` is none; the replaced entry's micro-context loses its back-link. -/
def catalogued (s : State) (old : Option Nat) (i : Nat) (e : CatalogEntry) : State :=
  let s := match old with
    | some j => if (s.catEntry j).mcx != e.mcx then s.modMcb (s.catEntry j).mcx fun b => { b with backLink := none } else s
    | none => s
  (s.setCat i e).modMcb e.mcx fun b => { b with backLink := some i }

theorem catalogued_entry (old : Option Nat) (i : Nat) (e : CatalogEntry) :
    (catalogued s old i e).catEntry i = e ∧ ((catalogued s old i e).mcb e.mcx).backLink = some i := by
  unfold catalogued
  extract_lets v
  refine ⟨?_, ?_⟩
  · unfold State.catEntry
    rw [eth_modMcb]
    exact catEntry_setCat i e
  · rw [mcb_modMcb, if_pos rfl]

theorem hostKept_catalogued (old : Option Nat) (i : Nat) (e : CatalogEntry) : HostKept s (catalogued s old i e) := by
  unfold catalogued
  extract_lets v
  have hv : HostKept s v := by
    unfold v
    split
    · split
      · exact hostKept_modMcb ..
      · exact .refl s
    · exact .refl s
  exact (hv.trans (u := v.setCat i e) ⟨rfl, rfl⟩).trans (hostKept_modMcb ..)

section
variable (h : packetAt 0x02 b s) (hbad : entryBad b = false) (hown : (s.mq s.ev.a).mcxOk (packetEntry b).mcx = true)
  (hpart : (packetEntry b).part = (s.mq s.ev.a).part) (hst : (s.mcb (packetEntry b).mcx).st ≠ 0)
include h hbad hown hpart hst

/-- A CATALOG_SET within the queue's range goes to a matching entry, or else to a free way. -/
theorem catalogSet_puts {i : Nat}
    (hold : ∀ j, s.catLookup (packetEntry b).bind (packetEntry b).func = some j → (s.catEntry j).part = (s.mq s.ev.a).part)
    (hlink : (s.mcb (packetEntry b).mcx).backLink = none ∨
      (s.mcb (packetEntry b).mcx).backLink = s.catLookup (packetEntry b).bind (packetEntry b).func)
    (hi : (s.catLookup (packetEntry b).bind (packetEntry b).func).or
      (((List.range 4).map (4 * catalogSet (packetEntry b).bind (packetEntry b).func + ·)).find? fun i => !(s.catEntry i).v) = some i) :
    ∃ t, exec .catalogSet s = .next t ∧ completes 0 b s t ∧ t.catEntry i = packetEntry b ∧ (t.mcb (packetEntry b).mcx).backLink = some i := by
  have hw := (atWork_taken h.1 (by decide)).hostKept
    (hostKept_catalogued (s := packetTaken b s) (s.catLookup (packetEntry b).bind (packetEntry b).func) i (packetEntry b))
  obtain ⟨t, ht, hc, hr⟩ := command_completes (i := .catalogSet) (r := execCatalogSet s) (status := 0) h.1 (packetAt_mayTake h) rfl rfl
    rfl (isOp_packet h.1) hbad (by
      refine (if_neg ?_).trans ((if_neg ?_).trans ?_)
      · cases hc : s.catLookup (packetEntry b).bind (packetEntry b).func with
        | none => simp [hown, hpart, hc]
        | some j => simp [hown, hpart, hc, hold j hc]
      · obtain hl | hl := hlink
        · simp [hst, hl]
        · simp [hst, hl]
      · simp only [packetCmd_packet, packetTaken_catLookup, packetTaken_catEntry, hi]
        rfl) hw
  obtain ⟨he, hb⟩ := catalogued_entry (s := packetTaken b s) (s.catLookup (packetEntry b).bind (packetEntry b).func) i (packetEntry b)
  exact ⟨t, ht, hc, by rw [hr.catEntry, he], by rw [hr.mcb, hb]⟩

theorem catalogSet_replaces {i : Nat} (hold : s.catLookup (packetEntry b).bind (packetEntry b).func = some i)
    (hi : (s.catEntry i).part = (s.mq s.ev.a).part)
    (hlink : (s.mcb (packetEntry b).mcx).backLink = none ∨ (s.mcb (packetEntry b).mcx).backLink = some i) :
    ∃ t, exec .catalogSet s = .next t ∧ completes 0 b s t ∧ t.catEntry i = packetEntry b ∧ (t.mcb (packetEntry b).mcx).backLink = some i := by
  refine catalogSet_puts h hbad hown hpart hst (fun j hj => ?_) (hold ▸ hlink) (by rw [hold]; rfl)
  rw [← Option.some.inj (hold.symm.trans hj), hi]

theorem catalogSet_inserts {w : Nat} (hnone : s.catLookup (packetEntry b).bind (packetEntry b).func = none)
    (hlink : (s.mcb (packetEntry b).mcx).backLink = none) (hw : w < 4)
    (hfree : (s.catEntry (4 * catalogSet (packetEntry b).bind (packetEntry b).func + w)).v = false)
    (hlow : ∀ v, v < w → (s.catEntry (4 * catalogSet (packetEntry b).bind (packetEntry b).func + v)).v = true) :
    ∃ t, exec .catalogSet s = .next t ∧ completes 0 b s t ∧
      t.catEntry (4 * catalogSet (packetEntry b).bind (packetEntry b).func + w) = packetEntry b ∧
      (t.mcb (packetEntry b).mcx).backLink = some (4 * catalogSet (packetEntry b).bind (packetEntry b).func + w) := by
  refine catalogSet_puts h hbad hown hpart hst (fun j hj => absurd (hnone.symm.trans hj) (by simp)) (.inl hlink) ?_
  rw [hnone, Option.none_or, List.find?_map]
  have hfind : (List.range 4).find? ((fun i => !(s.catEntry i).v) ∘ fun v => 4 * catalogSet (packetEntry b).bind (packetEntry b).func + v) =
      some w := by
    refine List.find?_range_eq_some.2 ⟨by simp [hfree], List.mem_range.2 hw, fun v hv => ?_⟩
    simp [hlow v hv]
  rw [hfind]
  rfl

end

theorem catalogDel_clears {i : Nat} (h : packetAt 0x03 b s) (hi : s.catLookup (operand b 32 2) (operand b 36 4) = some i)
    (hpart : (s.catEntry i).part = (s.mq s.ev.a).part) : ∃ t, exec .catalogDel s = .next t ∧ completes 0 b s t ∧ t.catEntry i = {} ∧
      (t.mcb (s.catEntry i).mcx).backLink = none := by
  have hi' : s.catLookup (leAt b 32 2) (leAt b 36 4) = some i := hi
  have hk : HostKept (packetTaken b s) (((packetTaken b s).setCat i {}).modMcb (s.catEntry i).mcx fun b => { b with backLink := none }) :=
    HostKept.trans (t := (packetTaken b s).setCat i {}) ⟨rfl, rfl⟩ (hostKept_modMcb ..)
  obtain ⟨t, ht, hc, hr⟩ := command_completes (i := .catalogDel) (r := execCatalogDel s) (status := 0) h.1 (packetAt_mayTake h) rfl rfl
    rfl (isOp_packet h.1) rfl (by
      simp only [packetCmd_packet, takenMq_part, packetTaken_catLookup, packetTaken_catEntry, hi']
      exact if_neg (by simp [hpart])) ((atWork_taken h.1 (by decide)).hostKept hk)
  refine ⟨t, ht, hc, ?_, ?_⟩
  · rw [hr.catEntry]
    unfold State.catEntry
    rw [eth_modMcb]
    exact catEntry_setCat (s := packetTaken b s) i {}
  · rw [hr.mcb, mcb_modMcb, if_pos rfl]

/-! MCB_WRITE (05 R119 R122). -/

/-- The state in which micro-context `m` has become READY with the control block `new` and no template. -/
def mcbReady (s : State) (m : Nat) (new : Mcb) : State :=
  ((s.tlbFlush m).modMcb m fun _ => { new with st := 1, terminations := if (s.mcb m).st != 1 then 0 else new.terminations }).modCirc
    fun c => { c with templates := SMap.set c.templates m none none }

theorem hostKept_mcbReady (m : Nat) (new : Mcb) : HostKept s (mcbReady s m new) := by
  have hk : HostKept s ((s.tlbFlush m).modMcb m fun _ =>
      { new with st := 1, terminations := if (s.mcb m).st != 1 then 0 else new.terminations }) :=
    HostKept.trans (t := s.tlbFlush m) ⟨rfl, rfl⟩ (hostKept_modMcb ..)
  exact hk.trans ⟨rfl, rfl⟩

theorem mcbReady_mcb (m : Nat) (new : Mcb) :
    (mcbReady s m new).mcb m = { new with st := 1, terminations := if (s.mcb m).st != 1 then 0 else new.terminations } :=
  (mcb_modMcb (s := s.tlbFlush m) m m _).trans (if_pos rfl)

theorem readTemplate_none {m : Nat} {new : Mcb} (h : new.reqLr = 0) : s.readTemplate m new = .ok (none, s) := by
  unfold State.readTemplate
  rw [if_pos (by simp [h])]

theorem mcbWrite_ready {d : List Byte} (h : packetAt 0x04 b s) (hown : (s.mq s.ev.a).mcxOk (operand b 32 2) = true)
    (hread : s.hostRead (s.mq s.ev.a).fn (operand b 40 8) 256 = some d) (hbad : mcbBad d (operand b 32 2) = false)
    (hm : operand b 32 2 < 8192) (hwant : leAt d 2 1 = 1) (hlr : (parseMcb d (s.mcb (operand b 32 2))).reqLr = 0)
    (hden : s.mcbDenied (s.mq s.ev.a) (operand b 32 2) 1 (parseMcb d (s.mcb (operand b 32 2))) = false) :
    ∃ t, exec .mcbWrite s = .next t ∧ completes 0 b s t ∧ (t.mcb (operand b 32 2)).st = 1 ∧ (t.mcb (operand b 32 2)).part = leAt d 3 1 ∧
      (t.mcb (operand b 32 2)).prio = leAt d 4 1 ∧ (t.mcb (operand b 32 2)).ptRoot = leAt d 8 8 := by
  obtain ⟨t, ht, hc, hr⟩ := command_completes (i := .mcbWrite) (r := execMcbWrite s) (status := 0)
    (u := mcbReady (packetTaken b s) (operand b 32 2) (parseMcb d (s.mcb (operand b 32 2)))) h.1 (packetAt_mayTake h) rfl rfl
    rfl (isOp_packet h.1) rfl (by
      have hread' : (packetTaken b s).hostRead (packetCmd b s).fn (leAt (packetCmd b s).packet 40 8) 256 = some d := hread
      refine (if_neg (by simpa [operand] using hown)).trans ?_
      rw [hread']
      refine (if_neg ?_).trans ((if_neg ?_).trans ((if_pos (by simp [hwant])).trans ?_))
      · change ¬ (mcbBad d (operand b 32 2) || decide (8192 ≤ operand b 32 2)) = true
        simpa [hbad] using hm
      · rw [hwant]
        exact Bool.eq_false_iff.1 hden
      · have htemplate : (packetTaken b s).readTemplate (leAt (packetCmd b s).packet 32 2)
            (parseMcb d ((packetTaken b s).mcb (leAt (packetCmd b s).packet 32 2))) = _ := readTemplate_none hlr
        rw [htemplate, hwant]
        rfl)
    ((atWork_taken h.1 (by decide)).hostKept (hostKept_mcbReady ..))
  refine ⟨t, ht, hc, ?_⟩
  rw [hr.mcb, mcbReady_mcb]
  exact ⟨rfl, rfl, rfl, rfl⟩

end
end Sys2Proof.Proofs
end

section
/-! COPY_IN and COPY_OUT (O41). -/
namespace Sys2Proof.Proofs
open Sys2Proof Sys2Proof.Machine Sys2Proof.Laws Sys2Proof.Stated

section
variable {s t u : State} {b : List Byte}

/-! Addresses translate alike whatever the host interface holds. -/

section
variable (h : Hif) (w : Who) (va : Nat) (write : Bool)

theorem xlatWalk_hif (n lvl table : Nat) : xlatWalk { s with hif := h } w va write n lvl table = xlatWalk s w va write n lvl table := by
  induction n generalizing lvl table with
  | zero => rfl
  | succ n ih =>
    unfold xlatWalk
    simp only [ih]
    rfl

theorem translate_hif : Machine.translate { s with hif := h } w va write = Machine.translate s w va write := by
  unfold Machine.translate
  simp only [xlatWalk_hif]
  rfl

theorem cut_hif (fuel n off : Nat) : cut { s with hif := h } w write fuel va n off = cut s w write fuel va n off := by
  induction fuel generalizing va n off with
  | zero => rfl
  | succ fuel ih =>
    unfold cut
    simp only [translate_hif, ih]

end

theorem cutAccess_taken (w : Who) (write : Bool) (va n : Nat) : cutAccess (packetTaken b s) w write va n = cutAccess s w write va n :=
  cut_hif (s := s) (packetTaken b s).hif w va write _ n 0

/-- The pieces of an access lie inside it. -/
theorem cut_inside {w : Who} {write : Bool} {fuel va n off : Nat} {ps : List Piece} (h : cut s w write fuel va n off = .ok ps) :
    ∀ p, p ∈ ps → p.off + p.len ≤ off + n := by
  induction fuel generalizing va n off ps with
  | zero =>
    obtain rfl : [] = ps := Except.ok.inj h
    exact fun p hp => absurd hp List.not_mem_nil
  | succ fuel ih =>
    unfold cut at h
    split at h
    · obtain rfl : [] = ps := Except.ok.inj h
      exact fun p hp => absurd hp List.not_mem_nil
    · split at h
      · exact absurd h (by simp)
      · extract_lets room k at h
        split at h
        · exact absurd h (by simp)
        · next r hr =>
          have hk : k ≤ n := Nat.min_le_left ..
          obtain rfl := Except.ok.inj h
          intro p hp
          obtain rfl | hp := List.mem_cons.1 hp
          · dsimp only
            omega
          · have := ih hr p hp
            omega

/-! Bytes written piece by piece. -/

theorem writeMask_all (m : List Host.Cell) (a : Nat) (bs : List Byte) :
    Memory.writeMask m a bs (List.replicate bs.length true) = Memory.writeN m a bs := by
  induction bs generalizing m a with
  | nil => rfl
  | cons c bs ih => exact ih ..

theorem tagPage_bytes (pa tag : Nat) : (s.tagPage pa tag).mem.bytes = s.mem.bytes := by
  unfold State.tagPage
  split <;> rfl

theorem putLine_bytes (pa : Nat) (bs : List Byte) (mask : List Bool) (stamp tag : Nat) :
    (s.putLine pa bs mask stamp tag).mem.bytes = Memory.writeMask s.mem.bytes pa bs mask := tagPage_bytes ..

/-- One piece of `bs` written as plaintext. -/
def piecePut (bs : List Byte) (s : State) (p : Piece) : State :=
  match p.pa with
  | none => s
  | some a =>
    let s := if s.zeroMarked a then s.fillDone (a / 0x200000) else s
    s.putLine a (slice bs p.off p.len) (List.replicate p.len true) 0 p.x.tag

theorem writeLines_eq (ps : List Piece) (bs : List Byte) : s.writeLines ps bs none = ps.foldl (piecePut bs) s := rfl

theorem memOnly_piecePut (bs : List Byte) (p : Piece) : MemOnly s (piecePut bs s p) := by
  unfold piecePut
  split
  · exact memOnly_refl s
  · dsimp only
    refine MemOnly.trans ?_ (memOnly_putLine ..)
    split
    · exact ⟨_, rfl⟩
    · exact memOnly_refl s

theorem memOnly_writeLines (ps : List Piece) (bs : List Byte) : MemOnly s (s.writeLines ps bs none) :=
  memOnly_foldl (fun _ => memOnly_piecePut bs) ps s

theorem piecePut_bytes {bs : List Byte} {p : Piece} {a : Nat} (ha : p.pa = some a) (hl : (slice bs p.off p.len).length = p.len) :
    (piecePut bs s p).mem.bytes = Memory.writeN s.mem.bytes a (slice bs p.off p.len) := by
  have hmask : List.replicate p.len true = List.replicate (slice bs p.off p.len).length true := by rw [hl]
  unfold piecePut
  rw [ha]
  dsimp only
  rw [putLine_bytes, hmask, writeMask_all]
  split <;> rfl

/-- Pieces that lie apart from a stretch leave its bytes. -/
theorem foldl_piecePut_other {bs : List Byte} {ps : List Piece} {a n : Nat}
    (hps : ∀ q, q ∈ ps → (∃ c, q.pa = some c) ∧ (slice bs q.off q.len).length = q.len ∧ overlap a n (q.pa.getD 0) q.len = false) :
    (ps.foldl (piecePut bs) s).phys a n = s.phys a n := by
  induction ps generalizing s with
  | nil => rfl
  | cons q ps ih =>
    obtain ⟨⟨c, hc⟩, hl, ho⟩ := hps q List.mem_cons_self
    rw [List.foldl_cons, ih fun q hq => hps q (List.mem_cons_of_mem _ hq)]
    unfold State.phys
    rw [piecePut_bytes hc hl]
    simp only [hc, Option.getD_some, overlap, decide_eq_false_iff_not] at ho
    exact readN_writeN_other _ _ _ _ _ (by omega)

/-- After pieces that lie apart have been written, each holds its part. -/
theorem foldl_piecePut_phys {bs : List Byte} {ps : List Piece}
    (hps : ∀ q, q ∈ ps → (∃ c, q.pa = some c) ∧ (slice bs q.off q.len).length = q.len)
    (hpair : ps.Pairwise fun p q => overlap (p.pa.getD 0) p.len (q.pa.getD 0) q.len = false) :
    ∀ p, p ∈ ps → ∀ a, p.pa = some a → (ps.foldl (piecePut bs) s).phys a p.len = slice bs p.off p.len := by
  induction ps generalizing s with
  | nil => exact fun p hp => absurd hp List.not_mem_nil
  | cons q ps ih =>
    obtain ⟨hq, hpair⟩ := List.pairwise_cons.1 hpair
    intro p hp a ha
    have hrest : ∀ r, r ∈ ps → (∃ c, r.pa = some c) ∧ (slice bs r.off r.len).length = r.len := fun r hr => hps r (List.mem_cons_of_mem _ hr)
    obtain rfl | hp := List.mem_cons.1 hp
    · obtain ⟨-, hl⟩ := hps p List.mem_cons_self
      rw [List.foldl_cons, foldl_piecePut_other fun r hr => ⟨(hrest r hr).1, (hrest r hr).2, by simpa [ha] using hq r hr⟩]
      unfold State.phys
      rw [piecePut_bytes ha hl]
      have hread := readN_writeN s.mem.bytes a (slice bs p.off p.len)
      rw [hl] at hread
      exact hread
    · exact ih hrest hpair p hp a ha

/-! COPY_IN (04 R94, 05 R135). -/

theorem hostRead_length {v a n : Nat} {d : List Byte} (h : s.hostRead v a n = some d) : d.length = n := by
  unfold State.hostRead at h
  split at h
  · exact absurd h (by simp)
  · obtain rfl := Option.some.inj h
    exact readN_length ..

theorem length_slice {α : Type} {l : List α} {off n : Nat} (h : off + n ≤ l.length) : (slice l off n).length = n := by
  unfold slice
  rw [List.length_take, List.length_drop]
  omega

/-- Piece `p` cannot be written: its line refuses it, or it lies in no memory. -/
def lineRefused (s : State) (p : Piece) : Bool :=
  match p.pa with
  | some a => ((s.line a).writeFault (p.len == 128)).isSome
  | none => true

theorem lineRefused_none {ps : List Piece} (hps : ∀ p, p ∈ ps → ∃ a, p.pa = some a ∧ (s.line a).writeFault (p.len == 128) = none) :
    ¬ ps.any (lineRefused s) = true := by
  intro hany
  obtain ⟨p, hp, hf⟩ := List.any_eq_true.1 hany
  obtain ⟨a, ha, hnone⟩ := hps p hp
  unfold lineRefused at hf
  rw [ha] at hf
  simp [hnone] at hf

theorem copyIn_writes {d : List Byte} {ps : List Piece} (h : packetAt 0x05 b s) (hbad : copyBad b = false)
    (hown : (s.mq s.ev.a).mcxOk (operand b 32 2) = true) (hprot : s.protectedRuns (operand b 32 2) = false)
    (hread : s.hostRead (s.mq s.ev.a).fn (operand b 40 8) (operand b 36 4) = some d)
    (hcut : cutAccess s (s.mcxWho (operand b 32 2)) true (operand b 48 8) (operand b 36 4) = .ok ps)
    (hps : ∀ p, p ∈ ps → ∃ a, p.pa = some a ∧ (s.line a).writeFault (p.len == 128) = none)
    (hpair : ps.Pairwise fun p q => overlap (p.pa.getD 0) p.len (q.pa.getD 0) q.len = false ∧ p.pa.getD 0 / 128 ≠ q.pa.getD 0 / 128) :
    ∃ t, exec .copyIn s = .next t ∧ completes 0 b s t ∧ ∀ p, p ∈ ps → ∀ a, p.pa = some a → t.phys a p.len = slice d p.off p.len := by
  have hread' : (packetTaken b s).hostRead (packetCmd b s).fn (leAt (packetCmd b s).packet 40 8) (leAt (packetCmd b s).packet 36 4) = some d :=
    hread
  have hcut' : cutAccess (packetTaken b s) ((packetTaken b s).mcxWho (leAt (packetCmd b s).packet 32 2)) true
      (leAt (packetCmd b s).packet 48 8) (leAt (packetCmd b s).packet 36 4) = .ok ps := (cutAccess_taken ..).trans hcut
  obtain ⟨t, ht, hc, hr⟩ := command_completes (i := .copyIn) (r := execCopyIn s) (status := 0) (u := (packetTaken b s).writeLines ps d none)
    h.1 (packetAt_mayTake h) rfl rfl rfl (isOp_packet h.1) hbad (by
      refine (if_neg (by simpa [operand] using ⟨hown, hprot⟩)).trans ?_
      rw [hread']
      dsimp only
      rw [hcut']
      exact if_neg (lineRefused_none (s := packetTaken b s) hps))
    ((atWork_taken h.1 (by decide)).hostKept (.of_memOnly (memOnly_writeLines ..)))
  refine ⟨t, ht, hc, ?_⟩
  have hphys (a n : Nat) : t.phys a n = ((packetTaken b s).writeLines ps d none).phys a n := by
    unfold State.phys
    rw [hr.bytes]
  have hlen := hostRead_length hread
  intro p hp a ha
  rw [hphys, writeLines_eq]
  refine foldl_piecePut_phys (fun q hq => ⟨?_, length_slice ?_⟩) (hpair.imp And.left) p hp a ha
  · obtain ⟨c, hc, -⟩ := hps q hq
    exact ⟨c, hc⟩
  · have := cut_inside hcut q hq
    omega

/-! COPY_OUT (05 R135, 08 R239). -/

/-- Piece `p` would read a segment that is BAD, or no memory. -/
def segBad (s : State) (p : Piece) : Bool :=
  match p.pa with
  | some a => s.segWaits a == some true
  | none => true

/-- The address at which piece `p` waits for its segment. -/
def segLoading (s : State) (p : Piece) : Option Nat :=
  match p.pa with
  | some a => if s.segWaits a == some false then some a else none
  | none => none

section
variable {ps : List Piece}

theorem segBad_none (hps : ∀ p, p ∈ ps → ∃ a, p.pa = some a ∧ s.segWaits a ≠ some true) : ¬ ps.any (segBad s) = true := by
  intro hany
  obtain ⟨p, hp, hf⟩ := List.any_eq_true.1 hany
  obtain ⟨a, ha, hne⟩ := hps p hp
  unfold segBad at hf
  rw [ha] at hf
  exact hne (beq_iff_eq.1 hf)

theorem segLoading_some {p : Piece} {a : Nat} (hp : p ∈ ps) (ha : p.pa = some a) (hseg : s.segWaits a = some false) :
    ∃ c, ps.findSome? (segLoading s) = some c := by
  refine Option.isSome_iff_exists.1 (List.findSome?_isSome_iff.2 ⟨p, hp, ?_⟩)
  unfold segLoading
  rw [ha]
  simp [hseg]

/-- Piece `p` may leave the part and is read at once: present, tagged for all or ciphertext, not counted, neither poisoned nor a tombstone. -/
def Exports (s : State) (p : Piece) : Prop :=
  ∃ a, p.pa = some a ∧ s.segWaits a = none ∧ (p.x.tag = 0x3FFF ∨ (s.line a).cipher = true) ∧ p.x.cn = false ∧
    (s.line a).poison = false ∧ (s.line a).tomb = false

theorem Exports.present {p : Piece} (h : Exports s p) : ∃ a, p.pa = some a ∧ s.segWaits a ≠ some true := by
  obtain ⟨a, ha, hseg, -⟩ := h
  exact ⟨a, ha, by simp [hseg]⟩

theorem exports_segLoading (hps : ∀ p, p ∈ ps → Exports s p) : ps.findSome? (segLoading s) = none := by
  refine List.findSome?_eq_none_iff.2 fun p hp => ?_
  obtain ⟨a, ha, hseg, -⟩ := hps p hp
  unfold segLoading
  rw [ha]
  simp [hseg]

theorem exports_allowed (hps : ∀ p, p ∈ ps → Exports s p) :
    ¬ (ps.any fun p => p.x.tag != 0x3FFF && !(s.line (p.pa.getD 0)).cipher) = true := by
  intro hany
  obtain ⟨p, hp, hf⟩ := List.any_eq_true.1 hany
  obtain ⟨a, ha, -, hform, -⟩ := hps p hp
  rw [ha] at hf
  obtain ht | hc := hform
  · simp [ht] at hf
  · simp [hc] at hf

/-- Such pieces are read as they stand. -/
theorem copyOutLines_exports (hps : ∀ p, p ∈ ps → Exports s p) :
    copyOutLines ps s = (s, ps.flatMap fun p => s.phys (p.pa.getD 0) p.len, true) := by
  induction ps with
  | nil => rfl
  | cons p ps ih =>
    obtain ⟨a, ha, -, -, hcn, hpoison, htomb⟩ := hps p List.mem_cons_self
    have hconsume : s.consume (p.pa.getD 0) p.x.cn = s := by
      unfold State.consume
      rw [hcn]
      rfl
    unfold copyOutLines
    dsimp only
    rw [if_neg (by simp [ha, hpoison, htomb]), hconsume, ih fun q hq => hps q (List.mem_cons_of_mem _ hq)]
    rfl

end

/-! The Skidder leaves host memory and the host interface alone. -/

/-- Host memory and the host interface are as they were. -/
structure HostSame (s t : State) : Prop where
  hif : t.hif = s.hif
  host : t.mem.host = s.mem.host

theorem HostSame.trans (h : HostSame s t) (k : HostSame t u) : HostSame s u := ⟨k.hif.trans h.hif, k.host.trans h.host⟩

theorem hostSame_setSeg (i : Nat) (e : Segment) : HostSame s (s.setSeg i e) := by
  unfold State.setSeg
  dsimp only
  split
  · exact ⟨rfl, rfl⟩
  · exact ⟨rfl, rfl⟩

theorem hostSame_segLoad (i : Nat) (fromPeer retried : Bool) : HostSame s (s.segLoad i fromPeer retried) := by
  unfold State.segLoad
  dsimp only
  split
  · split
    · split
      · exact ⟨(hostSame_setSeg ..).hif, (hostSame_setSeg ..).host⟩
      · exact ⟨(hostSame_setSeg ..).hif, (hostSame_setSeg ..).host⟩
    · exact ⟨(hostSame_setSeg ..).hif, (hostSame_setSeg ..).host⟩
  · exact ⟨(hostSame_setSeg ..).hif, (hostSame_setSeg ..).host⟩

theorem hostSame_skidRun (l : List Nat) (s : State) : HostSame s (skidRun l s) := by
  induction l generalizing s with
  | nil => exact ⟨rfl, rfl⟩
  | cons i l ih =>
    unfold skidRun
    split
    · exact ⟨rfl, rfl⟩
    · refine HostSame.trans ?_ (ih _)
      split
      · exact hostSame_segLoad ..
      · exact ⟨rfl, rfl⟩

theorem hostSame_hurry (pa : Nat) : HostSame s (s.hurry pa) := by
  unfold State.hurry
  split
  · split
    · exact ⟨(hostSame_skidRun ..).hif, (hostSame_skidRun ..).host⟩
    · exact ⟨rfl, rfl⟩
  · exact ⟨rfl, rfl⟩

section
variable {ps : List Piece} (h : packetAt 0x06 b s) (hbad : copyBad b = false)
  (hown : (s.mq s.ev.a).mcxOk (operand b 32 2) = true) (hprot : s.protectedRuns (operand b 32 2) = false)
  (hcut : cutAccess s (s.mcxWho (operand b 32 2)) false (operand b 48 8) (operand b 36 4) = .ok ps)
include hcut

theorem copyOut_cut : cutAccess (packetTaken b s) ((packetTaken b s).mcxWho (leAt (packetCmd b s).packet 32 2)) false
    (leAt (packetCmd b s).packet 48 8) (leAt (packetCmd b s).packet 36 4) = .ok ps := (cutAccess_taken ..).trans hcut

include h hbad hown hprot

/-- Whether a COPY_OUT at the head of its queue waits depends on its pieces alone. -/
theorem copyOutWaits_pieces (hps : ∀ p, p ∈ ps → ∃ a, p.pa = some a ∧ s.segWaits a ≠ some true) :
    s.copyOutWaits s.ev.a = ps.findSome? (segLoading s) := by
  unfold State.copyOutWaits
  rw [takePacket_takes h.1 (packetAt_mayTake h) (isOp_packet h.1)]
  obtain ⟨⟨hs, -, -, -, -, -, -, hal, hres, hclass, -⟩, -, -⟩ := h
  have hmin : (packetTaken b s).minimal = false := minimal_of_served hs
  have hclass' : classOk (takenMq s) 6 = true := hclass
  dsimp only
  rw [copyOut_cut hcut]
  dsimp only
  rw [packetTaken_mq]
  refine (if_neg ?_).trans (if_neg (segBad_none hps))
  simpa [hal, hres, hbad, hmin, hclass', operand] using ⟨hown, hprot⟩

theorem copyOut_hurries {p : Piece} {a : Nat} (hps : ∀ p, p ∈ ps → ∃ a, p.pa = some a ∧ s.segWaits a ≠ some true) (hp : p ∈ ps)
    (ha : p.pa = some a) (hseg : s.segWaits a = some false) : ∃ t, exec .copyOut s = .next t ∧
      (t.mq s.ev.a).head = (s.mq s.ev.a).head ∧ t.hif.cmds = s.hif.cmds ∧ t.mem.host = s.mem.host := by
  obtain ⟨c, hc⟩ := segLoading_some hp ha hseg
  have hrun : exec .copyOut s = .next (s.hurry c) := by
    change execCopyOut s = _
    unfold execCopyOut
    rw [copyOutWaits_pieces h hbad hown hprot hcut hps, hc]
  have hk := hostSame_hurry (s := s) c
  refine ⟨_, hrun, ?_, by rw [hk.hif], hk.host⟩
  unfold State.mq
  rw [hk.hif]

/-- The bytes have gone to the host. -/
theorem copyOut_copies (hps : ∀ p, p ∈ ps → Exports s p)
    (hwrite : (s.hostRead (s.mq s.ev.a).fn (operand b 40 8) (operand b 36 4)).isSome = true)
    (hu : AtWork b s ((packetTaken b s).hostWrite (s.mq s.ev.a).fn (operand b 40 8) (ps.flatMap fun p => s.phys (p.pa.getD 0) p.len))) :
    exec .copyOut s = .next (((packetTaken b s).hostWrite (s.mq s.ev.a).fn (operand b 40 8)
      (ps.flatMap fun p => s.phys (p.pa.getD 0) p.len)).complete (packetCmd b s) 0 0) := by
  have hwaits : s.copyOutWaits s.ev.a = none :=
    (copyOutWaits_pieces h hbad hown hprot hcut fun p hp => (hps p hp).present).trans (exports_segLoading hps)
  have hps' : ∀ p, p ∈ ps → Exports (packetTaken b s) p := hps
  have hwrite' : (packetTaken b s).hostWriteOk (s.mq s.ev.a).fn (leAt b 40 8) (leAt b 36 4) = true := hwrite
  refine command_completion (i := .copyOut) (r := execCopyOut s) (status := 0) h.1 (packetAt_mayTake h) rfl
    (by unfold execCopyOut; rw [hwaits]) rfl (isOp_packet h.1) hbad ?_ hu
  refine (if_neg (by simpa [operand] using ⟨hown, hprot⟩)).trans ?_
  rw [copyOut_cut hcut]
  refine (if_neg (segBad_none fun p hp => (hps' p hp).present)).trans ((if_neg (exports_allowed hps')).trans
    ((if_neg (by simp [hwrite'])).trans ?_))
  rw [copyOutLines_exports hps']
  rfl

theorem copyOut_reads (hps : ∀ p, p ∈ ps → Exports s p)
    (hwrite : (s.hostRead (s.mq s.ev.a).fn (operand b 40 8) (operand b 36 4)).isSome = true) :
    ∃ t, exec .copyOut s = .next t ∧ takesPacket s t ∧ t.mem.bytes = s.mem.bytes ∧
      (leAt b 8 8 = 0 → leAt b 16 8 = 0 → ∀ d, d = (ps.flatMap fun p => s.phys (p.pa.getD 0) p.len) →
        Memory.readN t.mem.host (hostKey (s.mq s.ev.a).fn (operand b 40 8)) d.length = d) := by
  have hw := atWork_taken h.1 (by decide)
  have hu := hw.reported (reported_hostWrite (s := packetTaken b s) (s.mq s.ev.a).fn (operand b 40 8)
    (ps.flatMap fun p => s.phys (p.pa.getD 0) p.len))
  have hr := reported_complete hu.noUnbind (packetCmd b s) 0 0
  refine ⟨_, copyOut_copies h hbad hown hprot hcut hps hwrite hu, takesPacket_of_mqs (hu.reported hr).mqs, ?_, fun hcrec hsig d hd => ?_⟩
  · rw [hr.bytes, (reported_hostWrite ..).bytes]
    rfl
  · rw [complete_silent hu.noUnbind hcrec hsig, hostWrite_host hw.up, hd]
    exact readN_writeN ..

end

end
end Sys2Proof.Proofs
end

section
/-! KEY_IMPORT, the queues and functions, and PARTITION_SET (O41). -/
namespace Sys2Proof.Proofs
open Sys2Proof Sys2Proof.Machine Sys2Proof.Laws Sys2Proof.Stated

section
variable {s t u : State} {b : List Byte}

theorem Reported.keySlotAt (h : Reported s t) (k : Nat) : t.keySlotAt k = s.keySlotAt k := by
  unfold State.keySlotAt
  rw [h.prot]

theorem Reported.part (h : Reported s t) (p : Nat) : t.part p = s.part p := by
  unfold State.part
  rw [h.prot]

/-! KEY_IMPORT (05 R126 R141). -/

/-- The Vault's request has ended: a strike is over. -/
def vaultCalm (s : State) : State := { s with prot := { s.prot with vault := { s.prot.vault with struck := false } } }

theorem vaultCalm_eq (h : s.prot.vault.struck = false) : vaultCalm s = s := by
  unfold vaultCalm
  rw [← h]

theorem slice_append_left {α : Type} {l r : List α} {off n : Nat} (h : off + n ≤ l.length) : slice (l ++ r) off n = slice l off n := by
  unfold slice
  rw [List.drop_append_of_le_length (by omega), List.take_append_of_le_length (by rw [List.length_drop]; omega)]

/-- A handle's partition stands in its first eight bytes. -/
theorem hdPart_mint {h nonce : List Byte} (hl : h.length = 32) : hdPart (h.take 8 ++ nonce) = hdPart h := by
  have htake : (h.take 8).length = 8 := by
    rw [List.length_take]
    omega
  have hsplit : leAt h 3 1 = leAt (h.take 8) 3 1 := by
    unfold leAt
    conv_lhs => rw [← List.take_append_drop 8 h]
    rw [slice_append_left (by omega)]
  unfold hdPart
  rw [hsplit]
  unfold leAt
  rw [slice_append_left (by omega)]

/-- A KEY_IMPORT in which the Vault was not struck, for slot `k` and a handle `h` from address `a`: refused by a check, an import, or a
minting, whose handle goes back. -/
def importWork (s : State) (c : Cmd) (k a part : Nat) (h : List Byte) : State :=
  if s.importStatus k h part ((h.drop 8).all (· == 0)) != 0 then s.complete c (s.importStatus k h part ((h.drop 8).all (· == 0))) 0
  else if !((h.drop 8).all (· == 0)) then (s.loadKey k h).complete c 0 0
  else
    let h' := h.take 8 ++ (s.random 8).1
    let h' := h' ++ (s.random 8).2.prot.vault.handleTag h'
    (((s.random 8).2.loadKey k h').hostWrite c.fn a h').complete c 0 0

section
variable {h : List Byte} (hp : packetAt 0x07 b s) (hread : s.hostRead (s.mq s.ev.a).fn (operand b 40 8) 32 = some h)
include hp hread

theorem keyImport_struck (hs : s.prot.vault.struck = true) : ∃ t, exec .keyImport s = .next t ∧ completes 11 b s t ∧
    t.prot.vault.slots = s.prot.vault.slots ∧ t.prot.vault.struck = false := by
  have hread' : (packetTaken b s).hostRead (packetCmd b s).fn (leAt (packetCmd b s).packet 40 8) 32 = some h := hread
  obtain ⟨t, ht, hc, hr⟩ := command_completes (i := .keyImport) (r := execKeyImport s) (status := 11) (u := vaultCalm (packetTaken b s)) hp.1
    (packetAt_mayTake hp) rfl rfl rfl (isOp_packet hp.1) rfl (by
      rw [hread']
      exact if_pos hs) ((atWork_taken hp.1 (by decide)).hostKept ⟨rfl, rfl⟩)
  refine ⟨t, ht, hc, ?_⟩
  rw [hr.prot]
  exact ⟨rfl, rfl⟩

section
variable (hs : s.prot.vault.struck = false)
include hs

theorem keyImport_works {u : State} {st : Nat}
    (hbody : importWork (packetTaken b s) (packetCmd b s) (operand b 32 2) (operand b 40 8) (s.mq s.ev.a).part h =
      u.complete (packetCmd b s) st 0)
    (hu : AtWork b s u) : ∃ t, exec .keyImport s = .next t ∧ completes st b s t ∧ Reported u t := by
  have hread' : (packetTaken b s).hostRead (packetCmd b s).fn (leAt (packetCmd b s).packet 40 8) 32 = some h := hread
  have hcalm : (packetTaken b s).vaultDone = (false, packetTaken b s) := by
    have hstruck : (packetTaken b s).prot.vault.struck = false := hs
    exact Prod.ext hstruck (vaultCalm_eq hstruck)
  have hok : (packetTaken b s).hostWriteOk (packetCmd b s).fn (leAt (packetCmd b s).packet 40 8) 32 = true := by
    unfold State.hostWriteOk
    rw [hread']
    rfl
  refine command_completes (i := .keyImport) (r := execKeyImport s) (status := st) hp.1 (packetAt_mayTake hp) rfl rfl rfl (isOp_packet hp.1)
    rfl ?_ hu
  rw [← hbody, hread']
  dsimp only
  rw [hcalm]
  dsimp only
  rw [if_neg (by decide), hok]
  rfl

theorem keyImport_refused {st : Nat} (hst : s.importStatus (operand b 32 2) h (s.mq s.ev.a).part ((h.drop 8).all (· == 0)) = st) (hne : st ≠ 0) :
    ∃ t, exec .keyImport s = .next t ∧ completes st b s t ∧ t.prot = s.prot := by
  have hst' : (packetTaken b s).importStatus (operand b 32 2) h (s.mq s.ev.a).part ((h.drop 8).all (· == 0)) = st := hst
  obtain ⟨t, ht, hc, hr⟩ := keyImport_works hp hread hs (u := packetTaken b s) (st := st) (by
    unfold importWork
    rw [hst', if_pos (bne_iff_ne.2 hne)]) (atWork_taken hp.1 (by decide))
  exact ⟨t, ht, hc, hr.prot⟩

theorem keyImport_imports (hmint : (h.drop 8).all (· == 0) = false)
    (hst : s.importStatus (operand b 32 2) h (s.mq s.ev.a).part false = 0) : ∃ t, exec .keyImport s = .next t ∧ completes 0 b s t ∧
      (t.keySlotAt (operand b 32 2)).st = 1 ∧ (t.keySlotAt (operand b 32 2)).key = s.prot.vault.slotKey h ∧
      (t.keySlotAt (operand b 32 2)).part = hdPart h ∧ (t.keySlotAt (operand b 32 2)).mcx = hdMcx h := by
  obtain ⟨t, ht, hc, hr⟩ := keyImport_works hp hread hs (u := (packetTaken b s).loadKey (operand b 32 2) h) (st := 0)
    (by
      have hst' : (packetTaken b s).importStatus (operand b 32 2) h (s.mq s.ev.a).part false = 0 := hst
      unfold importWork
      rw [hmint, hst']
      rfl) ((atWork_taken hp.1 (by decide)).hostKept ⟨rfl, rfl⟩)
  refine ⟨t, ht, hc, ?_⟩
  rw [hr.keySlotAt, State.loadKey, keySlotAt_setKeySlot]
  exact ⟨rfl, rfl, rfl, rfl⟩

theorem keyImport_mints (hmint : (h.drop 8).all (· == 0) = true) (hst : s.importStatus (operand b 32 2) h (s.mq s.ev.a).part true = 0) :
    ∃ t, exec .keyImport s = .next t ∧ takesPacket s t ∧ (t.keySlotAt (operand b 32 2)).st = 1 ∧
      (t.keySlotAt (operand b 32 2)).part = hdPart h := by
  have hw (k : Nat) (d : List Byte) (fn a : Nat) : AtWork b s ((((packetTaken b s).random 8).2.loadKey k d).hostWrite fn a d) :=
    ((atWork_taken hp.1 (by decide)).hostKept (u := ((packetTaken b s).random 8).2.loadKey k d) ⟨rfl, rfl⟩).reported (reported_hostWrite ..)
  obtain ⟨t, ht, hc, hr⟩ := keyImport_works hp hread hs (st := 0) (by
    have hst' : (packetTaken b s).importStatus (operand b 32 2) h (s.mq s.ev.a).part true = 0 := hst
    unfold importWork
    rw [hmint, hst']
    rfl) (hw ..)
  refine ⟨t, ht, hc.1, ?_⟩
  rw [hr.keySlotAt, (reported_hostWrite ..).keySlotAt, State.loadKey, keySlotAt_setKeySlot]
  refine ⟨rfl, ?_⟩
  dsimp only
  rw [List.append_assoc]
  exact hdPart_mint (hostRead_length hread)

end

end

/-! QUEUE_BIND, QUEUE_UNBIND, VF_SETUP (04 R102 R107). -/

theorem AtWork.hostOnly (h : AtWork b s t) (k : HostOnly t u) (hmqs : u.hif.mqs = t.hif.mqs) : AtWork b s u where
  mqs := hmqs.trans h.mqs
  noUnbind := fun d hd => h.noUnbind d (k.cmds.subset hd)
  up := by rw [k.hostUp, h.up]

theorem leAt_slice (l : List Byte) (o k off n : Nat) (h : off + n ≤ k) : leAt (slice l o k) off n = leAt l (o + off) n := by
  unfold leAt slice
  rw [List.drop_take, List.drop_drop, List.take_take, Nat.min_eq_left (by omega)]

/-- Queue `q` bound to function `fn`, its privileged bytes written. -/
def queueBound (s : State) (q fn qcb : Nat) (priv : List Byte) : State :=
  (s.hostWrite fn (qcb + 32) priv).modSt2 q fun e => { v := true, fn := fn, qcb := qcb, digest := qcbDigest q priv, kept := e.kept }

theorem queueBind_binds (h : packetAt 0x20 b s) (hbad : privBad b = false) (hlo : (s.fn (operand b 48 2)).vqBase ≤ operand b 32 4)
    (hhi : operand b 32 4 < (s.fn (operand b 48 2)).vqBase + (s.fn (operand b 48 2)).vqCount) (hv : (s.st2 (operand b 32 4)).v = false)
    (hwrite : (s.hostRead (operand b 48 2) (operand b 40 8 + 32) 16).isSome = true) :
    ∃ t, exec .queueBind s = .next t ∧ takesPacket s t ∧ (t.st2 (operand b 32 4)).v = true ∧ (t.st2 (operand b 32 4)).fn = operand b 48 2 ∧
      (t.st2 (operand b 32 4)).qcb = operand b 40 8 ∧ (t.st2 (operand b 32 4)).digest = qcbDigest (operand b 32 4) (slice b 48 16) := by
  have hfn : leAt (slice (packetCmd b s).packet 48 16) 0 2 = operand b 48 2 := leAt_slice b 48 16 0 2 (by omega)
  have hwrite' : (packetTaken b s).hostWriteOk (operand b 48 2) (operand b 40 8 + 32) 16 = true := hwrite
  have hu : AtWork b s (queueBound (packetTaken b s) (operand b 32 4) (operand b 48 2) (operand b 40 8) (slice b 48 16)) :=
    ((atWork_taken h.1 (by decide)).reported (reported_hostWrite ..)).hostOnly (hostOnly_modSt2 ..) rfl
  obtain ⟨t, ht, hc, hr⟩ := command_completes (i := .queueBind) (r := execQueueBind s) (status := 0) h.1 (packetAt_mayTake h) rfl rfl rfl
    (isOp_packet h.1) hbad (by
      dsimp only
      rw [hfn]
      refine (if_neg ?_).trans ((if_neg ?_).trans rfl)
      · change ¬ (decide (operand b 32 4 < (s.fn (operand b 48 2)).vqBase) ||
          decide ((s.fn (operand b 48 2)).vqBase + (s.fn (operand b 48 2)).vqCount ≤ operand b 32 4) || (s.st2 (operand b 32 4)).v) = true
        simp [hlo, hhi, hv]
      · change ¬ (!(packetTaken b s).hostWriteOk (operand b 48 2) (operand b 40 8 + 32) 16) = true
        simp [hwrite']) hu
  refine ⟨t, ht, hc.1, ?_⟩
  rw [hr.st2, queueBound, st2_modSt2]
  exact ⟨rfl, rfl, rfl, rfl⟩

/-- The queue that a QUEUE_UNBIND names takes no more packets. -/
def queueStopping (s : State) (q : Nat) : State := s.modSt2 q fun e => { e with stopping := true }

/-- The entry of `c`'s queue, whose last command it is, has cleared with its completion. -/
def unbound (s : State) (c : Cmd) : State :=
  let t := (s.unmap (leAt c.packet 32 4)).finishCmd c 0 0 { start := c.startAt }
  { t with hif := { t.hif with stage2 := SMap.drop t.hif.stage2 (leAt c.packet 32 4) } }

/-- Command `c` is a QUEUE_UNBIND whose queue has no other command in progress. -/
def unbindReady (s : State) (c : Cmd) : Bool :=
  c.op == 0x21 && (s.st2 (leAt c.packet 32 4)).stopping && !(s.hif.cmds.any fun d => d.vqn == leAt c.packet 32 4 && d.id != c.id)

theorem settleUnbind_ready {c : Cmd} (hc : s.hif.cmds.find? (unbindReady s) = some c) (n : Nat) :
    s.settleUnbind (n + 1) = (unbound s c).settleUnbind n := by
  conv_lhs => unfold State.settleUnbind
  split
  · next d e =>
    obtain rfl : d = c := Option.some.inj (e.symm.trans hc)
    rfl
  · next e => exact absurd (e.symm.trans hc) (by simp)

theorem settleUnbind_waits (hc : s.hif.cmds.find? (unbindReady s) = none) (n : Nat) : s.settleUnbind n = s := by
  cases n with
  | zero => rfl
  | succ n =>
    unfold State.settleUnbind
    split
    · next d e => exact absurd (e.symm.trans hc) (by simp)
    · rfl

theorem unmap_reload {m : Nat} (h : (s.mq m).reload = none) (q : Nat) : ((s.unmap q).mq m).reload = none := by
  unfold State.unmap
  split
  · exact h
  · next k _ =>
    change (SMap.get (SMap.drop s.hif.mqs k) m {}).reload = none
    by_cases hm : m = k
    · rw [hm, get_drop_same]
    · rw [get_drop_other _ _ hm]
      exact h

theorem unbound_reload {m : Nat} (h : (s.mq m).reload = none) (c : Cmd) : ((unbound s c).mq m).reload = none := by
  have hr := reported_finishCmd (s := s.unmap (leAt c.packet 32 4)) c 0 0 { start := c.startAt }
  change ((State.finishCmd _ c 0 0 { start := c.startAt }).mq m).reload = none
  rw [hr.mq]
  exact unmap_reload h _

theorem unbound_st2 (c : Cmd) : (unbound s c).st2 (leAt c.packet 32 4) = {} := get_drop_same ..

theorem unmap_cmds (q : Nat) : (s.unmap q).hif.cmds = s.hif.cmds := by
  unfold State.unmap
  split <;> rfl

theorem mem_unbound {c d : Cmd} (h : d ∈ (unbound s c).hif.cmds) : d ∈ s.hif.cmds ∧ d.id ≠ c.id := by
  have hd : d ∈ ((s.unmap (leAt c.packet 32 4)).finishCmd c 0 0 { start := c.startAt }).hif.cmds := h
  refine ⟨?_, finishCmd_gone hd⟩
  rw [← unmap_cmds]
  exact (reported_finishCmd ..).cmds.subset hd

theorem stopping_stopped (q : Nat) : ((queueStopping s q).st2 q).stopping = true := congrArg Stage2.stopping (st2_modSt2 ..)

section
variable (h : packetAt 0x21 b s)
include h

theorem queueUnbind_runs {u : State}
    (hu : (queueStopping (packetTaken b s) (operand b 32 4)).settleUnbind (s.hif.cmds.length + 1) = u) (hr : (u.mq s.ev.a).reload = none) :
    exec .queueUnbind s = .next u := by
  have hrun : execQueueUnbind s = .next u := runCmd_runs h.1 (packetAt_mayTake h) rfl (isOp_packet h.1) rfl (by
    have hlen : (packetTaken b s).hif.cmds.length = s.hif.cmds.length + 1 := List.length_append
    rw [hlen]
    exact hu) hr
  exact (show exec .queueUnbind s = execQueueUnbind s from rfl).trans hrun

/-- Among the commands in progress only the new one is a QUEUE_UNBIND. -/
theorem find_unbindReady : (queueStopping (packetTaken b s) (operand b 32 4)).hif.cmds.find?
      (unbindReady (queueStopping (packetTaken b s) (operand b 32 4))) =
    [packetCmd b s].find? (unbindReady (queueStopping (packetTaken b s) (operand b 32 4))) := by
  obtain ⟨⟨-, -, -, -, -, -, -, -, -, -, hd⟩, -⟩ := h
  change (s.hif.cmds ++ [packetCmd b s]).find? _ = _
  rw [List.find?_append, List.find?_eq_none.2, Option.none_or]
  intro d hd'
  simp [unbindReady, hd d hd']

theorem queueUnbind_clears (hcmds : ∀ d, d ∈ s.hif.cmds → d.vqn ≠ operand b 32 4 ∧ d.id < s.hif.nextCmd) :
    ∃ t, exec .queueUnbind s = .next t ∧ t.st2 (operand b 32 4) = {} := by
  obtain ⟨-, -, -, -, -, ho, -, -, -, -, hold⟩ := h.1
  have hready : unbindReady (queueStopping (packetTaken b s) (operand b 32 4)) (packetCmd b s) = true := by
    have hop : (packetCmd b s).op = 0x21 := ho
    have hstop : ((queueStopping (packetTaken b s) (operand b 32 4)).st2 (leAt (packetCmd b s).packet 32 4)).stopping = true :=
      stopping_stopped _
    have hothers : ((s.hif.cmds ++ [packetCmd b s]).any fun d => d.vqn == operand b 32 4 && d.id != (packetCmd b s).id) = false := by
      rw [List.any_append, Bool.or_eq_false_iff]
      exact ⟨List.any_eq_false.2 fun d hd => by simp [(hcmds d hd).1], by simp⟩
    unfold unbindReady
    rw [hop, hstop]
    exact congrArg (!·) hothers
  have hnone : ∀ d, d ∈ (unbound (queueStopping (packetTaken b s) (operand b 32 4)) (packetCmd b s)).hif.cmds → d.op ≠ 0x21 := by
    intro d hd
    obtain ⟨hin, hne⟩ := mem_unbound hd
    obtain hin | hin := List.mem_append.1 (show d ∈ s.hif.cmds ++ [packetCmd b s] from hin)
    · exact hold d hin
    · exact absurd (congrArg Cmd.id (List.mem_singleton.1 hin)) hne
  have hfind := (find_unbindReady h).trans (List.find?_cons_of_pos hready)
  refine ⟨_, queueUnbind_runs h ?_ (unbound_reload (s := queueStopping (packetTaken b s) (operand b 32 4)) ?_ (packetCmd b s)),
    unbound_st2 (packetCmd b s)⟩
  · rw [settleUnbind_ready hfind, settleUnbind_none hnone]
  · exact reload_of_mqs (b := b) rfl h.1

theorem queueUnbind_waits (hcmds : ∃ d, d ∈ s.hif.cmds ∧ d.vqn = operand b 32 4 ∧ d.id < s.hif.nextCmd) :
    ∃ t, exec .queueUnbind s = .next t ∧ (t.st2 (operand b 32 4)).stopping = true := by
  obtain ⟨d, hd, hq, hid⟩ := hcmds
  have hready : unbindReady (queueStopping (packetTaken b s) (operand b 32 4)) (packetCmd b s) = false := by
    have hothers : ((s.hif.cmds ++ [packetCmd b s]).any fun d => d.vqn == operand b 32 4 && d.id != (packetCmd b s).id) = true := by
      refine List.any_eq_true.2 ⟨d, List.mem_append_left _ hd, ?_⟩
      have hne : d.id ≠ (packetCmd b s).id := Nat.ne_of_lt hid
      simp [hq, hne]
    have hothers' : (!((queueStopping (packetTaken b s) (operand b 32 4)).hif.cmds.any fun d =>
        d.vqn == leAt (packetCmd b s).packet 32 4 && d.id != (packetCmd b s).id)) = false := congrArg (!·) hothers
    unfold unbindReady
    rw [hothers', Bool.and_false]
  have hfind := (find_unbindReady h).trans (List.find?_singleton.trans (if_neg (by simp [hready])))
  refine ⟨_, queueUnbind_runs h (settleUnbind_waits hfind _) ?_, stopping_stopped _⟩
  exact reload_of_mqs (b := b) rfl h.1

end

/-- Function `v` with the range of VQNs that a VF_SETUP gives it. -/
def vfRanged (s : State) (v base count : Nat) : State := s.modFn v fun r => { r with vqBase := base, vqCount := count }

theorem vfRanged_hostUp (v base count w : Nat) : (vfRanged s v base count).hostUp w = s.hostUp w := by
  have henabled : ((vfRanged s v base count).fn w).enabled = (s.fn w).enabled := by
    unfold vfRanged
    rw [fn_modFn_ite]
    split
    · next e => rw [e]
    · rfl
  unfold State.hostUp State.fnUp
  rw [henabled]
  rfl

theorem vfSetup_ranges (h : packetAt 0x22 b s) (hm : operand b 32 2 ≤ 64) (hend : operand b 36 2 + operand b 38 4 ≤ 65536)
    (hapart : ∀ w, w < 65 → w ≠ operand b 32 2 → overlap (operand b 36 2) (operand b 38 4) (s.fn w).vqBase (s.fn w).vqCount = false)
    (hunbound : ∀ e, e ∈ s.hif.stage2 → e.2.v = true → ¬ ((s.fn (operand b 32 2)).vqBase ≤ e.1 ∧
      e.1 < (s.fn (operand b 32 2)).vqBase + (s.fn (operand b 32 2)).vqCount)) :
    ∃ t, exec .vfSetup s = .next t ∧ completes 0 b s t ∧ (t.fn (operand b 32 2)).vqBase = operand b 36 2 ∧
      (t.fn (operand b 32 2)).vqCount = operand b 38 4 := by
  have hw := atWork_taken h.1 (by decide)
  have hu : AtWork b s (vfRanged (packetTaken b s) (operand b 32 2) (operand b 36 2) (operand b 38 4)) :=
    ⟨hw.mqs, hw.noUnbind, by rw [vfRanged_hostUp, hw.up]⟩
  obtain ⟨t, ht, hc, hr⟩ := command_completes (i := .vfSetup) (r := execVfSetup s) (status := 0) h.1 (packetAt_mayTake h) rfl rfl rfl
    (isOp_packet h.1) (decide_eq_false (Nat.not_lt.2 hm)) (by
      refine (if_neg ?_).trans rfl
      change ¬ (decide (65536 < operand b 36 2 + operand b 38 4) ||
        (List.range 65).any (fun w => w != operand b 32 2 && overlap (operand b 36 2) (operand b 38 4) (s.fn w).vqBase (s.fn w).vqCount) ||
        s.hif.stage2.any (fun e => e.2.v && decide ((s.fn (operand b 32 2)).vqBase ≤ e.1 ∧
          e.1 < (s.fn (operand b 32 2)).vqBase + (s.fn (operand b 32 2)).vqCount))) = true
      simp only [Bool.or_eq_true, decide_eq_true_eq, List.any_eq_true, List.mem_range, Bool.and_eq_true, bne_iff_ne]
      rintro ((hbig | ⟨w, hw, hne, ho⟩) | ⟨e, he, hv, hin⟩)
      · omega
      · exact absurd ho (by simp [hapart w hw hne])
      · exact hunbound e he hv hin) hu
  refine ⟨t, ht, hc, ?_⟩
  rw [hr.fn, vfRanged, fn_modFn]
  exact ⟨rfl, rfl⟩

/-! PARTITION_SET (05 R115 to R117). -/

theorem part_modPart (p : Nat) (g : Partition → Partition) : (s.modPart p g).part p = g (s.part p) := by
  unfold State.part State.modPart
  rw [get_upd, if_pos rfl]

theorem hostKept_modPart (p : Nat) (g : Partition → Partition) : HostKept s (s.modPart p g) := ⟨rfl, rfl⟩

theorem hostKept_dropPart (p : Nat) : HostKept s (s.dropPart p) := by
  unfold State.dropPart
  dsimp only
  split
  · exact ⟨rfl, rfl⟩
  · exact ⟨rfl, rfl⟩

/-- What a partition whose scrub has ended turns into. -/
inductive PartSettled (p : Nat) (s : State) : State → Prop
  | waits : PartSettled p s s
  | defined : (s.part p).st = 1 → PartSettled p s (s.modPart p fun d => { d with st := 2, cmd := none })
  | gone : (s.part p).st = 3 → PartSettled p s (s.dropPart p)

theorem settlePart_settled (h : ∀ d, d ∈ s.hif.cmds → d.op ≠ 0x21) (p : Nat) : ∃ v, PartSettled p s v ∧ HostKept s v ∧
    Reported v (s.settlePart p) := by
  have hdone (v : State) (o : Option Cmd) (hv : HostKept s v) :
      Reported v (match o with | some c => v.complete c 0 0 | none => v) := by
    cases o with
    | none => exact .refl v
    | some c => exact reported_complete (by rw [hv.hif]; exact h) c 0 0
  unfold State.settlePart
  extract_lets d v
  by_cases hc : ((d.st == 1 || d.st == 3) && !(s.partDirty p) &&
      !((List.range 4096).any fun k => d.st == 3 && d.owns 7 k && (s.keySlotAt k).st == 2)) = true
  · rw [if_pos hc]
    simp only [Bool.and_eq_true, Bool.or_eq_true, beq_iff_eq] at hc
    obtain ⟨⟨hst, -⟩, -⟩ := hc
    by_cases h1 : d.st = 1
    · have hv : v = s.modPart p fun d => { d with st := 2, cmd := none } := if_pos (by simp [h1])
      have hk : HostKept s v := by rw [hv]; exact ⟨rfl, rfl⟩
      exact ⟨v, hv ▸ .defined h1, hk, hdone v _ hk⟩
    · have hv : v = s.dropPart p := if_neg (by simp [h1])
      have hk : HostKept s v := by rw [hv]; exact hostKept_dropPart p
      exact ⟨v, hv ▸ .gone (hst.resolve_left h1), hk, hdone v _ hk⟩
  · rw [if_neg hc]
    exact ⟨s, .waits, .refl s, .refl s⟩

theorem dropPart_part (p : Nat) : (s.dropPart p).part p = {} := by
  have hprot : (s.dropPart p).prot.parts = SMap.drop s.prot.parts p := by
    unfold State.dropPart
    dsimp only
    split <;> rfl
  unfold State.part
  rw [hprot]
  exact get_drop_same ..

theorem modPart_eth (p : Nat) (g : Partition → Partition) : (s.modPart p g).eth = s.eth := rfl

theorem dropPart_addr (p : Nat) : (s.dropPart p).eth.addr = s.eth.addr := by
  unfold State.dropPart
  dsimp only
  split <;> rfl

theorem PartSettled.addr {p : Nat} (h : PartSettled p s t) : t.eth.addr = s.eth.addr := by
  cases h with
  | waits => rfl
  | defined => rfl
  | gone => exact dropPart_addr p

theorem PartSettled.defining {p : Nat} (h : PartSettled p s t) (hst : (s.part p).st = 1) :
    ((t.part p).st = 1 ∨ (t.part p).st = 2) ∧ (t.part p).cores = (s.part p).cores ∧ (t.part p).mcxBase = (s.part p).mcxBase := by
  cases h with
  | waits => exact ⟨.inl hst, rfl, rfl⟩
  | defined =>
    rw [part_modPart]
    exact ⟨.inr rfl, rfl, rfl⟩
  | gone h3 => omega

theorem PartSettled.withdrawn {p : Nat} (h : PartSettled p s t) (hst : (s.part p).st = 3) : (t.part p).st = 3 ∨ (t.part p).st = 0 := by
  cases h with
  | waits => exact .inl hst
  | defined h1 => omega
  | gone =>
    rw [dropPart_part]
    exact .inr rfl

/-- A command whose work ends with partition `p` to be scrubbed. -/
theorem command_settles {op p : Nat} {i : Instr} {r : Res} {want bad : List Byte → Bool} {body : State → Mq → Cmd → State}
    (h : packetAt op b s) (hi : exec i s = r) (hexec : r = runCmd s.ev.a want bad body s) (ho : opAssigned op = true)
    (hwant : want b = true) (hbad : bad b = false) (hbody : body (packetTaken b s) (takenMq s) (packetCmd b s) = u.settlePart p)
    (hu : AtWork b s u) : ∃ v t, exec i s = .next t ∧ takesPacket s t ∧ PartSettled p u v ∧ Reported v t := by
  obtain ⟨v, hv, hk, hr⟩ := settlePart_settled hu.noUnbind p
  obtain ⟨hrun, htakes⟩ := command_runs h.1 (packetAt_mayTake h) hi hexec ho hwant hbad hbody ((hu.hostKept hk).reported hr).mqs
  exact ⟨v, _, hrun, htakes, hv, hr⟩

theorem partitionDefine_defines {d : List Byte} (h : packetAt 0x23 b s) (hact : operand b 33 1 = 0) (hp : operand b 32 1 < 32)
    (hst : (s.part (operand b 32 1)).st = 0) (hread : s.hostRead (s.mq s.ev.a).fn (operand b 40 8) 512 = some d) (hbad : partBad d = false)
    (hclash : s.partClash (parsePart d) = false)
    (hcore : ∃ c, c < 600 ∧ (parsePart d).cores.getLsbD c = true ∧ (s.core c).failed = false) :
    ∃ t, exec .partitionDefine s = .next t ∧ takesPacket s t ∧ ((t.part (operand b 32 1)).st = 1 ∨ (t.part (operand b 32 1)).st = 2) ∧
      (t.part (operand b 32 1)).cores = (parsePart d).cores ∧ (t.part (operand b 32 1)).mcxBase = (parsePart d).mcxBase := by
  have hread' : (packetTaken b s).hostRead (packetCmd b s).fn (leAt (packetCmd b s).packet 40 8) 512 = some d := hread
  have hclash' : (packetTaken b s).partClash (parsePart d) = false := hclash
  have hact' : leAt b 33 1 = 0 := hact
  have hp' : leAt b 32 1 < 32 := hp
  have hhealthy : ¬ ((maskCores (parsePart d).cores).all fun k => ((packetTaken b s).core k).failed) = true := by
    obtain ⟨c, hc, hbit, hf⟩ := hcore
    intro hall
    have hmem : c ∈ maskCores (parsePart d).cores := List.mem_filter.2 ⟨List.mem_range.2 hc, hbit⟩
    have hfailed : (s.core c).failed = true := List.all_eq_true.1 hall c hmem
    simp [hf] at hfailed
  obtain ⟨v, t, ht, hc, hv, hr⟩ := command_settles (i := .partitionDefine) (r := execPartitionDefine s) (p := operand b 32 1)
    (u := (packetTaken b s).modPart (operand b 32 1) fun _ => { parsePart d with st := 1, cmd := some (packetCmd b s).id }) h rfl rfl rfl
    (by simp [isOp_packet h.1, hact']) (by simp [actionBad, hact', hp']) (by
      refine (if_neg (by simpa [operand] using hst)).trans ?_
      rw [hread']
      exact (if_neg (by simp [hbad])).trans ((if_neg (by simp [hclash'])).trans ((if_neg hhealthy).trans rfl)))
    ((atWork_taken h.1 (by decide)).hostKept ⟨rfl, rfl⟩)
  refine ⟨t, ht, hc, ?_⟩
  rw [hr.part]
  have hnew := part_modPart (s := packetTaken b s) (operand b 32 1) fun _ => { parsePart d with st := 1, cmd := some (packetCmd b s).id }
  obtain ⟨hst', hcores, hmcx⟩ := hv.defining (by rw [hnew])
  rw [hnew] at hcores hmcx
  exact ⟨hst', hcores, hmcx⟩

/-! Withdrawing: what ends with the partition leaves its descriptor and the address table alone. -/

/-- The host interface, the package, the partitions and the address table are as they were. -/
structure PartsKept (s t : State) : Prop extends HostKept s t where
  parts : t.prot.parts = s.prot.parts
  addr : t.eth.addr = s.eth.addr

theorem PartsKept.refl (s : State) : PartsKept s s := ⟨.refl s, rfl, rfl⟩

theorem PartsKept.trans (h : PartsKept s t) (k : PartsKept t u) : PartsKept s u :=
  ⟨h.toHostKept.trans k.toHostKept, k.parts.trans h.parts, k.addr.trans h.addr⟩

theorem PartsKept.foldl {α : Type} {f : State → α → State} (h : ∀ s a, PartsKept s (f s a)) (l : List α) (s : State) :
    PartsKept s (l.foldl f s) := by
  induction l generalizing s with
  | nil => exact .refl s
  | cons a l ih => exact (h s a).trans (ih _)

theorem partsKept_markDirty (k : Nat) (us : List Nat) : PartsKept s (s.markDirty k us) := ⟨⟨rfl, rfl⟩, rfl, rfl⟩

theorem partsKept_dirtyPart (p : Nat) : PartsKept s (s.dirtyPart p) := by
  unfold State.dirtyPart
  dsimp only
  exact ((((((partsKept_markDirty ..).trans (partsKept_markDirty ..)).trans (partsKept_markDirty ..)).trans
    (partsKept_markDirty ..)).trans (partsKept_markDirty ..)).trans (partsKept_markDirty ..)).trans (partsKept_markDirty ..)

theorem partsKept_dropEreq (id : Nat) : PartsKept s (s.dropEreq id) := by
  unfold State.dropEreq
  split
  · exact (partsKept_markDirty ..).trans ⟨⟨rfl, rfl⟩, rfl, rfl⟩
  · exact .refl s

theorem partsKept_settleSess (i : Nat) : PartsKept s (s.settleSess i) := by
  unfold State.settleSess
  split
  · exact ⟨⟨rfl, rfl⟩, rfl, rfl⟩
  · exact .refl s

theorem partsKept_lapse (i : Nat) : PartsKept s (s.lapse i) := by
  unfold State.lapse
  split
  · exact .refl s
  · have hmod : PartsKept s (s.modSess i fun e => { e with st := .lapsed }) := ⟨⟨rfl, rfl⟩, rfl, rfl⟩
    exact (hmod.trans (.foldl (fun _ => partsKept_dropEreq) _ _)).trans (partsKept_settleSess i)

/-- Sessions in HALF are freed, others lapse. -/
theorem partsKept_endSession (i : Nat) :
    PartsKept s (if (s.sess i).st == .half then { s with eth := { s.eth with sessions := SMap.drop s.eth.sessions i } } else s.lapse i) := by
  split
  · exact ⟨⟨rfl, rfl⟩, rfl, rfl⟩
  · exact partsKept_lapse i

theorem partsKept_zeroise (k : Nat) : PartsKept s (s.zeroise k) := ⟨⟨rfl, rfl⟩, rfl, rfl⟩

theorem partsKept_zeroiseSlot (k : Nat) : PartsKept s (s.zeroiseSlot k) := by
  unfold State.zeroiseSlot
  dsimp only
  split
  · exact (partsKept_zeroise k).trans (.foldl (fun _ i => partsKept_endSession i) _ _)
  · exact partsKept_zeroise k

theorem partsKept_zeroiseFree (k : Nat) :
    PartsKept s (if (s.keySlotAt k).st == 1 && (s.keySlotAt k).binds == 0 then s.zeroiseSlot k else s) := by
  split
  · exact partsKept_zeroiseSlot k
  · exact .refl s

/-- What leaves with partition `p`: its wheel slots, address-table entries and pool, the queues it does not own staying. -/
def partLeft (s : State) (p : Nat) : State :=
  { s with
    sl := { s.sl with ports := s.sl.ports.map fun (e : Nat × SlPort) => (e.1, { e.2 with
      wheel := e.2.wheel.filter fun w => !(bitOf w.2 7 && w.2 % 32 == p)
      wheelNext := e.2.wheelNext.filter fun w => !(bitOf w.2 7 && w.2 % 32 == p) }) }
    eth := { s.eth with
      addr := s.eth.addr.filter fun e => !(e.2.part == p && e.2.flags.getLsbD 0)
      pools := SMap.upd s.eth.pools p {} fun q => { q with sessMax := 0, gone := true }
      queues := s.eth.queues.filter fun e => !((s.part p).queues.getLsbD e.1) } }

/-- So has the partition, its sessions and free key slots ended, and its resources to be scrubbed. -/
def partWithdrawn (s : State) (p : Nat) : State :=
  let d := s.part p
  let t := partLeft s p
  let t := ((t.eth.sessions.filter fun e => e.2.part == p).map (·.1)).foldl (fun s i =>
    if (s.sess i).st == .half then { s with eth := { s.eth with sessions := SMap.drop s.eth.sessions i } } else s.lapse i) t
  let t := ((List.range d.keyCount).map (d.keyBase + ·)).foldl (fun s k =>
    if (s.keySlotAt k).st == 1 && (s.keySlotAt k).binds == 0 then s.zeroiseSlot k else s) t
  t.dirtyPart p

theorem partsKept_partWithdrawn (p : Nat) : PartsKept (partLeft s p) (partWithdrawn s p) := by
  unfold partWithdrawn
  exact ((PartsKept.foldl (fun _ i => partsKept_endSession i) _ _).trans (.foldl (fun _ k => partsKept_zeroiseFree k) _ _)).trans
    (partsKept_dirtyPart p)

theorem partitionWithdraw_withdraws (h : packetAt 0x23 b s) (hact : operand b 33 1 = 1) (hbad : actionBad b = false)
    (hst : (s.part (operand b 32 1)).st = 2)
    (hfree : ∀ e, e ∈ s.prot.mcbs → ((s.part (operand b 32 1)).mcxBase ≤ e.1 ∧
      e.1 < (s.part (operand b 32 1)).mcxBase + (s.part (operand b 32 1)).mcxCount) → e.2.st = 0) :
    ∃ t, exec .partitionWithdraw s = .next t ∧ takesPacket s t ∧ ((t.part (operand b 32 1)).st = 3 ∨ (t.part (operand b 32 1)).st = 0) ∧
      (∀ e, e ∈ t.eth.addr → ¬ (e.2.part = operand b 32 1 ∧ e.2.flags.getLsbD 0 = true)) := by
  have hact' : leAt b 33 1 = 1 := hact
  have hkept := partsKept_partWithdrawn (s := packetTaken b s) (operand b 32 1)
  have hk : HostKept (packetTaken b s) (partWithdrawn (packetTaken b s) (operand b 32 1)) :=
    HostKept.trans (t := partLeft (packetTaken b s) (operand b 32 1)) ⟨rfl, rfl⟩ hkept.toHostKept
  obtain ⟨v, t, ht, hc, hv, hr⟩ := command_settles (i := .partitionWithdraw) (r := execPartitionWithdraw s) (p := operand b 32 1)
    (u := (partWithdrawn (packetTaken b s) (operand b 32 1)).modPart (operand b 32 1) fun d => { d with st := 3, cmd := some (packetCmd b s).id })
    h rfl rfl rfl (by simp [isOp_packet h.1, hact']) hbad (by
      refine (if_neg ?_).trans ((if_neg ?_).trans (by unfold partWithdrawn partLeft operand; rfl))
      · change ¬ ((s.part (operand b 32 1)).st == 0) = true
        simp [hst]
      · change ¬ ((s.part (operand b 32 1)).st != 2 || s.prot.mcbs.any (fun e => decide ((s.part (operand b 32 1)).mcxBase ≤ e.1 ∧
          e.1 < (s.part (operand b 32 1)).mcxBase + (s.part (operand b 32 1)).mcxCount) && e.2.st != 0)) = true
        simp only [hst, Bool.or_eq_true, List.any_eq_true, Bool.and_eq_true, decide_eq_true_eq, bne_iff_ne]
        rintro (hne | ⟨e, he, hin, hne⟩)
        · exact hne rfl
        · exact hne (hfree e he hin))
    ((atWork_taken h.1 (by decide)).hostKept (hk.trans (hostKept_modPart ..)))
  refine ⟨t, ht, hc, ?_, fun e he => ?_⟩
  · rw [hr.part]
    exact hv.withdrawn (by rw [part_modPart])
  · have haddr : t.eth.addr = s.eth.addr.filter fun e => !(e.2.part == operand b 32 1 && e.2.flags.getLsbD 0) := by
      rw [hr.eth, hv.addr, modPart_eth]
      exact hkept.addr
    rw [haddr] at he
    simpa [imp_iff_not_or] using (List.mem_filter.1 he).2

end
end Sys2Proof.Proofs
end

section
/-! Firmware, recovery and enrolment, and the host's commands as a whole (O41). -/
namespace Sys2Proof.Proofs
open Sys2Proof Sys2Proof.Machine Sys2Proof.Laws Sys2Proof.Stated

section
variable {s t u : State} {b : List Byte}

/-! FW_STAGE (04 R110). -/

theorem padTo_length_ge (l : List Byte) (n : Nat) : n ≤ (padTo l n).length := by
  unfold padTo
  rw [List.length_append, List.length_replicate]
  omega

theorem slice_splice {l bs : List Byte} {off : Nat} (h : off ≤ l.length) : slice (splice l off bs) off bs.length = bs := by
  have htake : (l.take off).length = off := List.length_take_of_le h
  unfold slice splice
  rw [List.append_assoc, List.drop_append_of_le_length htake.ge, List.drop_of_length_le htake.le, List.nil_append, List.take_left]

theorem stageBad_false (hlen : operand b 36 4 % 4096 = 0) (hend : operand b 32 4 + operand b 36 4 ≤ 2 ^ 24) : stageBad b = false := by
  unfold stageBad
  rw [Bool.or_eq_false_iff]
  exact ⟨by simpa [operand] using hlen, decide_eq_false (Nat.not_lt.2 hend)⟩

/-- The stretch `d` of firmware at offset `off`, in the slot that does not run. -/
def fwStaged (s : State) (off : Nat) (d : List Byte) : State :=
  let i := 1 - s.hif.fwRunning
  let img := splice (padTo (s.fwSlot i).image off) off d
  { s with flash := { s.flash with slots := SMap.set s.flash.slots i { valid := true, image := img } {} } }

theorem fwStaged_slot (off : Nat) (d : List Byte) : ((fwStaged s off d).fwSlot (1 - s.hif.fwRunning)).valid = true ∧
    slice ((fwStaged s off d).fwSlot (1 - s.hif.fwRunning)).image off d.length = d := by
  have hslot : (fwStaged s off d).fwSlot (1 - s.hif.fwRunning) =
      { valid := true, image := splice (padTo (s.fwSlot (1 - s.hif.fwRunning)).image off) off d } := by
    unfold fwStaged State.fwSlot
    dsimp only
    rw [get_set_same]
  rw [hslot]
  exact ⟨rfl, slice_splice (padTo_length_ge ..)⟩

theorem Reported.fwSlot (h : Reported s t) (i : Nat) : t.fwSlot i = s.fwSlot i := by
  unfold State.fwSlot
  rw [h.flash]

section
variable (hlen : operand b 36 4 % 4096 = 0) (hend : operand b 32 4 + operand b 36 4 ≤ 2 ^ 24)
include hlen hend

theorem fwStage_stages {d : List Byte} (h : packetAt 0x24 b s) (hread : s.hostRead (s.mq s.ev.a).fn (operand b 40 8) (operand b 36 4) = some d) :
    ∃ t, exec .fwStage s = .next t ∧ completes 0 b s t ∧ (t.fwSlot (1 - s.hif.fwRunning)).valid = true ∧
      slice (t.fwSlot (1 - s.hif.fwRunning)).image (operand b 32 4) d.length = d := by
  have hread' : (packetTaken b s).hostRead (packetCmd b s).fn (leAt (packetCmd b s).packet 40 8) (leAt (packetCmd b s).packet 36 4) = some d :=
    hread
  have hidle : (packetTaken b s).hif.fwPhase = .idle := h.2.1
  obtain ⟨t, ht, hc, hr⟩ := command_completes (i := .fwStage) (r := execFwStage s) (status := 0)
    (u := fwStaged (packetTaken b s) (operand b 32 4) d) h.1 (packetAt_mayTake h) rfl rfl rfl (isOp_packet h.1) (stageBad_false hlen hend) (by
      refine (if_neg (by simp [hidle])).trans ?_
      rw [hread']
      rfl) ((atWork_taken h.1 (by decide)).hostKept ⟨rfl, rfl⟩)
  refine ⟨t, ht, hc, ?_⟩
  rw [hr.fwSlot]
  exact fwStaged_slot (s := packetTaken b s) ..

theorem fwStage_busy (h : packetWaits 0x24 b s) (hphase : s.hif.fwPhase ≠ .idle) :
    ∃ t, exec .fwStage s = .next t ∧ completes 13 b s t ∧ t.flash = s.flash := by
  have hphase' : (packetTaken b s).hif.fwPhase ≠ .idle := hphase
  obtain ⟨t, ht, hc, hr⟩ := command_completes (i := .fwStage) (r := execFwStage s) (status := 13) (u := packetTaken b s) h (.inr rfl) rfl rfl rfl
    (isOp_packet h) (stageBad_false hlen hend) (if_pos (by simpa using hphase')) (atWork_taken h (by decide))
  exact ⟨t, ht, hc, hr.flash⟩

end

/-! FW_ACTIVATE (04 R110). -/

/-- The functions are told, the new image stands in Proem memory, and every thread has halted. -/
def fwPaused (s : State) (c : Cmd) : State :=
  let image := (s.fwSlot (1 - s.hif.fwRunning)).image
  let s := (s.postAll 0x06 0 (Config.firmwareSvn image)).postAll 0x07 0 (Config.firmwareSvn image)
  let s := s.loadFirmware image
  { s with hif := { s.hif with
    fwPhase := .paused, fwPauseAt := s.time.toNat, fwCmd := some c.id
    threads := (List.range 128).map fun t => (t, { s.thread t with halted := true }) } }

theorem get_map_mem {α : Type} (f : Nat → α) (d : α) {l : List Nat} {k : Nat} (hk : k ∈ l) : SMap.get (l.map fun i => (i, f i)) k d = f k := by
  induction l with
  | nil => exact absurd hk List.not_mem_nil
  | cons i l ih =>
    rw [List.map_cons, SMap.get]
    split
    · next e => rw [e]
    · next e => exact ih ((List.mem_cons.1 hk).resolve_left e)

theorem fwPaused_halted (c : Cmd) {k : Nat} (hk : k < 128) : ((fwPaused s c).thread k).halted = true := by
  unfold State.thread fwPaused
  dsimp only
  rw [get_map_mem _ _ (List.mem_range.2 hk)]

theorem loadFirmware_mqs (image : List Byte) : (s.loadFirmware image).hif.mqs = s.hif.mqs := rfl

theorem fwPaused_mqs (c : Cmd) : (fwPaused s c).hif.mqs = s.hif.mqs := by
  unfold fwPaused
  dsimp only
  rw [loadFirmware_mqs, (reported_postAll ..).mqs, (reported_postAll ..).mqs]

section
variable (h : packetAt 0x25 b s)
include h

theorem fwActivateNextStart_marks (hmode : operand b 32 1 = 1) (hok : s.stagedOk = true) :
    ∃ t, exec .fwActivateNextStart s = .next t ∧ completes 0 b s t ∧ t.flash = { s.flash with next := some (1 - s.hif.fwRunning) } := by
  have hmode' : leAt b 32 1 = 1 := hmode
  have hok' : (packetTaken b s).stagedOk = true := hok
  obtain ⟨t, ht, hc, hr⟩ := command_completes (i := .fwActivateNextStart) (r := execFwActivateNextStart s) (status := 0)
    (u := { packetTaken b s with flash := { s.flash with next := some (1 - s.hif.fwRunning) } }) h.1 (packetAt_mayTake h) rfl rfl rfl
    (by simp [isOp_packet h.1, hmode']) rfl ((if_neg (by simp [hok'])).trans rfl) ((atWork_taken h.1 (by decide)).hostKept ⟨rfl, rfl⟩)
  exact ⟨t, ht, hc, hr.flash⟩

section
variable (hmode : operand b 32 1 = 0)
include hmode

theorem fwActivateLive_refused (hok : s.stagedOk = false) :
    ∃ t, exec .fwActivateLive s = .next t ∧ completes 11 b s t ∧ t.hif.fwPhase = .idle := by
  have hmode' : leAt b 32 1 = 0 := hmode
  have hok' : (packetTaken b s).stagedOk = false := hok
  obtain ⟨t, ht, hc, hr⟩ := command_completes (i := .fwActivateLive) (r := execFwActivateLive s) (status := 11) (u := packetTaken b s) h.1
    (packetAt_mayTake h) rfl rfl rfl (by simp [isOp_packet h.1, hmode']) (by simp [hmode']) (if_pos (by simp [hok']))
    (atWork_taken h.1 (by decide))
  exact ⟨t, ht, hc, hr.fwPhase.trans h.2.1⟩

theorem fwActivateLive_pauses (hok : s.stagedOk = true) : ∃ t, exec .fwActivateLive s = .next t ∧ takesPacket s t ∧
    t.hif.fwPhase = .paused ∧ ∀ k, k < 128 → (t.thread k).halted = true := by
  have hmode' : leAt b 32 1 = 0 := hmode
  have hok' : (packetTaken b s).stagedOk = true := hok
  obtain ⟨hrun, htakes⟩ := command_runs (i := .fwActivateLive) (r := execFwActivateLive s) (u := fwPaused (packetTaken b s) (packetCmd b s)) h.1
    (packetAt_mayTake h) rfl rfl rfl (by simp [isOp_packet h.1, hmode']) (by simp [hmode']) ((if_neg (by simp [hok'])).trans rfl)
    (fwPaused_mqs _)
  exact ⟨_, hrun, htakes, rfl, fun k hk => fwPaused_halted _ hk⟩

end
end

/-- The threads run on. -/
def fwResumed (s : State) : State :=
  { s with hif := { s.hif with
    fwPhase := .idle
    threads := (s.hif.threads.map fun (e : Nat × PThread) => (e.1, { e.2 with halted := false })).filter fun e => e.2 != ({} : PThread) } }

/-- An activation that ends leaves phase IDLE, and the running image as it was. -/
theorem resumeFw_idle (detail status : Nat) : (s.resumeFw detail status).hif.fwPhase = .idle ∧
    (s.resumeFw detail status).hif.fwRunning = s.hif.fwRunning := by
  have hpost : HostOnly (fwResumed s) ((fwResumed s).postAll 0x08 detail s.pkg.svn) := (reported_postAll ..).toHostOnly
  have hdone (v : State) (o : Option Cmd) : HostOnly v (match o with | some c => v.complete c status 0 | none => v) := by
    cases o with
    | none => exact .refl v
    | some c => exact hostOnly_complete ..
  have hend := hpost.trans (hdone _ (((fwResumed s).postAll 0x08 detail s.pkg.svn).hif.fwCmd.bind
    ((fwResumed s).postAll 0x08 detail s.pkg.svn).cmdOf))
  exact ⟨hend.fwPhase, hend.fwRunning⟩

theorem fwNewImageStart_idle (hphase : s.hif.fwPhase = .paused) (htime : s.time.toNat ≤ s.hif.fwPauseAt + 50000000) :
    ∃ t, exec .fwNewImageStart s = .next t ∧ t.hif.fwPhase = .idle ∧ t.hif.fwRunning = 1 - s.hif.fwRunning := by
  refine ⟨_, (show execFwNewImageStart s = _ from rfl), ?_⟩
  rw [if_neg (by simpa [hphase] using htime)]
  exact resumeFw_idle 0 0

theorem fwActivateWatchdog_idle (hphase : s.hif.fwPhase = .paused) (htime : s.hif.fwPauseAt + 50000000 ≤ s.time.toNat) :
    ∃ t, exec .fwActivateWatchdog s = .next t ∧ t.hif.fwPhase = .idle ∧ t.hif.fwRunning = s.hif.fwRunning := by
  refine ⟨_, (show execFwActivateWatchdog s = _ from rfl), ?_⟩
  rw [if_neg (by simpa [hphase] using htime)]
  exact resumeFw_idle 1 11

/-! Tokens (04 R111). -/

/-- Writing the replay-protected block is all that an accepted token does before its command completes. -/
theorem token_writes {op : Nat} {i : Instr} {r : Res} {want bad : List Byte → Bool} {body : State → Mq → Cmd → State} {g : Flash → Flash}
    (h : packetAt op b s) (hi : exec i s = r) (hexec : r = runCmd s.ev.a want bad body s) (ho : opAssigned op = true) (hop : op ≠ 0x21)
    (hwant : want b = true) (hbad : bad b = false)
    (hbody : body (packetTaken b s) (takenMq s) (packetCmd b s) = ((packetTaken b s).writeBlock g).complete (packetCmd b s) 0 0) :
    ∃ t, exec i s = .next t ∧ completes 0 b s t ∧ writesBlock (g s.flash) s t := by
  obtain ⟨t, ht, hc, hr⟩ := command_completes h.1 (packetAt_mayTake h) hi hexec ho hwant hbad hbody
    ((atWork_taken h.1 hop).hostKept ⟨rfl, rfl⟩)
  refine ⟨t, ht, hc, ?_⟩
  unfold writesBlock
  rw [hr.flash]
  exact writeBlock_writesBlock s g

theorem recover_writes {d : List Byte} (h : packetAt 0x26 b s) (hread : s.hostRead (s.mq s.ev.a).fn (operand b 40 8) 29864 = some d)
    (hok : s.tokenOk d 0x56524A46 40 72 = true) : ∃ t, exec .recover s = .next t ∧ completes 0 b s t ∧
      writesBlock { s.flash with fails := 0, lastReason := 0 } s t := by
  have hread' : (packetTaken b s).hostRead (packetCmd b s).fn (leAt (packetCmd b s).packet 40 8) 29864 = some d := hread
  have hok' : (packetTaken b s).tokenOk d 0x56524A46 40 72 = true := hok
  exact token_writes (i := .recover) (r := execRecover s) (g := fun f => { f with fails := 0, lastReason := 0 }) h rfl rfl rfl (by decide)
    (isOp_packet h.1) rfl (by
      rw [hread']
      exact (if_neg (by simp [hok'])).trans rfl)

theorem opkeyEnrol_writes {d : List Byte} (h : packetAt 0x27 b s) (hread : s.hostRead (s.mq s.ev.a).fn (operand b 40 8) 29896 = some d)
    (hok : s.tokenOk d 0x4B4F4A46 72 104 = true) : ∃ t, exec .opkeyEnrol s = .next t ∧ completes 0 b s t ∧
      writesBlock { s.flash with opKey := slice d 40 32 } s t := by
  have hread' : (packetTaken b s).hostRead (packetCmd b s).fn (leAt (packetCmd b s).packet 40 8) 29896 = some d := hread
  have hok' : (packetTaken b s).tokenOk d 0x4B4F4A46 72 104 = true := hok
  exact token_writes (i := .opkeyEnrol) (r := execOpkeyEnrol s) (g := fun f => { f with opKey := slice d 40 32 }) h rfl rfl rfl (by decide)
    (isOp_packet h.1) rfl (by
      rw [hread']
      exact (if_neg (by simp [hok'])).trans rfl)

end

/-- Settles O41: the packet is taken by `takePacket_takes`, and each command's own work is one rule above; what its completion reports is
`AtWork.completes`. -/
theorem hostCommandsTakeEffect : Obligations.HostCommandsTakeEffect := by
  intro s b
  refine ⟨nop_completes, fun _ h hown hread hcrec hsig => launch_lane h hown hread ⟨hcrec, hsig⟩, fun _ h hown => launch_misaligned h hown,
    launch_denied, ?_, fun _ => catalogDel_clears, fun _ h hown => mcbWrite_ready h hown, fun _ _ h hbad hown => copyIn_writes h hbad hown,
    fun _ h hbad hown => copyOut_reads h hbad hown, fun _ _ _ h hbad hown hprot hcut => copyOut_hurries h hbad hown hprot hcut,
    fun _ h hs hr => keyImport_struck h hr hs, fun _ h hs hr => ⟨?_, ?_, ?_⟩, queueBind_binds,
    fun h => ⟨queueUnbind_clears h, queueUnbind_waits h⟩, vfSetup_ranges, fun _ => partitionDefine_defines, partitionWithdraw_withdraws, ?_, ?_,
    fun h hmode => ⟨fwActivateLive_pauses h hmode, fwActivateLive_refused h hmode⟩, fwActivateNextStart_marks, fun _ => recover_writes,
    fun _ => opkeyEnrol_writes, fwNewImageStart_idle, fwActivateWatchdog_idle⟩
  · intro e h hbad hown hpart hst
    exact ⟨fun i => catalogSet_replaces h hbad hown hpart hst, fun w => catalogSet_inserts h hbad hown hpart hst⟩
  · exact keyImport_imports h hr hs
  · exact keyImport_mints h hr hs
  · rintro st mint rfl hst hne -
    exact keyImport_refused h hr hs hst hne
  · exact fun d h hlen hend hread => fwStage_stages hlen hend h hread
  · exact fun h hphase hlen hend => fwStage_busy hlen hend h hphase

end Sys2Proof.Proofs
end

section
/-! A micro-context that the table lists twice (O51). Nothing in the model's state keeps the table's keys apart. What goes on after a scrub looks
at every entry listed, and goes on with the micro-context as its first entry gives it. -/
namespace Sys2Proof.Proofs
open Sys2Proof Sys2Proof.Machine Sys2Proof.Laws Sys2Proof.Stated

/-- The scrub of Stacks bank 0 ends well. Micro-context 1 is listed twice: CLOSING with no launch left, and once more with its pages being
scrubbed. Its key slot holds the admission key of an open session with a request in reassembly, whose slots are not dirty. -/
def closingListedTwice : State :=
  { State.reset with
    ev := { a := 4, b := 0, flag := true }
    pkg := { State.reset.pkg with held := false }
    eth := { State.reset.eth with sessions := [(0, { st := .openS, binding := 1 })], requests := [(0, some {})] }
    prot :=
      { mcbs := [(1, { st := 2, keySlot := 1 }), (1, { scrubbing := true })]
        vault := { slots := [(1, { st := 1, purp := 1 })] }
        chip := { dirty := [(4, { but := [0] })] } } }

/-- It is the turn of the bank, which is dirty. -/
theorem closingListedTwice_turn : closingListedTwice.isDirty 4 0 = true ∧ closingListedTwice.scrubTurn 4 0 = true := by decide

/-- The request's receive slot, a unit of class 6, is dirty afterwards, and was not before. -/
theorem unitScrubDone_closingListedTwice : closingListedTwice.isDirty 6 0 = false ∧
    ∃ t, exec .unitScrubDone closingListedTwice = .next t ∧ t.isDirty 6 0 = true := ⟨by decide, _, rfl, by decide +kernel⟩

/-- Refutes O51: where a scrubbed bank lets a teardown begin, as it does for a micro-context that is listed twice, the teardown zeroises the
key slot, the sessions that it admitted lapse, and the slots of their requests become dirty (02 R51 R56, 05 R123). -/
theorem not_unitsAreScrubbed : ¬ Obligations.UnitsAreScrubbed := by
  intro h
  obtain ⟨hdirty, hturn⟩ := closingListedTwice_turn
  obtain ⟨hclean, u, hu, hslot⟩ := unitScrubDone_closingListedTwice
  obtain ⟨-, hscrub, -⟩ := h closingListedTwice
  obtain ⟨hgood, -, -⟩ := hscrub (by decide) hdirty hturn rfl rfl
  obtain ⟨t, ht, -, -, hothers, -⟩ := hgood rfl
  obtain rfl := Host.Outcome.next.inj (ht.symm.trans hu)
  have hkept : t.isDirty 6 0 = closingListedTwice.isDirty 6 0 := hothers 6 (by decide) (by decide) (by decide) 0
  exact Bool.noConfusion ((hslot.symm.trans hkept).trans hclean)

end Sys2Proof.Proofs
end

section
/-! A line key that is not 64 bytes long (O53). Nothing in the model's state keeps a LOADED slot from holding one, and every block that AES makes
under round keys too short is too short itself. -/
namespace Sys2Proof.Proofs
open Sys2Proof Sys2Proof.Machine Sys2Proof.Laws Sys2Proof.Stated

/-- A seal of two lines at virtual address 0x180, to 0x500, under key slot 3. -/
def sealOp : CipherOp := { op := 1, dst := 0x500, src := 0x180, len := 256, key := 3 }

/-- A house launch whose first GiB is mapped to the Stacks and HBM from 0x40000000 on, with `sealOp` in core 0's cipher unit; key slot 3 is LOADED
with a line key of no bytes. -/
def sealedWithNoKey : State :=
  { State.reset with
    cores := [(0, { launch := some 0, ctx := { cipherq := [sealOp] } })]
    circ := { launches := [(0, some { st := .bound, house := true })] }
    mem :=
      { houseRoot := some 0x100000
        bytes := Memory.writeN (Memory.writeN [] 0x100000 (natLe 8 (1 + 0x101 * 2 ^ 7))) 0x101000 (natLe 8 (2 + 1 * 2 ^ 3 + 0x40000 * 2 ^ 7)) }
    prot := { chip := { dirty := [] }, vault := { slots := [(3, { st := 1 })] } } }

/-- The line that the seal writes. -/
def sealTarget : Piece := { x := { dest := .mem 0x40000500, len := 2 ^ 30 - 0x500, ok := 1, lvl := 1 }, va := 0x500, len := 128, off := 0 }

/-- The line that it reads. -/
def sealSource : Piece := { x := { dest := .mem 0x40000180, len := 2 ^ 30 - 0x180, ok := 1, lvl := 1 }, va := 0x180, len := 128, off := 0 }

/-- The operation may work. -/
theorem sealedWithNoKey_works : sealedWithNoKey.engineOn 0 = true ∧ sealedWithNoKey.classStopped 0 3 = false ∧
    sealedWithNoKey.heldBack 0 4 0 true = false := by decide +kernel

/-- Both of its ranges translate, each to one line. -/
theorem sealedWithNoKey_pieces :
    enginePieces sealedWithNoKey (sealedWithNoKey.engineWho 0) true 0x500 128 = .ok [sealTarget] ∧
      enginePieces sealedWithNoKey (sealedWithNoKey.engineWho 0) false 0x180 128 = .ok [sealSource] := by decide +kernel

theorem sealedWithNoKey_plain : plainSource [sealSource] sealedWithNoKey := by
  intro q hq
  obtain rfl := List.mem_singleton.1 hq
  exact ⟨0x40000180, by decide +kernel⟩

/-- What the cipher makes of the source under that key has no byte. -/
theorem xtsLine_noKey : xtsLine true [] 0 (bytesOf [sealSource] sealedWithNoKey) = [] := by decide +kernel

/-- Refutes O53: a seal under a LOADED line key of no bytes gives no ciphertext, and so the 128 bytes of its target line are not the
ciphertext that the statement names. -/
theorem not_cipherUnitWorksBlockByBlock : ¬ Obligations.CipherUnitWorksBlockByBlock := by
  intro h
  obtain ⟨hon, hstop, hheld⟩ := sealedWithNoKey_works
  obtain ⟨hdst, hsrc⟩ := sealedWithNoKey_pieces
  obtain ⟨hseal, -⟩ := h sealedWithNoKey sealOp [] rfl rfl hon hstop hheld
  obtain ⟨t, -, hline, -⟩ := hseal [] sealTarget 0x40000500 [sealSource] rfl rfl (by decide) hdst rfl rfl rfl (by decide +kernel)
    (by decide +kernel) hsrc sealedWithNoKey_plain (by decide) rfl
  have hlen : (t.phys 0x40000500 128).length = 128 := readN_length ..
  have hnone : slice (xtsLine true [] 0 (bytesOf [sealSource] sealedWithNoKey)) 0 128 = [] := by rw [xtsLine_noKey]; rfl
  rw [hline.trans hnone] at hlen
  exact absurd hlen (by decide)

end Sys2Proof.Proofs
end

section
/-! What leaves Circulation's tables alone (O50): replies, reports, dumps and teardowns. -/
namespace Sys2Proof.Proofs
open Sys2Proof Sys2Proof.Machine Sys2Proof.Laws Sys2Proof.Stated

/-- Of Circulation nothing but the templates of request launches may differ. -/
def CircKept (s t : State) : Prop := ∃ m, t.circ = { s.circ with templates := m }

section
variable {s t u : State}

theorem CircKept.of_circ (h : t.circ = s.circ) : CircKept s t := ⟨_, h⟩

theorem CircKept.refl (s : State) : CircKept s s := .of_circ rfl

theorem CircKept.trans (h : CircKept s t) (k : CircKept t u) : CircKept s u := by
  obtain ⟨_, h⟩ := h
  obtain ⟨_, k⟩ := k
  exact ⟨_, by rw [k, h]⟩

theorem CircKept.foldl {α : Type} {f : State → α → State} (h : ∀ s a, CircKept s (f s a)) (l : List α) (s : State) :
    CircKept s (l.foldl f s) := by
  induction l generalizing s with
  | nil => exact .refl s
  | cons a l ih => exact (h s a).trans (ih _)

theorem CircKept.ite {c : Prop} [Decidable c] (ht : CircKept s t) (hu : CircKept s u) : CircKept s (if c then t else u) := by
  split
  · exact ht
  · exact hu

theorem CircKept.launchAt (h : CircKept s t) (n : Nat) : t.launchAt n = s.launchAt n := by
  obtain ⟨_, h⟩ := h
  rw [State.launchAt, h, State.launchAt]

theorem CircKept.owner (h : CircKept s t) (c : Nat) : t.owner c = s.owner c := by
  obtain ⟨_, h⟩ := h
  rw [State.owner, h, State.owner]

theorem CircKept.gens (h : CircKept s t) : t.circ.gens = s.circ.gens := by
  obtain ⟨_, h⟩ := h
  rw [h]

theorem CircKept.counter (h : CircKept s t) (k : Nat) : circCounter k t = circCounter k s := by
  obtain ⟨_, h⟩ := h
  rw [circCounter, h, circCounter]

theorem MemOnly.circKept (h : MemOnly s t) : CircKept s t := by
  obtain ⟨_, rfl⟩ := h
  exact .refl s

theorem HostOnly.circKept (h : HostOnly s t) : CircKept s t := .of_circ h.circ

theorem Replied.circKept {i : Nat} (h : Replied i s t) : CircKept s t := by
  obtain ⟨_, _, _, _, rfl⟩ := h.frame
  exact .refl s

/-! The end of requests and sessions (02 R51 R56 R59). -/

theorem circKept_dropEreq (id : Nat) : CircKept s (s.dropEreq id) := by
  obtain ⟨_, _, h⟩ := dropEreq_frame s id
  exact .of_circ (by rw [h])

theorem circKept_settleSess (i : Nat) : CircKept s (s.settleSess i) := by
  obtain ⟨_, h⟩ := settleSess_frame s i
  exact .of_circ (by rw [h])

theorem circKept_lapse (i : Nat) : CircKept s (s.lapse i) := by
  by_cases ho : (s.sess i).st = .openS
  · obtain ⟨_, _, _, h⟩ := (lapse_lapsed ho).frame
    exact .of_circ (by rw [h])
  · unfold State.lapse
    rw [if_pos (by simp [ho])]
    exact .refl s

theorem circKept_countPart (p k : Nat) : CircKept s (s.countPart p k) := .of_circ rfl

theorem circKept_errorFor (r : Request) (code detail : Nat) : CircKept s (s.errorFor r code detail) :=
  .ite (circKept_countPart ..) <| .ite ((circKept_lapse _).trans (circKept_countPart ..)) (replied_sendReply ..).circKept

theorem circKept_reply (id : Nat) (faultClass : Option Nat) (key : Option (List Byte)) : CircKept s (s.reply id faultClass key) := by
  unfold State.reply
  split
  · exact .refl s
  · dsimp only
    refine (CircKept.trans ?_ (circKept_dropEreq id)).trans (circKept_settleSess _)
    split
    · exact circKept_errorFor ..
    · iterate 5 refine .ite (circKept_errorFor ..) ?_
      exact .ite (circKept_countPart ..) <| .ite ((circKept_lapse _).trans (circKept_countPart ..)) (replied_sendReply ..).circKept

/-! Teardowns and reports (04 R97, 05 R123 R129 R148). -/

theorem circKept_modMcb (m : Nat) (g : Mcb → Mcb) : CircKept s (s.modMcb m g) :=
  CircKept.trans (t := mcbChanged s m g) (.of_circ rfl) (memOnly_modMcb m g).circKept

theorem circKept_freeMcb (m : Nat) : CircKept s (s.freeMcb m) := ⟨_, rfl⟩

theorem circKept_withdrawBinding (k : Nat) : CircKept s (s.withdrawBinding k) := by
  refine .foldl (fun s i => ?_) _ s
  exact .ite (.of_circ rfl) (circKept_lapse i)

theorem circKept_zeroiseSlot (k : Nat) : CircKept s (s.zeroiseSlot k) :=
  .ite (CircKept.trans (t := s.zeroise k) (.of_circ rfl) (circKept_withdrawBinding k)) (.of_circ rfl)

theorem circKept_teardown (m : Nat) : CircKept s (s.teardown m) := by
  refine .ite (.refl s) <| .ite (.ite (circKept_freeMcb m) (.refl s)) <| .ite (.refl s) ?_
  extract_lets _ t x u pages v w
  have ht : CircKept s t := by unfold t; split <;> exact .of_circ rfl
  have hu : CircKept s u := ht.trans (.ite (circKept_zeroiseSlot _) (.refl _))
  have hv : CircKept s v := hu.trans (CircKept.foldl (f := fun s p => s.markDirty (pageUnit p).1 [(pageUnit p).2]) (fun _ _ => .of_circ rfl) pages u)
  have hw : CircKept s w := (hv.trans (circKept_modMcb ..)).trans (.of_circ rfl)
  exact .ite (hw.trans (circKept_freeMcb m)) hw

theorem circKept_reportLaunch (r : LaunchRec) (cmd : Option Nat) (house : Bool) (mcx status detail : Nat) (l : LaunchDone) :
    CircKept s (s.reportLaunch r cmd house mcx status detail l) := by
  unfold State.reportLaunch
  split
  · split
    · exact ((reported_finishCmd ..).toHostOnly.trans (hostOnly_settleUnbind ..)).circKept
    · exact .refl s
  · dsimp only
    split
    · exact .refl s
    · exact (reported_reportAt ..).toHostOnly.circKept

theorem memOnly_writeLines_keyed (ps : List Piece) (bs : List Byte) (key : Option (List Byte)) : MemOnly s (s.writeLines ps bs key) := by
  refine memOnly_foldl (fun s p => ?_) ps s
  split
  · exact memOnly_refl s
  · next a _ =>
    have hfill : MemOnly s (if s.zeroMarked a then s.fillDone (a / 0x200000) else s) := by
      split
      · exact ⟨_, rfl⟩
      · exact memOnly_refl s
    dsimp only
    split
    · exact hfill.trans (memOnly_putLine ..)
    · exact (hfill.trans (memOnly_putLine ..)).trans ⟨_, rfl⟩

theorem circKept_dump (n : Nat) : CircKept s (s.dump n).1 := by
  unfold State.dump
  extract_lets l b bs key
  split
  · exact .refl s
  · split
    · exact .refl s
    · split
      · exact .refl s
      · exact CircKept.trans (.of_circ rfl) (memOnly_writeLines_keyed ..).circKept

theorem circKept_landCores (n : Nat) : CircKept s (s.landCores n) := by
  refine .foldl (fun s c => ?_) _ s
  exact .ite (.of_circ rfl) (.refl s)

end
end Sys2Proof.Proofs
end

section
/-! Cores that join a carrel and cores that leave one (O50). -/
namespace Sys2Proof.Proofs
open Sys2Proof Sys2Proof.Machine Sys2Proof.Laws Sys2Proof.Stated

/-- Cores move between launches: generations stay, so do the counters but those of releases (3) and spills (6), and no pre-emption begins. -/
structure CoresMove (s t : State) : Prop where
  gens : t.circ.gens = s.circ.gens
  counter : ∀ k, k ≠ 3 → k ≠ 6 → circCounter k t = circCounter k s
  preempt : ∀ c p, t.preempt c = some p → s.preempt c = some p

section
variable {s t u : State} {n c d : Nat}

theorem CoresMove.refl (s : State) : CoresMove s s := ⟨rfl, fun _ _ _ => rfl, fun _ _ h => h⟩

theorem CoresMove.trans (h : CoresMove s t) (k : CoresMove t u) : CoresMove s u where
  gens := k.gens.trans h.gens
  counter j h3 h6 := (k.counter j h3 h6).trans (h.counter j h3 h6)
  preempt c p hp := h.preempt c p (k.preempt c p hp)

theorem CoresMove.foldl {α : Type} {f : State → α → State} (h : ∀ s a, CoresMove s (f s a)) (l : List α) (s : State) :
    CoresMove s (l.foldl f s) := by
  induction l generalizing s with
  | nil => exact .refl s
  | cons a l ih => exact (h s a).trans (ih _)

theorem CircKept.coresMove (h : CircKept s t) : CoresMove s t where
  gens := h.gens
  counter k _ _ := h.counter k
  preempt c p hp := by
    obtain ⟨_, h⟩ := h
    rwa [State.preempt, h] at hp

/-! One core's claim, pre-emption and counters. -/

@[simp] theorem owner_setOwner (c : Nat) (o : Option Nat) : (s.setOwner c o).owner c = o := get_set_same _ _ _ _

theorem owner_setOwner_other (o : Option Nat) (h : d ≠ c) : (s.setOwner c o).owner d = s.owner d := get_set_other _ _ _ _ h

@[simp] theorem preempt_setPreempt (c : Nat) (p : Option Preempt) : (s.setPreempt c p).preempt c = p := get_set_same _ _ _ _

theorem preempt_setPreempt_other (p : Option Preempt) (h : d ≠ c) : (s.setPreempt c p).preempt d = s.preempt d := get_set_other _ _ _ _ h

@[simp] theorem circCounter_countCirc (k : Nat) : circCounter k (s.countCirc k) = oneMore (circCounter k s) := get_set_same _ _ _ _

theorem circCounter_countCirc_other {j k : Nat} (h : j ≠ k) : circCounter j (s.countCirc k) = circCounter j s := get_set_other _ _ _ _ h

theorem coresMove_countCirc {k : Nat} (h : k = 3 ∨ k = 6) : CoresMove s (s.countCirc k) where
  gens := rfl
  counter j h3 h6 := circCounter_countCirc_other (by omega)
  preempt _ _ hp := hp

theorem coresMove_setPreempt_none (c : Nat) : CoresMove s (s.setPreempt c none) where
  gens := rfl
  counter _ _ _ := rfl
  preempt d p hp := by
    by_cases hd : d = c
    · rw [hd, preempt_setPreempt] at hp
      cases hp
    · rwa [preempt_setPreempt_other _ hd] at hp

/-! A launch changed in its slot. -/

theorem modLaunch_some {l : Launch} (h : s.launchAt n = some l) (g : Launch → Launch) : s.modLaunch n g = s.setLaunch n (some (g l)) := by
  rw [State.modLaunch, h]

theorem launchAt_modLaunch {l : Launch} (h : s.launchAt n = some l) (g : Launch → Launch) : (s.modLaunch n g).launchAt n = some (g l) := by
  rw [modLaunch_some h, launchAt_setLaunch]

theorem launchAt_modLaunch_other (g : Launch → Launch) (h : d ≠ n) : (s.modLaunch n g).launchAt d = s.launchAt d := by
  unfold State.modLaunch
  split
  · exact launchAt_setLaunch_other _ _ h
  · rfl

theorem modLaunch_circ (n : Nat) (g : Launch → Launch) : ∃ ls, (s.modLaunch n g).circ = { s.circ with launches := ls } := by
  unfold State.modLaunch
  split
  · exact ⟨_, rfl⟩
  · exact ⟨_, rfl⟩

theorem coresMove_modLaunch (n : Nat) (g : Launch → Launch) : CoresMove s (s.modLaunch n g) := by
  obtain ⟨_, h⟩ := modLaunch_circ (s := s) n g
  exact ⟨by rw [h], fun _ _ _ => by rw [circCounter, h, circCounter], fun _ _ hp => by rwa [State.preempt, h] at hp⟩

theorem owner_modLaunch (n : Nat) (g : Launch → Launch) : (s.modLaunch n g).owner c = s.owner c := by
  obtain ⟨_, h⟩ := modLaunch_circ (s := s) n g
  rw [State.owner, h, State.owner]

/-! Spills and ties (06 R164, 11 R326). -/

theorem memOnly_putBank (tag pa n : Nat) (cells : List Host.Cell) : MemOnly s (s.putBank tag pa n cells) := ⟨_, rfl⟩

theorem memOnly_putArea (tag pa : Nat) (bs : List Byte) : MemOnly s (s.putArea tag pa bs) := ⟨_, rfl⟩

theorem memOnly_spillBanks (k : CoreSt) (x : CoreCtx) (tag area : Nat) : MemOnly s (s.spillBanks k x tag area) := by
  unfold State.spillBanks
  extract_lets held t u
  have ht : MemOnly s t := memOnly_foldl (fun _ _ => memOnly_putBank ..) held s
  have hu : MemOnly t u := memOnly_foldl (fun _ _ => memOnly_putBank ..) _ t
  exact (ht.trans hu).trans (memOnly_putArea ..)

/-- A spill counts, where there is something to spill, and leaves other cores alone. -/
theorem spill_circ (c : Nat) : (s.spill c).circ = s.circ ∨ (s.spill c).circ = (s.countCirc 6).circ := by
  unfold State.spill
  extract_lets k
  split
  · exact .inl rfl
  · extract_lets mine t u v w
    have ht : MemOnly s t := by
      refine memOnly_foldl (fun s v => ?_) _ s
      split
      · exact memOnly_spillBanks ..
      · exact memOnly_refl s
    obtain ⟨m, ht⟩ := ht
    have hw : w.circ = s.circ := by
      change t.circ = s.circ
      rw [ht]
    exact .inr (congrArg (fun q : Circ => { q with cnt := SMap.upd q.cnt 6 0 fun n => sat48 n 1 }) hw)

theorem coresMove_spill (c : Nat) : CoresMove s (s.spill c) := by
  have hcount : CoresMove s (s.countCirc 6) := coresMove_countCirc (.inr rfl)
  obtain h | h := spill_circ (s := s) c
  · exact (CircKept.of_circ h).coresMove
  · exact hcount.trans (CircKept.of_circ h).coresMove

theorem owner_spill (c : Nat) : (s.spill c).owner d = s.owner d := by
  obtain h | h := spill_circ (s := s) c
  · rw [State.owner, h, State.owner]
  · rw [State.owner, h]
    rfl

theorem launchAt_spill (c : Nat) : (s.spill c).launchAt n = s.launchAt n := by
  obtain h | h := spill_circ (s := s) c
  · rw [State.launchAt, h, State.launchAt]
  · rw [State.launchAt, h]
    rfl

/-- What else was tied to a core that the carrel has lost is tied to another. -/
def retied (old new : Nat) (l : Launch) : Launch :=
  { l with
    strands := l.strands.map fun e => (e.1, if e.2.tie == some old then { e.2 with tie := some new } else e.2)
    coreSaves := match SMap.get l.coreSaves old none with
      | some i => SMap.set (SMap.drop l.coreSaves old) new (some i) none
      | none => l.coreSaves }

/-- Retying spills the old core if need be, and then changes the launch alone. -/
theorem retie_eq (n old new : Nat) : ∃ t, (t = s ∨ t = s.spill old) ∧ s.retie n old new = t.modLaunch n (retied old new) := by
  unfold State.retie
  split
  · exact ⟨_, .inr rfl, rfl⟩
  · exact ⟨_, .inl rfl, rfl⟩

theorem coresMove_retie (n old new : Nat) : CoresMove s (s.retie n old new) := by
  obtain ⟨t, rfl | rfl, h⟩ := retie_eq (s := s) n old new
  · exact h ▸ coresMove_modLaunch ..
  · exact h ▸ (coresMove_spill old).trans (coresMove_modLaunch ..)

theorem owner_retie (n old new : Nat) : (s.retie n old new).owner d = s.owner d := by
  obtain ⟨t, rfl | rfl, h⟩ := retie_eq (s := s) n old new
  · rw [h, owner_modLaunch]
  · rw [h, owner_modLaunch, owner_spill]

theorem launchAt_retie {l : Launch} (h : s.launchAt n = some l) (old new : Nat) :
    (s.retie n old new).launchAt n = some (retied old new l) := by
  obtain ⟨t, rfl | rfl, e⟩ := retie_eq (s := s) n old new
  · rw [e, launchAt_modLaunch h]
  · rw [e, launchAt_modLaunch ((launchAt_spill old).trans h)]

/-! A core joins (06 R158 R164 R168). -/

/-- The carrel with one more core, claimed and to be loaded. -/
def joined (s : State) (n c : Nat) : State :=
  ((s.modLaunch n fun l => { l with cores := l.cores ++ [c] }).setOwner c (some n)).modCore c fun k =>
    { k with launch := some n, strand := none, loaded := false, dcache := [], seqWrites := [] }

theorem joinCore_none (h : s.launchAt n = none) (c : Nat) : s.joinCore n c = s := by rw [State.joinCore, h]

/-- A core joins, what was tied to a core that the carrel has lost being tied to it first. -/
theorem joinCore_some {l : Launch} (h : s.launchAt n = some l) (c : Nat) :
    s.joinCore n c = joined s n c ∨ ∃ old, s.joinCore n c = joined (s.retie n old c) n c := by
  rw [State.joinCore, h]
  dsimp only
  split
  · exact .inl rfl
  · split
    · exact .inr ⟨_, rfl⟩
    · exact .inl rfl

theorem coresMove_joined (n c : Nat) : CoresMove s (joined s n c) :=
  CoresMove.trans (t := s.modLaunch n fun l => { l with cores := l.cores ++ [c] }) (coresMove_modLaunch ..) ⟨rfl, fun _ _ _ => rfl, fun _ _ hp => hp⟩

theorem owner_joined (n c : Nat) : (joined s n c).owner c = some n := owner_setOwner (s := s.modLaunch n _) ..

theorem owner_joined_other (n : Nat) (h : d ≠ c) : (joined s n c).owner d = s.owner d :=
  (owner_setOwner_other (s := s.modLaunch n _) _ h).trans (owner_modLaunch ..)

theorem coresMove_joinCore (n c : Nat) : CoresMove s (s.joinCore n c) := by
  cases h : s.launchAt n with
  | none => exact (joinCore_none h c).symm ▸ .refl s
  | some l =>
    obtain e | ⟨old, e⟩ := joinCore_some h c
    · exact e ▸ coresMove_joined n c
    · exact e ▸ (coresMove_retie n old c).trans (coresMove_joined n c)

theorem owner_joinCore {l : Launch} (h : s.launchAt n = some l) (c : Nat) : (s.joinCore n c).owner c = some n := by
  obtain e | ⟨old, e⟩ := joinCore_some h c
  · exact e ▸ owner_joined n c
  · exact e ▸ owner_joined n c

theorem owner_joinCore_other (n : Nat) (h : d ≠ c) : (s.joinCore n c).owner d = s.owner d := by
  cases hl : s.launchAt n with
  | none => rw [joinCore_none hl]
  | some l =>
    obtain e | ⟨old, e⟩ := joinCore_some hl c
    · rw [e, owner_joined_other n h]
    · rw [e, owner_joined_other n h, owner_retie]

/-- The core is the launch's, to be loaded, and its data cache empty. -/
theorem core_joinCore {l : Launch} (h : s.launchAt n = some l) (c : Nat) :
    ((s.joinCore n c).core c).launch = some n ∧ ((s.joinCore n c).core c).loaded = false ∧ ((s.joinCore n c).core c).dcache = [] := by
  obtain e | ⟨old, e⟩ := joinCore_some h c
  all_goals
    rw [e, joined, core_modCore]
    exact ⟨rfl, rfl, rfl⟩

/-- It stands last in the carrel. -/
theorem launchAt_joinCore {l : Launch} (h : s.launchAt n = some l) (c : Nat) :
    ∃ l', (s.joinCore n c).launchAt n = some l' ∧ l'.cores = l.cores ++ [c] := by
  obtain e | ⟨old, e⟩ := joinCore_some h c
  · exact ⟨_, (congrArg (State.launchAt · n) e).trans (launchAt_modLaunch h _), rfl⟩
  · exact ⟨_, (congrArg (State.launchAt · n) e).trans (launchAt_modLaunch (launchAt_retie h old c) _), rfl⟩

end
end Sys2Proof.Proofs
end

section
/-! The end of launches: dissolution, retirement and deadlines (O50). -/
namespace Sys2Proof.Proofs
open Sys2Proof Sys2Proof.Machine Sys2Proof.Laws Sys2Proof.Stated

section
variable {s t u : State} {n c d : Nat}

/-! A core leaves a launch that ends (06 R157). -/

theorem markDirty_circ (k : Nat) (us : List Nat) : (s.markDirty k us).circ = s.circ := rfl

theorem dropCore_circ (c : Nat) : (s.dropCore c).circ = (s.setOwner c none).circ := by
  simp only [State.dropCore, State.dirtyBanks, modCore_circ, State.setOwner, State.modCirc, markDirty_circ]

theorem coresMove_dropCore (c : Nat) : CoresMove s (s.dropCore c) :=
  CoresMove.trans (t := s.setOwner c none) ⟨rfl, fun _ _ _ => rfl, fun _ _ hp => hp⟩ (CircKept.of_circ (dropCore_circ c)).coresMove

theorem owner_dropCore (c : Nat) : (s.dropCore c).owner c = none := by
  rw [State.owner, dropCore_circ]
  exact owner_setOwner c none

theorem owner_dropCore_other (h : d ≠ c) : (s.dropCore c).owner d = s.owner d := by
  rw [State.owner, dropCore_circ]
  exact owner_setOwner_other none h

/-- The core as it is freed, without its pre-emption. -/
def coreFreed (s : State) (c : Nat) : State := (s.dropCore c).setPreempt c none

theorem owner_setPreempt (c : Nat) (p : Option Preempt) : (s.setPreempt c p).owner d = s.owner d := rfl

theorem owner_countCirc (k : Nat) : (s.countCirc k).owner d = s.owner d := rfl

theorem coresMove_coreFreed (c : Nat) : CoresMove s (coreFreed s c) := (coresMove_dropCore c).trans (coresMove_setPreempt_none c)

/-- It is free, or the launch for which it was pre-empted takes it. -/
theorem endCore_cases (c : Nat) : s.endCore c = coreFreed s c ∨
    ∃ p m l, s.preempt c = some p ∧ p.incoming = some m ∧ (coreFreed s c).launchAt m = some l ∧
      s.endCore c = ((coreFreed s c).joinCore m c).countCirc 3 := by
  unfold State.endCore
  dsimp only
  split
  · next p hp =>
    split
    · next m hm =>
      split
      · next hl =>
        obtain ⟨l, hl⟩ := Option.isSome_iff_exists.1 hl
        exact .inr ⟨p, m, l, hp, hm, hl, rfl⟩
      · exact .inl rfl
    · exact .inl rfl
  · exact .inl rfl

theorem coresMove_endCore (c : Nat) : CoresMove s (s.endCore c) := by
  obtain h | ⟨p, m, l, -, -, -, h⟩ := endCore_cases (s := s) c
  · exact h ▸ coresMove_coreFreed c
  · exact h ▸ ((coresMove_coreFreed c).trans (coresMove_joinCore m c)).trans (coresMove_countCirc (.inl rfl))

theorem owner_endCore_other (h : d ≠ c) : (s.endCore c).owner d = s.owner d := by
  obtain e | ⟨p, m, l, -, -, -, e⟩ := endCore_cases (s := s) c
  · rw [e, coreFreed, owner_setPreempt, owner_dropCore_other h]
  · rw [e, owner_countCirc, owner_joinCore_other m h, coreFreed, owner_setPreempt, owner_dropCore_other h]

/-- Nobody's pre-emption brings a core to launch `n`. -/
def NoneIncoming (n : Nat) (s : State) : Prop := ∀ c p, s.preempt c = some p → p.incoming ≠ some n

theorem NoneIncoming.of_coresMove (h : NoneIncoming n s) (k : CoresMove s t) : NoneIncoming n t := fun c p hp => h c p (k.preempt c p hp)

/-- So the core does not come back to `n`. -/
theorem owner_endCore_ne (h : NoneIncoming n s) (c : Nat) : (s.endCore c).owner c ≠ some n := by
  obtain e | ⟨p, m, l, hp, hm, hl, e⟩ := endCore_cases (s := s) c
  · rw [e, coreFreed, owner_setPreempt, owner_dropCore]
    exact nofun
  · rw [e, owner_countCirc, owner_joinCore hl, ← hm]
    exact h c p hp

/-- The same of all cores of a carrel. -/
theorem owner_endCores_ne (cs : List Nat) {s : State} (h : NoneIncoming n s) (hc : c ∈ cs ∨ s.owner c ≠ some n) :
    (cs.foldl (fun s c => s.endCore c) s).owner c ≠ some n := by
  induction cs generalizing s with
  | nil => exact hc.resolve_left List.not_mem_nil
  | cons d cs ih =>
    refine ih (h.of_coresMove (coresMove_endCore d)) ?_
    by_cases hd : c = d
    · exact .inr (hd ▸ owner_endCore_ne h c)
    · rw [owner_endCore_other hd]
      exact hc.imp_left fun hm => (List.mem_cons.1 hm).resolve_left hd

/-! What the launch keeps elsewhere goes. -/

theorem circKept_dropSaved (n : Nat) : CircKept s (s.dropSaved n) := by
  unfold State.dropSaved
  extract_lets t
  have ht : CircKept s t := CircKept.foldl (f := fun s i => s.freeSave i) (fun _ _ => .of_circ rfl) _ s
  refine ht.trans (CircKept.foldl (fun s c => ?_) _ t)
  split
  · exact .of_circ (by simp only [modCore_circ, markDirty_circ])
  · exact .refl s

/-! Dissolution (05 R131). -/

/-- Nothing of launch `n` is left: its slot is empty, its generation one higher, its cores are others' or nobody's. -/
structure Gone (n : Nat) (cores : List Nat) (s t : State) : Prop where
  slot : t.launchAt n = none
  gen : SMap.get t.circ.gens n 0 = (SMap.get s.circ.gens n 0 + 1) % 2 ^ 20
  cores : ∀ c, c ∈ cores → t.owner c ≠ some n
  expired : circCounter 7 t = circCounter 7 s

theorem Gone.circKept {cs : List Nat} (h : Gone n cs s t) (k : CircKept t u) : Gone n cs s u where
  slot := (k.launchAt n).trans h.slot
  gen := by rw [k.gens, h.gen]
  cores c hc := by
    rw [k.owner]
    exact h.cores c hc
  expired := (k.counter 7).trans h.expired

theorem CircKept.gone {cs : List Nat} (k : CircKept s t) (h : Gone n cs t u) : Gone n cs s u where
  slot := h.slot
  gen := by rw [h.gen, k.gens]
  cores := h.cores
  expired := h.expired.trans (k.counter 7)

/-- A pre-emption for launch `n` goes on, but brings it no core. -/
def notFor (n : Nat) (p : Preempt) : Preempt := if p.incoming == some n then { p with incoming := none } else p

theorem incoming_notFor (n : Nat) (p : Preempt) : (notFor n p).incoming ≠ some n := by
  unfold notFor
  split
  · exact nofun
  · next h => simpa using h

/-- So does every one. -/
def incomingDropped (s : State) (n : Nat) : State :=
  { s with circ := { s.circ with preempts := s.circ.preempts.map fun e => (e.1, e.2.map (notFor n)) } }

theorem get_map_value {α β : Type} (m : SMap α) (f : α → β) (k : Nat) (d : α) :
    SMap.get (m.map fun e => (e.1, f e.2)) k (f d) = f (SMap.get m k d) := by
  induction m with
  | nil => rfl
  | cons e m ih =>
    obtain ⟨j, v⟩ := e
    by_cases h : k = j
    · simp [SMap.get, h]
    · simpa [SMap.get, h] using ih

theorem noneIncoming_incomingDropped (n : Nat) (s : State) : NoneIncoming n (incomingDropped s n) := by
  intro c p hp
  have hget : (incomingDropped s n).preempt c = (s.preempt c).map (notFor n) := get_map_value s.circ.preempts (Option.map (notFor n)) c none
  rw [hget, Option.map_eq_some_iff] at hp
  obtain ⟨q, -, rfl⟩ := hp
  exact incoming_notFor n q

/-- The launch's key and micro-context let it go. -/
def keyUnbound (s : State) (l : Launch) : State :=
  if l.house then s
  else
    let s := s.setKeySlot l.keySlot { s.keySlotAt l.keySlot with binds := (s.keySlotAt l.keySlot).binds - 1 }
    s.modMcb l.mcx fun b => { b with running := b.running - 1 }

theorem circKept_keyUnbound (l : Launch) : CircKept s (keyUnbound s l) :=
  .ite (.refl s) (CircKept.trans (t := s.setKeySlot l.keySlot _) (.of_circ rfl) (circKept_modMcb ..))

/-- Its cores have left it. -/
def coresEnded (s : State) (n : Nat) (l : Launch) : State :=
  l.cores.foldl (fun s c => s.endCore c) (incomingDropped (keyUnbound s l) n)

/-- The launch is on no wait list, and no fence of it holds anything. -/
def waitsEnded (s : State) (n : Nat) : State := (s.leaveWait n).dropFences n

theorem waitsEnded_gens (n : Nat) : (waitsEnded s n).circ.gens = s.circ.gens := rfl
theorem waitsEnded_owner (n : Nat) : (waitsEnded s n).owner c = s.owner c := rfl
theorem waitsEnded_counter (n k : Nat) : circCounter k (waitsEnded s n) = circCounter k s := rfl

/-- Its slot is free for the next generation, and its strand records go back. -/
def slotFreed (s : State) (n : Nat) (l : Launch) : State :=
  (s.setLaunch n none).modCirc fun c => { c with
    gens := SMap.upd c.gens n 0 fun g => (g + 1) % 2 ^ 20
    recShared := c.recShared - l.recShared
    recPart := match l.part with | some p => SMap.upd c.recPart p 0 fun k => k - l.recOwn | none => c.recPart }

theorem slotFreed_launchAt (l : Launch) : (slotFreed s n l).launchAt n = none := launchAt_setLaunch s n none
theorem slotFreed_gen (l : Launch) : SMap.get (slotFreed s n l).circ.gens n 0 = (SMap.get s.circ.gens n 0 + 1) % 2 ^ 20 := get_set_same ..
theorem slotFreed_owner (l : Launch) : (slotFreed s n l).owner c = s.owner c := rfl
theorem slotFreed_counter (l : Launch) (k : Nat) : circCounter k (slotFreed s n l) = circCounter k s := rfl

theorem dissolve_eq {l : Launch} (h : s.launchAt n = some l) :
    s.dissolve n = slotFreed (waitsEnded ((coresEnded s n l).dropSaved n) n) n l := by
  rw [State.dissolve, h]
  rfl

theorem dissolve_gone {l : Launch} (h : s.launchAt n = some l) : Gone n l.cores s (s.dissolve n) := by
  have hkey : CircKept s (keyUnbound s l) := circKept_keyUnbound l
  have hnone : NoneIncoming n (incomingDropped (keyUnbound s l) n) := noneIncoming_incomingDropped n _
  have hmove : CoresMove (incomingDropped (keyUnbound s l) n) (coresEnded s n l) := .foldl (fun _ => coresMove_endCore) _ _
  have hsaved : CircKept (coresEnded s n l) ((coresEnded s n l).dropSaved n) := circKept_dropSaved n
  rw [dissolve_eq h]
  refine ⟨slotFreed_launchAt l, ?_, fun c hc => ?_, ?_⟩
  · rw [slotFreed_gen, waitsEnded_gens, hsaved.gens, hmove.gens, ← hkey.gens, incomingDropped]
  · rw [slotFreed_owner, waitsEnded_owner, hsaved.owner]
    exact owner_endCores_ne l.cores hnone (.inl hc)
  · rw [slotFreed_counter, waitsEnded_counter, hsaved.counter, hmove.counter 7 (by decide) (by decide), ← hkey.counter 7]
    rfl

/-! Retirement (05 R131, 06 R175). -/

theorem retire_gone {l : Launch} (h : s.launchAt n = some l) : Gone n l.cores s (s.retire n) := by
  rw [State.retire, h]
  dsimp -zeta only
  extract_lets cls t done u v w x
  have ht : CircKept s t := by
    refine ((circKept_landCores n).trans (circKept_dump n)).trans ?_
    unfold t
    split
    · exact circKept_reply ..
    · exact .refl _
  have hu : CircKept s u := ht.trans (.ite (circKept_modMcb ..) (.refl t))
  have hv : Gone n l.cores s v := hu.gone (dissolve_gone ((hu.launchAt n).trans h))
  have hw : Gone n l.cores s w := hv.circKept (.ite (.of_circ rfl) (.refl v))
  have hx : Gone n l.cores s x := hw.circKept (circKept_reportLaunch ..)
  exact hx.circKept (.ite (.refl x) (circKept_teardown _))

theorem endUnstarted_gone {l : Launch} (h : s.launchAt n = some l) (cls : Nat) : Gone n l.cores s (s.endUnstarted n cls) := by
  rw [State.endUnstarted, h]
  dsimp -zeta only
  extract_lets t done u v
  have ht : CircKept s t := by
    unfold t
    split
    · exact circKept_reply ..
    · exact .refl s
  have hu : Gone n l.cores s u := ht.gone (dissolve_gone ((ht.launchAt n).trans h))
  have hv : Gone n l.cores s v := hu.circKept (circKept_reportLaunch ..)
  exact hv.circKept (.ite (.refl v) (circKept_teardown _))

/-- LAUNCH_RETIRE retires a launch that has ended, when its accesses are performed and landed, and one that is done and quiet. -/
theorem exec_launchRetire {l : Launch} (h : s.launchAt s.ev.a = some l)
    (hr : ((l.st = .retiring ∧ ∀ r, r ∈ s.mem.net → r.launch = s.ev.a → r.lsbu = true ∨ r.path ≤ 1 → r.performed = true) ∧ s.filled s.ev.a = true) ∨
      (l.st = .bound ∧ l.allExited = true ∧ s.heldFault s.ev.a = none ∧ s.launchQuiet s.ev.a = true)) :
    exec .launchRetire s = .next (s.retire s.ev.a) := by
  change execLaunchRetire s = _
  rw [execLaunchRetire, h]
  dsimp only
  obtain ⟨⟨hst, hnet⟩, hfill⟩ | ⟨hst, hexit, hheld, hquiet⟩ := hr
  · have hout : (s.mem.net.any fun r => r.launch == s.ev.a && (r.lsbu || decide (r.path ≤ 1)) && !r.performed) = false := by
      rw [List.any_eq_false]
      intro r hm hp
      simp only [Bool.and_eq_true, Bool.or_eq_true, beq_iff_eq, decide_eq_true_eq, Bool.not_eq_true'] at hp
      obtain ⟨⟨hl, hpath⟩, hperf⟩ := hp
      rw [hnet r hm hl hpath] at hperf
      cases hperf
    simp [hst, hout, hfill]
  · simp [hst, hexit, hheld, hquiet]

theorem exec_launchRetire_idle {l : Launch} (h : s.launchAt s.ev.a = some l) (hr : l.st ≠ .retiring) (hw : l.st ≠ .bound ∨ l.allExited = false) :
    exec .launchRetire s = .next s := by
  have hidle : (l.st != .bound || !l.allExited) = true := by simpa using hw
  change execLaunchRetire s = _
  simp only [execLaunchRetire, h, beq_false_of_ne hr, Bool.false_eq_true, if_false, hidle, if_true]

/-! Deadlines (06 R175). -/

/-- The launch as its end leaves it, to retire. -/
def endedWith (l : Launch) (cause : Nat) (strand : Option Nat) (time : Nat) : Launch :=
  { l with
    ended := match l.ended with | some e => some e | none => some (causeClass cause, cause, time, strand)
    st := .retiring
    rotate := none
    strands := l.strands.map fun r => (r.1, if r.2.st == .running then { r.2 with st := .exited } else r.2) }

theorem ended_endedWith {l : Launch} (h : l.ended = none) (cause : Nat) (strand : Option Nat) (time : Nat) :
    (endedWith l cause strand time).ended = some (causeClass cause, cause, time, strand) := by rw [endedWith, h]

theorem endLaunch_circ {l : Launch} (h : s.launchAt n = some l) (cause : Nat) (strand : Option Nat) :
    CircKept (s.setLaunch n (some (endedWith l cause strand s.time.toNat))) (endLaunch n cause strand s) := by
  rw [endLaunch, h]
  dsimp only
  exact .foldl (fun _ _ => .ite (.of_circ (modCore_circ ..)) (.refl _)) _ _

/-- A launch that has never run goes at once. -/
theorem endAny_unrun {l : Launch} (h : s.launchAt n = some l) (hst : l.st = .waiting) (hf : l.firstAt = none) (cause unrun : Nat) :
    Gone n l.cores s (s.endAny n cause unrun) := by
  have he : s.endAny n cause unrun = s.endUnstarted n unrun := by simp [State.endAny, h, hst, Launch.hasRun, hf]
  exact he ▸ endUnstarted_gone h unrun

/-- Any other is left to retire. -/
theorem endAny_run {l : Launch} (h : s.launchAt n = some l) (hw : l.st ≠ .waiting ∨ l.firstAt ≠ none) (cause unrun : Nat) :
    (s.endAny n cause unrun).launchAt n = some (endedWith l cause none s.time.toNat) ∧
      circCounter 7 (s.endAny n cause unrun) = circCounter 7 s := by
  have hk := endLaunch_circ h cause none
  have he : s.endAny n cause unrun = (endLaunch n cause none s).leaveWait n := by
    have hrun : (l.st == .waiting && !l.hasRun) = false := by
      rw [Launch.hasRun, Bool.eq_false_iff]
      simp only [ne_eq, Bool.and_eq_true, beq_iff_eq, Bool.not_eq_true', Option.isSome_eq_false_iff, Option.isNone_iff_eq_none]
      exact fun ⟨a, b⟩ => hw.elim (· a) (· b)
    rw [State.endAny, h]
    dsimp only
    rw [hrun]
    rfl
  rw [he]
  exact ⟨(hk.launchAt n).trans (launchAt_setLaunch ..), hk.counter 7⟩

theorem exec_deadlineExpiry {l : Launch} (h : s.launchAt s.ev.a = some l) (hd : l.record.deadline ≠ 0) (hp : l.parkNo = 0)
    (hst : l.st ≠ .retiring) (ht : l.deadlineFrom + 1000 * l.record.deadline ≤ s.time.toNat) :
    exec .deadlineExpiry s = .next ((s.endAny s.ev.a 0x0701 7).countCirc 7) := by
  have hdue : (l.record.deadline == 0 || l.parkNo != 0 || l.st == .retiring ||
      decide (s.time.toNat < l.deadlineFrom + 1000 * l.record.deadline)) = false := by
    simp [hd, hp, beq_false_of_ne hst, Nat.not_lt.2 ht]
  change execDeadlineExpiry s = _
  rw [execDeadlineExpiry, h]
  dsimp only
  rw [hdue]
  rfl

theorem exec_deadlineExpiry_idle {l : Launch} (h : s.launchAt s.ev.a = some l)
    (hd : l.record.deadline = 0 ∨ l.parkNo ≠ 0 ∨ l.st = .retiring ∨ s.time.toNat < l.deadlineFrom + 1000 * l.record.deadline) :
    exec .deadlineExpiry s = .next s := by
  have hidle : (l.record.deadline == 0 || l.parkNo != 0 || l.st == .retiring ||
      decide (s.time.toNat < l.deadlineFrom + 1000 * l.record.deadline)) = true := by
    simpa [or_assoc] using hd
  change execDeadlineExpiry s = _
  rw [execDeadlineExpiry, h]
  dsimp only
  rw [if_pos hidle]

/-! Parking (06 R174). -/

/-- Launch `n` has woken and waits for cores. -/
def Woken (n : Nat) (t : State) : Prop := ∃ l', t.launchAt n = some l' ∧ l'.st = .preempted ∧ l'.parkNo = 0 ∧ l'.parkAddr = none ∧
  n ∈ SMap.get t.circ.waits (waitKey l'.part) []

theorem launchAt_modCirc (g : Circ → Circ) (h : (g s.circ).launches = s.circ.launches) : (s.modCirc g).launchAt n = s.launchAt n := by
  rw [State.launchAt, State.modCirc, h, State.launchAt]

/-- A launch that enters its wait list differs in its place there alone. -/
theorem enterWait_some {l : Launch} (h : s.launchAt n = some l) :
    (s.enterWait n).launchAt n = some { l with waitAt := s.time.toNat, aged := l.prio } ∧
      n ∈ SMap.get (s.enterWait n).circ.waits (waitKey l.part) [] ∧ (s.enterWait n).circ.reports = s.circ.reports := by
  have hw : SMap.get (s.enterWait n).circ.waits (waitKey l.part) [] = withElem (SMap.get s.circ.waits (waitKey l.part) []) n := by
    rw [State.enterWait, h]
    exact get_set_same _ _ _ _
  refine ⟨?_, hw ▸ mem_withElem _ n, ?_⟩
  all_goals rw [State.enterWait, h]
  · exact (launchAt_modCirc _ rfl).trans (launchAt_setLaunch ..)
  · rfl

theorem unpark_woken {l : Launch} (h : s.launchAt n = some l) : Woken n (s.unpark n) ∧ (s.unpark n).circ.reports = s.circ.reports := by
  rw [State.unpark, h]
  dsimp -zeta only
  extract_lets mine m
  obtain ⟨hl, hw, hr⟩ := enterWait_some (launchAt_setLaunch s n
    (some { m with st := .preempted, parkAddr := none, parkNo := 0, deadlineFrom := m.deadlineFrom + (s.time.toNat - m.parkAt) }))
  exact ⟨⟨_, hl, rfl, rfl, rfl, hw⟩, hr⟩

theorem exec_parkWake_none {a : Nat} {r : List Nat} (hr : s.circ.reports = a :: r) (hp : s.parkedOn a = []) :
    exec .parkWake s = .next (s.modCirc fun c => { c with reports := r }) := by
  change execParkWake s = _
  simp only [execParkWake, hr, hp]

theorem exec_parkWake {a m : Nat} {r ms : List Nat} {l : Launch} (hr : s.circ.reports = a :: r) (hp : s.parkedOn a = m :: ms)
    (h : s.launchAt m = some l) :
    exec .parkWake s = .next (if l.st = .parked then (s.modCirc fun c => { c with reports := r }).unpark m else s) := by
  change execParkWake s = _
  simp only [execParkWake, hr, hp, h, Option.getD_some, beq_iff_eq]

theorem exec_parkTimeout {l : Launch} (h : s.launchAt s.ev.a = some l) :
    exec .parkTimeout s = .next (if l.st = .parked ∧ l.parkAt + 1000000 ≤ s.time.toNat then s.unpark s.ev.a else s) := by
  change execParkTimeout s = _
  simp only [execParkTimeout, h, Bool.and_eq_true, beq_iff_eq, decide_eq_true_eq]

/-- The parking, expiry and retirement half of O50. -/
theorem launchesParkExpireAndRetire : LaunchesParkExpireAndRetire := by
  intro s
  refine ⟨fun a r hr => ⟨fun hp => ⟨_, exec_parkWake_none hr hp, rfl⟩, fun n ns l hp hl => ⟨fun hst => ?_, fun hst => ?_⟩⟩, fun l hl => ?_⟩
  · obtain ⟨hw, hrep⟩ := unpark_woken (s := s.modCirc fun c => { c with reports := r }) hl
    exact ⟨_, (exec_parkWake hr hp hl).trans (by rw [if_pos hst]), hrep, hw⟩
  · rw [exec_parkWake hr hp hl, if_neg hst]
  · refine ⟨fun hst ht => ?_, fun hno => ?_, fun hd hp hst ht => ?_, exec_deadlineExpiry_idle hl, fun hr => ?_, exec_launchRetire_idle hl⟩
    · exact ⟨_, (exec_parkTimeout hl).trans (by rw [if_pos ⟨hst, ht⟩]), (unpark_woken hl).1⟩
    · rw [exec_parkTimeout hl, if_neg]
      exact fun ⟨hst, ht⟩ => hno.elim (· hst) (fun hlt => absurd ht (Nat.not_le.2 hlt))
    · refine ⟨_, exec_deadlineExpiry hl hd hp hst ht, ?_, fun hw hf => ?_, fun hw => ?_⟩
      · rw [circCounter_countCirc]
        by_cases hw : l.st = .waiting ∧ l.firstAt = none
        · rw [(endAny_unrun hl hw.1 hw.2 _ _).expired]
        · rw [(endAny_run hl (not_and_or.1 hw) _ _).2]
      · exact (endAny_unrun hl hw hf 0x0701 7).slot
      · exact ⟨_, (endAny_run hl hw 0x0701 7).1, rfl, fun he => ended_endedWith he ..⟩
    · have hgone := retire_gone hl
      exact ⟨_, exec_launchRetire hl hr, hgone.slot, hgone.gen, hgone.cores⟩

end
end Sys2Proof.Proofs
end

section
/-! What a save writes to its area (O50): record, scalar registers, and what does not overlap them. -/
namespace Sys2Proof.Proofs
open Sys2Proof Sys2Proof.Machine Sys2Proof.Laws Sys2Proof.Stated

/-! Parts of lists and of written memory. -/

theorem readN_writeN_slice (m : List Host.Cell) (a o n : Nat) (bs : List Byte) (h : o + n ≤ bs.length) :
    Memory.readN (Memory.writeN m a bs) (a + o) n = slice bs o n := by
  refine List.ext_getElem (by rw [readN_length, length_slice h]) fun i h1 h2 => ?_
  have hi : i < n := by rwa [readN_length] at h1
  simp only [Memory.readN, slice, List.getElem_map, List.getElem_range, List.getElem_take, List.getElem_drop]
  rw [Nat.add_assoc, read_writeN_in m a bs (o + i) (by omega)]

/-- Of blocks of one length, the `j`-th. -/
theorem slice_flatMap_const {α β : Type} {f : α → List β} {w : Nat} (hf : ∀ a, (f a).length = w) (l : List α) (j : Nat) (h : j < l.length) :
    slice (l.flatMap f) (w * j) w = f l[j] := by
  induction l generalizing j with
  | nil => exact absurd h (Nat.not_lt_zero j)
  | cons a l ih =>
    cases j with
    | zero => simp [slice, List.take_append_of_le_length (hf a).ge, (hf a).le]
    | succ j =>
      have hd : w * (j + 1) = (f a).length + w * j := by rw [hf, Nat.mul_succ, Nat.add_comm]
      rw [List.flatMap_cons, slice, hd, List.drop_length_add_append]
      exact ih j (Nat.lt_of_succ_lt_succ h)

section
variable {s t u : State} {n c d : Nat}

/-! Pieces of a save area. -/

/-- The bytes of `n` from `o` on lie outside a piece. -/
def Apart (o n : Nat) (p : Nat × List Byte) : Prop := o + n ≤ p.1 ∨ p.1 + p.2.length ≤ o

theorem phys_putArea_other {tag pa a k : Nat} {bs : List Byte} (h : a + k ≤ pa ∨ pa + bs.length ≤ a) :
    (s.putArea tag pa bs).phys a k = s.phys a k := readN_writeN_other _ _ _ _ _ h

theorem phys_putArea {tag pa o k : Nat} {bs : List Byte} (h : o + k ≤ bs.length) : (s.putArea tag pa bs).phys (pa + o) k = slice bs o k :=
  readN_writeN_slice _ _ _ _ _ h

theorem putPieces_append (tag area : Nat) (ps qs : List (Nat × List Byte)) :
    s.putPieces tag area (ps ++ qs) = (s.putPieces tag area ps).putPieces tag area qs := List.foldl_append

theorem phys_putPieces_other {tag area o k : Nat} {ps : List (Nat × List Byte)} (h : ∀ p ∈ ps, Apart o k p) :
    (s.putPieces tag area ps).phys (area + o) k = s.phys (area + o) k := by
  induction ps generalizing s with
  | nil => rfl
  | cons p ps ih =>
    refine (ih (s := s.putArea tag (area + p.1) p.2) fun q hq => h q (List.mem_cons_of_mem p hq)).trans (phys_putArea_other ?_)
    have hp := h p List.mem_cons_self
    unfold Apart at hp
    omega

/-- A part of a piece that no later one overlaps. -/
theorem phys_putPieces {tag area o k : Nat} {p : Nat × List Byte} (pre post : List (Nat × List Byte)) (hp : o + k ≤ p.2.length)
    (h : ∀ q ∈ post, Apart (p.1 + o) k q) : (s.putPieces tag area (pre ++ p :: post)).phys (area + (p.1 + o)) k = slice p.2 o k := by
  rw [putPieces_append]
  refine (phys_putPieces_other (s := (s.putPieces tag area pre).putArea tag (area + p.1) p.2) h).trans ?_
  rw [← Nat.add_assoc]
  exact phys_putArea hp

theorem memOnly_putPieces (tag area : Nat) (ps : List (Nat × List Byte)) : MemOnly s (s.putPieces tag area ps) :=
  memOnly_foldl (fun _ _ => memOnly_putArea ..) ps s

/-- What the other classes save lies above the strand's record, masks and scalar registers. -/
theorem ctxPieces_apart {o k : Nat} (h : o + k ≤ 0x2000) (x : CoreCtx) : ∀ p ∈ x.pieces, Apart o k p := by
  intro p hp
  simp only [CoreCtx.pieces, List.mem_append, List.mem_map] at hp
  left
  obtain (⟨e, -, rfl⟩ | ⟨e, -, rfl⟩) | ⟨e, -, rfl⟩ := hp
  · dsimp only; omega
  · dsimp only; omega
  · dsimp only; omega

/-- The matrix registers and the vector registers lie above them too. -/
theorem regPieces_apart {o k : Nat} (h : o + k ≤ 0x500) (th : Thread) :
    ∀ p ∈ (th.z.map fun e => (0x500 + 128 * e.1, natLe 66 e.2.toNat)) ++
      ((th.v.filter fun e => th.mab.getLsbD (e.1 / 16)).map fun e => (0x20000 + 256 * e.1, vBytes e.2)), Apart o k p := by
  intro p hp
  simp only [List.mem_append, List.mem_map] at hp
  left
  obtain ⟨e, -, rfl⟩ | ⟨e, -, rfl⟩ := hp
  · dsimp only; omega
  · dsimp only; omega

/-- The scalar registers in their place, eight bytes each. -/
def scalarBytes (th : Thread) : List Byte := (List.range 64).flatMap fun k => natLe 8 (th.rS k).toNat

theorem length_scalarBytes (th : Thread) : (scalarBytes th).length = 512 := by
  simp [scalarBytes, List.length_flatMap]

theorem slice_scalarBytes (th : Thread) (j : Nat) (h : j < 64) : slice (scalarBytes th) (8 * j) 8 = natLe 8 (th.rS j).toNat := by
  have hj : j < (List.range 64).length := by simpa using h
  rw [scalarBytes, slice_flatMap_const (f := fun k => natLe 8 (th.rS k).toNat) (fun k => natLe_length 8 _) _ j hj, List.getElem_range]

/-! The record (07 R178 R179). -/

/-- Word 0 carries the program counter, and P with a save area. -/
theorem word0_pc (r : Strand) (gang : Bool) : r.word0 gang % 2 ^ 64 % 2 ^ 48 = r.pc % 2 ^ 48 := by
  unfold Strand.word0
  omega

theorem word0_saved {r : Strand} (h : r.save.isSome = true) (gang : Bool) : r.word0 gang % 2 ^ 64 / 2 ^ 52 % 2 = 1 := by
  have hp : b2n r.save.isSome = 1 := by rw [h]; rfl
  unfold Strand.word0
  omega

theorem length_bytes (r : Strand) (l : Launch) (m ptr : Nat) : (r.bytes l m ptr).length = 64 := by
  simp only [Strand.bytes, List.length_append, natLe_length]

theorem slice_bytes (r : Strand) (l : Launch) (m ptr : Nat) : slice (r.bytes l m ptr) 0 8 = natLe 8 (r.word0 l.record.gang) := by
  have hl : 0 + 8 ≤ (natLe 8 (r.word0 l.record.gang)).length := (natLe_length ..).ge
  simp only [Strand.bytes, List.append_assoc]
  rw [slice_append_left hl, slice, List.drop_zero, List.take_of_length_le (natLe_length ..).le]

/-! The strand's pieces (11 R323 R324). -/

/-- Trap record, masks and control registers fill the place between the record and the scalar registers. -/
def headBytes (th : Thread) : List Byte :=
  th.trapRecord ++ natLe 16 th.mab.toNat ++ natLe 8 0 ++ th.csrs.flatMap fun w => natLe 8 w.toNat

def quadBytes (th : Thread) : List Byte := (List.range 16).flatMap fun k => natLe 32 (th.rQ k).toNat

/-- What lies above the quad registers. -/
def highPieces (th : Thread) : List (Nat × List Byte) :=
  (th.z.map fun e => (0x500 + 128 * e.1, natLe 66 e.2.toNat)) ++
    ((th.v.filter fun e => th.mab.getLsbD (e.1 / 16)).map fun e => (0x20000 + 256 * e.1, vBytes e.2))

theorem pieces_eq (th : Thread) (record : List Byte) :
    th.pieces record = (0, record) :: (0x40, headBytes th) :: (0x100, scalarBytes th) :: (0x300, quadBytes th) :: highPieces th := rfl

theorem phys_pieces_record {tag area : Nat} {record : List Byte} (th : Thread) (h : record.length = 64) :
    (s.putPieces tag area (th.pieces record)).phys area 8 = slice record 0 8 := by
  rw [pieces_eq]
  refine phys_putPieces (o := 0) (p := (0, record)) [] _ (by dsimp only; omega) fun q hq => ?_
  obtain rfl | hq := List.mem_cons.1 hq
  · left; dsimp only; omega
  obtain rfl | hq := List.mem_cons.1 hq
  · left; dsimp only; omega
  obtain rfl | hq := List.mem_cons.1 hq
  · left; dsimp only; omega
  · exact regPieces_apart (o := 0) (by decide) th q hq

theorem phys_pieces_scalar {tag area j : Nat} (th : Thread) (record : List Byte) (hj : j < 64) :
    (s.putPieces tag area (th.pieces record)).phys (area + (0x100 + 8 * j)) 8 = natLe 8 (th.rS j).toNat := by
  have hlen : 8 * j + 8 ≤ (scalarBytes th).length := by rw [length_scalarBytes]; omega
  rw [pieces_eq, ← slice_scalarBytes th j hj]
  refine phys_putPieces (p := (0x100, scalarBytes th)) [(0, record), (0x40, headBytes th)] _ hlen fun q hq => ?_
  obtain rfl | hq := List.mem_cons.1 hq
  · left; dsimp only; omega
  · exact regPieces_apart (by dsimp only; omega) th q hq

/-! A whole save. -/

theorem memOnly_writeSave (m area : Nat) (th : Option (Nat × Thread)) (x : CoreCtx) : MemOnly s (s.writeSave m area th x) := by
  have htag (tag : Nat) : MemOnly s (s.tagArea tag area) := memOnly_foldl (fun _ _ => ⟨_, rfl⟩) _ s
  unfold State.writeSave
  extract_lets l t u
  have hu : MemOnly t u := by
    unfold u
    split
    · exact memOnly_putPieces ..
    · exact memOnly_refl t
  exact ((htag l.tag).trans hu).trans (memOnly_putPieces ..)

/-- The record as a save writes it. -/
def recordSaved (l : Launch) (i : Nat) (th : Thread) : Strand :=
  { l.strand i with st := .ready, pc := th.pc, slotRes := th.slotRes, th := th.th, save := some 0 }

theorem writeSave_some (m area i : Nat) (th : Thread) (x : CoreCtx) : ∃ t : State, ∃ l : Launch,
    s.writeSave m area (some (i, th)) x =
      (t.putPieces l.tag area (th.pieces ((recordSaved l i th).bytes l m area))).putPieces l.tag area x.pieces :=
  ⟨_, _, rfl⟩

theorem physLe_writeSave_record (m area i : Nat) (th : Thread) (x : CoreCtx) :
    (s.writeSave m area (some (i, th)) x).physLe area 8 % 2 ^ 48 = th.pc % 2 ^ 48 ∧
      (s.writeSave m area (some (i, th)) x).physLe area 8 / 2 ^ 52 % 2 = 1 := by
  obtain ⟨t, l, h⟩ := writeSave_some (s := s) m area i th x
  have hphys : (s.writeSave m area (some (i, th)) x).physLe area 8 = (recordSaved l i th).word0 l.record.gang % 2 ^ 64 := by
    have hrec := phys_pieces_record (s := t) (tag := l.tag) (area := area) th (length_bytes (recordSaved l i th) l m area)
    have hctx := phys_putPieces_other (s := t.putPieces l.tag area (th.pieces ((recordSaved l i th).bytes l m area)))
      (tag := l.tag) (area := area) (ctxPieces_apart (o := 0) (k := 8) (by decide) x)
    rw [Nat.add_zero] at hctx
    rw [h, State.physLe, hctx, hrec, slice_bytes, leNat_natLe]
  rw [hphys]
  exact ⟨word0_pc .., word0_saved rfl _⟩

theorem physLe_writeSave_scalar (m area i : Nat) (th : Thread) (x : CoreCtx) {j : Nat} (hj : j < 64) :
    (s.writeSave m area (some (i, th)) x).physLe (area + 0x100 + 8 * j) 8 = (th.rS j).toNat := by
  obtain ⟨t, l, h⟩ := writeSave_some (s := s) m area i th x
  rw [h, State.physLe, Nat.add_assoc, phys_putPieces_other (ctxPieces_apart (by omega) x), phys_pieces_scalar th _ hj, leNat_natLe]
  exact Nat.mod_eq_of_lt (th.rS j).isLt

end
end Sys2Proof.Proofs
end

section
/-! A core is saved and leaves its victim (O50). -/
namespace Sys2Proof.Proofs
open Sys2Proof Sys2Proof.Machine Sys2Proof.Laws Sys2Proof.Stated

section
variable {s t u : State} {n c d v i : Nat} {fab : Bool}

/-! The sequencer takes what core `c` wrote to OCC and DLEN (06 R173). -/

/-- Of the launches only OCC and DLEN differ, of core `c` only the writes on their way, and nothing else. -/
structure SeqTaken (c : Nat) (s t : State) : Prop where
  circ : ∃ ls, t.circ = { s.circ with launches := ls }
  mem : t.mem = s.mem
  core : ∃ r, t.core c = { s.core c with seqWrites := r }
  launch : ∀ n l, s.launchAt n = some l → ∃ o d, t.launchAt n = some { l with occ := o, dlen := d }

theorem SeqTaken.refl (c : Nat) (s : State) : SeqTaken c s s := ⟨⟨_, rfl⟩, rfl, ⟨_, rfl⟩, fun _ _ h => ⟨_, _, h⟩⟩

theorem SeqTaken.trans (h : SeqTaken c s t) (k : SeqTaken c t u) : SeqTaken c s u := by
  obtain ⟨⟨_, hc⟩, hm, ⟨_, hk⟩, hl⟩ := h
  obtain ⟨⟨_, kc⟩, km, ⟨_, kk⟩, kl⟩ := k
  refine ⟨⟨_, by rw [kc, hc]⟩, km.trans hm, ⟨_, by rw [kk, hk]⟩, fun n l h => ?_⟩
  obtain ⟨_, _, h⟩ := hl n l h
  obtain ⟨_, _, h⟩ := kl n _ h
  exact ⟨_, _, h⟩

theorem seqTaken_takeSeqWrite (c : Nat) : SeqTaken c s (s.takeSeqWrite c) := by
  unfold State.takeSeqWrite
  extract_lets k
  split
  · next n isDlen w r _ _ =>
    obtain ⟨ls, hls⟩ := modLaunch_circ (s := s.setCore c { k with seqWrites := r }) n fun l =>
      if isDlen then { l with dlen := w.setWidth 8 } else { l with occ := w.setWidth 16 }
    refine ⟨⟨ls, hls⟩, modLaunch_mem .., ⟨r, ?_⟩, fun m l h => ?_⟩
    · rw [State.core, modLaunch_cores]
      exact core_setCore s c { k with seqWrites := r }
    · by_cases hm : m = n
      · subst hm
        rw [launchAt_modLaunch (s := s.setCore c { k with seqWrites := r }) h]
        split
        · exact ⟨_, _, rfl⟩
        · exact ⟨_, _, rfl⟩
      · rw [launchAt_modLaunch_other _ hm]
        exact ⟨_, _, h⟩
  · exact .refl c s

theorem seqTaken_takeSeqWrites (c : Nat) : SeqTaken c s (s.takeSeqWrites c) := by
  unfold State.takeSeqWrites
  generalize (s.core c).seqWrites = ws
  induction ws generalizing s with
  | nil => exact .refl c s
  | cons w ws ih => exact (seqTaken_takeSeqWrite c).trans ih

/-! The save (11 R323 R324). -/

/-- Record `j` is ready to be taken up on core `c`, from save area `i`. -/
structure Resumable (c i j : Nat) (l : Launch) : Prop where
  ready : (l.strand j).st = .ready
  save : (l.strand j).save = some i
  tie : (l.strand j).tie = some c
  listed : j ∈ l.ready

theorem Resumable.of_records {j : Nat} {l m : Launch} (h : Resumable c i j l) (hs : m.strands = l.strands) (hr : m.ready = l.ready) :
    Resumable c i j m where
  ready := by rw [Launch.strand, hs, ← Launch.strand, h.ready]
  save := by rw [Launch.strand, hs, ← Launch.strand, h.save]
  tie := by rw [Launch.strand, hs, ← Launch.strand, h.tie]
  listed := hr ▸ h.listed

/-- A record as the save of its thread in area `i` from core `c` leaves it. -/
def savedRecord (c i : Nat) (th : Thread) (r : Strand) : Strand :=
  { r with st := .ready, pc := th.pc, slotRes := th.slotRes, th := th.th, save := some i, tie := some c }

/-- The launch with record `j` put back so. -/
def strandSaved (c i j : Nat) (th : Thread) (l : Launch) : Launch :=
  { (l.modStrand j (savedRecord c i th)) with ready := without l.ready j ++ [j] }

theorem strand_strandSaved (c i j : Nat) (th : Thread) (l : Launch) : (strandSaved c i j th l).strand j = savedRecord c i th (l.strand j) :=
  get_set_same l.strands j (savedRecord c i th (l.strand j)) {}

theorem resumable_strandSaved (c i j : Nat) (th : Thread) (l : Launch) : Resumable c i j (strandSaved c i j th l) where
  ready := by rw [strand_strandSaved, savedRecord]
  save := by rw [strand_strandSaved, savedRecord]
  tie := by rw [strand_strandSaved, savedRecord]
  listed := List.mem_append_right _ List.mem_cons_self

/-- What stands of core `c` of launch `v` beside its save area `i`. -/
def saveOf (s : State) (c v i : Nat) (fab : Bool) : Save :=
  { area := s.mem.saveBase + 0x400000 * i, launch := v, core := c, th := (s.core c).strand.map fun _ => (s.core c).settleAcc.th, fabWait := fab }

/-- The area is written, and the core left without a strand. -/
structure CoreSaved (c v i : Nat) (fab : Bool) (s t : State) : Prop where
  counter : circCounter 3 t = circCounter 3 s
  save : SMap.get t.saves i none = some (saveOf s c v i fab)
  strand : (t.core c).strand = none
  victim : ∀ l, s.launchAt v = some l → ∃ l', t.launchAt v = some l' ∧ l'.cores = l.cores ∧ ∀ j, (s.core c).strand = some j → Resumable c i j l'
  others : ∀ n l, n ≠ v → s.launchAt n = some l → ∃ l', t.launchAt n = some l' ∧ l'.cores = l.cores
  bytes : ∀ j, (s.core c).strand = some j → (s.core c).resident = none → ∃ (u : State) (x : CoreCtx),
    t.mem.bytes = (u.writeSave v (s.mem.saveBase + 0x400000 * i) (some (j, (s.core c).settleAcc.th)) x).mem.bytes

/-- The launch as the save of core `c`, with the strand that runs there or none, leaves it. -/
def launchSaved (c i : Nat) (th : Thread) (strand : Option Nat) (l : Launch) : Launch :=
  match strand with
  | some j => strandSaved c i j th l
  | none => { l with coreSaves := SMap.set l.coreSaves c (some i) none }

theorem cores_launchSaved (c i : Nat) (th : Thread) (strand : Option Nat) (l : Launch) : (launchSaved c i th strand l).cores = l.cores := by
  cases strand with
  | none => rfl
  | some j => rfl

/-- The area as the save writes it, after a spill of what is resident there. -/
def areaSaved (s : State) (c v i : Nat) : State :=
  (if (s.core c).resident.isSome then s.spill c else s).writeSave v (s.mem.saveBase + 0x400000 * i)
    ((s.core c).strand.map fun j => (j, (s.core c).settleAcc.th)) (s.core c).settleAcc.ctx

/-- The area is in use, and the core holds the victim's context but no strand. -/
def coreCleared (s : State) (c v i : Nat) (k : CoreSt) (save : Save) : State :=
  ((s.setSave i (some save)).moveFences v c (600 + i)).modCore c fun _ =>
    { k with resident := some (v, k.ctx.settled), ctx := {}, strand := none, th := { cycle := k.th.cycle, bundles := k.th.bundles } }

theorem saveCore_eq (c v i : Nat) (fab : Bool) : s.saveCore c v i fab =
    (coreCleared (areaSaved (s.takeSeqWrites c) c v i) c v i ((s.takeSeqWrites c).core c).settleAcc (saveOf (s.takeSeqWrites c) c v i fab)).modLaunch v
      (launchSaved c i ((s.takeSeqWrites c).core c).settleAcc.th ((s.takeSeqWrites c).core c).settleAcc.strand) := by
  unfold State.saveCore
  extract_lets s1 k save s2 s3 s4
  change _ = s4.modLaunch v (launchSaved c i k.th k.strand)
  split
  · next j h =>
    rw [h]
    rfl
  · next h =>
    rw [h]
    rfl

theorem coreCleared_circ (k : CoreSt) (x : Save) : (coreCleared s c v i k x).circ = s.circ := rfl

theorem saves_coreCleared (k : CoreSt) (x : Save) : SMap.get (coreCleared s c v i k x).saves i none = some x :=
  get_set_same s.saves i (some x) none

theorem bytes_coreCleared (k : CoreSt) (x : Save) : (coreCleared s c v i k x).mem.bytes = s.mem.bytes := rfl

theorem strand_coreCleared (k : CoreSt) (x : Save) : ((coreCleared s c v i k x).core c).strand = none :=
  congrArg CoreSt.strand (core_modCore ((s.setSave i (some x)).moveFences v c (600 + i)) c _)

theorem areaSaved_circ (c v i : Nat) : (areaSaved s c v i).circ = s.circ ∨ (areaSaved s c v i).circ = (s.countCirc 6).circ := by
  obtain ⟨m, h⟩ := memOnly_writeSave (s := if (s.core c).resident.isSome then s.spill c else s) v (s.mem.saveBase + 0x400000 * i)
    ((s.core c).strand.map fun j => (j, (s.core c).settleAcc.th)) (s.core c).settleAcc.ctx
  rw [areaSaved, h]
  split
  · exact spill_circ c
  · exact .inl rfl

theorem launchAt_areaSaved (c v i n : Nat) : (areaSaved s c v i).launchAt n = s.launchAt n := by
  obtain h | h := areaSaved_circ (s := s) c v i
  · rw [State.launchAt, h, State.launchAt]
  · rw [State.launchAt, h]
    rfl

theorem circCounter_areaSaved (c v i : Nat) : circCounter 3 (areaSaved s c v i) = circCounter 3 s := by
  obtain h | h := areaSaved_circ (s := s) c v i
  · rw [circCounter, h, circCounter]
  · rw [circCounter, h]
    exact circCounter_countCirc_other (by decide)

theorem SeqTaken.saveOf (h : SeqTaken c s t) (v i : Nat) (fab : Bool) : saveOf t c v i fab = saveOf s c v i fab := by
  obtain ⟨_, hk⟩ := h.core
  rw [Proofs.saveOf, Proofs.saveOf, h.mem, hk]
  rfl

theorem SeqTaken.counter (h : SeqTaken c s t) (k : Nat) : circCounter k t = circCounter k s := by
  obtain ⟨_, h⟩ := h.circ
  rw [circCounter, h, circCounter]

theorem circCounter_modLaunch (n k : Nat) (g : Launch → Launch) : circCounter k (s.modLaunch n g) = circCounter k s := by
  obtain ⟨_, h⟩ := modLaunch_circ (s := s) n g
  rw [circCounter, h, circCounter]

theorem coreSaved_saveCore (c v i : Nat) (fab : Bool) : CoreSaved c v i fab s (s.saveCore c v i fab) := by
  have hseq : SeqTaken c s (s.takeSeqWrites c) := seqTaken_takeSeqWrites c
  rw [saveCore_eq]
  generalize s.takeSeqWrites c = u at hseq ⊢
  obtain ⟨r, hcore⟩ := hseq.core
  generalize hk : (u.core c).settleAcc = k
  have hth : k.th = (s.core c).settleAcc.th := by rw [← hk, hcore]; rfl
  have hstrand : k.strand = (s.core c).strand := by rw [← hk, hcore]; rfl
  generalize hx : saveOf u c v i fab = x
  have hlaunch (n : Nat) : (coreCleared (areaSaved u c v i) c v i k x).launchAt n = u.launchAt n := launchAt_areaSaved ..
  refine ⟨?_, ?_, ?_, fun l hl => ?_, fun n l hn hl => ?_, fun j hj hres => ?_⟩
  · rw [circCounter_modLaunch, circCounter, coreCleared_circ, ← circCounter, circCounter_areaSaved, hseq.counter]
  · rw [modLaunch_saves, saves_coreCleared, ← hx, hseq.saveOf]
  · rw [State.core, modLaunch_cores]
    exact strand_coreCleared ..
  · obtain ⟨o, d, hu⟩ := hseq.launch v l hl
    refine ⟨_, launchAt_modLaunch ((hlaunch v).trans hu) _, cores_launchSaved .., fun j hj => ?_⟩
    rw [hstrand, hj]
    exact resumable_strandSaved ..
  · obtain ⟨o, d, hu⟩ := hseq.launch n l hl
    exact ⟨_, (launchAt_modLaunch_other _ hn).trans ((hlaunch n).trans hu), rfl⟩
  · refine ⟨u, k.ctx, ?_⟩
    have hnone : (u.core c).resident.isSome = false := by rw [hcore, hres]; rfl
    have hj' : (u.core c).strand = some j := by rw [hcore, hj]
    rw [modLaunch_mem, bytes_coreCleared, areaSaved, hnone, hk, hj', hth, hseq.mem]
    rfl

/-! The core leaves its victim (06 R163 R164 R174). -/

/-- The carrel without core `c`. -/
def withoutCore (c : Nat) (l : Launch) : Launch := { l with cores := without l.cores c }

/-- The core is nobody's, its pre-emption over, and its release counts. -/
def coreDisowned (s : State) (c v : Nat) : State := (((s.setPreempt c none).modLaunch v (withoutCore c)).countCirc 3).setOwner c none

/-- Nothing of a launch is loaded there. -/
def coreLeft (s : State) (c v : Nat) : State := (coreDisowned s c v).modCore c fun k => { k with launch := none, loaded := false }

theorem preempt_coreLeft (c v : Nat) : (coreLeft s c v).preempt c = none := by
  obtain ⟨_, h⟩ := modLaunch_circ (s := s.setPreempt c none) v (withoutCore c)
  change SMap.get (State.modLaunch (s.setPreempt c none) v (withoutCore c)).circ.preempts c none = none
  rw [h]
  exact preempt_setPreempt (s := s) c none

theorem owner_coreLeft (c v : Nat) : (coreLeft s c v).owner c = none :=
  owner_setOwner (s := ((s.setPreempt c none).modLaunch v (withoutCore c)).countCirc 3) c none

theorem counter_coreLeft (c v : Nat) : circCounter 3 (coreLeft s c v) = oneMore (circCounter 3 s) :=
  (circCounter_countCirc (s := (s.setPreempt c none).modLaunch v (withoutCore c)) 3).trans (congrArg oneMore (circCounter_modLaunch ..))

theorem coreLeft_saves (c v : Nat) : (coreLeft s c v).saves = s.saves := modLaunch_saves (s := s.setPreempt c none) v (withoutCore c)

theorem coreLeft_mem (c v : Nat) : (coreLeft s c v).mem = s.mem := modLaunch_mem (s := s.setPreempt c none) v (withoutCore c)

theorem core_coreLeft (c v : Nat) : (coreLeft s c v).core c = { s.core c with launch := none, loaded := false } := by
  have h : (coreDisowned s c v).core c = s.core c :=
    congrArg (fun m : SMap CoreSt => SMap.get m c {}) (modLaunch_cores (s := s.setPreempt c none) v (withoutCore c))
  rw [coreLeft, core_modCore, h]

theorem launchAt_coreLeft_eq (c v n : Nat) : (coreLeft s c v).launchAt n = ((s.setPreempt c none).modLaunch v (withoutCore c)).launchAt n := rfl

theorem launchAt_coreLeft {l : Launch} (h : s.launchAt v = some l) (c : Nat) : (coreLeft s c v).launchAt v = some (withoutCore c l) :=
  launchAt_modLaunch (s := s.setPreempt c none) h (withoutCore c)

theorem launchAt_coreLeft_other (c : Nat) (h : n ≠ v) : (coreLeft s c v).launchAt n = s.launchAt n := by
  rw [launchAt_coreLeft_eq, launchAt_modLaunch_other _ h]
  rfl

/-! A carrel without cores waits, or is parked. -/

/-- Of Circulation only launches and wait lists differ, and nothing else. -/
theorem carrelEmpty_frame (v : Nat) : ∃ ls ws, s.carrelEmpty v = { s with circ := { s.circ with launches := ls, waits := ws } } := by
  unfold State.carrelEmpty
  split
  · split
    · exact ⟨_, _, rfl⟩
    · split
      · exact ⟨_, _, rfl⟩
      · unfold State.enterWait
        split
        · exact ⟨_, _, rfl⟩
        · exact ⟨_, _, rfl⟩
  · exact ⟨_, _, rfl⟩

theorem preempt_carrelEmpty (v : Nat) : (s.carrelEmpty v).preempt c = s.preempt c := by
  obtain ⟨_, _, h⟩ := carrelEmpty_frame (s := s) v
  rw [h]
  rfl

theorem owner_carrelEmpty (v : Nat) : (s.carrelEmpty v).owner c = s.owner c := by
  obtain ⟨_, _, h⟩ := carrelEmpty_frame (s := s) v
  rw [h]
  rfl

theorem counter_carrelEmpty (v k : Nat) : circCounter k (s.carrelEmpty v) = circCounter k s := by
  obtain ⟨_, _, h⟩ := carrelEmpty_frame (s := s) v
  rw [h]
  rfl

theorem carrelEmpty_cores (v : Nat) : (s.carrelEmpty v).cores = s.cores := by
  obtain ⟨_, _, h⟩ := carrelEmpty_frame (s := s) v
  rw [h]

theorem carrelEmpty_saves (v : Nat) : (s.carrelEmpty v).saves = s.saves := by
  obtain ⟨_, _, h⟩ := carrelEmpty_frame (s := s) v
  rw [h]

theorem carrelEmpty_mem (v : Nat) : (s.carrelEmpty v).mem = s.mem := by
  obtain ⟨_, _, h⟩ := carrelEmpty_frame (s := s) v
  rw [h]

theorem launchAt_carrelEmpty {l : Launch} (h : s.launchAt v = some l) : ∃ l', (s.carrelEmpty v).launchAt v = some l' ∧
    l'.cores = l.cores ∧ l'.strands = l.strands ∧ l'.ready = l.ready := by
  rw [State.carrelEmpty, h]
  dsimp only
  split
  · exact ⟨l, h, rfl, rfl, rfl⟩
  · split
    · exact ⟨_, launchAt_setLaunch .., rfl, rfl, rfl⟩
    · exact ⟨_, (enterWait_some (launchAt_setLaunch ..)).1, rfl, rfl, rfl⟩

theorem launchAt_enterWait_other (h : n ≠ v) : (s.enterWait v).launchAt n = s.launchAt n := by
  unfold State.enterWait
  split
  · rfl
  · exact (launchAt_modCirc _ rfl).trans (launchAt_setLaunch_other _ _ h)

theorem launchAt_carrelEmpty_other (h : n ≠ v) : (s.carrelEmpty v).launchAt n = s.launchAt n := by
  unfold State.carrelEmpty
  split
  · split
    · rfl
    · split
      · exact launchAt_setLaunch_other _ _ h
      · exact (launchAt_enterWait_other h).trans (launchAt_setLaunch_other _ _ h)
  · rfl

/-! The release (06 R163 R164). -/

/-- The core's state is saved in area `i` and the core left, before it passes on. -/
def released (s : State) (c v i : Nat) (fab : Bool) : State := (coreLeft (s.saveCore c v i fab) c v).carrelEmpty v

theorem release_free {p : Preempt} {rest : List Nat} (hf : s.freeSaves = i :: rest) (hp : p.incoming = none) :
    s.release c p = (released s c p.victim i !(p.acks.contains 6)).markDirty 0 [c] := by
  unfold State.release
  rw [hf]
  dsimp -zeta only
  rw [hp]
  rfl

theorem release_passed {p : Preempt} {rest : List Nat} {m : Nat} {l : Launch} (hf : s.freeSaves = i :: rest) (hp : p.incoming = some m)
    (hm : (released s c p.victim i !(p.acks.contains 6)).launchAt m = some l) : ∃ t,
    (t = released s c p.victim i !(p.acks.contains 6) ∨ t = (released s c p.victim i !(p.acks.contains 6)).spill c) ∧
      s.release c p = t.joinCore m c := by
  have hspill : ((released s c p.victim i !(p.acks.contains 6)).spill c).launchAt m = some l := (launchAt_spill c).trans hm
  unfold State.release
  rw [hf]
  dsimp -zeta only
  extract_lets t1 t2 t3 t4
  have h4 : t4 = released s c p.victim i !(p.acks.contains 6) := rfl
  rw [hp]
  dsimp -zeta only
  rw [h4, hm]
  dsimp -zeta only
  extract_lets u
  have hu : u = released s c p.victim i !(p.acks.contains 6) ∨ u = (released s c p.victim i !(p.acks.contains 6)).spill c := ite_eq_or_eq ..
  have hl : u.launchAt m = some l := by
    obtain hu | hu := hu
    · rw [hu, hm]
    · rw [hu, hspill]
  exact ⟨u, hu, by rw [hl]; rfl⟩

/-- Launches other than the victim keep their carrels. -/
theorem launchAt_released_other {l : Launch} (h : s.launchAt n = some l) (hn : n ≠ v) (c i : Nat) (fab : Bool) :
    ∃ l', (released s c v i fab).launchAt n = some l' ∧ l'.cores = l.cores := by
  obtain ⟨l', hl, hc⟩ := (coreSaved_saveCore c v i fab).others n l hn h
  refine ⟨l', ?_, hc⟩
  rw [released, launchAt_carrelEmpty_other hn, launchAt_coreLeft_other c hn, hl]

/-- The victim has one core fewer, and its strand there is ready to be taken up again. -/
theorem launchAt_released {l : Launch} (h : s.launchAt v = some l) (c i : Nat) (fab : Bool) :
    ∃ l', (released s c v i fab).launchAt v = some l' ∧ l'.cores = without l.cores c ∧ ∀ j, (s.core c).strand = some j → Resumable c i j l' := by
  obtain ⟨l1, h1, hc1, hr1⟩ := (coreSaved_saveCore c v i fab).victim l h
  obtain ⟨l', h', hc, hs, hr⟩ := launchAt_carrelEmpty (launchAt_coreLeft h1 c)
  exact ⟨l', h', by rw [hc, withoutCore, hc1], fun j hj => (hr1 j hj).of_records hs hr⟩

/-- A free core, its victim's state in save area `i`. -/
structure Released (c v i : Nat) (fab : Bool) (s t : State) : Prop where
  preempt : t.preempt c = none
  owner : t.owner c = none
  launch : (t.core c).launch = none
  strand : (t.core c).strand = none
  counter : circCounter 3 t = oneMore (circCounter 3 s)
  save : SMap.get t.saves i none = some (saveOf s c v i fab)
  record : ∀ j, (s.core c).strand = some j → (s.core c).resident = none →
    t.physLe (s.mem.saveBase + 0x400000 * i) 8 % 2 ^ 48 = (s.core c).settleAcc.th.pc % 2 ^ 48 ∧
      t.physLe (s.mem.saveBase + 0x400000 * i) 8 / 2 ^ 52 % 2 = 1
  scalars : ∀ j, (s.core c).strand = some j → (s.core c).resident = none → ∀ k, k < 64 →
    t.physLe (s.mem.saveBase + 0x400000 * i + 0x100 + 8 * k) 8 = ((s.core c).settleAcc.th.rS k).toNat

theorem physLe_of_bytes (h : t.mem.bytes = s.mem.bytes) (a k : Nat) : t.physLe a k = s.physLe a k := by
  rw [State.physLe, State.phys, h, State.physLe, State.phys]

theorem core_released (c v i : Nat) (fab : Bool) :
    (released s c v i fab).core c = { (s.saveCore c v i fab).core c with launch := none, loaded := false } := by
  rw [released, State.core, carrelEmpty_cores]
  exact core_coreLeft c v

theorem released_bytes (c v i : Nat) (fab : Bool) : (released s c v i fab).mem.bytes = (s.saveCore c v i fab).mem.bytes := by
  rw [released, carrelEmpty_mem, coreLeft_mem]

theorem released_released (c v i : Nat) (fab : Bool) : Released c v i fab s (released s c v i fab) := by
  have hsaved : CoreSaved c v i fab s (s.saveCore c v i fab) := coreSaved_saveCore c v i fab
  refine ⟨?_, ?_, ?_, ?_, ?_, ?_, fun j hj hr => ?_, fun j hj hr k hk => ?_⟩
  · rw [released, preempt_carrelEmpty, preempt_coreLeft]
  · rw [released, owner_carrelEmpty, owner_coreLeft]
  · rw [core_released]
  · rw [core_released]
    exact hsaved.strand
  · rw [released, counter_carrelEmpty, counter_coreLeft, hsaved.counter]
  · rw [released, carrelEmpty_saves, coreLeft_saves, hsaved.save]
  · obtain ⟨u, x, hu⟩ := hsaved.bytes j hj hr
    rw [physLe_of_bytes ((released_bytes c v i fab).trans hu)]
    exact physLe_writeSave_record ..
  · obtain ⟨u, x, hu⟩ := hsaved.bytes j hj hr
    rw [physLe_of_bytes ((released_bytes c v i fab).trans hu)]
    exact physLe_writeSave_scalar _ _ _ _ _ hk

/-! The Collector's request and the acknowledgements (06 R163, 11 R322). -/

/-- Issue stops, unless the strand is leaving. -/
def stopRequested (k : CoreSt) : CoreSt :=
  match k.strand, k.th.drain with
  | some _, .leave _ => k
  | some _, _ => { k with th := { k.th with drain := .preempt } }
  | none, _ => k

theorem drain_stopRequested {k : CoreSt} (hs : k.strand ≠ none) (hl : ∀ x, k.th.drain ≠ .leave x) : (stopRequested k).th.drain = .preempt := by
  unfold stopRequested
  split
  · next x _ hd => exact absurd hd (hl x)
  · rfl
  · next hn => exact absurd hn hs

theorem ctx_stopRequested (k : CoreSt) : (stopRequested k).ctx = k.ctx := by
  unfold stopRequested
  split
  · rfl
  · rfl
  · rfl

theorem exec_corePreemptRequest {p : Preempt} (hp : s.preempt s.ev.a = some p) (ha : p.asked = false) :
    exec .corePreemptRequest s = .next ((s.setPreempt s.ev.a (some { p with asked := true })).modCore s.ev.a stopRequested) := by
  change execCorePreemptRequest s = _
  rw [execCorePreemptRequest, hp]
  dsimp only
  rw [ha]
  rfl

/-- With one more class's acknowledgement. -/
def acked (p : Preempt) (b : Nat) : Preempt := { p with acks := p.acks ++ [b] }

theorem exec_collectorAck {p : Preempt} (hp : s.preempt s.ev.a = some p) (ha : p.asked = true) (hb : s.ev.b ≤ 6) (hn : s.ev.b ∉ p.acks)
    (hm : s.mayAck s.ev.a s.ev.b = true) (hl : ∀ l, s.launchAt p.victim = some l → l.st ≠ .retiring) :
    exec .collectorAck s = .next (if (List.range 6).all (acked p s.ev.b).acks.contains
      then (s.setPreempt s.ev.a (some (acked p s.ev.b))).release s.ev.a (acked p s.ev.b) else s.setPreempt s.ev.a (some (acked p s.ev.b))) := by
  have hlive : (((s.launchAt p.victim).map (·.st)) == some .retiring) = false := by
    cases h : s.launchAt p.victim with
    | none => rfl
    | some l => simpa using hl l h
  have hacks : withElem p.acks s.ev.b = p.acks ++ [s.ev.b] := by
    rw [withElem, if_neg]
    simpa using hn
  have hgo : (!p.asked || decide (6 < s.ev.b) || !(s.mayAck s.ev.a s.ev.b) || ((s.launchAt p.victim).map (·.st)) == some .retiring) = false := by
    simp only [ha, hm, hlive, Nat.not_lt.2 hb, decide_false, Bool.not_true, Bool.or_false]
  change execCollectorAck s = _
  rw [execCollectorAck, hp]
  dsimp only
  rw [hgo, hacks]
  rfl

theorem exec_collectorAck_refused {p : Preempt} (hp : s.preempt s.ev.a = some p) (hm : s.mayAck s.ev.a s.ev.b = false) :
    exec .collectorAck s = .next s := by
  change execCollectorAck s = _
  simp only [execCollectorAck, hp, hm, Bool.not_false, Bool.or_true, Bool.true_or, if_true]

/-- After the release the fabric class's acknowledgement lets what was saved resume. -/
theorem exec_collectorAck_fabric (hp : s.preempt s.ev.a = none) (hb : s.ev.b = 6) : exec .collectorAck s = .next (s.fabricAck s.ev.a) := by
  change execCollectorAck s = _
  simp only [execCollectorAck, hp, hb, beq_self_eq_true, if_true]

end
end Sys2Proof.Proofs
end

section
/-! Pre-emption (O50): the request, the acknowledgements and the release, put together. -/
namespace Sys2Proof.Proofs
open Sys2Proof Sys2Proof.Machine Sys2Proof.Laws Sys2Proof.Stated

section
variable {s t : State} {n c v i : Nat} {fab : Bool}

/-- What core `c` left in the save areas may resume. -/
theorem saves_fabricAck {a : Nat} {x : Save} (h : SMap.get s.saves a none = some x) (hc : x.core = c) :
    SMap.get (s.fabricAck c).saves a none = some { x with fabWait := false } := by
  have hget := get_map_value s.saves (Option.map fun x : Save => if x.core == c then { x with fabWait := false } else x) a none
  rw [h] at hget
  exact hget.trans (by simp [hc])

theorem Released.markDirty (h : Released c v i fab s t) (k : Nat) (us : List Nat) : Released c v i fab s (t.markDirty k us) :=
  ⟨h.preempt, h.owner, h.launch, h.strand, h.counter, h.save, h.record, h.scalars⟩

/-- The first six classes have acknowledged. -/
theorem all_acked {p : Preempt} {b : Nat} (h : ∀ j, j < 6 → j = b ∨ j ∈ p.acks) : (List.range 6).all (acked p b).acks.contains = true := by
  rw [List.all_eq_true]
  intro j hj
  simpa [acked, or_comm] using h j (List.mem_range.1 hj)

theorem not_all_acked {p : Preempt} {b : Nat} (h : ∃ j, j < 6 ∧ j ≠ b ∧ j ∉ p.acks) :
    ¬ (List.range 6).all (acked p b).acks.contains = true := by
  obtain ⟨j, hj, hb, hp⟩ := h
  intro hall
  have hm := List.all_eq_true.1 hall j (List.mem_range.2 hj)
  rw [List.contains_iff_mem, acked, List.mem_append, List.mem_singleton] at hm
  exact hm.elim hp hb

/-- Whether the fabric class has still to acknowledge. -/
theorem fabric_waits {p : Preempt} {b : Nat} : (!(acked p b).acks.contains 6) = true ↔ 6 ≠ b ∧ 6 ∉ p.acks := by
  simp [acked, and_comm]

/-- With the sixth acknowledgement the core is free, and its victim's strand can be taken up again from the save area. -/
theorem release_saves {p : Preempt} {l : Launch} {a i : Nat} {rest : List Nat} (hf : s.freeSaves = a :: rest) (hinc : p.incoming = none)
    (hv : s.launchAt p.victim = some l) (hi : (s.core c).strand = some i) :
    Released c p.victim a (!(p.acks.contains 6)) s (s.release c p) ∧
      ∃ l', (s.release c p).launchAt p.victim = some l' ∧ l'.cores = without l.cores c ∧ Resumable c a i l' := by
  obtain ⟨l', hl', hcores, hresume⟩ := launchAt_released hv c a !(p.acks.contains 6)
  rw [release_free hf hinc]
  exact ⟨(released_released c p.victim a _).markDirty 0 [c], l', hl', hcores, hresume i hi⟩

/-- Or the incoming launch has it, to be loaded. -/
theorem release_passes {p : Preempt} {l : Launch} {a m : Nat} {rest : List Nat} (hf : s.freeSaves = a :: rest) (hinc : p.incoming = some m)
    (hne : m ≠ p.victim) (hm : s.launchAt m = some l) :
    (s.release c p).owner c = some m ∧ ((s.release c p).core c).launch = some m ∧ ((s.release c p).core c).loaded = false ∧
      ((s.release c p).core c).dcache = [] ∧ ∃ l', (s.release c p).launchAt m = some l' ∧ l'.cores = l.cores ++ [c] := by
  obtain ⟨l1, h1, hc1⟩ := launchAt_released_other hm hne c a !(p.acks.contains 6)
  obtain ⟨t, ht, hrel⟩ := release_passed hf hinc h1
  have h2 : t.launchAt m = some l1 := by
    obtain rfl | rfl := ht
    · exact h1
    · exact (launchAt_spill c).trans h1
  obtain ⟨hlaunch, hloaded, hdcache⟩ := core_joinCore h2 c
  obtain ⟨l', h3, hc3⟩ := launchAt_joinCore h2 c
  rw [hrel]
  exact ⟨owner_joinCore h2 c, hlaunch, hloaded, hdcache, l', h3, by rw [hc3, hc1]⟩

end

/-- The pre-emption half of O50. -/
theorem preemptionSavesAndReleases : PreemptionSavesAndReleases := by
  intro s p c b lives
  refine ⟨fun hp hb => ⟨_, exec_collectorAck_fabric hp hb, rfl, rfl, fun a v hv hc => ⟨_, saves_fabricAck hv hc, rfl⟩⟩, fun hp => ?_⟩
  refine ⟨fun ha => ?_, fun _ _ hm => exec_collectorAck_refused hp hm, fun ha hb hn hm hl => ?_⟩
  · refine ⟨_, exec_corePreemptRequest hp ha, preempt_setPreempt (s := s) c _, ?_, ?_, fun d hd => ?_, rfl⟩
    · rw [core_modCore]
      exact drain_stopRequested
    · rw [core_modCore]
      exact ctx_stopRequested (s.core c)
    · exact core_modCore_other (s.setPreempt c _) _ hd
  · have hexec := exec_collectorAck hp ha hb hn hm hl
    refine ⟨fun hmiss => ⟨_, hexec.trans (by rw [if_neg (not_all_acked hmiss)]; rfl), preempt_setPreempt (s := s) c _, rfl⟩,
      fun a rest i l hall hf hres hinc hv hi => ?_, fun a rest m l l' hall hf hinc hne hm hv => ?_⟩
    · rw [if_pos (all_acked hall)] at hexec
      obtain ⟨hrel, l', hl', hcores, hready, hsave, htie, hlisted⟩ :=
        release_saves (s := s.setPreempt c (some (acked p b))) (p := acked p b) hf hinc hv hi
      obtain ⟨hpc, hp1⟩ := hrel.record i hi hres
      refine ⟨_, l', _, hexec, hrel.preempt, hrel.owner, hrel.launch, hrel.strand, hl', ?_, hready, hsave, htie, hlisted,
        hrel.save, rfl, rfl, ?_, rfl, fabric_waits, hrel.scalars i hi hres, hpc, hp1, hrel.counter⟩
      · rw [hcores]
        simp [without]
      · exact congrArg (Option.map fun _ => (s.core c).settleAcc.th) hi
    · rw [if_pos (all_acked hall)] at hexec
      obtain ⟨hown, hlaunch, hloaded, hdcache, l'', hl'', hcores⟩ :=
        release_passes (s := s.setPreempt c (some (acked p b))) (p := acked p b) hf hinc hne hm
      exact ⟨_, l'', hexec, hown, hlaunch, hloaded, hdcache, hl'', hcores⟩

/-- Settles O50: each half by one rule per event, the release by what a save leaves in its area. -/
theorem launchesArePreemptedParkedAndRetired : Obligations.LaunchesArePreemptedParkedAndRetired :=
  ⟨preemptionSavesAndReleases, launchesParkExpireAndRetire⟩

end Sys2Proof.Proofs
end

section
/-! A launch enters the table and cores join it (O48). -/
namespace Sys2Proof.Proofs
open Sys2Proof Sys2Proof.Machine Sys2Proof.Laws Sys2Proof.Stated

/-! The order in which cores are taken keeps them all. -/

theorem perm_insertBy (lt : Nat → Nat → Bool) (a : Nat) (l : List Nat) : (insertBy lt a l).Perm (a :: l) := by
  induction l with
  | nil => exact .refl _
  | cons b l ih =>
    unfold insertBy
    split
    · exact (ih.cons b).trans (.swap a b l)
    · exact .refl _

theorem perm_sortBy (lt : Nat → Nat → Bool) (l : List Nat) : (sortBy lt l).Perm l := by
  induction l with
  | nil => exact .refl _
  | cons a l ih => exact (perm_insertBy lt a (sortBy lt l)).trans (ih.cons a)

section
variable {s t u : State} {x : Intake} {n m c d own shared : Nat} {l : Launch} {st : LaunchState} {cs : List Nat}

theorem owner_of_mem_freeCores {r : LaunchRec} {p mine : Option Nat} (h : c ∈ s.freeCores r p mine) : s.owner c = none := by
  have hfree : s.freeTo r p mine c = true := (List.mem_filter.1 ((perm_sortBy ..).mem_iff.1 h)).2
  simp only [State.freeTo, Bool.and_eq_true, Option.isNone_iff_eq_none] at hfree
  exact hfree.1.2

/-! Commit (06 R154 R169). -/

/-- Nothing of a launch is tied to a core. -/
def Untied (l : Launch) : Prop := l.strands = [] ∧ l.coreSaves = []

/-- A commit changes the launch table, what counts bindings and records, and what the launch's key and micro-context count. -/
theorem commit_frame (x : Intake) (n own shared : Nat) (st : LaunchState) : ∃ l b r q p m,
    s.commit x n own shared st =
      { s with
        prot := p, mem := m
        circ := { s.circ with launches := SMap.set s.circ.launches n (some l) none, bindings := b, recShared := r, recPart := q } } ∧
      entered n x st s l ∧ l.cores = [] ∧ Untied l := by
  unfold State.commit
  extract_lets part key prio l t
  obtain ⟨p, m, hkey⟩ : ∃ p m, (if x.house then t else (t.setKeySlot key { t.keySlotAt key with binds := (t.keySlotAt key).binds + 1 }).modMcb
      x.mcx fun b => { b with running := b.running + 1 }) = { t with prot := p, mem := m } := by
    split
    · exact ⟨_, _, rfl⟩
    · obtain ⟨_, h⟩ := memOnly_modMcb (s := t.setKeySlot key { t.keySlotAt key with binds := (t.keySlotAt key).binds + 1 }) x.mcx
        fun b => { b with running := b.running + 1 }
      exact ⟨_, _, h⟩
  exact ⟨l, _, _, _, p, m, hkey, ⟨rfl, rfl, rfl, rfl, rfl, rfl, rfl, rfl, rfl⟩, rfl, rfl, rfl⟩

/-! Cores join a launch to which nothing is tied (06 R158). -/

theorem absent_untied (h : Untied l) : l.absent = [] := by
  obtain ⟨hs, hc⟩ := h
  simp [Launch.absent, hs, hc]

theorem joinCore_untied (hl : s.launchAt n = some l) (h : Untied l) (c : Nat) : s.joinCore n c = joined s n c := by
  rw [State.joinCore, hl]
  dsimp only
  rw [absent_untied h]
  rfl

theorem core_modLaunch (n : Nat) (g : Launch → Launch) : (s.modLaunch n g).core c = s.core c :=
  congrArg (fun m : SMap CoreSt => SMap.get m c {}) (modLaunch_cores s n g)

/-- Cores `cs` join launch `n`: each is claimed, to be loaded, its data cache empty. -/
structure CoresJoined (n : Nat) (cs : List Nat) (l : Launch) (s t : State) : Prop where
  launch : t.launchAt n = some { l with cores := l.cores ++ cs }
  other : ∀ m, m ≠ n → t.launchAt m = s.launchAt m
  claimed : ∀ c, c ∈ cs → t.owner c = some n ∧ (t.core c).launch = some n ∧ (t.core c).loaded = false ∧ (t.core c).dcache = []
  unclaimed : ∀ c, c ∉ cs → t.owner c = s.owner c ∧ t.core c = s.core c
  circ : ∃ ls ow, t.circ = { s.circ with launches := ls, owner := ow }

theorem joined_joined (hl : s.launchAt n = some l) (c : Nat) : CoresJoined n [c] l s (joined s n c) := by
  have hcirc : ∃ ls ow, (joined s n c).circ = { s.circ with launches := ls, owner := ow } := by
    obtain ⟨ls, h⟩ := modLaunch_circ (s := s) n fun l => { l with cores := l.cores ++ [c] }
    refine ⟨ls, SMap.set s.circ.owner c (some n) none, ?_⟩
    rw [joined, modCore_circ, State.setOwner, State.modCirc, h]
  refine ⟨launchAt_modLaunch hl _, fun m hm => launchAt_modLaunch_other _ hm, fun d hd => ?_, fun d hd => ?_, hcirc⟩
  · obtain rfl := List.mem_singleton.1 hd
    refine ⟨owner_joined n d, ?_⟩
    rw [joined, core_modCore]
    exact ⟨rfl, rfl, rfl⟩
  · have hne : d ≠ c := fun h => hd (List.mem_singleton.2 h)
    refine ⟨owner_joined_other n hne, ?_⟩
    rw [joined, core_modCore_other _ _ hne]
    exact core_modLaunch ..

theorem CoresJoined.trans {ds : List Nat} (h : CoresJoined n cs l s t) (k : CoresJoined n ds { l with cores := l.cores ++ cs } t u) :
    CoresJoined n (cs ++ ds) l s u where
  launch := k.launch.trans (by rw [List.append_assoc])
  other m hm := (k.other m hm).trans (h.other m hm)
  claimed c hc := by
    by_cases hd : c ∈ ds
    · exact k.claimed c hd
    · obtain ⟨ho, hk⟩ := k.unclaimed c hd
      rw [ho, hk]
      exact h.claimed c ((List.mem_append.1 hc).resolve_right hd)
  unclaimed c hc := by
    obtain ⟨hn, hd⟩ := not_or.1 (List.mem_append.not.1 hc)
    exact ⟨(k.unclaimed c hd).1.trans (h.unclaimed c hn).1, (k.unclaimed c hd).2.trans (h.unclaimed c hn).2⟩
  circ := by
    obtain ⟨_, _, h⟩ := h.circ
    obtain ⟨_, _, k⟩ := k.circ
    exact ⟨_, _, by rw [k, h]⟩

theorem joinCores_joined (cs : List Nat) {s : State} {l : Launch} (hl : s.launchAt n = some l) (h : Untied l) :
    CoresJoined n cs l s (s.joinCores n cs) := by
  induction cs generalizing s l with
  | nil => exact ⟨by rw [List.append_nil]; exact hl, fun _ _ => rfl, nofun, fun _ _ => ⟨rfl, rfl⟩, _, _, rfl⟩
  | cons c cs ih =>
    have hc := joined_joined hl c
    have hcs := hc.trans (ih hc.launch h)
    rwa [← joinCore_untied hl h c] at hcs

/-! Pre-emptions asked for (06 R163). -/

theorem askPreempt_frame (cs : List Nat) (i : Option Nat) : ∃ ps, s.askPreempt cs i = { s with circ := { s.circ with preempts := ps } } := by
  induction cs generalizing s with
  | nil => exact ⟨_, rfl⟩
  | cons c cs ih =>
    rw [State.askPreempt, List.foldl_cons]
    split
    · obtain ⟨ps, h⟩ := ih (s := s.setPreempt c _)
      exact ⟨ps, h⟩
    · exact ih

theorem owner_askPreempt (cs : List Nat) (i : Option Nat) : (s.askPreempt cs i).owner c = s.owner c := by
  obtain ⟨_, h⟩ := askPreempt_frame (s := s) cs i
  rw [h]
  rfl

theorem preempt_askPreempt_other {i : Option Nat} (h : c ∉ cs) : (s.askPreempt cs i).preempt c = s.preempt c := by
  induction cs generalizing s with
  | nil => rfl
  | cons d cs ih =>
    obtain ⟨hd, hcs⟩ := not_or.1 (List.mem_cons.not.1 h)
    rw [State.askPreempt, List.foldl_cons]
    split
    · exact (ih hcs).trans (preempt_setPreempt_other _ hd)
    · exact ih hcs

/-- Each owned core of the list is to leave its launch, for the incoming one. -/
theorem preempt_askPreempt {v : Nat} {i : Option Nat} (hc : c ∈ cs) (hv : s.owner c = some v) :
    (s.askPreempt cs i).preempt c = some { incoming := i, victim := v } := by
  induction cs generalizing s with
  | nil => exact absurd hc List.not_mem_nil
  | cons d cs ih =>
    by_cases hcs : c ∈ cs
    · rw [State.askPreempt, List.foldl_cons]
      split
      · exact ih hcs hv
      · exact ih hcs hv
    · obtain rfl : c = d := (List.mem_cons.1 hc).resolve_right hcs
      rw [State.askPreempt, List.foldl_cons, hv]
      exact (preempt_askPreempt_other hcs).trans (preempt_setPreempt ..)

end
end Sys2Proof.Proofs
end

section
/-! What becomes of the launch at the head of a lane (O48). -/
namespace Sys2Proof.Proofs
open Sys2Proof Sys2Proof.Machine Sys2Proof.Laws Sys2Proof.Stated

section
variable {s t : State} {x : Intake} {rest : List Intake} {n own shared : Nat} {cs vs : List Nat}

/-! The lane loses its head (06 R154). -/

/-- The lane that the event names holds `rest`. -/
def laneLeft (rest : List Intake) (s : State) : State :=
  { s with circ := { s.circ with
      ethLane := if s.ev.flag then rest else s.circ.ethLane
      hostLane := if s.ev.flag then s.circ.hostLane else rest } }

theorem laneLeft_eth (rest : List Intake) (h : s.ev.flag = true) : laneLeft rest s = s.modCirc fun c => { c with ethLane := rest } := by
  rw [laneLeft, h]
  rfl

theorem laneLeft_host (rest : List Intake) (h : s.ev.flag = false) : laneLeft rest s = s.modCirc fun c => { c with hostLane := rest } := by
  rw [laneLeft, h]
  rfl

theorem laneIs_laneLeft (rest : List Intake) (s : State) : laneIs rest s (laneLeft rest s) := by
  unfold laneIs
  cases h : s.ev.flag with
  | true => rw [laneLeft_eth rest h, if_pos rfl]; rfl
  | false => rw [laneLeft_host rest h, if_neg Bool.false_ne_true]; rfl

/-- Both lanes stay as they are. -/
def LanesKept (s t : State) : Prop := t.circ.ethLane = s.circ.ethLane ∧ t.circ.hostLane = s.circ.hostLane

theorem LanesKept.laneIs (h : LanesKept (laneLeft rest s) t) : laneIs rest s t := by
  have hs := laneIs_laneLeft rest s
  unfold Stated.laneIs at hs ⊢
  rwa [h.1, h.2]

theorem ready_of_circUp (h : circUp s) : s.ready = true := by
  obtain ⟨hstage, hheld, htrip⟩ := h
  simp [State.ready, hstage, hheld, htrip]

theorem exec_binding (hup : circUp s) (h : atLane x rest s) : exec .binding s = .next ((laneLeft rest s).bindLaunch x) := by
  change execBinding s = _
  unfold atLane at h
  rw [execBinding, ready_of_circUp hup]
  cases hf : s.ev.flag with
  | true =>
    rw [hf, if_pos rfl] at h
    rw [laneLeft_eth rest hf, h]
    simp only [Bool.not_true, Bool.false_eq_true, if_false, if_true]
  | false =>
    rw [hf, if_neg Bool.false_ne_true] at h
    rw [laneLeft_host rest hf, h]
    simp only [Bool.not_true, Bool.false_eq_true, if_false]

/-! Refusal (06 R154 R155). -/

/-- A refused host launch counts, and is reported. -/
theorem refuse_kept (hx : x.request = none) (cause : Nat) : CircKept (s.countCirc 2) (s.refuse x cause) := by
  rw [State.refuse, hx]
  exact circKept_reportLaunch ..

theorem bindLaunch_refused {cause : Nat} (h : s.stageC x = some cause) (hx : x.request = none) :
    CircKept (s.countCirc 2) (s.bindLaunch x) := by
  rw [State.bindLaunch, h]
  dsimp only
  split
  · exact CircKept.trans (t := s.vaultDone.2.countCirc 2) (.of_circ rfl) (refuse_kept hx cause)
  · exact refuse_kept hx cause

/-! A launch that can be served (06 R159 R162 R165). -/

/-- The choice between cores `free` that are free, the cores of victims, if there are enough, and the wait list. -/
def bindChoice (s : State) (x : Intake) (free : List Nat) (victims : Option (List Nat)) : State :=
  if x.record.cmin ≤ free.length then s.bindNow x (partOf x s) (free.take x.record.cores) []
  else match victims with
    | some vs => s.bindNow x (partOf x s) free vs
    | none => s.bindWait x (partOf x s)

theorem bindLaunch_bindable (h : bindable x s) : s.bindLaunch x = bindChoice s x (s.freeCores x.record (partOf x s) none)
    (s.victims (prioOf x s) (partOf x s) (x.record.cmin - (s.freeCores x.record (partOf x s) none).length)) := by
  obtain ⟨hc, hmin, ⟨c, hcu, hroom⟩, hbucket⟩ := h
  have htime : (!x.house && s.bkEmpty (s.mcb x.mcx).bucket) = false := by
    cases hh : x.house with
    | true => rfl
    | false => exact hbucket hh
  rw [State.bindLaunch, hc]
  dsimp -zeta only
  rw [← partOf, ← prioOf]
  extract_lets part prio us room free
  have hany : us.any room = true := List.any_eq_true.2 ⟨c, hcu, by simpa [room] using hroom⟩
  have hserved : ¬ (decide (us.length < x.record.cmin) || !(us.any room)) = true := by
    rw [hany]
    simpa [us, part] using hmin
  rw [if_neg hserved, htime, if_neg Bool.false_ne_true]
  simp only [free, part, prio]
  generalize s.freeCores x.record (partOf x s) none = free
  generalize s.victims (prioOf x s) (partOf x s) (x.record.cmin - free.length) = victims
  cases victims <;> rfl

theorem pickVictims_laneLeft (rest : List Intake) (need saves : Nat) (carrels got : List Nat) :
    pickVictims (laneLeft rest s) need saves carrels got = pickVictims s need saves carrels got := by
  induction carrels generalizing got with
  | nil => rfl
  | cons n r ih =>
    have hgive (k : Nat) : (laneLeft rest s).giveUp n k = s.giveUp n k := rfl
    simp only [pickVictims, ih, hgive]

theorem victims_laneLeft (rest : List Intake) (prio : Nat) (p : Option Nat) (need : Nat) :
    (laneLeft rest s).victims prio p need = s.victims prio p need := by
  have hsaves : (laneLeft rest s).spareSaves = s.spareSaves := rfl
  have hcarrels : (laneLeft rest s).victimCarrels prio p = s.victimCarrels prio p := rfl
  simp only [State.victims, pickVictims_laneLeft, hsaves, hcarrels]

/-- The lane does not matter to it. -/
theorem bindLaunch_laneLeft (rest : List Intake) (h : bindable x s) : (laneLeft rest s).bindLaunch x =
    bindChoice (laneLeft rest s) x (s.freeCores x.record (partOf x s) none)
      (s.victims (prioOf x s) (partOf x s) (x.record.cmin - (s.freeCores x.record (partOf x s) none).length)) := by
  have hpart : partOf x (laneLeft rest s) = partOf x s := rfl
  have hprio : prioOf x (laneLeft rest s) = prioOf x s := rfl
  have hfree (p : Option Nat) : (laneLeft rest s).freeCores x.record p none = s.freeCores x.record p none := rfl
  have hb : bindable x (laneLeft rest s) := h
  rw [bindLaunch_bindable hb, hpart, hprio, hfree, victims_laneLeft]

/-! Bound (06 R158 R160). -/

/-- Launch `x` is bound in slot `n` on cores `cs`. -/
structure BoundOn (x : Intake) (n : Nat) (cs : List Nat) (s t : State) : Prop where
  launch : ∃ l, t.launchAt n = some l ∧ entered n x .bound s l ∧ l.cores = cs
  other : ∀ m, m ≠ n → t.launchAt m = s.launchAt m
  claimed : ∀ c, c ∈ cs → t.owner c = some n ∧ (t.core c).launch = some n ∧ (t.core c).loaded = false ∧ (t.core c).dcache = []
  unclaimed : ∀ c, c ∉ cs → t.owner c = s.owner c
  pointer : ∀ c, cs.getLast? = some c → t.circ.pointer = (c + 1) % 600
  counter : circCounter 0 t = oneMore (circCounter 0 s)
  lanes : LanesKept s t

theorem BoundOn.askPreempt (h : BoundOn x n cs s t) (vs : List Nat) (i : Option Nat) : BoundOn x n cs s (t.askPreempt vs i) := by
  obtain ⟨_, e⟩ := askPreempt_frame (s := t) vs i
  rw [e]
  exact ⟨h.launch, h.other, h.claimed, h.unclaimed, h.pointer, h.counter, h.lanes⟩

theorem movePointer_frame (cs : List Nat) : ∃ p, s.movePointer cs = { s with circ := { s.circ with pointer := p } } ∧
    ∀ c, cs.getLast? = some c → p = (c + 1) % 600 := by
  unfold State.movePointer
  split
  · next c hc => exact ⟨_, rfl, fun d hd => by rw [Option.some.inj (hc.symm.trans hd)]⟩
  · next hc => exact ⟨_, rfl, fun d hd => nomatch hc.symm.trans hd⟩

/-- The launch has its slot and its cores, and the binding counts. -/
def boundOn (s : State) (x : Intake) (n own shared : Nat) (cs : List Nat) : State :=
  (((s.commit x n own shared .bound).joinCores n cs).movePointer cs).countCirc 0

theorem boundOn_boundOn (x : Intake) (n own shared : Nat) (cs : List Nat) : BoundOn x n cs s (boundOn s x n own shared cs) := by
  obtain ⟨l, b, r, q, p, m, hcommit, hentered, hcores, huntied⟩ := commit_frame (s := s) x n own shared .bound
  have hl : (s.commit x n own shared .bound).launchAt n = some l := by
    rw [hcommit]
    exact launchAt_setLaunch s n (some l)
  have hother (k : Nat) (hk : k ≠ n) : (s.commit x n own shared .bound).launchAt k = s.launchAt k := by
    rw [hcommit]
    exact launchAt_setLaunch_other s (some l) hk
  have howner (c : Nat) : (s.commit x n own shared .bound).owner c = s.owner c := by
    rw [hcommit]
    rfl
  have hlanes : LanesKept s (s.commit x n own shared .bound) := by
    rw [hcommit]
    exact ⟨rfl, rfl⟩
  have hcnt : (s.commit x n own shared .bound).circ.cnt = s.circ.cnt := by rw [hcommit]
  have hj := joinCores_joined cs hl huntied
  obtain ⟨ls, ow, hcirc⟩ := hj.circ
  obtain ⟨ptr, hptr, hlast⟩ := movePointer_frame (s := (s.commit x n own shared .bound).joinCores n cs) cs
  rw [boundOn, hptr]
  refine ⟨⟨_, hj.launch, hentered, by rw [hcores]; rfl⟩, fun k hk => (hj.other k hk).trans (hother k hk), hj.claimed,
    fun c hc => (hj.unclaimed c hc).1.trans (howner c), hlast, ?_, ?_⟩
  · rw [circCounter_countCirc, circCounter, hcirc, circCounter, ← hcnt]
  · obtain ⟨he, hh⟩ := hlanes
    exact ⟨by rw [State.countCirc, State.modCirc, hcirc, he], by rw [State.countCirc, State.modCirc, hcirc, hh]⟩

theorem bindNow_eq {p : Option Nat} (hn : s.freeSlot = some n) (hr : s.recordSplit p x.record.strands = some (own, shared)) (cs vs : List Nat) :
    s.bindNow x p cs vs = ((boundOn s x n own shared cs).askPreempt (vs.take (x.record.cores - cs.length)) (some n)).askPreempt
      (vs.drop (x.record.cores - cs.length)) none := by
  rw [State.bindNow, hn, hr]
  rfl

/-- Of victims that are all different, those that the launch takes are to give their cores to it. -/
theorem preempt_bindNow {p : Option Nat} {c v : Nat} (hn : s.freeSlot = some n)
    (hr : s.recordSplit p x.record.strands = some (own, shared)) (hnodup : vs.Nodup) (hcs : ∀ c, c ∈ cs → s.owner c = none)
    (hc : c ∈ vs.take (x.record.cores - cs.length)) (hv : s.owner c = some v) :
    (s.bindNow x p cs vs).preempt c = some { incoming := some n, victim := v } := by
  have hspare : c ∉ vs.drop (x.record.cores - cs.length) := fun hd => List.disjoint_take_drop hnodup le_rfl hc hd
  have hout : c ∉ cs := fun h => nomatch (hcs c h).symm.trans hv
  have howner : (boundOn s x n own shared cs).owner c = some v := ((boundOn_boundOn x n own shared cs).unclaimed c hout).trans hv
  rw [bindNow_eq hn hr, preempt_askPreempt_other hspare, preempt_askPreempt hc howner]

theorem bindNow_boundOn {p : Option Nat} (hn : s.freeSlot = some n) (hr : s.recordSplit p x.record.strands = some (own, shared))
    (cs vs : List Nat) : BoundOn x n cs s (s.bindNow x p cs vs) := by
  rw [bindNow_eq hn hr]
  exact ((boundOn_boundOn x n own shared cs).askPreempt ..).askPreempt ..

/-! Waiting (06 R165). -/

/-- Launch `x` waits in slot `n`. -/
structure WaitsIn (x : Intake) (n : Nat) (s t : State) : Prop where
  launch : ∃ l, t.launchAt n = some l ∧ entered n x .waiting s l ∧ l.cores = [] ∧ l.waitAt = s.time.toNat
  listed : n ∈ SMap.get t.circ.waits (waitKey (partOf x s)) []
  counter : circCounter 1 t = oneMore (circCounter 1 s)
  lanes : LanesKept s t

theorem enterWait_frame (n : Nat) : ∃ ls ws, s.enterWait n = { s with circ := { s.circ with launches := ls, waits := ws } } := by
  unfold State.enterWait
  split
  · exact ⟨_, _, rfl⟩
  · exact ⟨_, _, rfl⟩

theorem bindWait_waitsIn (hw : (SMap.get s.circ.waits (waitKey (partOf x s)) []).length < 256) (hn : s.freeSlot = some n)
    (hr : s.recordSplit (partOf x s) x.record.strands = some (own, shared)) : WaitsIn x n s (s.bindWait x (partOf x s)) := by
  have hwait : s.bindWait x (partOf x s) = ((s.commit x n own shared .waiting).enterWait n).countCirc 1 := by
    rw [State.bindWait, if_neg (Nat.not_le.2 hw), hn, hr]
  obtain ⟨l, b, r, q, p, m, hcommit, hentered, hcores, -⟩ := commit_frame (s := s) x n own shared .waiting
  have hl : (s.commit x n own shared .waiting).launchAt n = some l := by
    rw [hcommit]
    exact launchAt_setLaunch s n (some l)
  obtain ⟨hwl, hlist, -⟩ := enterWait_some hl
  obtain ⟨_, _, hframe⟩ := enterWait_frame (s := s.commit x n own shared .waiting) n
  obtain ⟨hrec, hst, hhouse, hpart, hfields⟩ := id hentered
  rw [hpart] at hlist
  rw [hwait]
  refine ⟨⟨_, hwl, ⟨hrec, hst, hhouse, hpart, hfields⟩, hcores, by rw [hcommit]⟩, hlist, ?_, ?_⟩
  · rw [circCounter_countCirc, hframe, hcommit]
    rfl
  · rw [hframe, hcommit]
    exact ⟨rfl, rfl⟩

end

/-- The binding half of O48. -/
theorem bindingsBindWaitOrAreRefused : BindingsBindWaitOrAreRefused := by
  intro s x rest hup hlane free
  have hexec := exec_binding hup hlane
  refine ⟨fun cause hcause hx => ?_, fun n own shared hb hn hr => ?_⟩
  · obtain ⟨m, hcirc⟩ := bindLaunch_refused (s := laneLeft rest s) hcause hx
    refine ⟨_, hexec, LanesKept.laneIs ⟨by rw [hcirc]; rfl, by rw [hcirc]; rfl⟩, by rw [hcirc]; rfl, by rw [hcirc]; rfl, ?_⟩
    rw [circCounter, hcirc]
    exact circCounter_countCirc (s := laneLeft rest s) 2
  · have hexec : exec .binding s = .next (bindChoice (laneLeft rest s) x free (s.victims (prioOf x s) (partOf x s) (x.record.cmin - free.length))) :=
      hexec.trans (congrArg _ (bindLaunch_laneLeft rest hb))
    refine ⟨fun hfree => ?_, fun vs hfree hvs hnodup => ?_, fun hfree hvs hw => ?_⟩
    · have ht := bindNow_boundOn (s := laneLeft rest s) (x := x) (p := partOf x s) hn hr (free.take x.record.cores) []
      rw [hexec, bindChoice.eq_def, if_pos hfree]
      obtain ⟨l, hl, hentered, hcores⟩ := ht.launch
      exact ⟨_, l, rfl, ht.lanes.laneIs, hl, hentered, hcores, ht.counter, hcores ▸ ht.claimed, hcores ▸ ht.pointer, ht.other⟩
    · rw [hexec, hvs, bindChoice, if_neg (Nat.not_le.2 hfree)]
      obtain ⟨l, hl, hentered, hcores⟩ := (bindNow_boundOn (s := laneLeft rest s) (x := x) (p := partOf x s) hn hr free vs).launch
      have hunowned : ∀ c, c ∈ free → s.owner c = none := fun c => owner_of_mem_freeCores
      exact ⟨_, l, rfl, hl, hentered, hcores, fun c v hc hv => preempt_bindNow (s := laneLeft rest s) hn hr hnodup hunowned hc hv⟩
    · rw [hexec, hvs, bindChoice, if_neg (Nat.not_le.2 hfree)]
      have ht := bindWait_waitsIn (s := laneLeft rest s) (x := x) hw hn hr
      obtain ⟨l, hl, hentered, hcores, hat⟩ := ht.launch
      exact ⟨_, l, rfl, ht.lanes.laneIs, hl, hentered, hcores, hat, ht.listed, ht.counter⟩

end Sys2Proof.Proofs
end

section
/-! A core that is free is given away, and what waits ages (O48). -/
namespace Sys2Proof.Proofs
open Sys2Proof Sys2Proof.Machine Sys2Proof.Laws Sys2Proof.Stated

section
variable {s t : State} {n m c : Nat} {l : Launch}

/-! What a core that joins leaves of its launch and of the wait lists. -/

theorem waits_modLaunch (n : Nat) (g : Launch → Launch) : (s.modLaunch n g).circ.waits = s.circ.waits := by
  obtain ⟨_, h⟩ := modLaunch_circ (s := s) n g
  rw [h]

theorem waits_spill (c : Nat) : (s.spill c).circ.waits = s.circ.waits := by
  obtain h | h := spill_circ (s := s) c
  · rw [h]
  · rw [h]
    rfl

theorem waits_retie (n old new : Nat) : (s.retie n old new).circ.waits = s.circ.waits := by
  obtain ⟨t, rfl | rfl, h⟩ := retie_eq (s := s) n old new
  · rw [h, waits_modLaunch]
  · rw [h, waits_modLaunch, waits_spill]

theorem waits_joined (n c : Nat) : (joined s n c).circ.waits = s.circ.waits := waits_modLaunch ..

theorem waits_joinCore (n c : Nat) : (s.joinCore n c).circ.waits = s.circ.waits := by
  cases h : s.launchAt n with
  | none => rw [joinCore_none h]
  | some l =>
    obtain e | ⟨old, e⟩ := joinCore_some h c
    · rw [e, waits_joined]
    · rw [e, waits_joined, waits_retie]

/-- The launch has the core last, and stands where it stood. -/
theorem launchAt_joinCore_standing (h : s.launchAt n = some l) (c : Nat) :
    ∃ l', (s.joinCore n c).launchAt n = some l' ∧ l'.cores = l.cores ++ [c] ∧ l'.st = l.st ∧ l'.record = l.record := by
  obtain e | ⟨old, e⟩ := joinCore_some h c
  · rw [e]
    exact ⟨_, (joined_joined h c).launch, rfl, rfl, rfl⟩
  · rw [e]
    exact ⟨_, (joined_joined (launchAt_retie h old c) c).launch, rfl, rfl, rfl⟩

/-! The wait lists without a launch (06 R166). -/

theorem get_all {α : Type} {p : α → Prop} {w : SMap α} {d : α} (hd : p d) (hw : ∀ e, e ∈ w → p e.2) (k : Nat) : p (SMap.get w k d) := by
  induction w with
  | nil => exact hd
  | cons e w ih =>
    rw [SMap.get]
    split
    · exact hw e List.mem_cons_self
    · exact ih fun f hf => hw f (List.mem_cons_of_mem e hf)

theorem launchAt_leaveWait (n : Nat) : (s.leaveWait n).launchAt m = s.launchAt m := rfl

theorem not_mem_leaveWait (n k : Nat) : n ∉ SMap.get (s.leaveWait n).circ.waits k [] := by
  refine get_all (p := fun w => n ∉ w) List.not_mem_nil (fun e he => ?_) k
  obtain ⟨f, -, rfl⟩ := List.mem_map.1 (List.mem_of_mem_filter he)
  exact not_mem_without f.2 n

/-- A launch with CMIN cores runs, and waits no longer. -/
theorem startHead_starts (h : s.launchAt n = some l) (hmin : l.record.cmin ≤ l.cores.length) :
    s.startHead n = (s.setLaunch n (some { l with st := .bound })).leaveWait n := by
  rw [State.startHead, h]
  exact if_pos hmin

theorem startHead_waits (h : s.launchAt n = some l) (hmin : l.cores.length < l.record.cmin) : s.startHead n = s := by
  rw [State.startHead, h]
  exact if_neg (Nat.not_le.2 hmin)

/-! CORE_FREE (06 R166 R168). -/

/-- Launch `n` takes the core of the event. -/
def takesFree (s : State) (n : Nat) : Bool := match s.launchAt n with | some l => s.freeTo l.record l.part (some n) s.ev.a | none => false

theorem takesFree_iff : takesFree s n = true ↔ ∃ l, s.launchAt n = some l ∧ s.freeTo l.record l.part (some n) s.ev.a = true := by
  unfold takesFree
  split
  · next l h => simp [h]
  · next h => simp [h]

/-- The core goes to a short carrel that takes it, if there is one. -/
def givenToCarrel (s : State) : State :=
  match (s.shortCarrels (s.partOfCore s.ev.a)).find? (takesFree s) with
  | some m => s.joinCore m s.ev.a
  | none => s

theorem givenToCarrel_some (h : (s.shortCarrels (s.partOfCore s.ev.a)).find? (takesFree s) = some m) :
    givenToCarrel s = s.joinCore m s.ev.a := by rw [givenToCarrel, h]

theorem givenToCarrel_none (h : ∀ k, k ∈ s.shortCarrels (s.partOfCore s.ev.a) → ¬ takesFree s k = true) : givenToCarrel s = s := by
  rw [givenToCarrel, List.find?_eq_none.2 h]

theorem exec_coreFree : exec .coreFree s = .next (if 600 ≤ s.ev.a || !s.ready then s
    else match s.waitHead (s.partOfCore s.ev.a) with
      | some n => if takesFree s n then (s.joinCore n s.ev.a).startHead n else givenToCarrel s
      | none => givenToCarrel s) := rfl

theorem exec_coreFree_head (hup : circUp s) (hc : s.ev.a < 600) (hh : s.waitHead (s.partOfCore s.ev.a) = some n)
    (ht : takesFree s n = true) : exec .coreFree s = .next ((s.joinCore n s.ev.a).startHead n) := by
  have hserved : ¬ (decide (600 ≤ s.ev.a) || !s.ready) = true := by simp [ready_of_circUp hup, hc]
  rw [exec_coreFree, if_neg hserved, hh]
  exact congrArg _ (if_pos ht)

/-- The wait list has no use for the core. -/
def NoHeadTakes (s : State) : Prop :=
  s.waitHead (s.partOfCore s.ev.a) = none ∨ ∃ n, s.waitHead (s.partOfCore s.ev.a) = some n ∧ ¬ takesFree s n = true

theorem exec_coreFree_carrel (h : NoHeadTakes s) :
    exec .coreFree s = .next (if 600 ≤ s.ev.a || !s.ready then s else givenToCarrel s) := by
  rw [exec_coreFree]
  obtain hn | ⟨n, hn, ht⟩ := h
  · rw [hn]
  · rw [hn]
    dsimp only
    rw [if_neg ht]

/-! WAIT_LIST_AGING (06 R165). -/

theorem exec_waitListAging (hl : s.launchAt s.ev.a = some l) (hw : s.ev.a ∈ SMap.get s.circ.waits (waitKey l.part) []) (hp : l.prio ≤ 15) :
    exec .waitListAging s =
      .next (s.setLaunch s.ev.a (some { l with aged := min 15 (l.prio + (s.time.toNat - l.waitAt) / 1000000) })) := by
  change execWaitListAging s = _
  rw [execWaitListAging, hl]
  exact congrArg _ (if_pos (by simpa using ⟨hw, hp⟩))

end

/-- The other half of O48. -/
theorem freeCoresAndWaitLists : FreeCoresAndWaitLists := by
  intro s c p takes
  have htakes (k : Nat) : takesFree s k = true ↔ takes k := takesFree_iff
  refine ⟨fun n l hup hc hh ht hl => ?_, fun m l hup hc hh hl hm => ?_, fun hh hno => ?_, fun l hl hw hp => ?_⟩
  · have hexec := exec_coreFree_head hup hc hh ((htakes n).2 ht)
    obtain ⟨l', hl', hcores, hst, hrec⟩ := launchAt_joinCore_standing hl c
    obtain ⟨hlaunch, hloaded, -⟩ := core_joinCore hl c
    have hlen : l'.cores.length = l.cores.length + 1 := by rw [hcores, List.length_append, List.length_singleton]
    by_cases hmin : l.record.cmin ≤ l.cores.length + 1
    · rw [startHead_starts hl' (by rwa [hrec, hlen])] at hexec
      exact ⟨_, { l' with st := .bound }, hexec, (launchAt_leaveWait n).trans (launchAt_setLaunch ..), hcores, owner_joinCore hl c, hlaunch, hloaded,
        fun _ => ⟨rfl, not_mem_leaveWait n⟩, fun hlt => absurd hmin (Nat.not_le.2 hlt)⟩
    · rw [startHead_waits hl' (by rw [hrec, hlen]; exact Nat.not_le.1 hmin)] at hexec
      exact ⟨_, l', hexec, hl', hcores, owner_joinCore hl c, hlaunch, hloaded, fun h => absurd h hmin, fun _ => ⟨hst, waits_joinCore n c⟩⟩
  · obtain ⟨a, b, hcarrels, hmt, ha⟩ := hm
    have hfind : (s.shortCarrels p).find? (takesFree s) = some m := by
      rw [List.find?_eq_some_iff_append]
      exact ⟨(htakes m).2 hmt, a, b, hcarrels, fun k hk => by simpa [← htakes k] using ha k hk⟩
    have hserved : ¬ (decide (600 ≤ s.ev.a) || !s.ready) = true := by simpa [ready_of_circUp hup] using hc
    have hexec := exec_coreFree_carrel (s := s) (by simpa only [NoHeadTakes, htakes] using hh)
    rw [if_neg hserved, givenToCarrel_some hfind] at hexec
    obtain ⟨l', hl', hcores, hst, -⟩ := launchAt_joinCore_standing hl c
    exact ⟨_, l', hexec, hl', hcores, hst, owner_joinCore hl c, waits_joinCore m c⟩
  · rw [exec_coreFree_carrel (by simpa only [NoHeadTakes, htakes] using hh), givenToCarrel_none fun k hk => by simpa only [htakes] using hno k hk,
      ite_self]
  · exact ⟨_, exec_waitListAging hl hw hp, launchAt_setLaunch .., rfl, fun m hm => launchAt_setLaunch_other _ _ hm⟩

/-- Settles O48: a binding by the outcome that its checks and cores choose, a free core by who takes it. -/
theorem bindingsAndFreeCores : Obligations.BindingsAndFreeCores := ⟨bindingsBindWaitOrAreRefused, freeCoresAndWaitLists⟩

end Sys2Proof.Proofs
end

section
/-! The loader fills planes (O49). -/
namespace Sys2Proof.Proofs
open Sys2Proof Sys2Proof.Machine Sys2Proof.Laws Sys2Proof.Stated

section
variable {s t u : State} {n c i w a : Nat} {l : Launch} {who : Who} {p q r : Plane} {is js : List Nat}

/-! Reads of the loader (06 R158, 08 R234). -/

theorem memOnly_consume (pa : Nat) (cn : Bool) : MemOnly s (s.consume pa cn) := by
  unfold State.consume
  extract_lets l
  split
  · split
    · exact ⟨_, rfl⟩
    · exact ⟨_, rfl⟩
  · exact memOnly_refl s

theorem memOnly_loadBytes {va k : Nat} {bs : List Byte} (h : s.loadBytes who va k = .ok (bs, t)) : MemOnly s t := by
  unfold State.loadBytes at h
  split at h
  · cases h
  · split at h
    · cases h
    · cases h
      exact memOnly_foldl (fun _ _ => memOnly_consume ..) _ s

theorem memOnly_loadTable {tab : Option BucketTab} (h : s.loadTable l = .ok (tab, t)) : MemOnly s t := by
  unfold State.loadTable at h
  split at h
  · cases h
    exact memOnly_refl s
  · split at h
    · cases h
    · next e₁ =>
      dsimp only at h
      split at h
      · cases h
      · next e₂ =>
        split at h
        · cases h
          exact (memOnly_loadBytes e₁).trans (memOnly_loadBytes e₂)
        · cases h

/-! Lines of a plane (07 R198). -/

/-- Lines `is` of plane `p` have been fetched: each is in place or kept as bad, and what was there stays. -/
structure LinesFetched (is : List Nat) (p : Plane) (s : State) (q : Plane) (t : State) : Prop where
  memOnly : MemOnly s t
  window : q.window = p.window
  lines : p.lines ⊆ q.lines
  bad : p.bad ⊆ q.bad
  each : ∀ i, i ∈ is → i ∈ q.lines ∨ i ∈ q.bad.map (·.1)

theorem LinesFetched.trans (h : LinesFetched is p s q t) (k : LinesFetched js q t r u) : LinesFetched (is ++ js) p s r u where
  memOnly := h.memOnly.trans k.memOnly
  window := k.window.trans h.window
  lines := List.Subset.trans h.lines k.lines
  bad := List.Subset.trans h.bad k.bad
  each i hi := (List.mem_append.1 hi).elim
    (fun hi => (h.each i hi).imp (fun hl => k.lines hl) (fun hb => List.map_subset _ k.bad hb)) (k.each i)

theorem subset_withElem (is : List Nat) (i : Nat) : is ⊆ withElem is i := by
  unfold withElem
  split
  · exact List.Subset.refl is
  · exact List.subset_append_left is [i]

theorem loadLines_one (who : Who) (w i : Nat) (p : Plane) (s : State) :
    LinesFetched [i] p s (s.loadLines who w [i] p).2 (s.loadLines who w [i] p).1 := by
  rw [State.loadLines, List.foldl_cons, List.foldl_nil]
  split
  · exact ⟨memOnly_consume .., rfl, subset_withElem .., List.Subset.refl _, fun j hj =>
      .inl (List.mem_singleton.1 hj ▸ mem_withElem ..)⟩
  · exact ⟨memOnly_refl s, rfl, List.Subset.refl _, List.subset_append_left .., fun j hj =>
      .inr (List.mem_singleton.1 hj ▸ by simp)⟩

theorem foldl_cons_pair {α β γ : Type} (f : α × β → γ → α × β) (a : α) (b : β) (c : γ) (l : List γ) :
    (c :: l).foldl f (a, b) = l.foldl f (([c].foldl f (a, b)).1, ([c].foldl f (a, b)).2) := rfl

theorem loadLines_cons (who : Who) (w i : Nat) (is : List Nat) (p : Plane) (s : State) : s.loadLines who w (i :: is) p =
    (s.loadLines who w [i] p).1.loadLines who w is (s.loadLines who w [i] p).2 := by
  rw [State.loadLines, foldl_cons_pair, State.loadLines, State.loadLines]

theorem loadLines_fetched (who : Who) (w : Nat) (is : List Nat) (p : Plane) (s : State) :
    LinesFetched is p s (s.loadLines who w is p).2 (s.loadLines who w is p).1 := by
  induction is generalizing p s with
  | nil => exact ⟨memOnly_refl s, rfl, List.Subset.refl _, List.Subset.refl _, nofun⟩
  | cons i is ih =>
    rw [loadLines_cons]
    exact (loadLines_one who w i p s).trans (ih ..)

/-- With no bad line all are in place. -/
theorem LinesFetched.mem_lines (h : LinesFetched is p s q t) (hbad : q.bad = []) (hi : i ∈ is) : i ∈ q.lines :=
  (h.each i hi).resolve_right (by simp [hbad])

theorem MemOnly.core (h : MemOnly s t) (c : Nat) : t.core c = s.core c := by
  obtain ⟨_, rfl⟩ := h
  rfl

/-! PLANE_FILL_DONE (06 R158, 07 R198). -/

/-- Core `c` holds launch `n`, which is bound and has it. -/
structure Loadable (s : State) (n : Nat) (l : Launch) : Prop where
  launch : (s.core s.ev.a).launch = some n
  slot : s.launchAt n = some l
  bound : l.st = .bound
  owner : s.owner s.ev.a = some n
  free : (s.core s.ev.a).freeze = 0

theorem whenLoaded_waits {fill : State} (h : s.waitsOn who.outside [(w * 0x10000, 0x10000)] = some a) :
    s.whenLoaded who w fill = s.hurry a := by rw [State.whenLoaded, h]

theorem whenLoaded_fills {fill : State} (h : s.waitsOn who.outside [(w * 0x10000, 0x10000)] = none) :
    s.whenLoaded who w fill = fill := by rw [State.whenLoaded, h]

/-! The dispatch. -/

/-- Where the code that a dispatch reads lies. -/
def firstCode (entry : Nat) : List (Nat × Nat) := (firstLines entry).map fun i => (entry / 0x10000 * 0x10000 + 128 * i, 128)

theorem dispatch_unclean (h : s.coreClean c (s.freshCtx c l.record) = false) : s.dispatch n c l = s := by
  rw [State.dispatch]
  exact if_pos (by rw [h]; rfl)

theorem dispatch_waits (h : s.coreClean c (s.freshCtx c l.record) = true)
    (hw : s.waitsOn (s.who l).outside (s.tableRanges l ++ firstCode l.record.entry) = some a) : s.dispatch n c l = s.hurry a := by
  unfold firstCode at hw
  simp only [State.dispatch, h, hw, Bool.not_true, Bool.false_eq_true, if_false]

/-- A dispatch has filled what the first bundles need of their window, and the core begins anew, with context `fresh` unless its own has stayed
resident there. -/
structure Dispatched (entry : Nat) (tab : Option BucketTab) (fresh : CoreCtx) (k k' : CoreSt) : Prop where
  loaded : k'.loaded = true
  table : k'.table = tab
  window : k'.active.window = some (entry / 0x10000)
  lines : ∀ i, i ∈ firstLines entry → i ∈ k'.active.lines
  shadow : k'.shadow = {}
  th : k'.th = { cycle := k.th.cycle, bundles := k.th.bundles }
  ctx : k.resident = none → k'.ctx = fresh

theorem dispatch_dispatched {tab : Option BucketTab} (h : s.coreClean c (s.freshCtx c l.record) = true)
    (hw : s.waitsOn (s.who l).outside (s.tableRanges l ++ firstCode l.record.entry) = none) (ht : s.loadTable l = .ok (tab, t))
    (hb : (t.loadLines (t.who l) (l.record.entry / 0x10000) (firstLines l.record.entry) { window := some (l.record.entry / 0x10000) }).2.bad = []) :
    Dispatched l.record.entry tab (s.freshCtx c l.record) (s.core c) ((s.dispatch n c l).core c) := by
  have hf := loadLines_fetched (t.who l) (l.record.entry / 0x10000) (firstLines l.record.entry) { window := some (l.record.entry / 0x10000) } t
  have hcore : (t.loadLines (t.who l) (l.record.entry / 0x10000) (firstLines l.record.entry)
      { window := some (l.record.entry / 0x10000) }).1.core c = s.core c := ((memOnly_loadTable ht).trans hf.memOnly).core c
  unfold firstCode at hw
  simp only [State.dispatch, h, hw, ht, Bool.not_true, Bool.false_eq_true, if_false]
  generalize t.loadLines (t.who l) (l.record.entry / 0x10000) (firstLines l.record.entry) { window := some (l.record.entry / 0x10000) } = r
    at hf hb hcore ⊢
  simp only [hb, core_modCore, core_modLaunch, hcore]
  exact ⟨rfl, rfl, hf.window, fun i hi => hf.mem_lines hb hi, rfl, rfl, fun hres => by simp only [hres, Option.getD_none]⟩

/-! The fills. -/

/-- The lines of its window that a plane lacks. -/
def linesMissing (p : Plane) : List Nat := (List.range 512).filter fun i => !(p.lines.contains i)

/-- Core `c` with its active plane filled. -/
def activeFilled (s : State) (c : Nat) (l : Launch) : State :=
  let p := (s.core c).active
  let r := s.loadLines (s.who l) (p.window.getD 0) (linesMissing p) p
  r.1.modCore c fun k => { k with active := { r.2 with full := true } }

theorem core_activeFilled (s : State) (c : Nat) (l : Launch) : ∃ p : Plane,
    (activeFilled s c l).core c = { s.core c with active := { p with full := true } } ∧
      LinesFetched (linesMissing (s.core c).active) (s.core c).active s p
        (s.loadLines (s.who l) ((s.core c).active.window.getD 0) (linesMissing (s.core c).active) (s.core c).active).1 := by
  have hf := loadLines_fetched (s.who l) ((s.core c).active.window.getD 0) (linesMissing (s.core c).active) (s.core c).active s
  refine ⟨_, ?_, hf⟩
  rw [activeFilled, core_modCore, hf.memOnly.core]

/-- Every line of the window is then in place or bad. -/
theorem mem_activeFilled (h : LinesFetched (linesMissing p) p s q t) (hi : i < 512) : i ∈ q.lines ∨ i ∈ q.bad.map (·.1) := by
  by_cases hm : i ∈ p.lines
  · exact .inl (h.lines hm)
  · exact h.each i (List.mem_filter.2 ⟨List.mem_range.2 hi, by simpa using hm⟩)

/-- Core `c` with its shadow plane filled. -/
def shadowFilled (s : State) (c : Nat) (l : Launch) : State :=
  (s.fillPlane (s.who l) (s.core c).shadowWants).1.modCore c fun k => { k with shadow := (s.fillPlane (s.who l) (s.core c).shadowWants).2 }

/-- A plane filled whole. -/
theorem fillPlane_eq {r : State × Plane} (h : s.loadLines who w (List.range 512) { window := some w } = r) :
    s.fillPlane who w = (r.1, { r.2 with full := true }) := by rw [State.fillPlane, h]

theorem core_shadowFilled_of (h : s.fillPlane (s.who l) (s.core c).shadowWants = (t, q)) (hm : MemOnly s t) :
    (shadowFilled s c l).core c = { s.core c with shadow := q } := by
  rw [shadowFilled, core_modCore, h, hm.core]

theorem core_shadowFilled (s : State) (c : Nat) (l : Launch) : ∃ p : Plane,
    (shadowFilled s c l).core c = { s.core c with shadow := { p with full := true } } ∧ p.window = some (s.core c).shadowWants := by
  have hf := loadLines_fetched (s.who l) (s.core c).shadowWants (List.range 512) { window := some (s.core c).shadowWants } s
  exact ⟨_, core_shadowFilled_of (fillPlane_eq rfl) hf.memOnly, hf.window⟩

section
variable (h : Loadable s n l)
include h

/-- Nothing holds the loader back. -/
theorem Loadable.goes : (l.st != .bound || s.owner s.ev.a != some n || (s.core s.ev.a).freeze != 0) = false := by
  simp [h.bound, h.owner, h.free]

theorem exec_planeFillDone_dispatch (hk : (s.core s.ev.a).loaded = false) : exec .planeFillDone s = .next (s.dispatch n s.ev.a l) := by
  change execPlaneFillDone s = _
  simp only [execPlaneFillDone, h.launch, h.slot, h.goes, hk, Bool.not_false, Bool.false_eq_true, if_false, if_true]

variable (hk : (s.core s.ev.a).loaded = true)
include hk

theorem exec_planeFillDone_active (ha : (s.core s.ev.a).active.full = false) :
    exec .planeFillDone s = .next (s.whenLoaded (s.who l) ((s.core s.ev.a).active.window.getD 0) (activeFilled s s.ev.a l)) := by
  change execPlaneFillDone s = _
  simp only [execPlaneFillDone, h.launch, h.slot, h.goes, hk, ha, Bool.not_true, Bool.not_false, Bool.false_eq_true, if_false, if_true,
    activeFilled, linesMissing]

variable (ha : (s.core s.ev.a).active.full = true)
include ha

theorem exec_planeFillDone_shadow
    (hs : (s.core s.ev.a).shadow.window ≠ some (s.core s.ev.a).shadowWants ∨ (s.core s.ev.a).shadow.full = false) :
    exec .planeFillDone s = .next (s.whenLoaded (s.who l) (s.core s.ev.a).shadowWants (shadowFilled s s.ev.a l)) := by
  have hmore : ((s.core s.ev.a).shadow.window == some (s.core s.ev.a).shadowWants && (s.core s.ev.a).shadow.full) = false := by
    rw [Bool.and_eq_false_iff]
    exact hs.imp_left beq_false_of_ne
  change execPlaneFillDone s = _
  simp only [execPlaneFillDone, h.launch, h.slot, h.goes, hk, ha, hmore, Bool.not_true, Bool.false_eq_true, if_false, shadowFilled]

theorem exec_planeFillDone_idle (hw : (s.core s.ev.a).shadow.window = some (s.core s.ev.a).shadowWants)
    (hf : (s.core s.ev.a).shadow.full = true) : exec .planeFillDone s = .next s := by
  change execPlaneFillDone s = _
  simp only [execPlaneFillDone, h.launch, h.slot, h.goes, hk, ha, hw, hf, Bool.not_true, Bool.false_eq_true, if_false, beq_self_eq_true,
    Bool.and_self, if_true]

end

end

/-- The loader's half of O49. -/
theorem loaderFillsPlanes : LoaderFillsPlanes := by
  intro s n l c k hlaunch hl hst ho hfree code reads whole
  have hload : Loadable s n l := ⟨hlaunch, hl, hst, ho, hfree⟩
  refine ⟨fun a hk hclean hw => ?_, fun tab t hk hclean hw ht hb => ?_, fun hk hclean => ?_, fun hk ha hw => ?_, fun a hk ha hw => ?_,
    fun hk ha hs hw => ?_, fun hk ha => exec_planeFillDone_idle hload hk ha⟩
  · rw [exec_planeFillDone_dispatch hload hk, dispatch_waits hclean hw]
  · have hd := dispatch_dispatched (n := n) hclean hw ht hb
    exact ⟨_, exec_planeFillDone_dispatch hload hk, hd.loaded, hd.table, hd.window, hd.shadow, hd.lines, by rw [hd.th], by rw [hd.th],
      by rw [hd.th], hd.ctx⟩
  · rw [exec_planeFillDone_dispatch hload hk, dispatch_unclean hclean]
  · obtain ⟨p, hcore, hf⟩ := core_activeFilled s c l
    refine ⟨_, (exec_planeFillDone_active hload hk ha).trans (by rw [whenLoaded_fills hw]), ?_⟩
    rw [hcore]
    exact ⟨rfl, rfl, rfl, fun i => mem_activeFilled (q := p) hf⟩
  · rw [exec_planeFillDone_active hload hk ha, whenLoaded_waits hw]
  · obtain ⟨p, hcore, hwin⟩ := core_shadowFilled s c l
    refine ⟨_, (exec_planeFillDone_shadow hload hk ha hs).trans (by rw [whenLoaded_fills hw]), ?_⟩
    rw [hcore]
    exact ⟨hwin, rfl, rfl, rfl⟩

end Sys2Proof.Proofs
end

section
/-! What a restore reads back from a save area (O49): the bytes of the area, as numbers and registers. -/
namespace Sys2Proof.Proofs
open Sys2Proof Sys2Proof.Machine Sys2Proof.Laws Sys2Proof.Stated

/-! Parts of a byte memory (11 R327). -/

/-- A part of a memory, by offset: cells outside it are not listed. -/
theorem read_cellsAt (m : List Host.Cell) (a n i : Nat) : Memory.read (cellsAt m a n) i = if i < n then Memory.read m (a + i) else 0 := by
  unfold Memory.read cellsAt
  induction m with
  | nil => simp [SMap.get]
  | cons p m ih =>
    obtain ⟨k, v⟩ := p
    by_cases hk : a ≤ k ∧ k < a + n
    · have hi : i = k - a ↔ a + i = k := by omega
      have hn : a + i = k → i < n := by omega
      simp only [List.filter_cons, hk, decide_true, Bool.and_self, if_true, List.map_cons, SMap.get, ih, hi]
      split
      · next h => rw [if_pos (hn h)]
      · rfl
    · have hn : i < n → ¬ a + i = k := by omega
      have hf : (decide (a ≤ k) && decide (k < a + n)) = false := by simpa using hk
      simp only [List.filter_cons, hf, Bool.false_eq_true, if_false, ih, SMap.get]
      split
      · next h => rw [if_neg (hn h)]
      · rfl

theorem readN_cellsAt (m : List Host.Cell) {a n o k : Nat} (h : o + k ≤ n) :
    Memory.readN (cellsAt m a n) o k = Memory.readN m (a + o) k := by
  refine List.map_congr_left fun i hi => ?_
  have hlt : o + i < n := by have := List.mem_range.1 hi; omega
  rw [read_cellsAt, if_pos hlt, Nat.add_assoc]

/-- What is not listed reads zero. -/
theorem readN_nil (o k : Nat) : Memory.readN [] o k = List.replicate k 0 := by
  simp [Memory.readN, Memory.read, SMap.get]

theorem leNat_replicate_zero (k : Nat) : leNat (List.replicate k 0) = 0 := by
  induction k with
  | zero => rfl
  | succ k ih =>
    rw [List.replicate_succ, leNat, ih]
    rfl

theorem bytesBv_readN_nil (b k : Nat) : bytesBv b (Memory.readN [] 0 k) = 0 := by
  rw [readN_nil, bytesBv, leNat_replicate_zero]
  rfl

/-- Bytes that the register holds are read whole. -/
theorem toNat_bytesBv_readN {b k : Nat} (h : b = 8 * k) (m : List Host.Cell) (a : Nat) :
    (bytesBv b (Memory.readN m a k)).toNat = leNat (Memory.readN m a k) := by
  have hlt := leNat_lt (Memory.readN m a k)
  rw [readN_length, show 256 = 2 ^ 8 from rfl, ← Nat.pow_mul, ← h] at hlt
  rw [bytesBv, BitVec.toNat_ofNat, Nat.mod_eq_of_lt hlt]

/-! Tables of registers (11 R324 R327). -/

/-- Register `k` of the table is what its bytes hold, and there is none beyond the table. -/
theorem get_readRegs (m : List Host.Cell) (b w step n k : Nat) :
    SMap.get (readRegs b w step n m) k 0 = if k < n then bytesBv b (Memory.readN m (step * k) w) else 0 := by
  induction n with
  | zero => rfl
  | succ n ih =>
    have hcells : bytesBv b (Memory.readN (cellsAt m (step * n) w) 0 w) = bytesBv b (Memory.readN m (step * n) w) := by
      rw [readN_cellsAt m (by omega), Nat.add_zero]
    rw [readRegs, List.range_succ, List.foldl_append, ← readRegs]
    simp only [List.foldl_cons, List.foldl_nil]
    by_cases hk : k = n
    · subst hk
      rw [if_pos (Nat.lt_succ_self k)]
      split
      · next he =>
        rw [ih, if_neg (Nat.lt_irrefl k), ← hcells, List.isEmpty_iff.1 he, bytesBv_readN_nil]
      · rw [get_set_same, hcells]
    · have hlt : k < n + 1 ↔ k < n := by omega
      split
      · rw [ih]
        simp only [hlt]
      · rw [get_set_other _ _ _ _ hk, ih]
        simp only [hlt]

/-- No register beyond the table is listed. -/
theorem lt_of_mem_readRegs {m : List Host.Cell} {b w step n : Nat} {e : Nat × BitVec b} (h : e ∈ readRegs b w step n m) : e.1 < n := by
  induction n with
  | zero => exact absurd h List.not_mem_nil
  | succ n ih =>
    rw [readRegs, List.range_succ, List.foldl_append, ← readRegs] at h
    simp only [List.foldl_cons, List.foldl_nil] at h
    split at h
    · exact Nat.lt_succ_of_lt (ih h)
    · unfold SMap.set at h
      split at h
      · rw [drop_eq_filter] at h
        exact Nat.lt_succ_of_lt (ih (List.mem_of_mem_filter h))
      · obtain rfl | h := mem_put h
        · exact Nat.lt_succ_self n
        · exact Nat.lt_succ_of_lt (ih h)

/-! Tables put together of groups of sixteen (12 R341, 11 R325). -/

section
variable {α : Type} {m r : SMap α} {k : Nat} {d : α}

theorem get_absent (h : ∀ e ∈ m, e.1 ≠ k) : SMap.get m k d = d := by
  induction m with
  | nil => rfl
  | cons e m ih =>
    rw [SMap.get, if_neg (Ne.symm (h e List.mem_cons_self))]
    exact ih fun f hf => h f (List.mem_cons_of_mem e hf)

theorem get_append_absent (h : ∀ e ∈ m, e.1 ≠ k) : SMap.get (m ++ r) k d = SMap.get r k d := by
  induction m with
  | nil => rfl
  | cons e m ih =>
    rw [List.cons_append, SMap.get, if_neg (Ne.symm (h e List.mem_cons_self))]
    exact ih fun f hf => h f (List.mem_cons_of_mem e hf)

theorem get_append_left (h : ∀ e ∈ r, e.1 ≠ k) : SMap.get (m ++ r) k d = SMap.get m k d := by
  induction m with
  | nil => exact get_absent h
  | cons e m ih => rw [List.cons_append, SMap.get, SMap.get, ih]

/-- With the keys moved up, each value stands as much higher. -/
theorem get_map_add (c : Nat) : SMap.get (m.map fun e => (c + e.1, e.2)) (c + k) d = SMap.get m k d := by
  induction m with
  | nil => rfl
  | cons e m ih =>
    rw [List.map_cons, SMap.get, SMap.get, ih]
    simp only [Nat.add_left_cancel_iff]

theorem get_filter_key (q : Nat → Bool) : SMap.get (m.filter fun e => q e.1) k d = if q k = true then SMap.get m k d else d := by
  induction m with
  | nil => exact (ite_self d).symm
  | cons e m ih =>
    obtain ⟨j, v⟩ := e
    rw [List.filter_cons, SMap.get]
    by_cases hk : k = j
    · subst hk
      rw [if_pos rfl]
      split
      · rw [SMap.get, if_pos rfl]
      · next hq =>
        have hq : ¬ q k = true := hq
        rw [ih, if_neg hq]
    · rw [if_neg hk]
      split
      · rw [SMap.get, if_neg hk, ih]
      · exact ih

/-- Of tables for the groups below `n`, that of the key's own group counts. -/
theorem get_groups {f : Nat → SMap α} (hf : ∀ g, ∀ e ∈ f g, e.1 / 16 = g) (n k : Nat) :
    SMap.get ((List.range n).flatMap f) k d = if k / 16 < n then SMap.get (f (k / 16)) k d else d := by
  induction n with
  | zero => rfl
  | succ n ih =>
    rw [List.range_succ, List.flatMap_append, List.flatMap_singleton]
    by_cases hk : k / 16 = n
    · rw [get_append_absent, hk, if_pos (Nat.lt_succ_self n)]
      intro e he
      obtain ⟨g, hg, he⟩ := List.mem_flatMap.1 he
      have hlt := List.mem_range.1 hg
      have heg := hf g e he
      rintro rfl
      omega
    · rw [get_append_left, ih]
      · have hlt : k / 16 < n + 1 ↔ k / 16 < n := by omega
        simp only [hlt]
      · intro e he h
        exact hk (h ▸ hf n e he)

end

/-! A thread's registers as a restore reads them (11 R324 R327, 13 R394). -/

section
variable {s : State} {a o k : Nat} {th : Thread}

theorem readN_areaCells (h : o + k ≤ 0x400000) : Memory.readN (s.areaCells a 0x400000) o k = s.phys (a + o) k :=
  readN_cellsAt s.mem.bytes h

/-- A part of a part of the area. -/
theorem readN_areaPart {p n : Nat} (h : o + k ≤ n) (hn : p + n ≤ 0x400000) :
    Memory.readN (cellsAt (s.areaCells a 0x400000) p n) o k = s.phys (a + p + o) k := by
  rw [readN_cellsAt _ h, readN_areaCells (by omega), Nat.add_assoc]

/-- Words of the record, the masks and the control registers. -/
theorem areaWord (s : State) (a : Nat) (h : o + 8 ≤ 0x100) :
    (bytesBv 64 (Memory.readN (cellsAt (s.areaCells a 0x400000) 0 0x100) o 8)).toNat = s.physLe (a + o) 8 := by
  rw [toNat_bytesBv_readN (by norm_num), readN_areaPart h (by norm_num)]
  rfl

theorem pc_fromArea : (th.fromArea (s.areaCells a 0x400000)).pc = s.physLe (a + 0) 8 % 2 ^ 48 := by
  change fld (bytesBv 64 (Memory.readN (cellsAt (s.areaCells a 0x400000) 0 0x100) 0 8)).toNat 0 48 = _
  rw [areaWord s a (by norm_num), fld, Nat.pow_zero, Nat.div_one]

theorem fcr_fromArea : (th.fromArea (s.areaCells a 0x400000)).fcr.toNat = s.physLe (a + 0x98) 8 := areaWord s a (by norm_num)

/-- Two words are the halves of 128 bits. -/
theorem ofNat_halves {lo hi : Nat} (x y : Word) (hx : x.toNat = lo) (hy : y.toNat = hi) :
    y.setWidth 128 <<< 64 ||| x.setWidth 128 = BitVec.ofNat 128 (lo + hi * 2 ^ 64) := by
  subst hx hy
  refine BitVec.eq_of_toNat_eq ?_
  have hx := x.isLt
  have hy := y.isLt
  have hsh : y.toNat <<< 64 < 2 ^ 128 := by rw [Nat.shiftLeft_eq]; omega
  simp only [BitVec.toNat_or, BitVec.toNat_shiftLeft, BitVec.toNat_setWidth, BitVec.toNat_ofNat]
  rw [Nat.mod_eq_of_lt (a := x.toNat) (by omega), Nat.mod_eq_of_lt (a := y.toNat) (by omega), Nat.mod_eq_of_lt hsh,
    ← Nat.shiftLeft_add_eq_or_of_lt hx, Nat.shiftLeft_eq]
  omega

theorem mab_fromArea : (th.fromArea (s.areaCells a 0x400000)).mab =
    BitVec.ofNat 128 (s.physLe (a + 0xF0) 8 + s.physLe (a + 0xF8) 8 * 2 ^ 64) :=
  ofNat_halves _ _ (areaWord s a (by norm_num)) (areaWord s a (by norm_num))

theorem rS_fromArea {j : Nat} (h1 : 1 ≤ j) (hj : j < 64) :
    ((th.fromArea (s.areaCells a 0x400000)).rS j).toNat = s.physLe (a + (0x100 + 8 * j)) 8 := by
  have hget : (th.fromArea (s.areaCells a 0x400000)).rS j =
      SMap.get (readRegs 64 8 8 64 (cellsAt (s.areaCells a 0x400000) 0x100 0x200)) j 0 := if_neg (by omega)
  rw [hget, get_readRegs, if_pos hj, toNat_bytesBv_readN (by norm_num), readN_areaPart (by omega) (by norm_num), Nat.add_assoc]
  rfl

theorem rQ_fromArea {j : Nat} (h1 : 1 ≤ j) (hj : j < 16) :
    ((th.fromArea (s.areaCells a 0x400000)).rQ j).toNat = s.physLe (a + 0x300 + 32 * j) 32 := by
  have hget : (th.fromArea (s.areaCells a 0x400000)).rQ j =
      SMap.get (SMap.drop (readRegs 256 32 32 16 (cellsAt (s.areaCells a 0x400000) 0x300 0x200)) 0) j 0 := if_neg (by omega)
  rw [hget, get_drop_other _ _ (by omega), get_readRegs, if_pos hj, toNat_bytesBv_readN (by norm_num),
    readN_areaPart (by omega) (by norm_num)]
  rfl

/-- The save mask of an area: the groups of vector registers that it holds. -/
def saveMask (s : State) (a : Nat) : BitVec 128 := BitVec.ofNat 128 (s.physLe (a + 0x80) 16)

/-- Group `g` of the vector registers as the area holds it. -/
def areaGroup (s : State) (a g : Nat) : SMap VWord :=
  if (saveMask s a).getLsbD g then
    (readRegs 2048 256 256 16 (cellsAt (s.areaCells a 0x400000) (0x20000 + 0x1000 * g) 0x1000)).map fun e => (16 * g + e.1, e.2)
  else []

theorem v_fromArea : (th.fromArea (s.areaCells a 0x400000)).v = (List.range 128).flatMap (areaGroup s a) := by
  have hmask : bytesBv 128 (Memory.readN (cellsAt (s.areaCells a 0x400000) 0 0x100) 0x80 16) = saveMask s a := by
    rw [readN_areaPart (by norm_num) (by norm_num)]
    rfl
  unfold areaGroup
  rw [← hmask]
  rfl

theorem mem_areaGroup {g : Nat} {e : Nat × VWord} (h : e ∈ areaGroup s a g) : e.1 / 16 = g := by
  unfold areaGroup at h
  split at h
  · obtain ⟨f, hf, rfl⟩ := List.mem_map.1 h
    have hlt := lt_of_mem_readRegs hf
    dsimp only
    omega
  · exact absurd h List.not_mem_nil

/-- A vector register comes back where its group's bit is set in the area's mask, and reads zero elsewhere. -/
theorem get_v_fromArea (x : Nat) : SMap.get (th.fromArea (s.areaCells a 0x400000)).v x 0 =
    if (saveMask s a).getLsbD (x / 16) = true then bytesBv 2048 (s.phys (a + 0x20000 + 256 * x) 256) else 0 := by
  rw [v_fromArea, get_groups fun _ _ => mem_areaGroup]
  split
  · next hx =>
    unfold areaGroup
    split
    · have hreg : SMap.get ((readRegs 2048 256 256 16 (cellsAt (s.areaCells a 0x400000) (0x20000 + 0x1000 * (x / 16)) 0x1000)).map
          fun e => (16 * (x / 16) + e.1, e.2)) (16 * (x / 16) + x % 16) 0 = _ := get_map_add (16 * (x / 16))
      rw [Nat.div_add_mod, get_readRegs, if_pos (Nat.mod_lt x (by norm_num)), readN_areaPart (by omega) (by omega)] at hreg
      have haddr : a + (0x20000 + 0x1000 * (x / 16)) + 256 * (x % 16) = a + 0x20000 + 256 * x := by omega
      rw [hreg, haddr]
    · rfl
  · next hx => rw [if_neg (by simp [BitVec.getLsbD_of_ge _ _ (Nat.not_lt.1 hx)])]

/-- Of these a restore keeps the groups under MAB. -/
theorem get_v_masked (x : Nat) : SMap.get th.masked.v x 0 = if th.mab.getLsbD (x / 16) = true then SMap.get th.v x 0 else 0 :=
  get_filter_key fun k => th.mab.getLsbD (k / 16)

end
end Sys2Proof.Proofs
end

section
/-! Strands take cores (O49). -/
namespace Sys2Proof.Proofs
open Sys2Proof Sys2Proof.Machine Sys2Proof.Laws Sys2Proof.Stated

section
variable {s t : State} {n c i j a : Nat} {l : Launch} {v : Save} {th : Thread} {r : Strand} {restored : Bool}

/-! The record (07 R182 R184). -/

theorem strand_modStrand (i : Nat) (g : Strand → Strand) (l : Launch) : (l.modStrand i g).strand i = g (l.strand i) := get_set_same l.strands i _ {}

theorem strand_modStrand_other (g : Strand → Strand) (l : Launch) (h : j ≠ i) : (l.modStrand i g).strand j = l.strand j :=
  get_set_other l.strands _ {} {} h

/-- The record as a pick-up reads it: an unstarted strand begins at ENTRY with its index in s1. -/
def recordAt (l : Launch) (i : Nat) : Strand :=
  if (l.strand i).st == .unstarted then { l.strand i with pc := l.record.entry, c1 := BitVec.ofNat 64 i } else l.strand i

theorem recordAt_unstarted (h : (l.strand i).st = .unstarted) :
    recordAt l i = { l.strand i with pc := l.record.entry, c1 := BitVec.ofNat 64 i } := by rw [recordAt, h]; rfl

theorem recordAt_started (h : (l.strand i).st ≠ .unstarted) : recordAt l i = l.strand i := if_neg (by simpa using h)

/-- Record `r` of a strand that runs on core `c`. -/
def runningRecord (c : Nat) (l : Launch) (r : Strand) : Strand :=
  { r with
    st := .running, started := true, save := none, late := [], wkind := 0, evt := 0, arg := 0, wake := 0
    tie := if l.record.gang then some c else none }

/-- The launch with that record, which is not ready any more. -/
def launchPicked (c i : Nat) (l : Launch) (r : Strand) (l' : Launch) : Launch :=
  { (l'.modStrand i fun _ => runningRecord c l r) with ready := without l'.ready i }

/-- The core begins strand `i`, its registers set up: at the record's PC, or at that of the save area. -/
def strandOn (restored : Bool) (r : Strand) (i : Nat) (k : CoreSt) : CoreSt :=
  { k with
    strand := some i
    th := { k.th with
      pc := if restored then k.th.pc else r.pc, drain := .none, busy := [], arrived := true, stalled := false, trapped := false
      late := (r.late ++ k.ctx.heldLate).foldl insertLate k.th.late }
    ctx := { k.ctx with heldLate := [] }
    dcache := if r.wake == 1 then [] else k.dcache }

/-- The strand runs. -/
def pickedUp (restored : Bool) (s : State) (n c i : Nat) (l : Launch) (r : Strand) : State :=
  (s.modCore c (strandOn restored r i)).modLaunch n (launchPicked c i l r)

theorem core_pickedUp (restored : Bool) (s : State) (n c i : Nat) (l : Launch) (r : Strand) :
    (pickedUp restored s n c i l r).core c = strandOn restored r i (s.core c) := by
  rw [pickedUp, core_modLaunch, core_modCore]

theorem launchAt_pickedUp (hl : s.launchAt n = some l) : (pickedUp restored s n c i l r).launchAt n = some (launchPicked c i l r l) :=
  launchAt_modLaunch (s := s.modCore c (strandOn restored r i)) hl _

theorem saves_pickedUp : (pickedUp restored s n c i l r).saves = s.saves := modLaunch_saves ..

/-- Record `i` runs, and is not among the ready ones; the others stay. -/
structure Picked (i : Nat) (l l' : Launch) : Prop where
  running : (l'.strand i).st = .running
  started : (l'.strand i).started = true
  ready : i ∉ l'.ready
  other : ∀ j, j ≠ i → l'.strand j = l.strand j

theorem picked_launchPicked (c i : Nat) (l : Launch) (r : Strand) : Picked i l (launchPicked c i l r l) := by
  have hi : (launchPicked c i l r l).strand i = runningRecord c l r := strand_modStrand i (fun _ => runningRecord c l r) l
  exact ⟨by rw [hi]; rfl, by rw [hi]; rfl, not_mem_without l.ready i, fun j hj => strand_modStrand_other (fun _ => runningRecord c l r) l hj⟩

/-- Nothing else of it differs from the record. -/
theorem recordAt_frame (l : Launch) (i : Nat) : recordAt l i =
    { l.strand i with
      pc := if (l.strand i).st = .unstarted then l.record.entry else (l.strand i).pc
      c1 := if (l.strand i).st = .unstarted then BitVec.ofNat 64 i else (l.strand i).c1 } := by
  by_cases h : (l.strand i).st = .unstarted
  · rw [recordAt_unstarted h, if_pos h, if_pos h]
  · rw [recordAt_started h, if_neg h, if_neg h]

theorem save_recordAt (l : Launch) (i : Nat) : (recordAt l i).save = (l.strand i).save := by rw [recordAt_frame]

/-! The pick-up without a save area and with one (07 R184, 11 R327). -/

section
variable (hcs : SMap.get l.coreSaves c none = none)
include hcs

theorem take_fresh (hsave : (l.strand i).save = none) : s.take n c i l =
    pickedUp false (s.modCore c fun k => { k with th := k.th.pickup (recordAt l i) i (l.occ.setWidth 64) (l.dlen.setWidth 64) }) n c i l
      (recordAt l i) := by
  unfold State.take
  extract_lets r0 r saved s1 s2 s3 s4 s5
  have hr : r.save = none := (save_recordAt l i).trans hsave
  have hsaved : saved = none := by simp only [saved, hr, Option.bind_none]
  have h1 : s1 = s := by simp only [s1, hcs]
  have h2 : s2 = s.modCore c fun k => { k with th := k.th.pickup r i (l.occ.setWidth 64) (l.dlen.setWidth 64) } := by
    simp only [s2, hsaved, h1]
  have h3 : s3 = s2 := by simp only [s3, hr]
  have h4 : s4 = s3.modCore c (strandOn saved.isSome r i) := rfl
  rw [h4, h3, h2, hsaved]
  rfl

/-- The thread as save area `v` holds it. -/
def savedTh (s : State) (v : Save) : Thread := (v.th.getD {}).fromArea (s.areaCells v.area 0x400000)

/-- Thread `x` restored on a core: the cycle and bundle counts go on there, and the group mask is the record's. -/
def restoredTh (x : Thread) (r : Strand) (k : CoreSt) : Thread :=
  { x.masked with cycle := k.th.cycle, bundles := k.th.bundles, gmk := r.gsum.setWidth 64 }

/-- Core `c` with context and thread restored from save area `a`, which is free again. -/
def restoredOn (s : State) (n c a : Nat) (v : Save) (r : Strand) : State :=
  (((s.restoreCtx c v).modCore c fun k => { k with th := restoredTh (savedTh s v) r k }).moveFences n (600 + a) c).freeSave a

theorem take_saved (hsave : (l.strand i).save = some a) (hv : SMap.get s.saves a none = some v) : s.take n c i l =
    pickedUp true (restoredOn s n c a v (recordAt l i)) n c i l (recordAt l i) := by
  unfold State.take
  extract_lets r0 r saved s1 s2 s3 s4 s5
  have hr : r.save = some a := (save_recordAt l i).trans hsave
  have hsaved : saved = some v := by simp only [saved, hr, Option.bind_some, hv]
  have h1 : s1 = s := by simp only [s1, hcs]
  have h2 : s2 = (s.restoreCtx c v).modCore c fun k => { k with th := restoredTh (savedTh s v) r k } := by
    simp only [s2, hsaved, h1]
    rfl
  have h3 : s3 = (s2.moveFences n (600 + a) c).freeSave a := by simp only [s3, hr]
  have h4 : s4 = s3.modCore c (strandOn saved.isSome r i) := rfl
  rw [h4, h3, h2, hsaved]
  rfl

end

/-! Registers that a pick-up sets, and those it leaves (07 R184, 13 R394). -/

/-- s1 to s4 carry over, s62 is the index and s63 zero; the others stay. -/
theorem s_pickup (th : Thread) (r : Strand) (i j : Nat) (o d : Word) : SMap.get (th.pickup r i o d).s j 0 =
    if j = 63 then 0 else if j = 62 then BitVec.ofNat 64 i else if j = 4 then r.c4 else if j = 3 then r.c3
    else if j = 2 then r.c2 else if j = 1 then r.c1 else SMap.get th.s j 0 := by
  have hset (m : SMap Word) (k : Nat) (w : Word) : SMap.get (SMap.set m k w 0) j 0 = if j = k then w else SMap.get m j 0 := by
    split
    · next h => rw [h, get_set_same]
    · next h => exact get_set_other m w 0 0 h
  simp only [Thread.pickup, hset]

theorem rS_pickup (th : Thread) (r : Strand) (i : Nat) (o d : Word) {j : Nat} (h : 5 ≤ j) (hj : j < 62) :
    (th.pickup r i o d).rS j = th.rS j := by
  rw [Thread.rS, Thread.rS, s_pickup]
  repeat rw [if_neg (by omega)]

/-- What a pick-up without a save area makes of a core's registers. -/
structure BegunFresh (l : Launch) (i : Nat) (th th' : Thread) : Prop where
  pc : th'.pc = if (l.strand i).st = .unstarted then l.record.entry else (l.strand i).pc
  s1 : th'.rS 1 = if (l.strand i).st = .unstarted then BitVec.ofNat 64 i else (l.strand i).c1
  s2 : th'.rS 2 = (l.strand i).c2
  s3 : th'.rS 3 = (l.strand i).c3
  s4 : th'.rS 4 = (l.strand i).c4
  s62 : th'.rS 62 = BitVec.ofNat 64 i
  others : ∀ j, 5 ≤ j → j < 62 → th'.rS j = th.rS j
  v : th'.v = th.v
  fcr : th'.fcr = 0
  gmk : th'.gmk = (l.strand i).gsum.setWidth 64
  cycle : th'.cycle = th.cycle

theorem begunFresh_strandOn (l : Launch) (i : Nat) (o d : Word) (k : CoreSt) :
    BegunFresh l i k.th (strandOn false (recordAt l i) i { k with th := k.th.pickup (recordAt l i) i o d }).th := by
  have hpc : (recordAt l i).pc = if (l.strand i).st = .unstarted then l.record.entry else (l.strand i).pc := by rw [recordAt_frame]
  have hc1 : (recordAt l i).c1 = if (l.strand i).st = .unstarted then BitVec.ofNat 64 i else (l.strand i).c1 := by rw [recordAt_frame]
  have hc2 : (recordAt l i).c2 = (l.strand i).c2 := by rw [recordAt_frame]
  have hc3 : (recordAt l i).c3 = (l.strand i).c3 := by rw [recordAt_frame]
  have hc4 : (recordAt l i).c4 = (l.strand i).c4 := by rw [recordAt_frame]
  have hgsum : (recordAt l i).gsum = (l.strand i).gsum := by rw [recordAt_frame]
  exact ⟨hpc, (s_pickup k.th (recordAt l i) i 1 o d).trans hc1, (s_pickup k.th (recordAt l i) i 2 o d).trans hc2,
    (s_pickup k.th (recordAt l i) i 3 o d).trans hc3, (s_pickup k.th (recordAt l i) i 4 o d).trans hc4, s_pickup k.th (recordAt l i) i 62 o d,
    fun j => rS_pickup k.th (recordAt l i) i o d, rfl, rfl, congrArg (BitVec.setWidth 64) hgsum, rfl⟩

/-! The context comes back with the thread (11 R327). -/

theorem restoreCtx_circ (c : Nat) (v : Save) : (s.restoreCtx c v).circ = s.circ := by
  unfold State.restoreCtx
  extract_lets m t
  have ht : t.circ = s.circ := by
    unfold t
    split
    · rfl
    · rfl
  exact ht

theorem launchAt_freeSave (i : Nat) : (s.freeSave i).launchAt n = s.launchAt n := rfl

theorem core_freeSave (i : Nat) : (s.freeSave i).core c = s.core c := rfl

theorem saves_freeSave (i : Nat) : SMap.get (s.freeSave i).saves i none = none := get_set_same s.saves i none none

theorem launchAt_moveFences (m a b : Nat) : (s.moveFences m a b).launchAt n = s.launchAt n := rfl

theorem core_moveFences (m a b : Nat) : (s.moveFences m a b).core c = s.core c := rfl

theorem launchAt_restoredOn (n c a : Nat) (v : Save) (r : Strand) : (restoredOn s n c a v r).launchAt n = s.launchAt n := by
  rw [restoredOn, launchAt_freeSave, launchAt_moveFences, State.launchAt, modCore_circ, restoreCtx_circ, State.launchAt]

theorem th_restoredOn (n c a : Nat) (v : Save) (r : Strand) :
    ((restoredOn s n c a v r).core c).th = restoredTh (savedTh s v) r ((s.restoreCtx c v).core c) := by
  rw [restoredOn, core_freeSave, core_moveFences, core_modCore]

/-- Thread `th` has the registers of thread `x`, of the vector registers those under MAB. -/
structure Resumes (x th : Thread) : Prop where
  pc : th.pc = x.pc
  s : th.s = x.s
  q : th.q = x.q
  mab : th.mab = x.mab
  fcr : th.fcr = x.fcr
  v : th.v = x.masked.v

theorem resumes_strandOn {x : Thread} {k k' : CoreSt} (hk : k.th = restoredTh x r k') : Resumes x (strandOn true r i k).th := by
  have hs : Resumes x k.th := by
    rw [hk]
    exact ⟨rfl, rfl, rfl, rfl, rfl, rfl⟩
  exact ⟨hs.pc, hs.s, hs.q, hs.mab, hs.fcr, hs.v⟩

theorem Resumes.rS {x : Thread} (h : Resumes x th) (j : Nat) : th.rS j = x.rS j := by rw [Thread.rS, h.s, Thread.rS]

theorem Resumes.rQ {x : Thread} (h : Resumes x th) (j : Nat) : th.rQ j = x.rQ j := by rw [Thread.rQ, h.q, Thread.rQ]

/-- A vector register comes back under the area's mask and MAB. -/
theorem Resumes.get_v (h : Resumes (savedTh s v) th) (x : Nat) : SMap.get th.v x 0 =
    if th.mab.getLsbD (x / 16) = true then
      if (saveMask s v.area).getLsbD (x / 16) = true then bytesBv 2048 (s.phys (v.area + 0x20000 + 256 * x) 256) else 0 else 0 := by
  rw [h.v, h.mab, get_v_masked, savedTh, get_v_fromArea]

theorem Resumes.vector (h : Resumes (savedTh s v) th) {x : Nat} (hs : (saveMask s v.area).getLsbD (x / 16) = true)
    (hm : th.mab.getLsbD (x / 16) = true) : (SMap.get th.v x 0).toNat = s.physLe (v.area + 0x20000 + 256 * x) 256 := by
  rw [h.get_v, if_pos hm, if_pos hs, State.phys, toNat_bytesBv_readN (by norm_num), State.physLe, State.phys]

theorem Resumes.vector_zero (h : Resumes (savedTh s v) th) {x : Nat}
    (hx : (saveMask s v.area).getLsbD (x / 16) = false ∨ th.mab.getLsbD (x / 16) = false) : SMap.get th.v x 0 = 0 := by
  rw [h.get_v]
  obtain hs | hm := hx
  · rw [hs, if_neg Bool.false_ne_true, ite_self]
  · rw [hm, if_neg Bool.false_ne_true]

/-! STRAND_PICKUP (06 R170, 07 R184, 09 R260). -/

section
variable (hk : (s.core s.ev.a).launch = some n) (hl : s.launchAt n = some l) (ht : s.mayTake n s.ev.a l = true)
  (hn : l.nextRecord s.ev.a = some i)
include hk hl ht hn

theorem exec_strandPickup_waits (hr : s.mayResume n s.ev.a i l = false) : exec .strandPickup s = .next s := by
  change execStrandPickup s = _
  simp only [execStrandPickup, hk, hl, ht, hn, hr, Bool.not_false, if_true]

theorem exec_strandPickup_takes (hr : s.mayResume n s.ev.a i l = true) (hp : s.savePoisoned (l.strand i).save = false)
    (hcs : SMap.get l.coreSaves s.ev.a none = none) : exec .strandPickup s = .next (s.take n s.ev.a i l) := by
  have hsound : s.savePoisoned none = false := rfl
  change execStrandPickup s = _
  simp only [execStrandPickup, hk, hl, ht, hn, hr, hp, hcs, hsound, Bool.not_true, Bool.or_self, Bool.false_eq_true, if_false, if_true]

end

/-! TIME_WAKE (07 R185). -/

theorem strand_makeReady (i : Nat) (l : Launch) : ((l.makeReady i).strand i).st = .ready :=
  congrArg Strand.st (strand_modStrand i
    (fun r => { r with st := .ready, wake := if r.wkind == 1 then 1 else r.wake, wkind := 0, evt := 0, arg := 0 }) l)

theorem strand_makeReady_other (l : Launch) (h : j ≠ i) : (l.makeReady i).strand j = l.strand j :=
  strand_modStrand_other (fun r => { r with st := .ready, wake := if r.wkind == 1 then 1 else r.wake, wkind := 0, evt := 0, arg := 0 }) l h

theorem last_makeReady (i : Nat) (l : Launch) : (l.makeReady i).ready.getLast? = some i := List.getLast?_concat

theorem exec_timeWake (hl : s.launchAt s.ev.a = some l) (hst : (l.strand s.ev.b).st = .waiting) (hw : (l.strand s.ev.b).wkind = 2)
    (hm : timeMet s.time.toNat (l.strand s.ev.b).arg = true) :
    exec .timeWake s = .next (s.setLaunch s.ev.a (some (l.makeReady s.ev.b))) := by
  change execTimeWake s = _
  simp only [execTimeWake, modLaunch_some hl, hst, hw, hm, beq_self_eq_true, Bool.and_self, if_true]

end

/-- The strands' half of O49. -/
theorem strandsTakeCores : StrandsTakeCores := by
  intro s n i l c k r
  refine ⟨fun hk hl ht hn hcs _ => ⟨exec_strandPickup_waits hk hl ht hn, fun hsave hr => ?_, fun a v th hsave hv hth hp hst hr => ?_⟩,
    fun hl hst hw hm => ?_⟩
  · have hexec := (exec_strandPickup_takes hk hl ht hn hr (by rw [hsave]; rfl) hcs).trans (congrArg _ (take_fresh hcs hsave))
    have hpick := picked_launchPicked c i l (recordAt l i)
    refine ⟨_, _, hexec, launchAt_pickedUp hl, ?_⟩
    rw [core_pickedUp, core_modCore]
    have hb := begunFresh_strandOn l i (l.occ.setWidth 64) (l.dlen.setWidth 64) k
    exact ⟨rfl, hpick.running, hpick.started, hpick.ready, hpick.other, hb.pc, hb.s1, hb.s2, hb.s3, hb.s4, hb.s62, hb.others, hb.v, hb.fcr,
      hb.gmk, hb.cycle⟩
  · intro word mask mab
    have hexec := (exec_strandPickup_takes hk hl ht hn hr (by rw [hsave]; exact hp) hcs).trans (congrArg _ (take_saved hcs hsave hv))
    have hpick := picked_launchPicked c i l (recordAt l i)
    have hsaves : SMap.get (pickedUp true (restoredOn s n c a v (recordAt l i)) n c i l (recordAt l i)).saves a none = none :=
      (congrArg (SMap.get · a none) saves_pickedUp).trans (saves_freeSave a)
    have hres := resumes_strandOn (i := i) (r := recordAt l i) (th_restoredOn (s := s) n c a v (recordAt l i))
    refine ⟨_, _, hexec, launchAt_pickedUp ((launchAt_restoredOn ..).trans hl), ?_⟩
    rw [core_pickedUp]
    have hstrand : (strandOn true (recordAt l i) i ((restoredOn s n c a v (recordAt l i)).core c)).strand = some i := rfl
    have hdrain : (strandOn true (recordAt l i) i ((restoredOn s n c a v (recordAt l i)).core c)).th.drain = .none := rfl
    generalize strandOn true (recordAt l i) i ((restoredOn s n c a v (recordAt l i)).core c) = k' at hres hstrand hdrain ⊢
    have hmab : k'.th.mab = mab := hres.mab.trans mab_fromArea
    exact ⟨hstrand, hpick.running, by rw [hres.pc, savedTh, pc_fromArea], fun j h1 hj => by rw [hres.rS, savedTh, rS_fromArea h1 hj],
      fun j h1 hj => by rw [hres.rQ, savedTh, rQ_fromArea h1 hj], hmab,
      by rw [hres.fcr, savedTh, fcr_fromArea], hdrain, fun x _ hs hm => hres.vector (x := x) hs (hmab ▸ hm),
      fun x hx => hres.vector_zero (x := x) (hmab ▸ hx), hsaves⟩
  · exact ⟨_, _, exec_timeWake hl hst hw hm, launchAt_setLaunch .., strand_makeReady .., last_makeReady .., fun j => strand_makeReady_other l⟩

/-- Settles O49: the loader by the fill that comes next, a pick-up by what its record or its save area holds, a wait for a time by its end. -/
theorem loaderAndStrands : Obligations.LoaderAndStrands := ⟨loaderFillsPlanes, strandsTakeCores⟩

end Sys2Proof.Proofs
end
